-- ==== Sys2Proof/Word.lean ====
section
/-! DEFINITION. The words of the hub and their plainest arithmetic: bytes, 32-bit register words, 64-bit counters, the
named bit fields of the register tables, and keyed lists (plain data in place of functions). -/

namespace Sys2Proof

abbrev Byte := BitVec 8
abbrev Word := BitVec 32
abbrev Word64 := BitVec 64

/-- A field of a register, most significant bit first, as the field maps of the spec write it. -/
structure BitField where
  hi : Nat
  lo : Nat
  deriving DecidableEq, Repr

/-- A keyed list: at most one entry for a key, keys strictly rising. -/
abbrev KMap (α : Type) := List (Nat × α)

end Sys2Proof
end

