-- ==== Sys2Proof/Syntax.lean ====
section
/-! DEFINITION. The commands of the hub.  The spec's table gives a row no operands; what a command brings with it is what
the rule of its row says arrives: a register address and value, a descriptor, a stamp, the words of the modulators, a
partner's message.  Times are corrected time unless a stamp is named. -/

namespace Sys2Proof

/-- The two front-end dies. -/
inductive Die where
  | a | b
  deriving DecidableEq, Repr

/-- The window a host write goes through: the setup space (BAR0, or a member's BAR4 slot) or the vault mailbox (BAR2). -/
inductive Bar where
  | setup | mailbox
  deriving DecidableEq, Repr

/-- A TDC stamp: the counter and its 16-bit fraction of a count (R170). -/
structure Stamp where
  count : Word64
  frac : BitVec 16
  deriving DecidableEq, Repr

/-- A time in the format of R171: 48-bit seconds, nanoseconds and a 16-bit fraction of a nanosecond. -/
structure PtpTime where
  sec : BitVec 48
  ns : Word
  frac : BitVec 16
  deriving DecidableEq, Repr

/-- The modulator words of one input over the interval that the tick closes (R91). -/
structure InWords where
  input : BitVec 8
  words : List (BitVec 4)
  /-- A pin of the input was beyond the rails of its die (R84). -/
  beyondRail : Bool
  deriving DecidableEq, Repr

/-- An error met while the field memory is read (R201): a single-bit one, which is corrected, or an uncorrectable one; the row
it falls into, and its byte address. -/
structure EccHit where
  fixed : Bool
  row : Nat
  addr : BitVec 25
  deriving DecidableEq, Repr

/-- Where the seal or deliver step of a window meets an error of the field memory: the oldest block of a furrow, or the
frame's segment of a unit (R201). -/
inductive EccPlace where
  | furrow (f : Byte)
  | unit (u : BitVec 3)
  deriving DecidableEq, Repr

structure WindowEcc where
  place : EccPlace
  hit : EccHit
  /-- The earlier frame whose seal and deliver steps this window runs, and they meet the error; none in the window's own steps. -/
  late : Option Word64
  deriving DecidableEq, Repr

/-- What a tick finds: the interval's words, and the cycles the six steps of its window take (R34, R39). -/
structure TickIn where
  words : List InWords
  /-- Cycles of tick entry, acquire, reduce, control, seal and deliver. -/
  cycles : List Nat
  /-- The vector groups whose reduce has completed when a cut comes (R41). -/
  reduced : Word
  /-- The control engine of a hub of a twin pair fails its fixed test vectors (R408). -/
  vectorsFail : Bool
  /-- Errors of the field memory that the seal and deliver steps meet (R201). -/
  ecc : List WindowEcc
  deriving DecidableEq, Repr

/-- What the filters of *PTP support* judge of a message (R179): its domain, its transport and the port it comes from. -/
structure PtpHdr where
  domain : Byte
  udp : Bool
  source : BitVec 80
  deriving DecidableEq, Repr

/-- The time that a Delay_Resp brings, with the message's header. -/
structure PtpResp where
  hdr : PtpHdr
  t4 : PtpTime
  deriving DecidableEq, Repr

/-- A Sync with its Follow_Up (R180): receive stamp, origin timestamp, correction in 2^-16 ns, log2 of its interval. -/
structure PtpSyncIn where
  hdr : PtpHdr
  rx : Stamp
  origin : PtpTime
  corr : Word64
  logInt : BitVec 8
  deriving DecidableEq, Repr

/-- The data set of an Announce message (R181, TB_PTPSTAT). -/
structure Announce where
  hdr : PtpHdr
  identity : Word64
  priority1 : Byte
  clockClass : Byte
  accuracy : Byte
  variance : BitVec 16
  priority2 : Byte
  steps : Byte
  utcOffset : BitVec 16
  traceable : Bool
  ptpTimescale : Bool
  deriving DecidableEq, Repr

/-- What a receiver finds of a cell whose bytes are not given: its stuffing and CRC are good (R301, R304); its GMAC tag verifies
under the installed key (R309). -/
structure CellCheck where
  line : Bool
  tag : Bool
  deriving DecidableEq, Repr

/-- The payload of a time cell (cell type 0x2), and what the receiver finds of the cell. -/
structure TimeCellIn where
  prevTx : PtpTime
  lastRx : PtpTime
  stepTick : Word64
  stepDelta : Word64
  stepFlag : Bool
  holdover : Bool
  chk : CellCheck
  deriving DecidableEq, Repr

/-- One entry of a shared-values cell (cell type 0xC). -/
structure SharedIn where
  id : Byte
  valid : Bool
  value : Word64
  deriving DecidableEq, Repr

/-- The bytes of a descriptor after its op: flags, param and the seven words from 0x04 (R278). -/
structure Desc where
  flags : Byte
  param : BitVec 16
  w1 : Word
  w2 : Word
  w3 : Word
  w4 : Word
  w5 : Word
  w6 : Word
  w7 : Word
  deriving DecidableEq, Repr

/-- The eye figures of a receive lane at its training (R167): width in UI/64, height in 1/64 of the sampler range. -/
structure EyeFig where
  width : Byte
  height : Byte
  deriving DecidableEq, Repr

/-- The speed that a PCI Express link trained to (1 to 3: 2.5, 5.0, 8.0 GT/s), and the eye of each of its lanes, lane 0 first. -/
structure PcieTrained where
  speed : BitVec 4
  eyes : List EyeFig
  deriving DecidableEq, Repr

/-- The state of the PCI Express function (R264, R265): D0 with Bus Master Enable set, and Max_Payload_Size as the code of its
128, 256 or 512 bytes. -/
structure FunctionState where
  d0 : Bool
  payload : BitVec 2
  deriving DecidableEq, Repr

/-- What a read of host memory brings (R327): its data, or the PCI Express completion status of its failure. -/
inductive ReadResult where
  | data (bytes : List Byte)
  | failed (status : BitVec 3)
  deriving DecidableEq, Repr

/-- The outcome of a port training (R311): for each lane its eye, then the residual skew, and the rate reached. -/
structure TrainIn where
  width0 : Byte
  height0 : Byte
  width1 : Byte
  height1 : Byte
  lanesOk : BitVec 2
  skew : Byte
  /-- 1 for 3.125 Gb/s, 2 for 6.25 Gb/s. -/
  rate : BitVec 2
  deriving DecidableEq, Repr

/-- A link control cell (cell type 0x1). -/
structure LinkCtlIn where
  ack : BitVec 12
  nak : Bool
  hold : Bool
  release : Bool
  loopback : Bool
  lanes : BitVec 2
  serial : Word64
  strap : BitVec 6
  headSel : Bool
  auth : Bool
  /-- The partner's hub address, as the header's src carries it. -/
  src : BitVec 6
  deriving DecidableEq, Repr

/-- What a hub appends to a census (R318). -/
structure CensusEntry where
  serial : Word64
  strap : BitVec 6
  headSel : Bool
  addr : BitVec 6
  deriving DecidableEq, Repr

/-- One hub of an address map (R318, R319). -/
structure MapEntry where
  serial : Word64
  addr : BitVec 6
  position : BitVec 6
  assigned : Bool
  deriving DecidableEq, Repr

/-- The ring parameters cell (R318, R475). -/
structure RingParams where
  m : BitVec 14
  epoch : BitVec 48
  tickS : Word64
  latency : Byte
  auth : Bool
  /-- The head has started: the parameters name its tick s. -/
  started : Bool
  /-- The link that is missing in a broken ring: the positions of its ends, upstream end first. -/
  cut : Option (BitVec 6 × BitVec 6)
  deriving DecidableEq, Repr

/-- One loop of a twin frame (R406). -/
structure TwinLoop where
  loop : BitVec 5
  u : Word64
  started : Bool
  holding : Bool
  failed : Bool
  deriving DecidableEq, Repr

/-- One compared input of a twin frame (R406). -/
structure TwinInput where
  input : BitVec 8
  value : Word
  status : Byte
  deriving DecidableEq, Repr

/-- A twin frame (R406). -/
structure TwinFrameIn where
  frame : Word64
  loops : List TwinLoop
  inputs : List TwinInput
  cause : Word
  /-- The word of a hub that leaves Run, in place of a frame (log 89). -/
  leaving : Bool
  deriving DecidableEq, Repr

/-- The states of a loop as the snapshot carries them (R416). -/
structure SnapLoop where
  loop : BitVec 5
  integ : Word64
  dfilt : Word64
  pvPrev : Word64
  out : Word64
  setpoint : Option Word64
  started : Bool
  sections : List (Word64 × Word64)
  deriving DecidableEq, Repr

/-- A queued setpoint as relay and snapshot carry it (R413, R416). -/
structure SnapSetpoint where
  furrow : Byte
  seq : Word
  loop : BitVec 5
  frame : Word64
  value : Word64
  deriving DecidableEq, Repr

/-- A SETPOINT furrow of the active as the snapshot carries it (R416). -/
structure SnapFurrow where
  index : Byte
  handle : Word
  desc : Word64
  cpl : Word64
  lsize : Byte
  vector : Byte
  lastSeq : Word
  deriving DecidableEq, Repr

/-- A record of a completion ring as it is read: its sequence number and its phase bit (R281, R414). -/
structure RingRec where
  seq : Word
  phase : Bool
  deriving DecidableEq, Repr

/-- A furrow of the retired hub, and the records of its completion ring slot by slot (R414). -/
structure RingRead where
  index : Byte
  handle : Word
  desc : Word64
  cpl : Word64
  lsize : Byte
  vector : Byte
  records : List RingRec
  deriving DecidableEq, Repr

/-- What a proof test finds (R404): the targets of the comparators that tripped, the levels of OEN and of SAFE_N as read back during
their pulses, and the outputs that failed their readback. -/
structure ProofTestResult where
  tripped : List Byte
  oen : BitVec 4
  safeN : Bool
  outputs : BitVec 24
  deriving DecidableEq, Repr

/-- A die temperature sensor: its gleaner target and its temperature in m°C (R402). -/
structure SensorRead where
  target : Byte
  milliC : Word
  deriving DecidableEq, Repr

/-- What a lamp output shows (R421): its current in µA and the voltage of its pin in mV. -/
structure LampRead where
  ua : BitVec 20
  mv : BitVec 20
  deriving DecidableEq, Repr

/-- A SAMPLE furrow of a lost partner (R415): its set-up, its blocks and inputs, and the last frame its completion ring holds. -/
structure SampleTake where
  furrow : RingRead
  frames : BitVec 5
  mask : BitVec 256
  lastFrame : Word64
  deriving DecidableEq, Repr

/-- The snapshot of a rejoin (R416). -/
structure SnapshotIn where
  loops : List SnapLoop
  queue : List SnapSetpoint
  furrows : List SnapFurrow
  doorbell : Word64
  epoch : Word
  config : List Byte
  start : Word64
  /-- The active is in safe state, its loops frozen (log 89). -/
  safe : Bool
  deriving DecidableEq, Repr

/-- The data of a setup request or response: a word, or with it the bytes of a mailbox request or response that the head forwards
(R368, log 25). -/
structure SetupData where
  val : Word
  mail : Option (List Byte)
  deriving DecidableEq, Repr

/-- A confirm of a key agreement, and what the known-answer test of the lane engine gives once the keys are installed: the code of the
failed test, 0 for none (R383, R385). -/
structure ConfirmIn where
  msg : List Byte
  engine : Byte
  deriving DecidableEq, Repr

/-- The causes that a tamper sample finds, and the seconds in Fallow that no command before has counted (R387, R388). -/
structure TamperIn where
  bits : BitVec 4
  seconds : Word
  deriving DecidableEq, Repr

/-- Straps and bank classes as power good senses them (R459, GLB_STRAP). -/
structure Straps where
  headSel : Bool
  twinPri : Bool
  hubAddr : BitVec 6
  io33 : BitVec 4
  deriving DecidableEq, Repr

/-- A Fallow exit: the straps, and the seconds in Fallow that no command before has counted (R388). -/
structure FallowStart where
  straps : Straps
  seconds : Word
  deriving DecidableEq, Repr

/-- The delivery figures of one other hub of the ring, for the head's checks (R27, R28, R258): its position, the cells and the
bytes it delivers in 720,720 frames (every block length divides that number), the loops that publish with their identifiers,
and the identifiers its loops consume. -/
structure MemberLoad where
  position : BitVec 6
  cells : Nat
  bytes : Nat
  publishes : List (BitVec 5 × Byte)
  consumes : List Byte
  deriving DecidableEq, Repr

/-- What the consistency check knows of the rest of the ring and of the twin partner (R22, R27, R28, R258, R405). -/
structure RingView where
  members : List MemberLoad
  twoHeads : Bool
  sameStrap : Option (BitVec 6)
  over48 : Bool
  /-- Cells per second that the head's ports U and D can carry, for a member that joins a head in Run (R27, R321). -/
  headPorts : List Nat
  /-- Twin partner: in the same ring, level of its TWIN_PRI, its configuration hash and its calibration epoch. -/
  partnerInRing : Bool
  partnerPri : Bool
  partnerConfig : List Byte
  partnerEpoch : Word
  deriving DecidableEq, Repr

/-- What a receive lane brings of a cell (R299 to R301).  The receiver stands as the line has left it: `past` are the 58 bits before,
without the stuffed ones, the newest in bit 0; `level` and `run` are the last line bit and how often it has come in a row; then the
line bits of the cell, counted from where the lane's deskew taps put its start. -/
structure LaneRx where
  past : BitVec 58
  level : Bool
  run : Nat
  bits : List Bool
  deriving DecidableEq, Repr

/-- A cell as the lanes in service bring it, lane 0 first; the twin lane is a lane 0. -/
structure CellRx where
  lane0 : LaneRx
  lane1 : LaneRx
  deriving DecidableEq, Repr

/-- A port, and the CRC verdicts on successive cells at one position of the line, newest last (R302). -/
structure Delineation where
  port : BitVec 2
  good : List Bool
  /-- The receiver is that of the far end, whose loss both ends answer with fresh keys (R309). -/
  far : Bool
  deriving DecidableEq, Repr

/-- A route marker: its source, and the positions at the ends of the healed link, upstream end first (R304, R324). -/
structure RouteMark where
  src : BitVec 6
  up : BitVec 6
  down : BitVec 6
  deriving DecidableEq, Repr

/-- The voltages of an analog output's pin and of its reference ball, in µV (R254, R259). -/
structure PinVolts where
  uv : Int
  vref : Nat
  deriving DecidableEq, Repr

/-- The data of a host write: one word, or in a 64-bit write the lower and the upper one (R6). -/
structure WriteData where
  val : Word
  upper : Option Word
  deriving DecidableEq, Repr

/-- A host read: its offset, and whether it takes 64 bits (R6). -/
structure ReadAcc where
  off : BitVec 20
  both : Bool
  deriving DecidableEq, Repr

/-- A side-port transfer: the bytes of tx whose bits went out, and for each clock in which bits came in their levels: SP_D1 at full
duplex, else SP_D(w−1) first and SP_D0 last (R445). -/
structure XferBytes where
  tx : List Byte
  rx : List (List Bool)
  deriving DecidableEq, Repr

/-- The commands of the hub: one constructor for each row of the spec's table, with what the sender brings. -/
inductive Instr where
  /-- REGISTER_WRITE (R1): A host write to a register that has no row of its own takes effect according to the access type of each field, including the RWL, RWP and W1C handling. -/
  | registerWrite (bar : Bar) (off : BitVec 20) (val : WriteData)
  /-- MALFORMED_ACCESS (R6): A BAR0 access of the wrong width or alignment is discarded or reads 0, and sets GLB_STAT.acc_err. -/
  | malformedAccess (write : Bool) (off : BitVec 20) (width : Nat)
  /-- LOW_WORD_READ_LATCH (R8): A read of the lowest word of a multi-word value latches its upper words into the shadow copy. -/
  | lowWordReadLatch (acc : ReadAcc)
  /-- UPPER_WORD_WRITE_STAGE (R9): A write to an upper word of a multi-word value is staged until the lowest word is written. -/
  | upperWordWriteStage (off : BitVec 20) (val : Word)
  /-- LOW_WORD_WRITE_COMMIT (R9): A write of the lowest word commits the whole multi-word value in one step and releases the staging copies. -/
  | lowWordWriteCommit (off : BitVec 20) (val : WriteData)
  /-- DIE_LINK_CHECK (R14): Once per base slot the hub die checks each front-end die link; a failure marks that die's inputs FLT and raises FE_DIE_A_FAULT or FE_DIE_B_FAULT. -/
  | dieLinkCheck (die : Die) (pass : Bool)
  /-- TICK (R34): A tick closes a measurement interval and opens a processing window that runs the tick entry, acquire, reduce, control, seal and deliver steps. -/
  | tick (inp : TickIn)
  /-- ACQUISITION_START (R33): The first tick at least 10 ms after the check passes, and not before the epoch, starts acquisition, ticks and settle counts. -/
  | acquisitionStart
  /-- SETTLE_COUNT_EXPIRE (R130): The N-frame settle count of an input runs out, and its values carry VAL again if nothing else marks them. -/
  | settleCountExpire (n : BitVec 8)
  /-- SEAL_SIGNED (R377): The vault completes the signature of a Ferinel record and posts it on the SEAL furrow in seal order. -/
  | sealSigned
  /-- FR_CLR_OVR (R49): Writing FR_CTL.clr_ovr clears FR_OVRCNT and FR_LASTOVR. -/
  | frClrOvr
  /-- FR_CLR_PEAK (R49): Writing FR_CTL.clr_peak clears FR_PEAK. -/
  | frClrPeak
  /-- DOORBELL_POLL (R48): At each base-slot boundary the hub reads the doorbell generation counter, unless a poll is still outstanding. -/
  | doorbellPoll
  /-- DOORBELL_COUNTER_READ_DONE (R48): The counter read returns; a changed counter starts a read of the producer indices, and a failed read raises DMA_ERROR. -/
  | doorbellCounterReadDone (partner : Bool) (count : Option Word64)
  /-- PRODUCER_INDEX_READ_DONE (R276): The producer indices arrive; valid moves post new items, and malformed ones raise DOORBELL_MALFORMED. -/
  | producerIndexReadDone (partner : Bool) (indices : Option (List Word))
  /-- IN_CONFIG_WRITE (R88): A run-time write to an input's IN_CFG, IN_EXC, IN_REV, IN_FILT or IN_LEAD is checked, then discarded or scheduled for the next tick. -/
  | inConfigWrite (n : BitVec 8) (reg : BitVec 3) (val : Word)
  /-- FE_CTL_WRITE (R85): A write to FE_CTL disables or re-enables a front-end die under the budget checks. -/
  | feCtlWrite (val : Word)
  /-- BLANK_ASSERT (R69): A BLANK pin reaching its active level starts blanking of its group two clocks later. -/
  | blankAssert (b : BitVec 2) (word : Nat)
  /-- BLANK_RELEASE (R69): A BLANK pin's release starts the extension of ext clocks. -/
  | blankRelease (b : BitVec 2) (word : Nat)
  /-- BLANK_EXTENSION_EXPIRE (R69): The blanking extension after release runs out and blanking of the group ends. -/
  | blankExtensionExpire (b : BitVec 2)
  /-- BLANK_LONG (R71): A group blanked for more than FE_BLANKLONG.long frames raises BLANK_LONG once per interval. -/
  | blankLong (b : BitVec 2)
  /-- LEAD_STALE (R66): A lead group's age passes max_age, which sets stale and marks its weighted inputs LEAD. -/
  | leadStale (g : BitVec 5)
  /-- EXC_COMPLIANCE (R76): An excitation driver reports compliance; the frame carries OPN, and EXC_COMPLIANCE is raised once per episode. -/
  | excCompliance (n : BitVec 8)
  /-- HEADLAND_WINDOW (R73): The per-frame diagnostic window of a pulled headland input opens, applies the pull current and latches the comparator result at its close. -/
  | headlandWindow (n : BitVec 8) (peak : Nat)
  /-- OPEN_WIRE (R79): The floor-test count or two consecutive window trips declare an open wire and raise OPEN_WIRE. -/
  | openWire (n : BitVec 8)
  /-- MOD_OVERLOAD (R93): A modulator detects overload, resets its integrators, flags overload words and raises MOD_OVERLOAD at the start of each episode. -/
  | modOverload (n : BitVec 8) (word : Nat) (resetAfter : BitVec 2) (upper : Bool)
  /-- MOD_PLL_LOCK_LOSS (R96): The modulator-clock PLL loses lock; every input carries FLT, and both die fault events are raised. -/
  | modPllLockLoss
  /-- MOD_PLL_LOCK (R195): The modulator-clock PLL holds its phase error within ±200 ps for 64 base slots and is locked again. -/
  | modPllLock
  /-- RETRIM (R98): Writing CV_CTL.retrim in Idle clears the trim-done bits and retrims both dies. -/
  | retrim
  /-- TRIM_COMPLETE (R97): The threshold trim of a die completes; trim_done is set, and TRIM_QUALITY_LOW is raised for any modulator below its limit. -/
  | trimComplete (die : Die) (figures : List (BitVec 16))
  /-- CLR_OVL (R100): Writing CV_STAT.clr_ovl clears CV_OVLCNT. -/
  | clrOvl
  /-- GLEANER_SCHEDULE_START (R108): A valid schedule entry's start time arrives, and the gleaner starts, or skips, a conversion of its target. -/
  | gleanerScheduleStart (i : BitVec 5)
  /-- GL_EDGE_TRIGGER (R110): The watched edge of a PWM output starts the delay timer of an enabled GL_EDGE entry, or is dropped if the timer already runs. -/
  | glEdgeTrigger (j : BitVec 2) (t : Int)
  /-- GL_EDGE_TIMER_EXPIRE (R112): An edge timer expires, and its conversion request starts or is dropped under the start rules. -/
  | glEdgeTimerExpire (j : BitVec 2)
  /-- GL_EDGE_WRITE (R110): A write to GL_EDGE[j] cancels its running timer without a drop. -/
  | glEdgeWrite (j : BitVec 2) (val : Word)
  /-- GL_REQ (R111): Writing GL_REQ.go requests one host conversion, due at the next base-slot boundary. -/
  | glReq (val : Word)
  /-- GL_REQ_DUE (R112): A host request falls due and starts, is skipped, or is dropped. -/
  | glReqDue
  /-- GLEANER_CONVERSION_DONE (R113): A conversion completes after 240 µs; its result is stored and limit-checked, and lead loops are judged at the frame's acquire step. -/
  | gleanerConversionDone (raw : BitVec 32) (sat : Bool)
  /-- GL_CLR_DROP (R116): Writing GL_CTL.clr_drop clears GL_DROPCNT. -/
  | glClrDrop
  /-- FAST_TAP_SAMPLE (R117): The sinc4 stage yields a fast-tap sample every 64 words, which feeds kind 1 capture rows and trigger evaluation. -/
  | fastTapSample (slot : BitVec 5) (k : Nat) (words : List (BitVec 4))
  /-- CAL_OPEN (R157): Writing CAL_CMD.open copies the set in force into the staging buffer and opens it. -/
  | calOpen
  /-- CAL_CLOSE (R157): Writing CAL_CMD.close discards the staging buffer. -/
  | calClose
  /-- CAL_STGPTR_WRITE (R158): A write to CAL_STGPTR sets the staging word address, or is discarded beyond 0xF7FC. -/
  | calStgptrWrite (val : Word)
  /-- CAL_STGDATA_WRITE (R158): A write to CAL_STGDATA stores a staged word and advances the pointer. -/
  | calStgdataWrite (val : Word)
  /-- CAL_STGDATA_READ (R158): A read of CAL_STGDATA returns the staged word and advances the pointer. -/
  | calStgdataRead
  /-- CAL_STGHASH_UPDATE (R159): The hub completes the recomputation of CAL_STGHASH after a change to the staging buffer. -/
  | calStghashUpdate
  /-- CAL_COMMIT (R161): An authorised write of CAL_CMD.commit consumes the token, sets busy and starts the plausibility checks and programming. -/
  | calCommit
  /-- CAL_COMMIT_COMPLETE (R162): The commit ends: it either writes the new bank and epoch and raises CAL_WRITTEN, or rejects the image with CAL_REJECTED. -/
  | calCommitComplete
  /-- TB_STEP_CMD (R187): Writing TB_CMD.step with src 0 steps corrected time to TB_SET, at once in Idle or at a scheduled tick in Run. -/
  | tbStepCmd
  /-- TB_RATE_WRITE (R171): A committed rate write with src 0 folds the old rate into the offset and installs the new rate. -/
  | tbRateWrite (val : Word)
  /-- REFCLK_LOSS (R176): REFCLK is lost; the synthesiser holds its frequency and REFCLK_LOSS is raised. -/
  | refclkLoss
  /-- REFCLK_RETURN (R176): REFCLK returns or first appears; the hub detects its frequency and slews back to lock. -/
  | refclkReturn (is25 : Bool)
  /-- PTP_SYNC (R180): An accepted Sync or its Follow_Up yields a measurement θ for the servo. -/
  | ptpSync (m : PtpSyncIn)
  /-- PTP_DELAY_REQ_SEND (R179): At its interval the port sends a Delay_Req. -/
  | ptpDelayReqSend (tx : Stamp)
  /-- PTP_DELAY_RESP (R180): A Delay_Resp completes an exchange that updates the mean path delay. -/
  | ptpDelayResp (resp : PtpResp) (corr : Word64) (logInt : BitVec 8)
  /-- PTP_ANNOUNCE (R181): An Announce message feeds the best time-transmitter algorithm and may change or refuse the grandmaster. -/
  | ptpAnnounce (a : Announce)
  /-- PTP_ANNOUNCE_TIMEOUT (R182): The announce receipt timeout expires and raises PTP_FAULT. -/
  | ptpAnnounceTimeout
  /-- PPS_IN_EDGE (R183): A selected PPS_IN edge is stamped and, with src 2, yields a servo measurement. -/
  | ppsInEdge (t : Stamp) (falling : Bool)
  /-- PPS_MISSING (R183): No PPS_IN edge falls in the acceptance window; pps_miss is set and PPS_MISSING is raised. -/
  | ppsMissing
  /-- PPS_OUT (R184): At each whole second of corrected time PPS_OUT rises for its width. -/
  | ppsOut
  /-- HOLDOVER_ENTER (R190): No measurement is accepted for hold_to intervals, and the servo holds its averaged rate in HOLDOVER. -/
  | holdoverEnter
  /-- TIME_STEP_APPLY (R189): At the scheduled tick every hub applies the announced step, skips or stretches frames, and raises TIME_STEP and TICK_SLIP. -/
  | timeStepApply
  /-- TIME_CELL_SEND (R193): Every 16 base slots, at a millisecond boundary, the hub sends a time cell on each active port. -/
  | timeCellSend (port : BitVec 2) (tx : Stamp)
  /-- TIME_CELL (R194): A received time cell completes a stamp exchange, updates the hop delay and, on the time port, yields a servo measurement or a step announcement. -/
  | timeCell (port : BitVec 2) (rx : Stamp) (c : TimeCellIn)
  /-- RING_RTT_MARKER (R194): The head's marker cell returns around the ring and updates TB_RINGRTT. -/
  | ringRttMarker (ns : Word)
  /-- AQ_ARM (R232): Writing AQ_UCMD.arm arms a unit in Run on its PLOT furrow. -/
  | aqArm (u : BitVec 3)
  /-- AQ_STOP (R234): Writing AQ_UCMD.stop ends the plot in capture with the flag stopped and disarms the unit. -/
  | aqStop (u : BitVec 3)
  /-- AQ_FORCE (R218): Writing AQ_UCMD.force fires an armed unit with source 0xFE. -/
  | aqForce (u : BitVec 3)
  /-- TRIG_IN_EDGE (R211): An enabled TRIG_IN edge is stamped and meets its pin conditions, possibly sending a drill message. -/
  | trigInEdge (p : BitVec 2) (rising : Bool) (t : Stamp)
  /-- DRILL_SEND (R221): Writing AQ_DRILLCMD.go sends a host drill message on a channel. -/
  | drillSend (ch : BitVec 4)
  /-- DRILL_MESSAGE (R224): A received drill cell is acted on if it is the first copy, or at once with DRILL_LATE if it arrives after t_act. -/
  | drillMessage (origin : BitVec 6) (ch : BitVec 4) (seq : Word) (tp tdet : PtpTime)
  /-- DRILL_ACT (R222): At t_act each hub meets its drill conditions on the channel and pulses the assigned TRIG_OUT outputs. -/
  | drillAct
  /-- TRIG_OUT_PULSE_END (R227): A TRIG_OUT pulse ends after width × 10 ns. -/
  | trigOutPulseEnd (o : BitVec 1)
  /-- AUTO_TRIGGER (R217): An armed auto unit that has not fired within its timeout fires by itself. -/
  | autoTrigger (u : BitVec 3)
  /-- PLOT_CAPTURE_COMPLETE (R215): A unit writes its last post row, completes the plot and re-arms, taking any held firing. -/
  | plotCaptureComplete (u : BitVec 3)
  /-- PLOT_PART_HANDOFF (R233): The plot mover hands a plot part to delivery, entering it into the chain between seal steps. -/
  | plotPartHandoff (u : BitVec 3) (ecc : List EccHit)
  /-- LOOP_STAGE_WRITE (R239): In Run a write to a loop block goes to the loop's staging copy and sets pend. -/
  | loopStageWrite (l : BitVec 5) (off : BitVec 7) (val : Word)
  /-- LOOP_APPLY (R239): Writing CE_LCTL.apply checks the staged loop copy and schedules it for the next tick entry, or discards it. -/
  | loopApply (l : BitVec 5)
  /-- CE_LSP_WRITE (R249): A write to CE_LSP sets the setpoint from the next tick entry, or is discarded when sp_src is 1. -/
  | ceLspWrite (l : BitVec 5) (val : Word64)
  /-- COEF_WRITE (R262): In Run a write to the coefficient bank goes to the shadow bank and sets coef_pend. -/
  | coefWrite (i : BitVec 9) (val : Word64)
  /-- COEF_APPLY (R262): Writing CE_CMD.coef_apply checks every loop against the shadow bank and applies or restores it. -/
  | coefApply
  /-- LOOP_HOLD_EXPIRE (R243): A loop's invalid-input count passes hold; it raises LOOP_LIMIT, drives its safe value and, with fail_safe, requests safe state. -/
  | loopHoldExpire (l : BitVec 5)
  /-- OUTPUT_READBACK_CHECK (R259): The supervisor checks each AOUT 40 µs after the tick, and each PWM mid-interval; two failures raise OUTPUT_READBACK. -/
  | outputReadbackCheck (o : BitVec 5) (pin : PinVolts) (level : Bool)
  /-- PWM_PERIOD_START (R255): A PWM period starts and the output turns on under the duty in force. -/
  | pwmPeriodStart (j : BitVec 3)
  /-- PWM_ON_TIME_END (R255): A PWM output's on-time ends and the output turns off. -/
  | pwmOnTimeEnd (j : BitVec 3)
  /-- SHARED_VALUES (R257): A shared-values cell delivers published loop values for use in the next control step. -/
  | sharedValues (frame : Word64) (entries : List SharedIn)
  /-- HI_ENABLE (R267): Writing HI_CTL.en = 1 starts the host engine, furrow 0 and doorbell polling. -/
  | hiEnable
  /-- HI_DISABLE (R268): Writing HI_CTL.en = 0 outside Run stops polling and aborts fetched items. -/
  | hiDisable
  /-- HI_STOP_COMPLETE (R268): The host engine stop ends every furrow, passes ledger entries to state 2 and clears HI_STAT.up. -/
  | hiStopComplete
  /-- PCIE_FUNCTION_STATE (R265): The function leaves or returns to D0 with Bus Master Enable, which stops or resumes DMA and pending MSI-X messages. -/
  | pcieFunctionState (fn : FunctionState)
  /-- NOP (R278): A NOP descriptor completes DONE. -/
  | nop (f : BitVec 9) (op : Byte) (d : Desc)
  /-- FENCE (R284): A FENCE descriptor holds its furrow until the named item of another furrow completes. -/
  | fence (f : BitVec 9) (d : Desc)
  /-- FENCE_RELEASE (R284): The target furrow posts the named completion, and the fence completes DONE. -/
  | fenceRelease (f : BitVec 9)
  /-- BUF (R286): A BUF descriptor on a SAMPLE, PLOT, SEAL or EVENT furrow takes the oldest waiting block, part, record or events. -/
  | buf (f : BitVec 9) (d : Desc) (ecc : List EccHit)
  /-- EVENT_BUF_TIMEOUT (R292): In Idle an EVENT buffer completes 1 ms after its first record. -/
  | eventBufTimeout
  /-- SETPOINT (R250): A fetched SETPOINT descriptor is checked and queued for its named tick, or completes FAILED_PARAM. -/
  | setpoint (f : BitVec 9) (d : Desc)
  /-- CREATE (R271): CREATE reads a parameter block and creates a furrow on the lowest free index. -/
  | create (d : Desc) (block : Option (List Byte))
  /-- DESTROY (R273): DESTROY aborts a furrow's items, discards its undelivered data and frees its index. -/
  | destroy (d : Desc)
  /-- RESUME (R295): RESUME restarts a stalled furrow at its next item. -/
  | resume (d : Desc)
  /-- FLUSH (R295): FLUSH completes a stalled furrow's posted items SKIPPED_STALL and lets it run again. -/
  | flush (d : Desc)
  /-- LEDGER (R280): LEDGER writes the 256-entry drain ledger to a host buffer. -/
  | ledger (d : Desc)
  /-- SUBRESET (R427): SUBRESET stops fetching for a subsystem, aborts its items in flight and starts its reset. -/
  | subreset (d : Desc)
  /-- SUBRESET_COMPLETE (R428): A subsystem reset ends and the SUBRESET completes DONE with the abort count. -/
  | subresetComplete
  /-- DMA_FAILURE (R294): A DMA access is refused by the host; the item fails FAILED_DMA and SETPOINT, JOB or SIDE furrows stall with FURROW_STALLED. -/
  | dmaFailure (f : BitVec 9) (addr : Word64)
  /-- COMPLETION_WRITE_FAILURE (R296): A completion write fails; the furrow fails for good and DMA_ERROR and FURROW_FAILED are raised. -/
  | completionWriteFailure (f : BitVec 9) (addr : Word64)
  /-- LANE_DOWN (R313): A lane loses signal, lock or deskew; it leaves service, both ends restripe and LANE_DOWN is raised. -/
  | laneDown (lane : BitVec 4) (cause : BitVec 2)
  /-- LANE_RETRAIN (R313): Every 100 ms a lane that is down retrains and rejoins if it meets its limits. -/
  | laneRetrain (lane : BitVec 4) (eye : Option EyeFig)
  /-- PORT_TRAINING (R311): At link-up a port trains its receive lanes on PRBS-31 and deskews them. -/
  | portTraining (port : BitVec 2)
  /-- LANE_TRAINING_DONE (R311): Training completes, eye figures are recorded, and the port comes up or falls back to 3.125 Gb/s. -/
  | laneTrainingDone (port : BitVec 2) (t : TrainIn)
  /-- PORT_DOWN (R314): A port loses every lane, its replays, or its link control cells, and goes down; on an intact ring this is a break. -/
  | portDown (port : BitVec 2)
  /-- LINK_CONTROL_SEND (R314): Each port end sends a link control cell at least every 4 µs. -/
  | linkControlSend (port : BitVec 2)
  /-- LINK_CONTROL_CELL (R317): A link control cell delivers ack, nak, hold, release, lanes or hello content to the port. -/
  | linkControlCell (port : BitVec 2) (c : LinkCtlIn) (chk : CellCheck)
  /-- SEQUENCED_CELL (R316): A sequenced cell is checked for CRC, tag and number, then accepted and routed or discarded with a nak. -/
  | sequencedCell (port : BitVec 2) (cell : CellRx) (skipped : Word64)
  /-- REPLAY_TIMEOUT (R317): Acknowledgements do not advance in time and the sender replays from its oldest unacknowledged cell. -/
  | replayTimeout (port : BitVec 2)
  /-- LANE_RETRY_HIGH (R317): At the end of a second, replays above LN_RETRYTHR raise LANE_RETRY_HIGH. -/
  | laneRetryHigh (port : BitVec 2)
  /-- DELINEATION_FOUND (R302): Six good cells at one position declare cell delineation. -/
  | delineationFound (d : Delineation)
  /-- DELINEATION_LOST (R302): Eight bad cells lose delineation; the receiver hunts again and lane keys are rederived. -/
  | delineationLost (d : Delineation)
  /-- EYE_SWEEP (R312): Every 100 ms the monitor sweeps each lane's eye and may raise EYE_MARGIN_LOW. -/
  | eyeSweep (lane : BitVec 4) (width height : Byte)
  /-- RING_REFORM (R318): Writing LN_CTL.reform in Idle forms the ring again. -/
  | ringReform
  /-- CENSUS (R318): A census cell collects each member's serial, straps and address around the ring. -/
  | census (entries : List CensusEntry) (port : BitVec 2)
  /-- CENSUS_TIMEOUT (R318): The census does not return within 5 ms and the head forms a broken ring. -/
  | censusTimeout
  /-- ADDRESS_MAP (R319): The address map cell assigns addresses to members. -/
  | addressMap (entries : List MapEntry)
  /-- RING_PARAMETERS (R475): The ring parameters cell distributes period, epoch, latency and mode, and starts or refuses waiting members. -/
  | ringParameters (p : RingParams)
  /-- CUT_NOTICE (R322): A cut notice reroutes traffic and, at X, trims and turns back its replay buffer. -/
  | cutNotice (x y : BitVec 6) (last : BitVec 12) (port : BitVec 2)
  /-- RING_FLUSH (R322): A flush cell marks the end of a hub's traffic toward a cut. -/
  | ringFlush (port : BitVec 2)
  /-- TAIL (R322): A tail cell releases each hub's held traffic after a reroute. -/
  | tail (port : BitVec 2)
  /-- ROUTE_MARKER (R324): A route marker releases the new-route cells that a destination held. -/
  | routeMarker (m : RouteMark)
  /-- HUB_JOINED (R321): A hub joining after formation takes an address and raises HUB_JOINED. -/
  | hubJoined (serial : Word64) (strap : BitVec 6) (position : BitVec 6)
  /-- HUB_LEFT (R321): A hub that can no longer be reached either way round raises HUB_LEFT. -/
  | hubLeft (addr : BitVec 6) (samples : List SampleTake)
  /-- KEY_AGREEMENT_OFFER (R385): A received offer is checked against the root, and the confirm is sent. -/
  | keyAgreementOffer (port : BitVec 2) (msg : List Byte)
  /-- KEY_AGREEMENT_CONFIRM (R385): A received confirm is verified, and the lane keys are derived and installed. -/
  | keyAgreementConfirm (port : BitVec 2) (confirm : ConfirmIn)
  /-- KEY_AGREEMENT_TIMEOUT (R385): An agreement not finished within 20 ms keeps the port down and raises AUTH_REJECTED. -/
  | keyAgreementTimeout (port : BitVec 2)
  /-- DMA_WRITE_HEADER (R326): At the head a member's DMA write is issued to PCI Express in member order. -/
  | dmaWriteHeader (member : BitVec 6) (addr : Word64) (order : Word) (data : List Byte)
  /-- DMA_READ_REQUEST (R327): At the head a member's read request is issued from the head's outstanding requests. -/
  | dmaReadRequest (member : BitVec 6) (addr : Word64) (len : BitVec 13) (tag : BitVec 4)
  /-- DMA_READ_DATA (R327): Read data or a read failure cell returns to the member, which completes or fails the item. -/
  | dmaReadData (f : Byte) (tag : BitVec 4) (data : ReadResult)
  /-- INTERRUPT_REQUEST (R326): An interrupt request cell makes the head send the MSI-X message after the member's earlier writes. -/
  | interruptRequest (member : BitVec 6) (vector : Byte)
  /-- BAR4_ACCESS (R486): A BAR4 access is forwarded as setup requests to the member at that slot. -/
  | bar4Access (write : Bool) (off : BitVec 26) (width : Nat) (val : Word64)
  /-- SETUP_REQUEST (R328): A member applies a received setup read or write and returns a response. -/
  | setupRequest (write : Bool) (off : BitVec 20) (data : SetupData) (tag : BitVec 16)
  /-- SETUP_RESPONSE (R328): A setup response completes the pending BAR4 read at the head. -/
  | setupResponse (tag : BitVec 16) (data : SetupData)
  /-- SETUP_TIMEOUT (R328): No setup response within 1 ms returns 0 and increments LN_TUNTO. -/
  | setupTimeout (tag : BitVec 16)
  /-- LN_TEST_WRITE (R329): A write to LN_TEST starts or stops a pattern test on an eligible lane. -/
  | lnTestWrite (i : BitVec 4) (val : Word)
  /-- LN_TEST_INJECT (R330): Writing inject corrupts one bit or the CRC of the next sequenced cell on the lane. -/
  | lnTestInject (i : BitVec 4)
  /-- PRBS_ERROR (R331): The checker finds an error, counts it in LN_TERR and raises PRBS_ERROR. -/
  | prbsError (lane : BitVec 4) (errors : Word) (bits : Word64) (firstInRun : Bool)
  /-- COMPRESS (R333): A COMPRESS item is queued for the compression pipe. -/
  | compress (f : Byte) (d : Desc)
  /-- EXPAND (R333): An EXPAND item is queued for the expansion pipe. -/
  | expand (f : Byte) (d : Desc)
  /-- VERIFY (R333): A VERIFY item is queued for the expansion pipe. -/
  | verify (f : Byte) (d : Desc)
  /-- BALER_ITEM_DONE (R349): A Baler pipe finishes an item and its completion is posted in sequence order. -/
  | balerItemDone (comp : Bool) (src : List Byte) (dst : List Byte) (fault : List Byte)
  /-- BL_CLR (R355): Writing BL_CTL.clr clears the Baler counters. -/
  | blClr
  /-- STATUS (R364): The STATUS service returns the vault state and key_ids. -/
  | status
  /-- GET_NONCE (R361): GET_NONCE returns the device nonce. -/
  | getNonce
  /-- GET_CERTS (R364): GET_CERTS returns the identity and seal-key certificates. -/
  | getCerts
  /-- ENROL (R364): ENROL stores the owner key while no owner is enrolled. -/
  | enrol
  /-- LOGIN (R360): LOGIN opens a user session on a valid user signature. -/
  | login
  /-- LOGOUT (R360): LOGOUT ends the user session. -/
  | logout
  /-- AUTHORISE (R363): AUTHORISE checks an owner token and arms one authorisation for its op and digest. -/
  | authorise
  /-- SET_USER_KEY (R364): SET_USER_KEY registers a user key under an owner token. -/
  | setUserKey
  /-- REPLACE_OWNER (R364): REPLACE_OWNER replaces the owner key under an owner token. -/
  | replaceOwner
  /-- ROTATE_SEAL_KEY (R359): ROTATE_SEAL_KEY generates and certifies a new seal key and closes the interval in progress. -/
  | rotateSealKey
  /-- ZEROISE (R364): ZEROISE erases keys and chain state by scope. -/
  | zeroise
  /-- TAMPER_CLEAR (R388): TAMPER_CLEAR empties the tamper log under an owner token. -/
  | tamperClear
  /-- MICROCODE_START (R366): A microcode start request checks the token and opens an upload session. -/
  | microcodeStart
  /-- MICROCODE_DATA (R366): A microcode data request appends image bytes at the expected offset. -/
  | microcodeData
  /-- MICROCODE_FINISH (R365): A microcode finish request verifies digest and signature, runs the load test and stores the image. -/
  | microcodeFinish (load : Byte)
  /-- MICROCODE_SESSION_TIMEOUT (R366): A microcode session with no request for 10 s ends unchanged. -/
  | microcodeSessionTimeout
  /-- EXPORT_CAL (R386): EXPORT_CAL returns the signed export certificate of the set in force. -/
  | exportCal
  /-- CONFIG_IMAGE (R380): CONFIG_IMAGE returns the configuration image in force. -/
  | configImage
  /-- SELFTEST (R382): SELFTEST reruns the known-answer tests and returns a result word. -/
  | selftest (fail : Byte)
  /-- TAMPER_LOG (R388): TAMPER_LOG returns the tamper log entries and total count. -/
  | tamperLog
  /-- MAILBOX_MEMBER_TIMEOUT (R368): A mailbox request for a member unanswered within 1 s completes with status 7. -/
  | mailboxMemberTimeout
  /-- NONCE_EXPIRE (R361): A device nonce older than 600 s is replaced. -/
  | nonceExpire
  /-- AUTHORISATION_LAPSE (R363): An armed authorisation unused for 1 s lapses. -/
  | authorisationLapse
  /-- AUTH_LOCKOUT_END (R363): The 1 s refusal of tokens and LOGIN after a rejection ends. -/
  | authLockoutEnd
  /-- TAMPER_DETECT (R387): A tamper sample finds a cause; the monitor zeroises key memory, logs the event and raises TAMPER. -/
  | tamperDetect (found : TamperIn)
  /-- CONTINUOUS_TEST_FAIL (R383): A continuous entropy test fails; SELFTEST_FAIL puts the vault in its error state. -/
  | continuousTestFail (code : Byte)
  /-- SV_SAFE_CMD (R395): Writing SV_CMD.safe latches cause host and enters safe state. -/
  | svSafeCmd
  /-- SV_RELEASE (R398): Writing SV_CMD.release requests release from safe state at the next tick. -/
  | svRelease
  /-- RELEASE_SAFE_N_CHECK (R398): 10 µs after the release tick SAFE_N must read high, or cause external is latched. -/
  | releaseSafeNCheck (high : Bool)
  /-- PROOF_TEST (R404): Writing SV_CMD.ptest in Idle runs the 1 ms proof test. -/
  | proofTest
  /-- PROOF_TEST_DONE (R404): The proof test ends and sets ptest_done and ptest_ok. -/
  | proofTestDone (result : ProofTestResult)
  /-- REJOIN (R416): Writing SV_CMD.rejoin on the active starts the rejoin of its partner and sends the snapshot. -/
  | rejoin
  /-- SUPPLY_LIMIT (R401): A supply outside its window for 10 µs latches cause supply and raises SUPPLY_LIMIT. -/
  | supplyLimit (target : Byte) (mv : BitVec 16)
  /-- DIE_TEMP_LIMIT (R402): A die sensor above SV_TEMPLIM latches cause temp and raises DIE_TEMP_LIMIT. -/
  | dieTempLimit (sensor : SensorRead)
  /-- LOCKSTEP_MISMATCH (R403): A difference between the lockstep cores latches cause lockstep and cuts the control step. -/
  | lockstepMismatch
  /-- PROTECTED_MEM_ECC (R403): An uncorrectable error in a protected memory latches cause ecc. -/
  | protectedMemEcc
  /-- CLOCK_CHECK_FAIL (R395): The RC and main clocks differ by more than 10 % for 20 µs and cause clock is latched. -/
  | clockCheckFail
  /-- DRIVE_READBACK_FAIL (R393): An OEN or SAFE_N pin differs from its commanded level for 10 µs and cause drive is latched. -/
  | driveReadbackFail
  /-- SAFE_N_EXTERNAL (R393): SAFE_N reads low for 10 µs while this hub does not drive it, and cause external is latched. -/
  | safeNExternal
  /-- PERMISSIVE_LOST (R400): A permissive in force is lost outside safe state; cause permissive is latched and PERMISSIVE_LOST raised. -/
  | permissiveLost (p : BitVec 3)
  /-- TWIN_FRAME (R406): The partner's twin frame arrives and is compared with this hub's frame. -/
  | twinFrame (tf : TwinFrameIn)
  /-- TWIN_COMPARE_DEADLINE (R406): The comparison deadline passes without the partner's twin frame, which counts as a mismatch. -/
  | twinCompareDeadline
  /-- DIAGNOSIS_REPORT (R408): The partner's diagnosis report arrives. -/
  | diagnosisReport (frame : Word64) (fault : Bool)
  /-- TWIN_DECISION (R408): At tick n+2 each hub decides retirement, fail-over or safe state from both reports. -/
  | twinDecision
  /-- FAILOVER_GAP_EXPIRE (R409): No hub holds its claim with resumed outputs by tick n+4, and the remaining hubs enter safe state with cause twin. -/
  | failoverGapExpire
  /-- ILK_I_EDGE (R410): A change of ILK_I affects the interlock claim and resolves simultaneous claims. -/
  | ilkIEdge (high : Bool)
  /-- ILK_CLAIM (R410): The active, after ILK_I has been low for 2 µs, raises ILK_O and its OEN pins. -/
  | ilkClaim (rings : List RingRead) (samples : List SampleTake) (db : Word64)
  /-- SETPOINT_RELAY (R413): The standby receives a relayed setpoint, queues it and acknowledges it. -/
  | setpointRelay (f : Byte) (seq : Word) (loop : BitVec 5) (frame : Word64) (val : Word64)
  /-- RELAY_ACKNOWLEDGEMENT (R413): The active receives the standby's acknowledgement of a relayed setpoint. -/
  | relayAcknowledgement (f : Byte) (seq : Word)
  /-- SNAPSHOT (R416): The joining hub receives the active's snapshot, checks epoch and configuration, and computes from tick j. -/
  | snapshot (snap : SnapshotIn)
  /-- TWIN_RELEASE (R398): A relayed release from the active releases a ready standby at the same tick. -/
  | twinRelease (tick : Word64)
  /-- TWIN_RESYNC_DONE (R416): After agree matched frames the joining hub becomes a ready standby and TWIN_RESYNC_DONE is raised. -/
  | twinResyncDone
  /-- BEACON_UPDATE (R417): Once per millisecond the driver updates every sink current from level and derating scale. -/
  | beaconUpdate
  /-- BEACON_STEP (R418): An engine step's time runs out and the engine moves to its next step or holds its last. -/
  | beaconStep (e : BitVec 2)
  /-- BEACON_FAULT (R421): An open or shorted output for 1 ms turns its group off and raises BEACON_FAULT. -/
  | beaconFault (j : BitVec 3) (lamp : LampRead)
  /-- BEACON_CLEAR (R421): Writing bit g of BC_CMD.clear lights group g again. -/
  | beaconClear (mask : BitVec 4)
  /-- EVENT_RUN_CLOSE (R437): At a base-slot boundary with at least 256 free places, the hub closes every open coalesced run into the queue. -/
  | eventRunClose
  /-- EV_TRPTR_WRITE (R439): A write to EV_TRPTR selects a fault-trace entry and clears tr_miss. -/
  | evTrptrWrite (val : Word)
  /-- EV_TRDATA_READ (R439): A read of EV_TRDATA returns the next word of the selected entry and advances after eight words. -/
  | evTrdataRead
  /-- EV_FF_READ (R440): A read of EV_FF[7] after EV_FF[0] clears ff_valid. -/
  | evFfRead (w : BitVec 3)
  /-- XFER (R446): An XFER descriptor is checked and waits for a gap between setpoint windows. -/
  | xfer (f : Byte) (d : Desc)
  /-- XFER_COMPLETE (R446): A side-port transfer ends, its selects are released and its completion is posted. -/
  | xferComplete (x : XferBytes)
  /-- SETPOINT_FRAME_SHIFT (R449): Before each tick the hub asserts the chain selects and shifts out the setpoint or safe frame. -/
  | setpointFrameShift (rx : List Bool)
  /-- OBSERVER_SELECT_FALL (R452): The falling edge of SP_SEL0 loads the status frame into the shift register. -/
  | observerSelectFall
  /-- OBSERVER_SELECT_RISE (R453): The rising edge of SP_SEL0 checks the frame and accepts a command or raises SIDE_PORT_FRAMING. -/
  | observerSelectRise (bits : List Bool)
  /-- OBSERVER_PERMIT_LAPSE (R454): No command frame is accepted for the timeout and the observer permit lapses. -/
  | observerPermitLapse
  /-- POWER_ON (R461): Power good with an invalid Fallow domain starts the hub from power-on reset. -/
  | powerOn (straps : Straps)
  /-- FALLOW_EXIT (R461): Power good with a valid Fallow domain starts the hub by Fallow exit. -/
  | fallowExit (start : FallowStart)
  /-- POWER_FAIL (R460): A main supply below 85 % for 2 µs stops the hub and enters Fallow or Off. -/
  | powerFail (vbatOk : Bool)
  /-- VBAT_LOSS (R461): VBAT falls below 1.6 V in Fallow and the hub goes Off. -/
  | vbatLoss
  /-- START_UP_COMPLETE (R465): Start-up completes and the hub reaches Idle. -/
  | startUpComplete
  /-- RESET_N (R468): RESET_N low for at least 1 µs resets the dies; its release restarts the hub. -/
  | resetN (release : Bool)
  /-- PERST (R469): PERST# on a head ends its furrows and Run and resets the PCI Express function. -/
  | perst
  /-- FUNCTION_LEVEL_RESET (R469): A function-level reset ends the head's furrows and Run and resets the function. -/
  | functionLevelReset
  /-- HOLD_ENTER (R463): Writing GLB_CTL.hold = 1 in Idle powers down the measurement chain into Hold. -/
  | holdEnter
  /-- HOLD_EXIT (R464): Writing GLB_CTL.hold = 0 in Hold returns the hub to Idle. -/
  | holdExit
  /-- RUN_ENABLE (R473): Writing GLB_CTL.run = 1 in Idle starts the consistency check. -/
  | runEnable
  /-- CONSISTENCY_CHECK_DONE (R474): The consistency check reaches its outcome, either refusing with class, detail and index or entering Run in safe state. -/
  | consistencyCheckDone (view : RingView)
  /-- RUN_DISABLE (R476): Writing GLB_CTL.run = 0 lowers OEN and ends Run at the last tick. -/
  | runDisable
  /-- LINK_CHECK_REQ (R485): GLB_REQ with go and op 0 checks both die links and updates FE_STAT. -/
  | linkCheckReq (passA passB : Bool)
  /-- GLEANER_REF_CHECK (R485): GLB_REQ with go and op 1 converts the internal zero and check voltages and judges them. -/
  | gleanerRefCheck
  /-- GLB_REQ_COMPLETE (R485): A measurement-chain check ends, clears go and sets result. -/
  | glbReqComplete
  /-- PTP_PORT_FAULTY (R182): The Ethernet PTP port enters FAULTY; the hub raises PTP_FAULT with cause 2 and stops accepting measurements. -/
  | ptpPortFaulty
  /-- PPS_OUT_FALL (R184): PPS_OUT falls when its TB_PPS.width of 1–500 ms has run out after the second boundary. -/
  | ppsOutFall
  /-- HELLO_TIMEOUT (R318): A port whose partner does not answer the link control hellos within 50 ms stays down, and ring formation goes on without it. -/
  | helloTimeout (port : BitVec 2)
  /-- REJOIN_TIMEOUT (R416): A joining hub that receives no snapshot in time aborts the rejoin with SV_TWSTAT.abort 4 and stays joining. -/
  | rejoinTimeout
  /-- PERST_RELEASE (R469): Release of PERST# on a head starts PCI Express link training and has configuration requests served within 20 ms. -/
  | perstRelease
  /-- PCIE_LINK_TRAINED (R264): PCI Express link training completes and fixes the negotiated width and speed in HI_LINK that R28 uses. -/
  | pcieLinkTrained (width : BitVec 4) (t : PcieTrained)
  deriving DecidableEq, Repr

end Sys2Proof
end

