-- ==== Sys2Proof/Decode.lean ====
section
/-! DEFINITION. Decoding: the rows of the spec's table give no bits, so no word spells a command of this block. -/

namespace Sys2Proof

/-- The command that a word of the table's bits spells: none, since no row of the table gives bits. -/
def decodeTableWord (_nbits _w : Nat) : Option Instr := none

end Sys2Proof
end

