-- ==== Sys2Proof/Config.lean ====
section
/-! DEFINITION. What one implementation fixes and the spec does not: the free values.  Each is a constant with no body,
so nothing can be proved of its value; each is named in a row of notes/assumptions. -/

namespace Sys2Proof.Config

/-- A fresh 64-bit value the spec leaves open, one for each position of the model's own counter `freeCtr`. -/
opaque free64 : Nat → BitVec 64

/-- A fresh string of free bytes (of the length asked for, cut or padded by the reader). -/
opaque freeBytes : Nat → List (BitVec 8)

/-- A fresh free truth value. -/
opaque freeBit : Nat → Bool

/-- Where the spec gives an exact quotient and a format but no rounding: whether the result is the upper neighbour. -/
opaque roundUp : Int → Nat → Bool

/-- The budget current shown for an input whose smallest resistance is 0 or whose range is refused (R58 gives none). -/
opaque budgetOpen : BitVec 32 → BitVec 32 → Nat

/-- The level from which the first step of an engine ramps, before it has had a previous step (R418 names none). -/
opaque beaconFrom : Nat → BitVec 10

/-- The number of a completion status (R281 names the statuses and gives them no numbers), by the place of its name. -/
opaque statusCode : Nat → BitVec 16

/-- The hash of three bytes by which the compressor of R340 finds earlier ones. -/
opaque matchHash : List (BitVec 8) → Nat

/-- The code lengths that the compressor of R341 gives the symbols of a code, by how often each occurs: 0 literals and lengths,
1 distances, 2 code lengths. -/
opaque huffman : Nat → List Nat → List Nat

/-- The runs, a symbol and its extra value each, in which it writes code lengths. -/
opaque lengthRuns : List Nat → List (Nat × Nat)

/-! Cryptography.  The spec names standard algorithms; keys, entropy and signatures are free values here, and nothing is
proved of them (chapter 14). -/

/-- The seal key and identity key made at manufacture, the time of issue and the issuers' signatures of their two
certificates (R358). -/
opaque factorySealKey : List (BitVec 8)
opaque factoryIdentityKey : List (BitVec 8)
opaque factoryIssued : Nat
opaque factorySig : Nat → List (BitVec 8)

/-- The Gheulara root and code-signing public keys (R358, R365). -/
opaque rootPublic : List (BitVec 8)
opaque codePublic : List (BitVec 8)

/-- The public key of a private key, ECDSA and ECDH on P-384 (R357): 96 bytes by the reader's fitting. -/
opaque ecPublic : List (BitVec 8) → List (BitVec 8)

/-- A signature (r, s) by a private key over a message; the last operand is the draw that randomises it. -/
opaque ecSign : List (BitVec 8) → List (BitVec 8) → Nat → List (BitVec 8)

/-- Whether a signature verifies under a public key. -/
opaque ecVerify : List (BitVec 8) → List (BitVec 8) → List (BitVec 8) → Bool

/-- The ECDH shared secret of a private and a public key. -/
opaque ecdh : List (BitVec 8) → List (BitVec 8) → List (BitVec 8)

/-- The KDF of SP 800-108 on a secret, a label and a context. -/
opaque kdf : List (BitVec 8) → List (BitVec 8) → List (BitVec 8) → List (BitVec 8)

/-- The 32 bits that the address and the port of a transmitter take in the initialisation vector of R309. -/
opaque linkAddress : Nat → Nat → BitVec 32

/-- The bytes of a ring control message whose contents R304 names without a place for each: subtype and contents. -/
opaque ringMessage : Nat → List Nat → List (BitVec 8)

end Sys2Proof.Config
end

