-- ==== Sys2Proof/Machine/Bits.lean ====
section
/-! DEFINITION. Bit fields of register words, byte order, and the integer readings of words. -/

namespace Sys2Proof.Machine

/-- The value of a field of a word. -/
def BitField.get (f : BitField) (w : Word) : Nat := w.toNat / 2 ^ f.lo % 2 ^ (f.hi + 1 - f.lo)

/-- The bits of a field. -/
def BitField.mask (f : BitField) : Word := BitVec.ofNat 32 ((2 ^ (f.hi + 1 - f.lo) - 1) * 2 ^ f.lo)

/-- A word with one field replaced; the value is cut to the field's width. -/
def BitField.put (f : BitField) (v : Nat) (w : Word) : Word :=
  (w &&& ~~~ (BitField.mask f)) ||| (BitVec.ofNat 32 (v * 2 ^ f.lo) &&& BitField.mask f)

/-- The low bits of a natural number as a word. -/
def word (n : Nat) : Word := BitVec.ofNat 32 n

/-- A signed number as a word, modulo 2^32. -/
def wordI (i : Int) : Word := BitVec.ofInt 32 i

/-- The low and high words of a 64-bit value. -/
def lo32 (w : Word64) : Word := w.setWidth 32
def hi32 (w : Word64) : Word := (w >>> 32).setWidth 32

/-- A 64-bit value from its words. -/
def join64 (lo hi : Word) : Word64 := (hi.setWidth 64 <<< 32) ||| lo.setWidth 64

/-- Little-endian bytes of a number (R11). -/
def leBytes : Nat → Nat → List Byte
  | 0, _ => []
  | k + 1, n => BitVec.ofNat 8 n :: leBytes k (n / 256)

/-- Big-endian bytes of a number, the order of the standards R11 and R357 except. -/
def beBytes (k n : Nat) : List Byte := (leBytes k n).reverse

/-- The number that little-endian bytes hold. -/
def ofLe : List Byte → Nat
  | [] => 0
  | b :: t => b.toNat + 256 * ofLe t

/-- The number that big-endian bytes hold. -/
def ofBe (bs : List Byte) : Nat := bs.foldl (fun n b => n * 256 + b.toNat) 0

/-- A run of zero bytes. -/
def zeros (n : Nat) : List Byte := List.replicate n 0

/-- Bytes padded with zeros up to a multiple of `k`. -/
def padTo (k : Nat) (bs : List Byte) : List Byte :=
  bs ++ zeros ((k - bs.length % k) % k)

/-- Exactly `n` bytes: cut, or padded with zeros. -/
def fitBytes (n : Nat) (bs : List Byte) : List Byte := (bs ++ zeros (n - bs.length)).take n

/-- A piece of a byte string. -/
def slice (bs : List Byte) (off len : Nat) : List Byte := (bs.drop off).take len

/-- A bit of a truth value. -/
def b2n (b : Bool) : Nat := if b then 1 else 0

/-- Saturation of an integer to a span. -/
def clampI (lo hi x : Int) : Int := if x < lo then lo else if hi < x then hi else x

/-- A signed 32-bit word from an integer, saturated (R12). -/
def satWord (x : Int) : Word := BitVec.ofInt 32 (clampI (-2147483648) 2147483647 x)

/-- The quotient of two integers rounded to the nearest integer, ties away from zero (R122, R148); the divisor is
positive. -/
def roundDiv (n : Int) (d : Nat) : Int :=
  if n < 0 then - (((-n).toNat * 2 + d) / (2 * d) : Nat) else ((n.toNat * 2 + d) / (2 * d) : Nat)

/-- A quotient whose rounding the spec leaves open: exact where it divides, else one of its two neighbours (log 6). -/
def openDiv (n : Int) (d : Nat) : Int :=
  if n % (d : Int) = 0 then n / (d : Int)
  else if Config.roundUp n d then n / (d : Int) + 1 else n / (d : Int)

/-- Rounding up of a quotient. -/
def ceilDiv (n d : Nat) : Nat := (n + d - 1) / d

end Sys2Proof.Machine
end

