-- ==== Sys2Proof/Machine/Hashes.lean ====
section
/-! DEFINITION. The digests and checks the hub computes: SHA-384 (FIPS 180-4; R19, R159, R369), CRC-32C (R304) and
Adler-32 (R349). -/

namespace Sys2Proof.Machine

/-! ## SHA-384 -/

/-- The largest `r` below 2^`b` + `r₀` with r^k ≤ n, bit by bit from the top. -/
def rootFrom (k n : Nat) : Nat → Nat → Nat
  | 0, r => r
  | b + 1, r => rootFrom k n b (if (r + 2 ^ b) ^ k ≤ n then r + 2 ^ b else r)

/-- The first 64 bits of the fractional part of the k-th root of `p`, for a root below 2^8. -/
def rootBits (k p : Nat) : Nat := rootFrom k (p * 2 ^ (64 * k)) 72 0 % 2 ^ 64

/-- The primes below `n`. -/
def primesBelow (n : Nat) : List Nat :=
  (List.range n).filter (fun p => decide (2 ≤ p) && (List.range p).all (fun d => decide (d < 2) || p % d != 0))

/-- The round constants: from the cube roots of the first 80 primes. -/
def shaK : List Nat := (primesBelow 410).map (rootBits 3)

/-- The initial hash value of SHA-384: from the square roots of the ninth to the sixteenth prime. -/
def shaInit : List Word64 := ((primesBelow 54).drop 8).map (fun p => BitVec.ofNat 64 (rootBits 2 p))

/-- A word's rotations by some distances, added without carry. -/
def rotSum (rs : List Nat) (x : Word64) : Word64 := rs.foldl (fun y r => y ^^^ x.rotateRight r) 0

/-- The message schedule, newest word first, longer by `n` words: each is formed from those 2, 7, 15 and 16 places back. -/
def shaSchedule : Nat → List Word64 → List Word64
  | 0, ws => ws
  | n + 1, ws =>
    let mixed := fun (i sh : Nat) (rs : List Nat) => rotSum rs (ws.getD (i - 1) 0) ^^^ (ws.getD (i - 1) 0 >>> sh)
    shaSchedule n (([mixed 2 6 [19, 61], ws.getD 6 0, mixed 15 7 [1, 8], ws.getD 15 0].foldl (· + ·) 0) :: ws)

/-- The bits that two or three of three words have. -/
def majority (x y z : Word64) : Word64 := (x &&& y) ||| (z &&& (x ||| y))

/-- The bits of `y` where `x` has a 1, those of `z` elsewhere. -/
def select (x y z : Word64) : Word64 := z ^^^ (x &&& (y ^^^ z))

/-- The working variables as two sequences, newest first: the last four words of each are the variables a to d and e to h.  A round
lengthens both by a word; `kw` is the round's constant and schedule word, added. -/
structure ShaSt where
  upper : List Word64
  lower : List Word64

def ShaSt.next (v : ShaSt) (kw : Word64) : ShaSt :=
  let up := fun i => v.upper.getD i 0
  let lo := fun i => v.lower.getD i 0
  let t := lo 3 + kw + rotSum [14, 18, 41] (lo 0) + select (lo 0) (lo 1) (lo 2)
  { upper := (t + rotSum [28, 34, 39] (up 0) + majority (up 0) (up 1) (up 2)) :: v.upper.take 3
    lower := (up 3 + t) :: v.lower.take 3 }

/-- The compression of one block of 128 bytes. -/
def shaBlock (hash : List Word64) (block : List Byte) : List Word64 :=
  let ws := shaSchedule 64 ((List.range 16).map (fun i => BitVec.ofNat 64 (ofBe (slice block (8 * i) 8)))).reverse
  let v := (List.zipWith (fun k w => BitVec.ofNat 64 k + w) shaK ws.reverse).foldl ShaSt.next ⟨hash.take 4, hash.drop 4⟩
  List.zipWith (· + ·) hash (v.upper ++ v.lower)

/-- SHA-384 of a byte string: a 1 bit, zeros, and the length in bits, most significant byte first, fill it up to whole blocks. -/
def sha384 (m : List Byte) : List Byte :=
  let blocks := ceilDiv (m.length + 17) 128
  let filled := fitBytes (128 * blocks - 16) (m ++ [0x80#8]) ++ beBytes 16 (8 * m.length)
  let hash := (List.range blocks).foldl (fun h i => shaBlock h (slice filled (128 * i) 128)) shaInit
  (hash.take 6).flatMap (fun w => beBytes 8 w.toNat)

/-! ## CRC-32C -/

def crcShift : Nat → Word → Word
  | 0, c => c
  | n + 1, c => crcShift n (if c.getLsbD 0 then (c >>> 1) ^^^ 0x82F63B78#32 else c >>> 1)

/-- CRC-32C: reflected, initial value all ones, result complemented (R304). -/
def crc32c (bs : List Byte) : Word :=
  ~~~ (bs.foldl (fun c b => crcShift 8 (c ^^^ b.setWidth 32)) 0xFFFFFFFF#32)

/-! ## Adler-32 -/

/-- Adler-32 continued from a value (RFC 1950). -/
def adler32From (a : Word) (bs : List Byte) : Word :=
  let p := bs.foldl (fun (p : Nat × Nat) b =>
    let x := (p.1 + b.toNat) % 65521
    (x, (p.2 + x) % 65521)) (a.toNat % 65536, a.toNat / 65536)
  word (p.2 * 65536 + p.1)

end Sys2Proof.Machine
end

