-- ==== Sys2Proof/Machine/RegMap.lean ====
section
/-! DEFINITION. The register map of the setup space (chapter "Register map", R478 to R480, and the register tables of
every chapter): the address of every register by its name, every named field, the access-type masks of R1 and the
reset words.  The rows are the rows of the spec's tables.  The mailbox registers of BAR2 (R368) stand behind the
model's own base 0x20_0000. -/

namespace Sys2Proof.Machine
namespace Reg

abbrev FR_PERIOD : Nat := 0x2000
abbrev FR_EPOCH_LO : Nat := 0x2004
abbrev FR_EPOCH_HI : Nat := 0x2008
abbrev FR_CTL : Nat := 0x200c
abbrev FR_STAT : Nat := 0x2010
abbrev FR_BUDGET : Nat := 0x2014
abbrev FR_AVAIL : Nat := 0x2018
abbrev FR_PEAK : Nat := 0x201c
abbrev FR_FRAME_LO : Nat := 0x2020
abbrev FR_FRAME_HI : Nat := 0x2024
abbrev FR_FIRST_LO : Nat := 0x2028
abbrev FR_FIRST_HI : Nat := 0x202c
abbrev FR_OVRCNT : Nat := 0x2030
abbrev FR_LASTOVR_LO : Nat := 0x2034
abbrev FR_LASTOVR_HI : Nat := 0x2038
abbrev FR_PHASECYC (i : Nat) : Nat := 0x2040 + 0x4 * i
abbrev FE_CTL : Nat := 0x4000
abbrev FE_STAT : Nat := 0x4004
abbrev FE_EXCBUD_A : Nat := 0x4008
abbrev FE_EXCBUD_B : Nat := 0x400c
abbrev FE_LEADCTL : Nat := 0x4010
abbrev FE_BLANKLONG : Nat := 0x4014
abbrev FE_BLANKSTAT : Nat := 0x4018
abbrev FE_BLANKCFG (i : Nat) : Nat := 0x4020 + 0x4 * i
abbrev FE_LDRES (i : Nat) : Nat := 0x4100 + 0x4 * i
abbrev FE_LDSTAT (i : Nat) : Nat := 0x4200 + 0x4 * i
abbrev IN_CFG (i : Nat) : Nat := 0x10000 + 0x20 * i
abbrev IN_EXC (i : Nat) : Nat := 0x10004 + 0x20 * i
abbrev IN_REV (i : Nat) : Nat := 0x10008 + 0x20 * i
abbrev IN_FILT (i : Nat) : Nat := 0x1000c + 0x20 * i
abbrev IN_LEAD (i : Nat) : Nat := 0x10010 + 0x20 * i
abbrev IN_LIM (i : Nat) : Nat := 0x10014 + 0x20 * i
abbrev IN_USER (i : Nat) : Nat := 0x10018 + 0x20 * i
abbrev IN_STAT (i : Nat) : Nat := 0x1001c + 0x20 * i
abbrev CV_CTL : Nat := 0x4400
abbrev CV_STAT : Nat := 0x4404
abbrev CV_OVLCNT : Nat := 0x4408
abbrev CV_OVL (i : Nat) : Nat := 0x4420 + 0x4 * i
abbrev GL_CTL : Nat := 0x3000
abbrev GL_CYCLE : Nat := 0x3004
abbrev GL_REQ : Nat := 0x3008
abbrev GL_STAT : Nat := 0x300c
abbrev GL_DROPCNT : Nat := 0x3010
abbrev GL_RES_VAL : Nat := 0x3020
abbrev GL_RES_INFO : Nat := 0x3024
abbrev GL_RES_FRM_LO : Nat := 0x3028
abbrev GL_RES_FRM_HI : Nat := 0x302c
abbrev GL_SCHEDA (i : Nat) : Nat := 0x3100 + 0x8 * i
abbrev GL_SCHEDB (i : Nat) : Nat := 0x3104 + 0x8 * i
abbrev GL_EDGE (i : Nat) : Nat := 0x3200 + 0x4 * i
abbrev GL_TGT_VAL (i : Nat) : Nat := 0x3400 + 0x8 * i
abbrev GL_TGT_INFO (i : Nat) : Nat := 0x3404 + 0x8 * i
abbrev GL_LIMLO (i : Nat) : Nat := 0x3800 + 0x8 * i
abbrev GL_LIMHI (i : Nat) : Nat := 0x3804 + 0x8 * i
abbrev DF_STAT : Nat := 0x14000
abbrev DF_SETMAP (i : Nat) : Nat := 0x14020 + 0x4 * i
abbrev DF_FTSEL (i : Nat) : Nat := 0x14100 + 0x4 * i
abbrev DF_RESPINFO (i : Nat) : Nat := 0x14200 + 0x4 * i
abbrev CAL_HDR (i : Nat) : Nat := 0x60000 + 0x4 * i
abbrev CAL_STAT : Nat := 0x60100
abbrev CAL_CMD : Nat := 0x60104
abbrev CAL_REJ : Nat := 0x60108
abbrev CAL_STGPTR : Nat := 0x6010c
abbrev CAL_STGDATA : Nat := 0x60110
abbrev CAL_WRCNT : Nat := 0x60114
abbrev CAL_STGHASH (i : Nat) : Nat := 0x60120 + 0x4 * i
abbrev CAL_IDLE (i : Nat) : Nat := 0x6f800 + 0x4 * i
abbrev CAL_EYE (i : Nat) : Nat := 0x6fc00 + 0x4 * i
abbrev CAL_DESKEW (i : Nat) : Nat := 0x6fc40 + 0x4 * i
abbrev TB_CTL : Nat := 0x1000
abbrev TB_STAT : Nat := 0x1004
abbrev TB_CMD : Nat := 0x1008
abbrev TB_NOW_FRAC : Nat := 0x1010
abbrev TB_NOW_NS : Nat := 0x1014
abbrev TB_NOW_SEC_LO : Nat := 0x1018
abbrev TB_NOW_SEC_HI : Nat := 0x101c
abbrev TB_NOW_RAW_FRAC : Nat := 0x1020
abbrev TB_NOW_RAW_LO : Nat := 0x1024
abbrev TB_NOW_RAW_HI : Nat := 0x1028
abbrev TB_OFF_FRAC : Nat := 0x1030
abbrev TB_OFF_LO : Nat := 0x1034
abbrev TB_OFF_HI : Nat := 0x1038
abbrev TB_RATE_LO : Nat := 0x1040
abbrev TB_RATE_HI : Nat := 0x1044
abbrev TB_SET_FRAC : Nat := 0x1050
abbrev TB_SET_NS : Nat := 0x1054
abbrev TB_SET_SEC_LO : Nat := 0x1058
abbrev TB_SET_SEC_HI : Nat := 0x105c
abbrev TB_SERVO : Nat := 0x1060
abbrev TB_LOCK : Nat := 0x1064
abbrev TB_STEP : Nat := 0x1068
abbrev TB_SLEW : Nat := 0x106c
abbrev TB_THETA : Nat := 0x1070
abbrev TB_PTPCFG : Nat := 0x1080
abbrev TB_PTPIP : Nat := 0x1084
abbrev TB_PTPGM_LO : Nat := 0x1088
abbrev TB_PTPGM_HI : Nat := 0x108c
abbrev TB_PTPSTAT : Nat := 0x1090
abbrev TB_PTPMPD : Nat := 0x1094
abbrev TB_PPS : Nat := 0x10a0
abbrev TB_PPSSEC_LO : Nat := 0x10a4
abbrev TB_PPSSEC_HI : Nat := 0x10a8
abbrev TB_LINKASYM (i : Nat) : Nat := 0x10b0 + 0x4 * i
abbrev TB_HOPDLY (i : Nat) : Nat := 0x10c0 + 0x4 * i
abbrev TB_RINGRTT : Nat := 0x10c8
abbrev TB_SUM_LO : Nat := 0x10d0
abbrev TB_SUM_HI : Nat := 0x10d4
abbrev AQ_MEMCFG : Nat := 0x18000
abbrev AQ_PLOTAREA : Nat := 0x18004
abbrev AQ_PLOTRES : Nat := 0x18008
abbrev AQ_SLOTRES : Nat := 0x1800c
abbrev AQ_DRILL : Nat := 0x18010
abbrev AQ_DRILLCMD : Nat := 0x18014
abbrev AQ_DRILLLATE : Nat := 0x18018
abbrev AQ_ECCCNT : Nat := 0x18020
abbrev AQ_ECCUNC : Nat := 0x18024
abbrev AQ_PINCFG (i : Nat) : Nat := 0x18040 + 0x4 * i
abbrev AQ_TOUT (i : Nat) : Nat := 0x18050 + 0x4 * i
abbrev AQ_UCMD (i : Nat) : Nat := 0x18800 + 0x200 * i
abbrev AQ_UCFG (i : Nat) : Nat := 0x18804 + 0x200 * i
abbrev AQ_UPRE (i : Nat) : Nat := 0x18808 + 0x200 * i
abbrev AQ_UPOST (i : Nat) : Nat := 0x1880c + 0x200 * i
abbrev AQ_USLOTS (i : Nat) : Nat := 0x18810 + 0x200 * i
abbrev AQ_UFIFO (i : Nat) : Nat := 0x18814 + 0x200 * i
abbrev AQ_UCOUNT (i : Nat) : Nat := 0x18818 + 0x200 * i
abbrev AQ_UFURROW (i : Nat) : Nat := 0x1881c + 0x200 * i
abbrev AQ_UAUTO (i : Nat) : Nat := 0x18820 + 0x200 * i
abbrev AQ_USTAT (i : Nat) : Nat := 0x18824 + 0x200 * i
abbrev AQ_USEQ (i : Nat) : Nat := 0x18828 + 0x200 * i
abbrev AQ_UCOLL (i : Nat) : Nat := 0x1882c + 0x200 * i
abbrev AQ_UVIOLCNT (i : Nat) : Nat := 0x18830 + 0x200 * i
abbrev AQ_ULASTVALID (i : Nat) : Nat := 0x18834 + 0x200 * i
abbrev AQ_USRC (i j : Nat) : Nat := 0x18840 + 0x200 * i + 0x4 * j
abbrev AQ_UCOND_A (i j : Nat) : Nat := 0x18880 + 0x200 * i + 0x10 * j
abbrev AQ_UCOND_B (i j : Nat) : Nat := 0x18884 + 0x200 * i + 0x10 * j
abbrev AQ_UCOND_C (i j : Nat) : Nat := 0x18888 + 0x200 * i + 0x10 * j
abbrev AQ_UMASK_A (i j : Nat) : Nat := 0x18900 + 0x200 * i + 0x14 * j
abbrev AQ_UMASK_B (i j : Nat) : Nat := 0x18904 + 0x200 * i + 0x14 * j
abbrev AQ_UMASK_C (i j : Nat) : Nat := 0x18908 + 0x200 * i + 0x14 * j
abbrev AQ_UMASK_D (i j : Nat) : Nat := 0x1890c + 0x200 * i + 0x14 * j
abbrev AQ_UMASK_E (i j : Nat) : Nat := 0x18910 + 0x200 * i + 0x14 * j
abbrev CE_LCTL (i : Nat) : Nat := 0x20000 + 0x80 * i
abbrev CE_LIN (i : Nat) : Nat := 0x20004 + 0x80 * i
abbrev CE_LOUT (i : Nat) : Nat := 0x20008 + 0x80 * i
abbrev CE_LCOEF (i : Nat) : Nat := 0x2000c + 0x80 * i
abbrev CE_LSTAT (i : Nat) : Nat := 0x20010 + 0x80 * i
abbrev CE_LSP_LO (i : Nat) : Nat := 0x20018 + 0x80 * i
abbrev CE_LSP_HI (i : Nat) : Nat := 0x2001c + 0x80 * i
abbrev CE_LUMIN_LO (i : Nat) : Nat := 0x20020 + 0x80 * i
abbrev CE_LUMIN_HI (i : Nat) : Nat := 0x20024 + 0x80 * i
abbrev CE_LUMAX_LO (i : Nat) : Nat := 0x20028 + 0x80 * i
abbrev CE_LUMAX_HI (i : Nat) : Nat := 0x2002c + 0x80 * i
abbrev CE_LSLEW_LO (i : Nat) : Nat := 0x20030 + 0x80 * i
abbrev CE_LSLEW_HI (i : Nat) : Nat := 0x20034 + 0x80 * i
abbrev CE_LSAFE_LO (i : Nat) : Nat := 0x20038 + 0x80 * i
abbrev CE_LSAFE_HI (i : Nat) : Nat := 0x2003c + 0x80 * i
abbrev CE_LOUTV_LO (i : Nat) : Nat := 0x20040 + 0x80 * i
abbrev CE_LOUTV_HI (i : Nat) : Nat := 0x20044 + 0x80 * i
abbrev CE_LPV_LO (i : Nat) : Nat := 0x20048 + 0x80 * i
abbrev CE_LPV_HI (i : Nat) : Nat := 0x2004c + 0x80 * i
abbrev CE_LINTEG_LO (i : Nat) : Nat := 0x20050 + 0x80 * i
abbrev CE_LINTEG_HI (i : Nat) : Nat := 0x20054 + 0x80 * i
abbrev CE_STAT : Nat := 0x21000
abbrev CE_CMD : Nat := 0x21004
abbrev CE_SHMISS : Nat := 0x21008
abbrev CE_RBSTAT : Nat := 0x2100c
abbrev CE_AOCFG (i : Nat) : Nat := 0x21040 + 0x4 * i
abbrev CE_AOSET (i : Nat) : Nat := 0x21080 + 0x4 * i
abbrev CE_AOCUR (i : Nat) : Nat := 0x210c0 + 0x4 * i
abbrev CE_PWMCFG (i : Nat) : Nat := 0x21100 + 0x4 * i
abbrev CE_PWMSET (i : Nat) : Nat := 0x21120 + 0x4 * i
abbrev CE_PWMCUR (i : Nat) : Nat := 0x21140 + 0x4 * i
abbrev CE_COEF_LO (i : Nat) : Nat := 0x21800 + 0x8 * i
abbrev CE_COEF_HI (i : Nat) : Nat := 0x21804 + 0x8 * i
abbrev HI_CTL : Nat := 0x28000
abbrev HI_STAT : Nat := 0x28004
abbrev HI_LINK : Nat := 0x28008
abbrev HI_DB_LO : Nat := 0x28010
abbrev HI_DB_HI : Nat := 0x28014
abbrev HI_MGD_LO : Nat := 0x28018
abbrev HI_MGD_HI : Nat := 0x2801c
abbrev HI_MGC_LO : Nat := 0x28020
abbrev HI_MGC_HI : Nat := 0x28024
abbrev HI_MGCFG : Nat := 0x28028
abbrev HI_OPEN : Nat := 0x28030
abbrev HI_BACKLOG : Nat := 0x28034
abbrev HI_GAPCNT : Nat := 0x28038
abbrev HI_DMAERR_LO : Nat := 0x28040
abbrev HI_DMAERR_HI : Nat := 0x28044
abbrev HI_DMAERRCNT : Nat := 0x28048
abbrev HI_DBMAL : Nat := 0x2804c
abbrev HI_MSIX_ALO (i : Nat) : Nat := 0x29000 + 0x10 * i
abbrev HI_MSIX_AHI (i : Nat) : Nat := 0x29004 + 0x10 * i
abbrev HI_MSIX_DATA (i : Nat) : Nat := 0x29008 + 0x10 * i
abbrev HI_MSIX_CTL (i : Nat) : Nat := 0x2900c + 0x10 * i
abbrev HI_PBA_LO : Nat := 0x29800
abbrev HI_PBA_HI : Nat := 0x29804
abbrev LN_CTL : Nat := 0x30000
abbrev LN_STAT : Nat := 0x30004
abbrev LN_ADDR : Nat := 0x30008
abbrev LN_RETRYTHR : Nat := 0x3000c
abbrev LN_TUNTO : Nat := 0x30010
abbrev LN_PCFG (i : Nat) : Nat := 0x30020 + 0x4 * i
abbrev LN_PSTAT (i : Nat) : Nat := 0x30030 + 0x4 * i
abbrev LN_REPLAY (i : Nat) : Nat := 0x30040 + 0x4 * i
abbrev LN_CRCERR (i : Nat) : Nat := 0x30048 + 0x4 * i
abbrev LN_AUTHFAIL (i : Nat) : Nat := 0x30050 + 0x4 * i
abbrev LN_MAP (i : Nat) : Nat := 0x30100 + 0x4 * i
abbrev LN_TEST (i : Nat) : Nat := 0x30200 + 0x10 * i
abbrev LN_TERR (i : Nat) : Nat := 0x30204 + 0x10 * i
abbrev LN_TBITS_LO (i : Nat) : Nat := 0x30208 + 0x10 * i
abbrev LN_TBITS_HI (i : Nat) : Nat := 0x3020c + 0x10 * i
abbrev LN_EYE (i : Nat) : Nat := 0x30300 + 0x4 * i
abbrev BL_CTL : Nat := 0x38000
abbrev BL_STAT : Nat := 0x38004
abbrev BL_JOBS : Nat := 0x38008
abbrev BL_VFAIL : Nat := 0x3800c
abbrev BL_IN_LO : Nat := 0x38010
abbrev BL_IN_HI : Nat := 0x38014
abbrev BL_OUT_LO : Nat := 0x38018
abbrev BL_OUT_HI : Nat := 0x3801c
abbrev BL_LASTERR : Nat := 0x38020
abbrev MB_CMD : Nat := 0x200000
abbrev MB_STAT : Nat := 0x200004
abbrev MB_REQLEN : Nat := 0x200008
abbrev MB_RSPLEN : Nat := 0x20000c
abbrev MB_PAGE : Nat := 0x200010
abbrev VT_STAT : Nat := 0x40000
abbrev VT_SEALCFG : Nat := 0x40004
abbrev VT_SECCFG : Nat := 0x40008
abbrev VT_CHAINNO : Nat := 0x4000c
abbrev VT_SEALNO : Nat := 0x40010
abbrev VT_SEALPOS : Nat := 0x40014
abbrev VT_QUEUE : Nat := 0x40018
abbrev VT_STFAIL : Nat := 0x4001c
abbrev VT_KEYID_LO : Nat := 0x40020
abbrev VT_KEYID_HI : Nat := 0x40024
abbrev VT_TAMPER : Nat := 0x40028
abbrev SV_CTL : Nat := 0x48000
abbrev SV_STAT : Nat := 0x48004
abbrev SV_CMD : Nat := 0x48008
abbrev SV_CAUSE : Nat := 0x4800c
abbrev SV_FIRST : Nat := 0x48010
abbrev SV_PERMEN : Nat := 0x48014
abbrev SV_PERM : Nat := 0x48018
abbrev SV_TEMPLIM : Nat := 0x4801c
abbrev SV_SAFECNT : Nat := 0x48020
abbrev SV_TWCFG : Nat := 0x48100
abbrev SV_TWSTAT : Nat := 0x48104
abbrev SV_TWITOL : Nat := 0x48108
abbrev SV_TWEPOCH : Nat := 0x4810c
abbrev SV_TWMISCNT : Nat := 0x48110
abbrev SV_TWISEL (i : Nat) : Nat := 0x48120 + 0x4 * i
abbrev SV_TWLTOL (i : Nat) : Nat := 0x48180 + 0x4 * i
abbrev BC_CTL : Nat := 0x58000
abbrev BC_STAT : Nat := 0x58004
abbrev BC_CMD : Nat := 0x58008
abbrev BC_TRIP : Nat := 0x5800c
abbrev BC_SCALE : Nat := 0x58010
abbrev BC_OUT (i : Nat) : Nat := 0x58020 + 0x4 * i
abbrev BC_GRP (i : Nat) : Nat := 0x58040 + 0x4 * i
abbrev BC_ENG (i : Nat) : Nat := 0x58050 + 0x4 * i
abbrev BC_DERATE (i : Nat) : Nat := 0x58060 + 0x4 * i
abbrev BC_GAMMA (i : Nat) : Nat := 0x58080 + 0x4 * i
abbrev BC_STEP (i j : Nat) : Nat := 0x58200 + 0x40 * i + 0x4 * j
abbrev EV_CFG (i : Nat) : Nat := 0x70000 + 0x10 * i
abbrev EV_OCC (i : Nat) : Nat := 0x70004 + 0x10 * i
abbrev EV_RUN (i : Nat) : Nat := 0x70008 + 0x10 * i
abbrev EV_RUNOCC (i : Nat) : Nat := 0x7000c + 0x10 * i
abbrev EV_STAT : Nat := 0x70400
abbrev EV_TRCNT : Nat := 0x70404
abbrev EV_TROVW : Nat := 0x70408
abbrev EV_TRPTR : Nat := 0x7040c
abbrev EV_TRDATA : Nat := 0x70410
abbrev EV_FF (i : Nat) : Nat := 0x70420 + 0x4 * i
abbrev SP_CFG : Nat := 0x50000
abbrev SP_STAT : Nat := 0x50004
abbrev SP_SPCFG : Nat := 0x50008
abbrev SP_OBSCFG : Nat := 0x5000c
abbrev SP_OBSERR : Nat := 0x50010
abbrev SP_OBSPTR : Nat := 0x50014
abbrev SP_SLOT (i : Nat) : Nat := 0x50080 + 0x4 * i
abbrev SP_SLOTSAFE (i : Nat) : Nat := 0x50100 + 0x4 * i
abbrev SP_TMPL (i : Nat) : Nat := 0x50200 + 0x4 * i
abbrev SP_SPRX (i : Nat) : Nat := 0x50400 + 0x4 * i
abbrev GLB_ID : Nat := 0x0
abbrev GLB_SUBID : Nat := 0x4
abbrev GLB_REV : Nat := 0x8
abbrev GLB_UCODE : Nat := 0xc
abbrev GLB_SERIAL_LO : Nat := 0x10
abbrev GLB_SERIAL_HI : Nat := 0x14
abbrev GLB_CTL : Nat := 0x18
abbrev GLB_STAT : Nat := 0x1c
abbrev GLB_ENSTAT_LO : Nat := 0x20
abbrev GLB_ENSTAT_HI : Nat := 0x24
abbrev GLB_RSTCAUSE : Nat := 0x28
abbrev GLB_ACCADDR : Nat := 0x2c
abbrev GLB_REQ : Nat := 0x30
abbrev GLB_STRAP : Nat := 0x40
abbrev GLB_LEDGER_LO (i : Nat) : Nat := 0x800 + 0x8 * i
abbrev GLB_LEDGER_HI (i : Nat) : Nat := 0x804 + 0x8 * i

end Reg

namespace Fld

abbrev FR_PERIOD_period : BitField := ⟨13, 0⟩
abbrev FR_CTL_clr_ovr : BitField := ⟨1, 1⟩
abbrev FR_CTL_clr_peak : BitField := ⟨0, 0⟩
abbrev FR_STAT_phase : BitField := ⟨11, 8⟩
abbrev FR_STAT_cut : BitField := ⟨2, 2⟩
abbrev FR_STAT_late : BitField := ⟨1, 1⟩
abbrev FR_STAT_running : BitField := ⟨0, 0⟩
abbrev FE_CTL_die_b_en : BitField := ⟨1, 1⟩
abbrev FE_CTL_die_a_en : BitField := ⟨0, 0⟩
abbrev FE_STAT_b_fail : BitField := ⟨9, 9⟩
abbrev FE_STAT_a_fail : BitField := ⟨8, 8⟩
abbrev FE_STAT_b_link : BitField := ⟨1, 1⟩
abbrev FE_STAT_a_link : BitField := ⟨0, 0⟩
abbrev FE_LEADCTL_max_age : BitField := ⟨31, 16⟩
abbrev FE_LEADCTL_drift_thr : BitField := ⟨15, 8⟩
abbrev FE_LEADCTL_ild : BitField := ⟨1, 0⟩
abbrev FE_BLANKLONG_long : BitField := ⟨15, 0⟩
abbrev FE_BLANKSTAT_active : BitField := ⟨3, 0⟩
abbrev FE_BLANKCFG_ext : BitField := ⟨15, 8⟩
abbrev FE_BLANKCFG_pol : BitField := ⟨1, 1⟩
abbrev FE_BLANKCFG_en : BitField := ⟨0, 0⟩
abbrev FE_LDRES_ohms : BitField := ⟨31, 0⟩
abbrev FE_LDSTAT_age : BitField := ⟨31, 16⟩
abbrev FE_LDSTAT_open : BitField := ⟨1, 1⟩
abbrev FE_LDSTAT_stale : BitField := ⟨0, 0⟩
abbrev IN_CFG_blank_en : BitField := ⟨22, 22⟩
abbrev IN_CFG_blank_grp : BitField := ⟨21, 20⟩
abbrev IN_CFG_pull : BitField := ⟨17, 16⟩
abbrev IN_CFG_pull_mag : BitField := ⟨15, 15⟩
abbrev IN_CFG_st_level : BitField := ⟨13, 12⟩
abbrev IN_CFG_range : BitField := ⟨10, 8⟩
abbrev IN_CFG_mode : BitField := ⟨5, 4⟩
abbrev IN_CFG_en : BitField := ⟨0, 0⟩
abbrev IN_EXC_rmin : BitField := ⟨31, 16⟩
abbrev IN_EXC_amp : BitField := ⟨15, 0⟩
abbrev IN_REV_k : BitField := ⟨22, 16⟩
abbrev IN_REV_guard : BitField := ⟨6, 0⟩
abbrev IN_FILT_ref_en : BitField := ⟨24, 24⟩
abbrev IN_FILT_ref_idx : BitField := ⟨23, 16⟩
abbrev IN_FILT_resp : BitField := ⟨3, 0⟩
abbrev IN_LEAD_group : BitField := ⟨21, 16⟩
abbrev IN_LEAD_weight : BitField := ⟨15, 0⟩
abbrev IN_LIM_floor_cnt : BitField := ⟨31, 24⟩
abbrev IN_LIM_ow_thr : BitField := ⟨23, 16⟩
abbrev IN_LIM_floor : BitField := ⟨15, 0⟩
abbrev IN_USER_offset : BitField := ⟨31, 0⟩
abbrev IN_STAT_floor_run : BitField := ⟨31, 24⟩
abbrev IN_STAT_open_lat : BitField := ⟨15, 15⟩
abbrev IN_STAT_compl_lat : BitField := ⟨14, 14⟩
abbrev IN_STAT_selftest : BitField := ⟨8, 8⟩
abbrev IN_STAT_open : BitField := ⟨3, 3⟩
abbrev IN_STAT_compl : BitField := ⟨2, 2⟩
abbrev IN_STAT_blanked : BitField := ⟨1, 1⟩
abbrev IN_STAT_active : BitField := ⟨0, 0⟩
abbrev CV_CTL_retrim : BitField := ⟨0, 0⟩
abbrev CV_STAT_clr_ovl : BitField := ⟨16, 16⟩
abbrev CV_STAT_trim_b_done : BitField := ⟨9, 9⟩
abbrev CV_STAT_trim_a_done : BitField := ⟨8, 8⟩
abbrev CV_STAT_trim_low : BitField := ⟨3, 3⟩
abbrev CV_STAT_trim_busy : BitField := ⟨2, 2⟩
abbrev CV_STAT_lock_lost : BitField := ⟨1, 1⟩
abbrev CV_STAT_lock : BitField := ⟨0, 0⟩
abbrev GL_CTL_clr_drop : BitField := ⟨0, 0⟩
abbrev GL_CYCLE_frames : BitField := ⟨8, 0⟩
abbrev GL_REQ_go : BitField := ⟨31, 31⟩
abbrev GL_REQ_sub : BitField := ⟨11, 8⟩
abbrev GL_REQ_target : BitField := ⟨6, 0⟩
abbrev GL_STAT_cur_tgt : BitField := ⟨22, 16⟩
abbrev GL_STAT_skip : BitField := ⟨9, 9⟩
abbrev GL_STAT_drop : BitField := ⟨8, 8⟩
abbrev GL_STAT_pend : BitField := ⟨1, 1⟩
abbrev GL_STAT_busy : BitField := ⟨0, 0⟩
abbrev GL_RES_INFO_seq : BitField := ⟨31, 24⟩
abbrev GL_RES_INFO_target : BitField := ⟨22, 16⟩
abbrev GL_RES_INFO_sub : BitField := ⟨15, 12⟩
abbrev GL_RES_INFO_source : BitField := ⟨11, 10⟩
abbrev GL_RES_INFO_edge : BitField := ⟨9, 8⟩
abbrev GL_RES_INFO_sat : BitField := ⟨1, 1⟩
abbrev GL_RES_INFO_lim : BitField := ⟨0, 0⟩
abbrev GL_SCHEDA_f : BitField := ⟨31, 24⟩
abbrev GL_SCHEDA_slot : BitField := ⟨13, 0⟩
abbrev GL_SCHEDB_valid : BitField := ⟨31, 31⟩
abbrev GL_SCHEDB_sub : BitField := ⟨11, 8⟩
abbrev GL_SCHEDB_target : BitField := ⟨6, 0⟩
abbrev GL_EDGE_delay : BitField := ⟨31, 16⟩
abbrev GL_EDGE_en : BitField := ⟨15, 15⟩
abbrev GL_EDGE_edge : BitField := ⟨14, 14⟩
abbrev GL_EDGE_pwm : BitField := ⟨13, 11⟩
abbrev GL_EDGE_target : BitField := ⟨10, 4⟩
abbrev GL_EDGE_sub : BitField := ⟨3, 0⟩
abbrev GL_TGT_INFO_frame : BitField := ⟨31, 16⟩
abbrev GL_TGT_INFO_seq : BitField := ⟨15, 8⟩
abbrev GL_TGT_INFO_sub : BitField := ⟨7, 4⟩
abbrev GL_TGT_INFO_valid : BitField := ⟨2, 2⟩
abbrev GL_TGT_INFO_sat : BitField := ⟨1, 1⟩
abbrev GL_TGT_INFO_lim : BitField := ⟨0, 0⟩
abbrev DF_STAT_settling : BitField := ⟨24, 16⟩
abbrev DF_STAT_ft_count : BitField := ⟨5, 0⟩
abbrev DF_SETMAP_set : BitField := ⟨31, 0⟩
abbrev DF_FTSEL_en : BitField := ⟨8, 8⟩
abbrev DF_FTSEL_input : BitField := ⟨7, 0⟩
abbrev DF_RESPINFO_settle : BitField := ⟨31, 16⟩
abbrev DF_RESPINFO_delay_half : BitField := ⟨15, 0⟩
abbrev CAL_STAT_busy : BitField := ⟨31, 31⟩
abbrev CAL_STAT_stage_open : BitField := ⟨30, 30⟩
abbrev CAL_STAT_result : BitField := ⟨25, 24⟩
abbrev CAL_STAT_origin : BitField := ⟨8, 8⟩
abbrev CAL_STAT_none : BitField := ⟨2, 2⟩
abbrev CAL_STAT_rejected : BitField := ⟨1, 1⟩
abbrev CAL_STAT_written : BitField := ⟨0, 0⟩
abbrev CAL_CMD_commit : BitField := ⟨2, 2⟩
abbrev CAL_CMD_close : BitField := ⟨1, 1⟩
abbrev CAL_CMD_open : BitField := ⟨0, 0⟩
abbrev CAL_REJ_reason : BitField := ⟨31, 24⟩
abbrev CAL_REJ_index : BitField := ⟨15, 0⟩
abbrev CAL_STGPTR_word : BitField := ⟨15, 2⟩
abbrev CAL_IDLE_figure : BitField := ⟨15, 0⟩
abbrev CAL_EYE_height : BitField := ⟨23, 16⟩
abbrev CAL_EYE_width : BitField := ⟨7, 0⟩
abbrev CAL_DESKEW_residual : BitField := ⟨7, 0⟩
abbrev TB_CTL_arb_ok : BitField := ⟨9, 9⟩
abbrev TB_CTL_need_lock : BitField := ⟨8, 8⟩
abbrev TB_CTL_run_step : BitField := ⟨7, 7⟩
abbrev TB_CTL_pps_out_en : BitField := ⟨6, 6⟩
abbrev TB_CTL_src : BitField := ⟨1, 0⟩
abbrev TB_STAT_refclk_lost : BitField := ⟨20, 20⟩
abbrev TB_STAT_pps_miss : BitField := ⟨19, 19⟩
abbrev TB_STAT_hold_ent : BitField := ⟨18, 18⟩
abbrev TB_STAT_unlock : BitField := ⟨17, 17⟩
abbrev TB_STAT_stepped : BitField := ⟨16, 16⟩
abbrev TB_STAT_time_port : BitField := ⟨11, 10⟩
abbrev TB_STAT_ring_hold : BitField := ⟨9, 9⟩
abbrev TB_STAT_ref25 : BitField := ⟨8, 8⟩
abbrev TB_STAT_ref_ok : BitField := ⟨7, 7⟩
abbrev TB_STAT_pps_seen : BitField := ⟨6, 6⟩
abbrev TB_STAT_state : BitField := ⟨2, 0⟩
abbrev TB_CMD_step : BitField := ⟨0, 0⟩
abbrev TB_SERVO_kp : BitField := ⟨31, 16⟩
abbrev TB_SERVO_ki : BitField := ⟨15, 0⟩
abbrev TB_LOCK_unlock_thr : BitField := ⟨31, 16⟩
abbrev TB_LOCK_lock_thr : BitField := ⟨15, 0⟩
abbrev TB_SLEW_hold_to : BitField := ⟨23, 16⟩
abbrev TB_SLEW_max_slew : BitField := ⟨15, 0⟩
abbrev TB_PTPCFG_profile : BitField := ⟨24, 24⟩
abbrev TB_PTPCFG_transport : BitField := ⟨21, 20⟩
abbrev TB_PTPCFG_ann_to : BitField := ⟨11, 8⟩
abbrev TB_PTPCFG_domain : BitField := ⟨7, 0⟩
abbrev TB_PTPSTAT_utc_off : BitField := ⟨31, 16⟩
abbrev TB_PTPSTAT_steps_rem : BitField := ⟨15, 8⟩
abbrev TB_PTPSTAT_traceable : BitField := ⟨7, 7⟩
abbrev TB_PTPSTAT_ptp_ts : BitField := ⟨6, 6⟩
abbrev TB_PTPSTAT_port_state : BitField := ⟨3, 0⟩
abbrev TB_PPS_win : BitField := ⟨31, 16⟩
abbrev TB_PPS_in_pol : BitField := ⟨15, 15⟩
abbrev TB_PPS_width : BitField := ⟨8, 0⟩
abbrev TB_SUM_HI_steps : BitField := ⟨31, 24⟩
abbrev TB_SUM_HI_seen : BitField := ⟨11, 8⟩
abbrev TB_SUM_HI_src : BitField := ⟨3, 2⟩
abbrev TB_SUM_HI_ring_hold : BitField := ⟨1, 1⟩
abbrev AQ_MEMCFG_backlog : BitField := ⟨4, 0⟩
abbrev AQ_DRILL_latency : BitField := ⟨7, 0⟩
abbrev AQ_DRILLCMD_go : BitField := ⟨31, 31⟩
abbrev AQ_DRILLCMD_ch : BitField := ⟨3, 0⟩
abbrev AQ_PINCFG_board_dly : BitField := ⟨31, 16⟩
abbrev AQ_PINCFG_en : BitField := ⟨0, 0⟩
abbrev AQ_TOUT_width : BitField := ⟨31, 16⟩
abbrev AQ_TOUT_pol : BitField := ⟨15, 15⟩
abbrev AQ_TOUT_src : BitField := ⟨9, 8⟩
abbrev AQ_TOUT_sel : BitField := ⟨3, 0⟩
abbrev AQ_UCMD_force : BitField := ⟨2, 2⟩
abbrev AQ_UCMD_stop : BitField := ⟨1, 1⟩
abbrev AQ_UCMD_arm : BitField := ⟨0, 0⟩
abbrev AQ_UCFG_inv_viol : BitField := ⟨5, 5⟩
abbrev AQ_UCFG_stop_viol : BitField := ⟨4, 4⟩
abbrev AQ_UCFG_auto : BitField := ⟨3, 3⟩
abbrev AQ_UCFG_stream : BitField := ⟨2, 2⟩
abbrev AQ_UCFG_kind : BitField := ⟨1, 1⟩
abbrev AQ_UCFG_en : BitField := ⟨0, 0⟩
abbrev AQ_UFURROW_index : BitField := ⟨7, 0⟩
abbrev AQ_UAUTO_timeout : BitField := ⟨15, 0⟩
abbrev AQ_USTAT_free : BitField := ⟨31, 16⟩
abbrev AQ_USTAT_coll : BitField := ⟨10, 10⟩
abbrev AQ_USTAT_overrun : BitField := ⟨9, 9⟩
abbrev AQ_USTAT_viol : BitField := ⟨8, 8⟩
abbrev AQ_USTAT_state : BitField := ⟨2, 0⟩
abbrev AQ_UCOND_A_type : BitField := ⟨31, 28⟩
abbrev AQ_UCOND_A_slope : BitField := ⟨27, 26⟩
abbrev AQ_UCOND_A_fold : BitField := ⟨25, 25⟩
abbrev AQ_UCOND_A_tx_en : BitField := ⟨24, 24⟩
abbrev AQ_UCOND_A_src : BitField := ⟨23, 16⟩
abbrev AQ_UCOND_A_tx_ch : BitField := ⟨11, 8⟩
abbrev AQ_UCOND_A_stmask : BitField := ⟨7, 0⟩
abbrev AQ_UMASK_A_en : BitField := ⟨31, 31⟩
abbrev AQ_UMASK_A_src : BitField := ⟨7, 0⟩
abbrev CE_LCTL_apply : BitField := ⟨31, 31⟩
abbrev CE_LCTL_hold : BitField := ⟨23, 16⟩
abbrev CE_LCTL_sp_furrow : BitField := ⟨15, 8⟩
abbrev CE_LCTL_fail_safe : BitField := ⟨7, 7⟩
abbrev CE_LCTL_sp_src : BitField := ⟨6, 6⟩
abbrev CE_LCTL_sections : BitField := ⟨5, 4⟩
abbrev CE_LCTL_law : BitField := ⟨3, 1⟩
abbrev CE_LCTL_en : BitField := ⟨0, 0⟩
abbrev CE_LIN_type : BitField := ⟨31, 30⟩
abbrev CE_LIN_index : BitField := ⟨7, 0⟩
abbrev CE_LOUT_share_id : BitField := ⟨23, 16⟩
abbrev CE_LOUT_share_en : BitField := ⟨15, 15⟩
abbrev CE_LOUT_kind : BitField := ⟨9, 8⟩
abbrev CE_LOUT_index : BitField := ⟨4, 0⟩
abbrev CE_LCOEF_base : BitField := ⟨8, 0⟩
abbrev CE_LSTAT_hold_run : BitField := ⟨31, 24⟩
abbrev CE_LSTAT_pend : BitField := ⟨7, 7⟩
abbrev CE_LSTAT_numeric : BitField := ⟨6, 6⟩
abbrev CE_LSTAT_limit : BitField := ⟨5, 5⟩
abbrev CE_LSTAT_failed : BitField := ⟨4, 4⟩
abbrev CE_LSTAT_holding : BitField := ⟨3, 3⟩
abbrev CE_LSTAT_sat : BitField := ⟨2, 2⟩
abbrev CE_LSTAT_started : BitField := ⟨1, 1⟩
abbrev CE_LSTAT_active : BitField := ⟨0, 0⟩
abbrev CE_STAT_spq : BitField := ⟨21, 12⟩
abbrev CE_STAT_coef_pend : BitField := ⟨0, 0⟩
abbrev CE_CMD_coef_apply : BitField := ⟨0, 0⟩
abbrev CE_RBSTAT_pwm : BitField := ⟨23, 16⟩
abbrev CE_RBSTAT_aout : BitField := ⟨15, 0⟩
abbrev CE_AOCFG_rb_tol : BitField := ⟨31, 24⟩
abbrev CE_AOCFG_safe : BitField := ⟨19, 0⟩
abbrev CE_AOSET_value : BitField := ⟨19, 0⟩
abbrev CE_AOCUR_code : BitField := ⟨19, 0⟩
abbrev CE_PWMCFG_safe : BitField := ⟨31, 16⟩
abbrev CE_PWMCFG_en : BitField := ⟨13, 13⟩
abbrev CE_PWMCFG_pol : BitField := ⟨12, 12⟩
abbrev CE_PWMCFG_d : BitField := ⟨10, 0⟩
abbrev CE_PWMSET_duty : BitField := ⟨15, 0⟩
abbrev CE_PWMCUR_duty : BitField := ⟨15, 0⟩
abbrev HI_CTL_en : BitField := ⟨0, 0⟩
abbrev HI_STAT_gap : BitField := ⟨7, 7⟩
abbrev HI_STAT_db_mal : BitField := ⟨6, 6⟩
abbrev HI_STAT_dma_err : BitField := ⟨5, 5⟩
abbrev HI_STAT_stalled : BitField := ⟨4, 4⟩
abbrev HI_STAT_d0 : BitField := ⟨1, 1⟩
abbrev HI_STAT_up : BitField := ⟨0, 0⟩
abbrev HI_LINK_width : BitField := ⟨7, 4⟩
abbrev HI_LINK_speed : BitField := ⟨3, 0⟩
abbrev HI_MGCFG_vector : BitField := ⟨15, 8⟩
abbrev HI_MGCFG_irq_all : BitField := ⟨7, 7⟩
abbrev HI_MGCFG_lsize : BitField := ⟨3, 0⟩
abbrev HI_MSIX_CTL_mask : BitField := ⟨0, 0⟩
abbrev LN_CTL_reform : BitField := ⟨8, 8⟩
abbrev LN_CTL_auth : BitField := ⟨0, 0⟩
abbrev LN_STAT_hubs : BitField := ⟨29, 24⟩
abbrev LN_STAT_heal_lat : BitField := ⟨17, 17⟩
abbrev LN_STAT_brk_lat : BitField := ⟨16, 16⟩
abbrev LN_STAT_rerouting : BitField := ⟨4, 4⟩
abbrev LN_STAT_auth_on : BitField := ⟨3, 3⟩
abbrev LN_STAT_state : BitField := ⟨2, 0⟩
abbrev LN_ADDR_assigned : BitField := ⟨7, 7⟩
abbrev LN_ADDR_head : BitField := ⟨6, 6⟩
abbrev LN_ADDR_addr : BitField := ⟨5, 0⟩
abbrev LN_PCFG_rate : BitField := ⟨5, 4⟩
abbrev LN_PCFG_lanes : BitField := ⟨1, 0⟩
abbrev LN_PSTAT_partner : BitField := ⟨31, 24⟩
abbrev LN_PSTAT_rate : BitField := ⟨13, 12⟩
abbrev LN_PSTAT_in_service : BitField := ⟨9, 8⟩
abbrev LN_PSTAT_lane_down : BitField := ⟨5, 5⟩
abbrev LN_PSTAT_retry_high : BitField := ⟨4, 4⟩
abbrev LN_PSTAT_state : BitField := ⟨2, 0⟩
abbrev LN_MAP_present : BitField := ⟨31, 31⟩
abbrev LN_MAP_reachable : BitField := ⟨30, 30⟩
abbrev LN_MAP_assigned : BitField := ⟨29, 29⟩
abbrev LN_MAP_position : BitField := ⟨21, 16⟩
abbrev LN_TEST_run : BitField := ⟨31, 31⟩
abbrev LN_TEST_mode : BitField := ⟨30, 28⟩
abbrev LN_TEST_pattern : BitField := ⟨27, 24⟩
abbrev LN_TEST_inject : BitField := ⟨23, 23⟩
abbrev LN_TEST_rate : BitField := ⟨15, 0⟩
abbrev LN_EYE_height : BitField := ⟨23, 16⟩
abbrev LN_EYE_width : BitField := ⟨7, 0⟩
abbrev BL_CTL_clr : BitField := ⟨0, 0⟩
abbrev BL_STAT_streams : BitField := ⟨31, 24⟩
abbrev BL_STAT_vfail : BitField := ⟨2, 2⟩
abbrev BL_STAT_exp_busy : BitField := ⟨1, 1⟩
abbrev BL_STAT_comp_busy : BitField := ⟨0, 0⟩
abbrev BL_LASTERR_reason : BitField := ⟨31, 28⟩
abbrev BL_LASTERR_op : BitField := ⟨23, 16⟩
abbrev BL_LASTERR_furrow : BitField := ⟨7, 0⟩
abbrev MB_CMD_go : BitField := ⟨31, 31⟩
abbrev MB_CMD_hub : BitField := ⟨21, 16⟩
abbrev MB_CMD_service : BitField := ⟨7, 0⟩
abbrev MB_STAT_busy : BitField := ⟨31, 31⟩
abbrev MB_STAT_status : BitField := ⟨7, 0⟩
abbrev MB_PAGE_page : BitField := ⟨1, 0⟩
abbrev VT_STAT_held : BitField := ⟨9, 9⟩
abbrev VT_STAT_tampered : BitField := ⟨8, 8⟩
abbrev VT_STAT_user : BitField := ⟨4, 4⟩
abbrev VT_STAT_owner : BitField := ⟨3, 3⟩
abbrev VT_STAT_armed : BitField := ⟨2, 2⟩
abbrev VT_STAT_state : BitField := ⟨1, 0⟩
abbrev VT_SEALCFG_mode : BitField := ⟨31, 31⟩
abbrev VT_SEALCFG_n : BitField := ⟨23, 0⟩
abbrev VT_SECCFG_need_auth : BitField := ⟨1, 1⟩
abbrev VT_SECCFG_same_owner : BitField := ⟨0, 0⟩
abbrev VT_STFAIL_test : BitField := ⟨7, 0⟩
abbrev VT_TAMPER_supply : BitField := ⟨3, 3⟩
abbrev VT_TAMPER_temp : BitField := ⟨2, 2⟩
abbrev VT_TAMPER_pin : BitField := ⟨1, 1⟩
abbrev VT_TAMPER_mesh : BitField := ⟨0, 0⟩
abbrev SV_CTL_oen_en : BitField := ⟨19, 16⟩
abbrev SV_CTL_pll_react : BitField := ⟨1, 1⟩
abbrev SV_CTL_fe_react : BitField := ⟨0, 0⟩
abbrev SV_STAT_safe : BitField := ⟨31, 31⟩
abbrev SV_STAT_fault : BitField := ⟨30, 30⟩
abbrev SV_STAT_safe_n : BitField := ⟨29, 29⟩
abbrev SV_STAT_ilk_o : BitField := ⟨28, 28⟩
abbrev SV_STAT_ilk_i : BitField := ⟨27, 27⟩
abbrev SV_STAT_twin_pri : BitField := ⟨26, 26⟩
abbrev SV_STAT_oen : BitField := ⟨25, 22⟩
abbrev SV_STAT_ptest_ok : BitField := ⟨1, 1⟩
abbrev SV_STAT_ptest_done : BitField := ⟨0, 0⟩
abbrev SV_CMD_ptest : BitField := ⟨3, 3⟩
abbrev SV_CMD_rejoin : BitField := ⟨2, 2⟩
abbrev SV_CMD_release : BitField := ⟨1, 1⟩
abbrev SV_CMD_safe : BitField := ⟨0, 0⟩
abbrev SV_CAUSE_cause : BitField := ⟨16, 0⟩
abbrev SV_FIRST_valid : BitField := ⟨31, 31⟩
abbrev SV_FIRST_cause : BitField := ⟨28, 24⟩
abbrev SV_FIRST_frame : BitField := ⟨23, 0⟩
abbrev SV_PERMEN_obs : BitField := ⟨4, 4⟩
abbrev SV_PERMEN_twin : BitField := ⟨3, 3⟩
abbrev SV_PERMEN_vault : BitField := ⟨2, 2⟩
abbrev SV_PERMEN_time : BitField := ⟨1, 1⟩
abbrev SV_PERMEN_beacon : BitField := ⟨0, 0⟩
abbrev SV_PERM_obs : BitField := ⟨4, 4⟩
abbrev SV_PERM_twin : BitField := ⟨3, 3⟩
abbrev SV_PERM_vault : BitField := ⟨2, 2⟩
abbrev SV_PERM_time : BitField := ⟨1, 1⟩
abbrev SV_PERM_beacon : BitField := ⟨0, 0⟩
abbrev SV_TEMPLIM_limit : BitField := ⟨7, 0⟩
abbrev SV_TWCFG_take_smp : BitField := ⟨16, 16⟩
abbrev SV_TWCFG_agree : BitField := ⟨15, 8⟩
abbrev SV_TWCFG_k : BitField := ⟨7, 4⟩
abbrev SV_TWCFG_en : BitField := ⟨0, 0⟩
abbrev SV_TWSTAT_mis_run : BitField := ⟨31, 24⟩
abbrev SV_TWSTAT_abort : BitField := ⟨19, 16⟩
abbrev SV_TWSTAT_failover : BitField := ⟨9, 9⟩
abbrev SV_TWSTAT_mismatch : BitField := ⟨8, 8⟩
abbrev SV_TWSTAT_lane : BitField := ⟨4, 4⟩
abbrev SV_TWSTAT_p_ready : BitField := ⟨3, 3⟩
abbrev SV_TWSTAT_role : BitField := ⟨2, 0⟩
abbrev SV_TWLTOL_tol : BitField := ⟨15, 0⟩
abbrev BC_CTL_short_v : BitField := ⟨15, 8⟩
abbrev BC_CTL_derate : BitField := ⟨1, 1⟩
abbrev BC_CTL_en : BitField := ⟨0, 0⟩
abbrev BC_STAT_short : BitField := ⟨31, 24⟩
abbrev BC_STAT_open : BitField := ⟨23, 16⟩
abbrev BC_STAT_fault : BitField := ⟨11, 8⟩
abbrev BC_STAT_lit : BitField := ⟨7, 4⟩
abbrev BC_STAT_stale : BitField := ⟨2, 2⟩
abbrev BC_STAT_trip_lat : BitField := ⟨1, 1⟩
abbrev BC_STAT_tripped : BitField := ⟨0, 0⟩
abbrev BC_CMD_clear : BitField := ⟨3, 0⟩
abbrev BC_TRIP_rec : BitField := ⟨31, 16⟩
abbrev BC_TRIP_trip : BitField := ⟨15, 0⟩
abbrev BC_SCALE_scale : BitField := ⟨31, 24⟩
abbrev BC_SCALE_ntc : BitField := ⟨23, 0⟩
abbrev BC_OUT_grp : BitField := ⟨14, 12⟩
abbrev BC_OUT_imax : BitField := ⟨9, 0⟩
abbrev BC_GRP_safe_sw : BitField := ⟨8, 8⟩
abbrev BC_GRP_en : BitField := ⟨7, 7⟩
abbrev BC_GRP_warn : BitField := ⟨6, 6⟩
abbrev BC_GRP_safe_eng : BitField := ⟨3, 2⟩
abbrev BC_GRP_eng : BitField := ⟨1, 0⟩
abbrev BC_ENG_last : BitField := ⟨7, 4⟩
abbrev BC_ENG_once : BitField := ⟨0, 0⟩
abbrev BC_DERATE_scale : BitField := ⟨31, 24⟩
abbrev BC_DERATE_ohms : BitField := ⟨23, 0⟩
abbrev BC_GAMMA_entry : BitField := ⟨9, 0⟩
abbrev BC_STEP_level : BitField := ⟨31, 22⟩
abbrev BC_STEP_shape : BitField := ⟨21, 20⟩
abbrev BC_STEP_mask : BitField := ⟨19, 12⟩
abbrev BC_STEP_time : BitField := ⟨9, 0⟩
abbrev EV_CFG_vec : BitField := ⟨15, 8⟩
abbrev EV_CFG_ff : BitField := ⟨2, 2⟩
abbrev EV_CFG_en : BitField := ⟨0, 0⟩
abbrev EV_STAT_queued : BitField := ⟨21, 12⟩
abbrev EV_STAT_runs : BitField := ⟨9, 3⟩
abbrev EV_STAT_tr_miss : BitField := ⟨1, 1⟩
abbrev EV_STAT_ff_valid : BitField := ⟨0, 0⟩
abbrev SP_CFG_rx_dly : BitField := ⟨19, 16⟩
abbrev SP_CFG_div : BitField := ⟨15, 8⟩
abbrev SP_CFG_mode : BitField := ⟨1, 0⟩
abbrev SP_STAT_permit : BitField := ⟨9, 9⟩
abbrev SP_STAT_frm_err : BitField := ⟨8, 8⟩
abbrev SP_STAT_sp_busy : BitField := ⟨1, 1⟩
abbrev SP_STAT_xfer_busy : BitField := ⟨0, 0⟩
abbrev SP_SPCFG_sp_en : BitField := ⟨31, 31⟩
abbrev SP_SPCFG_len : BitField := ⟨28, 16⟩
abbrev SP_SPCFG_width : BitField := ⟨10, 8⟩
abbrev SP_SPCFG_sel : BitField := ⟨7, 0⟩
abbrev SP_OBSCFG_timeout : BitField := ⟨15, 8⟩
abbrev SP_OBSCFG_chain : BitField := ⟨5, 0⟩
abbrev SP_OBSPTR_ptr : BitField := ⟨15, 0⟩
abbrev SP_SLOT_en : BitField := ⟨31, 31⟩
abbrev SP_SLOT_wm1 : BitField := ⟨20, 16⟩
abbrev SP_SLOT_pos : BitField := ⟨11, 0⟩
abbrev GLB_REV_stepping : BitField := ⟨15, 8⟩
abbrev GLB_REV_rev : BitField := ⟨7, 0⟩
abbrev GLB_UCODE_stored : BitField := ⟨31, 16⟩
abbrev GLB_UCODE_active : BitField := ⟨15, 0⟩
abbrev GLB_CTL_hold : BitField := ⟨1, 1⟩
abbrev GLB_CTL_run : BitField := ⟨0, 0⟩
abbrev GLB_STAT_acc_err : BitField := ⟨8, 8⟩
abbrev GLB_STAT_pstate : BitField := ⟨1, 0⟩
abbrev GLB_ENSTAT_LO_state : BitField := ⟨1, 0⟩
abbrev GLB_ENSTAT_HI_class : BitField := ⟨31, 24⟩
abbrev GLB_ENSTAT_HI_detail : BitField := ⟨23, 16⟩
abbrev GLB_ENSTAT_HI_index : BitField := ⟨15, 0⟩
abbrev GLB_RSTCAUSE_pre_state : BitField := ⟨9, 8⟩
abbrev GLB_RSTCAUSE_cause : BitField := ⟨3, 0⟩
abbrev GLB_ACCADDR_write : BitField := ⟨31, 31⟩
abbrev GLB_ACCADDR_offset : BitField := ⟨19, 0⟩
abbrev GLB_REQ_go : BitField := ⟨31, 31⟩
abbrev GLB_REQ_result : BitField := ⟨11, 8⟩
abbrev GLB_REQ_op : BitField := ⟨1, 0⟩
abbrev GLB_STRAP_io33 : BitField := ⟨11, 8⟩
abbrev GLB_STRAP_twin_pri : BitField := ⟨7, 7⟩
abbrev GLB_STRAP_head_sel : BitField := ⟨6, 6⟩
abbrev GLB_STRAP_hub_addr : BitField := ⟨5, 0⟩
abbrev GLB_LEDGER_LO_seq : BitField := ⟨31, 0⟩
abbrev GLB_LEDGER_HI_state : BitField := ⟨31, 24⟩
abbrev GLB_LEDGER_HI_gen : BitField := ⟨23, 0⟩

end Fld

/-- One row of a register table: the first address, the counts and strides of an array register (R479), the masks of the
access types of R1, and the reset word. -/
structure RegRow where
  base : Nat
  n : Nat
  s : Nat
  n2 : Nat
  s2 : Nat
  rw : BitVec 32
  rwl : BitVec 32
  rwp : BitVec 32
  w1c : BitVec 32
  wo : BitVec 32
  reset : BitVec 32
  deriving DecidableEq, Repr

/-- The registers of the FR window. -/
def rowsFR : List RegRow := [
  ⟨0x2000, 1, 0x4, 1, 0x4, 0x0, 0x3fff, 0x0, 0x0, 0x0, 0xa0⟩,
  ⟨0x2004, 1, 0x4, 1, 0x4, 0x0, 0xffffffff, 0x0, 0x0, 0x0, 0x0⟩,
  ⟨0x2008, 1, 0x4, 1, 0x4, 0x0, 0xffff, 0x0, 0x0, 0x0, 0x0⟩,
  ⟨0x200c, 1, 0x4, 1, 0x4, 0x0, 0x0, 0x0, 0x0, 0x3, 0x0⟩,
  ⟨0x2010, 1, 0x4, 1, 0x4, 0x0, 0x0, 0x0, 0x6, 0x0, 0x0⟩,
  ⟨0x2014, 1, 0x4, 1, 0x4, 0x0, 0x0, 0x0, 0x0, 0x0, 0x0⟩,
  ⟨0x2018, 1, 0x4, 1, 0x4, 0x0, 0x0, 0x0, 0x0, 0x0, 0x3d0900⟩,
  ⟨0x201c, 1, 0x4, 1, 0x4, 0x0, 0x0, 0x0, 0x0, 0x0, 0x0⟩,
  ⟨0x2020, 1, 0x4, 1, 0x4, 0x0, 0x0, 0x0, 0x0, 0x0, 0x0⟩,
  ⟨0x2024, 1, 0x4, 1, 0x4, 0x0, 0x0, 0x0, 0x0, 0x0, 0x0⟩,
  ⟨0x2028, 1, 0x4, 1, 0x4, 0x0, 0x0, 0x0, 0x0, 0x0, 0x0⟩,
  ⟨0x202c, 1, 0x4, 1, 0x4, 0x0, 0x0, 0x0, 0x0, 0x0, 0x0⟩,
  ⟨0x2030, 1, 0x4, 1, 0x4, 0x0, 0x0, 0x0, 0x0, 0x0, 0x0⟩,
  ⟨0x2034, 1, 0x4, 1, 0x4, 0x0, 0x0, 0x0, 0x0, 0x0, 0x0⟩,
  ⟨0x2038, 1, 0x4, 1, 0x4, 0x0, 0x0, 0x0, 0x0, 0x0, 0x0⟩,
  ⟨0x2040, 6, 0x4, 1, 0x4, 0x0, 0x0, 0x0, 0x0, 0x0, 0x0⟩]

/-- The registers of the FE window. -/
def rowsFE : List RegRow := [
  ⟨0x4000, 1, 0x4, 1, 0x4, 0x3, 0x0, 0x0, 0x0, 0x0, 0x3⟩,
  ⟨0x4004, 1, 0x4, 1, 0x4, 0x0, 0x0, 0x0, 0x300, 0x0, 0x0⟩,
  ⟨0x4008, 1, 0x4, 1, 0x4, 0x0, 0x0, 0x0, 0x0, 0x0, 0x0⟩,
  ⟨0x400c, 1, 0x4, 1, 0x4, 0x0, 0x0, 0x0, 0x0, 0x0, 0x0⟩,
  ⟨0x4010, 1, 0x4, 1, 0x4, 0xffffff03, 0x0, 0x0, 0x0, 0x0, 0x640000⟩,
  ⟨0x4014, 1, 0x4, 1, 0x4, 0xffff, 0x0, 0x0, 0x0, 0x0, 0x0⟩,
  ⟨0x4018, 1, 0x4, 1, 0x4, 0x0, 0x0, 0x0, 0x0, 0x0, 0x0⟩,
  ⟨0x4020, 4, 0x4, 1, 0x4, 0xff03, 0x0, 0x0, 0x0, 0x0, 0x0⟩,
  ⟨0x4100, 32, 0x4, 1, 0x4, 0x0, 0x0, 0x0, 0x0, 0x0, 0x0⟩,
  ⟨0x4200, 32, 0x4, 1, 0x4, 0x0, 0x0, 0x0, 0x0, 0x0, 0xffff0001⟩,
  ⟨0x4400, 1, 0x4, 1, 0x4, 0x0, 0x1, 0x0, 0x0, 0x0, 0x0⟩,
  ⟨0x4404, 1, 0x4, 1, 0x4, 0x0, 0x0, 0x0, 0x2, 0x10000, 0x0⟩,
  ⟨0x4408, 1, 0x4, 1, 0x4, 0x0, 0x0, 0x0, 0x0, 0x0, 0x0⟩,
  ⟨0x4420, 8, 0x4, 1, 0x4, 0x0, 0x0, 0x0, 0xffffffff, 0x0, 0x0⟩]

/-- The registers of the IN window. -/
def rowsIN : List RegRow := [
  ⟨0x10000, 256, 0x20, 1, 0x4, 0x73b731, 0x0, 0x0, 0x0, 0x0, 0x0⟩,
  ⟨0x10004, 256, 0x20, 1, 0x4, 0xffffffff, 0x0, 0x0, 0x0, 0x0, 0x3e80000⟩,
  ⟨0x10008, 256, 0x20, 1, 0x4, 0x7f007f, 0x0, 0x0, 0x0, 0x0, 0x10008⟩,
  ⟨0x1000c, 256, 0x20, 1, 0x4, 0x1ff000f, 0x0, 0x0, 0x0, 0x0, 0x0⟩,
  ⟨0x10010, 256, 0x20, 1, 0x4, 0x3fffff, 0x0, 0x0, 0x0, 0x0, 0x0⟩,
  ⟨0x10014, 256, 0x20, 1, 0x4, 0xffffffff, 0x0, 0x0, 0x0, 0x0, 0x140000⟩,
  ⟨0x10018, 256, 0x20, 1, 0x4, 0xffffffff, 0x0, 0x0, 0x0, 0x0, 0x0⟩,
  ⟨0x1001c, 256, 0x20, 1, 0x4, 0x0, 0x0, 0x0, 0xc000, 0x0, 0x0⟩]

/-- The registers of the GL window. -/
def rowsGL : List RegRow := [
  ⟨0x3000, 1, 0x4, 1, 0x4, 0x0, 0x0, 0x0, 0x0, 0x1, 0x0⟩,
  ⟨0x3004, 1, 0x4, 1, 0x4, 0x0, 0x1ff, 0x0, 0x0, 0x0, 0x1⟩,
  ⟨0x3008, 1, 0x4, 1, 0x4, 0x80000f7f, 0x0, 0x0, 0x0, 0x0, 0x0⟩,
  ⟨0x300c, 1, 0x4, 1, 0x4, 0x0, 0x0, 0x0, 0x300, 0x0, 0x0⟩,
  ⟨0x3010, 1, 0x4, 1, 0x4, 0x0, 0x0, 0x0, 0x0, 0x0, 0x0⟩,
  ⟨0x3020, 1, 0x4, 1, 0x4, 0x0, 0x0, 0x0, 0x0, 0x0, 0x0⟩,
  ⟨0x3024, 1, 0x4, 1, 0x4, 0x0, 0x0, 0x0, 0x0, 0x0, 0x0⟩,
  ⟨0x3028, 1, 0x4, 1, 0x4, 0x0, 0x0, 0x0, 0x0, 0x0, 0x0⟩,
  ⟨0x302c, 1, 0x4, 1, 0x4, 0x0, 0x0, 0x0, 0x0, 0x0, 0x0⟩,
  ⟨0x3100, 32, 0x8, 1, 0x4, 0x0, 0xff003fff, 0x0, 0x0, 0x0, 0x0⟩,
  ⟨0x3104, 32, 0x8, 1, 0x4, 0x0, 0x80000f7f, 0x0, 0x0, 0x0, 0x0⟩,
  ⟨0x3200, 4, 0x4, 1, 0x4, 0xffffffff, 0x0, 0x0, 0x0, 0x0, 0x0⟩,
  ⟨0x3400, 96, 0x8, 1, 0x4, 0x0, 0x0, 0x0, 0x0, 0x0, 0x0⟩,
  ⟨0x3404, 96, 0x8, 1, 0x4, 0x0, 0x0, 0x0, 0x0, 0x0, 0x0⟩,
  ⟨0x3800, 96, 0x8, 1, 0x4, 0xffffffff, 0x0, 0x0, 0x0, 0x0, 0x80000000⟩,
  ⟨0x3804, 96, 0x8, 1, 0x4, 0xffffffff, 0x0, 0x0, 0x0, 0x0, 0x7fffffff⟩]

/-- The registers of the DF window. -/
def rowsDF : List RegRow := [
  ⟨0x14000, 1, 0x4, 1, 0x4, 0x0, 0x0, 0x0, 0x0, 0x0, 0x0⟩,
  ⟨0x14020, 8, 0x4, 1, 0x4, 0x0, 0x0, 0x0, 0x0, 0x0, 0x0⟩,
  ⟨0x14100, 32, 0x4, 1, 0x4, 0x0, 0x1ff, 0x0, 0x0, 0x0, 0x0⟩,
  ⟨0x14200, 16, 0x4, 1, 0x4, 0x0, 0x0, 0x0, 0x0, 0x0, 0x0⟩]

/-- The registers of the CAL window. -/
def rowsCAL : List RegRow := [
  ⟨0x60000, 8, 0x4, 1, 0x4, 0x0, 0x0, 0x0, 0x0, 0x0, 0x0⟩,
  ⟨0x60100, 1, 0x4, 1, 0x4, 0x0, 0x0, 0x0, 0x3, 0x0, 0x0⟩,
  ⟨0x60104, 1, 0x4, 1, 0x4, 0x0, 0x0, 0x4, 0x0, 0x3, 0x0⟩,
  ⟨0x60108, 1, 0x4, 1, 0x4, 0x0, 0x0, 0x0, 0x0, 0x0, 0x0⟩,
  ⟨0x6010c, 1, 0x4, 1, 0x4, 0xfffc, 0x0, 0x0, 0x0, 0x0, 0x0⟩,
  ⟨0x60110, 1, 0x4, 1, 0x4, 0xffffffff, 0x0, 0x0, 0x0, 0x0, 0x0⟩,
  ⟨0x60114, 1, 0x4, 1, 0x4, 0x0, 0x0, 0x0, 0x0, 0x0, 0x0⟩,
  ⟨0x60120, 12, 0x4, 1, 0x4, 0x0, 0x0, 0x0, 0x0, 0x0, 0x0⟩,
  ⟨0x6f800, 256, 0x4, 1, 0x4, 0x0, 0x0, 0x0, 0x0, 0x0, 0x0⟩,
  ⟨0x6fc00, 16, 0x4, 1, 0x4, 0x0, 0x0, 0x0, 0x0, 0x0, 0x0⟩,
  ⟨0x6fc40, 2, 0x4, 1, 0x4, 0x0, 0x0, 0x0, 0x0, 0x0, 0x0⟩]

/-- The registers of the TB window. -/
def rowsTB : List RegRow := [
  ⟨0x1000, 1, 0x4, 1, 0x4, 0x0, 0x3c3, 0x0, 0x0, 0x0, 0x0⟩,
  ⟨0x1004, 1, 0x4, 1, 0x4, 0x0, 0x0, 0x0, 0x1f0000, 0x0, 0x0⟩,
  ⟨0x1008, 1, 0x4, 1, 0x4, 0x0, 0x0, 0x0, 0x0, 0x1, 0x0⟩,
  ⟨0x1010, 1, 0x4, 1, 0x4, 0x0, 0x0, 0x0, 0x0, 0x0, 0x0⟩,
  ⟨0x1014, 1, 0x4, 1, 0x4, 0x0, 0x0, 0x0, 0x0, 0x0, 0x0⟩,
  ⟨0x1018, 1, 0x4, 1, 0x4, 0x0, 0x0, 0x0, 0x0, 0x0, 0x0⟩,
  ⟨0x101c, 1, 0x4, 1, 0x4, 0x0, 0x0, 0x0, 0x0, 0x0, 0x0⟩,
  ⟨0x1020, 1, 0x4, 1, 0x4, 0x0, 0x0, 0x0, 0x0, 0x0, 0x0⟩,
  ⟨0x1024, 1, 0x4, 1, 0x4, 0x0, 0x0, 0x0, 0x0, 0x0, 0x0⟩,
  ⟨0x1028, 1, 0x4, 1, 0x4, 0x0, 0x0, 0x0, 0x0, 0x0, 0x0⟩,
  ⟨0x1030, 1, 0x4, 1, 0x4, 0x0, 0x0, 0x0, 0x0, 0x0, 0x0⟩,
  ⟨0x1034, 1, 0x4, 1, 0x4, 0x0, 0x0, 0x0, 0x0, 0x0, 0x0⟩,
  ⟨0x1038, 1, 0x4, 1, 0x4, 0x0, 0x0, 0x0, 0x0, 0x0, 0x0⟩,
  ⟨0x1040, 1, 0x4, 1, 0x4, 0xffffffff, 0x0, 0x0, 0x0, 0x0, 0x0⟩,
  ⟨0x1044, 1, 0x4, 1, 0x4, 0xffffffff, 0x0, 0x0, 0x0, 0x0, 0x0⟩,
  ⟨0x1050, 1, 0x4, 1, 0x4, 0xffff, 0x0, 0x0, 0x0, 0x0, 0x0⟩,
  ⟨0x1054, 1, 0x4, 1, 0x4, 0xffffffff, 0x0, 0x0, 0x0, 0x0, 0x0⟩,
  ⟨0x1058, 1, 0x4, 1, 0x4, 0xffffffff, 0x0, 0x0, 0x0, 0x0, 0x0⟩,
  ⟨0x105c, 1, 0x4, 1, 0x4, 0xffff, 0x0, 0x0, 0x0, 0x0, 0x0⟩,
  ⟨0x1060, 1, 0x4, 1, 0x4, 0x0, 0xffffffff, 0x0, 0x0, 0x0, 0x40000400⟩,
  ⟨0x1064, 1, 0x4, 1, 0x4, 0x0, 0xffffffff, 0x0, 0x0, 0x0, 0x3e80064⟩,
  ⟨0x1068, 1, 0x4, 1, 0x4, 0x0, 0xffffffff, 0x0, 0x0, 0x0, 0x2710⟩,
  ⟨0x106c, 1, 0x4, 1, 0x4, 0x0, 0xffffff, 0x0, 0x0, 0x0, 0x403e8⟩,
  ⟨0x1070, 1, 0x4, 1, 0x4, 0x0, 0x0, 0x0, 0x0, 0x0, 0x0⟩,
  ⟨0x1080, 1, 0x4, 1, 0x4, 0x0, 0x1300fff, 0x0, 0x0, 0x0, 0x3⟩,
  ⟨0x1084, 1, 0x4, 1, 0x4, 0x0, 0xffffffff, 0x0, 0x0, 0x0, 0x0⟩,
  ⟨0x1088, 1, 0x4, 1, 0x4, 0x0, 0x0, 0x0, 0x0, 0x0, 0x0⟩,
  ⟨0x108c, 1, 0x4, 1, 0x4, 0x0, 0x0, 0x0, 0x0, 0x0, 0x0⟩,
  ⟨0x1090, 1, 0x4, 1, 0x4, 0x0, 0x0, 0x0, 0x0, 0x0, 0x1⟩,
  ⟨0x1094, 1, 0x4, 1, 0x4, 0x0, 0x0, 0x0, 0x0, 0x0, 0x0⟩,
  ⟨0x10a0, 1, 0x4, 1, 0x4, 0x0, 0xffff81ff, 0x0, 0x0, 0x0, 0x640064⟩,
  ⟨0x10a4, 1, 0x4, 1, 0x4, 0xffffffff, 0x0, 0x0, 0x0, 0x0, 0x0⟩,
  ⟨0x10a8, 1, 0x4, 1, 0x4, 0xffff, 0x0, 0x0, 0x0, 0x0, 0x0⟩,
  ⟨0x10b0, 4, 0x4, 1, 0x4, 0x0, 0xffffffff, 0x0, 0x0, 0x0, 0x0⟩,
  ⟨0x10c0, 2, 0x4, 1, 0x4, 0x0, 0x0, 0x0, 0x0, 0x0, 0x0⟩,
  ⟨0x10c8, 1, 0x4, 1, 0x4, 0x0, 0x0, 0x0, 0x0, 0x0, 0x0⟩,
  ⟨0x10d0, 1, 0x4, 1, 0x4, 0x0, 0x0, 0x0, 0x0, 0x0, 0x0⟩,
  ⟨0x10d4, 1, 0x4, 1, 0x4, 0x0, 0x0, 0x0, 0x0, 0x0, 0x0⟩]

/-- The registers of the AQ window. -/
def rowsAQ : List RegRow := [
  ⟨0x18000, 1, 0x4, 1, 0x4, 0x0, 0x1f, 0x0, 0x0, 0x0, 0x8⟩,
  ⟨0x18004, 1, 0x4, 1, 0x4, 0x0, 0x0, 0x0, 0x0, 0x0, 0x1800000⟩,
  ⟨0x18008, 1, 0x4, 1, 0x4, 0x0, 0x0, 0x0, 0x0, 0x0, 0x0⟩,
  ⟨0x1800c, 1, 0x4, 1, 0x4, 0x0, 0x0, 0x0, 0x0, 0x0, 0x0⟩,
  ⟨0x18010, 1, 0x4, 1, 0x4, 0x0, 0xff, 0x0, 0x0, 0x0, 0x28⟩,
  ⟨0x18014, 1, 0x4, 1, 0x4, 0x0, 0x0, 0x0, 0x0, 0x8000000f, 0x0⟩,
  ⟨0x18018, 1, 0x4, 1, 0x4, 0x0, 0x0, 0x0, 0x0, 0x0, 0x0⟩,
  ⟨0x18020, 1, 0x4, 1, 0x4, 0x0, 0x0, 0x0, 0x0, 0x0, 0x0⟩,
  ⟨0x18024, 1, 0x4, 1, 0x4, 0x0, 0x0, 0x0, 0x0, 0x0, 0x0⟩,
  ⟨0x18040, 4, 0x4, 1, 0x4, 0xffff0001, 0x0, 0x0, 0x0, 0x0, 0x0⟩,
  ⟨0x18050, 2, 0x4, 1, 0x4, 0xffff830f, 0x0, 0x0, 0x0, 0x0, 0x0⟩,
  ⟨0x18800, 8, 0x200, 1, 0x4, 0x0, 0x0, 0x0, 0x0, 0x7, 0x0⟩,
  ⟨0x18804, 8, 0x200, 1, 0x4, 0x3f, 0x0, 0x0, 0x0, 0x0, 0x0⟩,
  ⟨0x18808, 8, 0x200, 1, 0x4, 0xffffffff, 0x0, 0x0, 0x0, 0x0, 0x0⟩,
  ⟨0x1880c, 8, 0x200, 1, 0x4, 0xffffffff, 0x0, 0x0, 0x0, 0x0, 0x0⟩,
  ⟨0x18810, 8, 0x200, 1, 0x4, 0xffffffff, 0x0, 0x0, 0x0, 0x0, 0x0⟩,
  ⟨0x18814, 8, 0x200, 1, 0x4, 0xffffffff, 0x0, 0x0, 0x0, 0x0, 0x0⟩,
  ⟨0x18818, 8, 0x200, 1, 0x4, 0xffffffff, 0x0, 0x0, 0x0, 0x0, 0x0⟩,
  ⟨0x1881c, 8, 0x200, 1, 0x4, 0xff, 0x0, 0x0, 0x0, 0x0, 0x0⟩,
  ⟨0x18820, 8, 0x200, 1, 0x4, 0xffff, 0x0, 0x0, 0x0, 0x0, 0x64⟩,
  ⟨0x18824, 8, 0x200, 1, 0x4, 0x0, 0x0, 0x0, 0x700, 0x0, 0x0⟩,
  ⟨0x18828, 8, 0x200, 1, 0x4, 0x0, 0x0, 0x0, 0x0, 0x0, 0x0⟩,
  ⟨0x1882c, 8, 0x200, 1, 0x4, 0x0, 0x0, 0x0, 0x0, 0x0, 0x0⟩,
  ⟨0x18830, 8, 0x200, 1, 0x4, 0x0, 0x0, 0x0, 0x0, 0x0, 0x0⟩,
  ⟨0x18834, 8, 0x200, 1, 0x4, 0x0, 0x0, 0x0, 0x0, 0x0, 0xffffffff⟩,
  ⟨0x18840, 8, 0x200, 8, 0x4, 0xffffffff, 0x0, 0x0, 0x0, 0x0, 0x0⟩,
  ⟨0x18880, 8, 0x200, 8, 0x10, 0xffff0fff, 0x0, 0x0, 0x0, 0x0, 0x0⟩,
  ⟨0x18884, 8, 0x200, 8, 0x10, 0xffffffff, 0x0, 0x0, 0x0, 0x0, 0x0⟩,
  ⟨0x18888, 8, 0x200, 8, 0x10, 0xffffffff, 0x0, 0x0, 0x0, 0x0, 0x0⟩,
  ⟨0x18900, 8, 0x200, 4, 0x14, 0x800000ff, 0x0, 0x0, 0x0, 0x0, 0x0⟩,
  ⟨0x18904, 8, 0x200, 4, 0x14, 0xffffffff, 0x0, 0x0, 0x0, 0x0, 0x0⟩,
  ⟨0x18908, 8, 0x200, 4, 0x14, 0xffffffff, 0x0, 0x0, 0x0, 0x0, 0x0⟩,
  ⟨0x1890c, 8, 0x200, 4, 0x14, 0xffffffff, 0x0, 0x0, 0x0, 0x0, 0x0⟩,
  ⟨0x18910, 8, 0x200, 4, 0x14, 0xffffffff, 0x0, 0x0, 0x0, 0x0, 0x0⟩]

/-- The registers of the CE window. -/
def rowsCE : List RegRow := [
  ⟨0x20000, 32, 0x80, 1, 0x4, 0xffffff, 0x0, 0x0, 0x0, 0x80000000, 0x0⟩,
  ⟨0x20004, 32, 0x80, 1, 0x4, 0xc00000ff, 0x0, 0x0, 0x0, 0x0, 0x0⟩,
  ⟨0x20008, 32, 0x80, 1, 0x4, 0xff831f, 0x0, 0x0, 0x0, 0x0, 0x0⟩,
  ⟨0x2000c, 32, 0x80, 1, 0x4, 0x1ff, 0x0, 0x0, 0x0, 0x0, 0x0⟩,
  ⟨0x20010, 32, 0x80, 1, 0x4, 0x0, 0x0, 0x0, 0x60, 0x0, 0x0⟩,
  ⟨0x20018, 32, 0x80, 1, 0x4, 0xffffffff, 0x0, 0x0, 0x0, 0x0, 0x0⟩,
  ⟨0x2001c, 32, 0x80, 1, 0x4, 0xffffffff, 0x0, 0x0, 0x0, 0x0, 0x0⟩,
  ⟨0x20020, 32, 0x80, 1, 0x4, 0xffffffff, 0x0, 0x0, 0x0, 0x0, 0x0⟩,
  ⟨0x20024, 32, 0x80, 1, 0x4, 0xffffffff, 0x0, 0x0, 0x0, 0x0, 0x0⟩,
  ⟨0x20028, 32, 0x80, 1, 0x4, 0xffffffff, 0x0, 0x0, 0x0, 0x0, 0x0⟩,
  ⟨0x2002c, 32, 0x80, 1, 0x4, 0xffffffff, 0x0, 0x0, 0x0, 0x0, 0x3ff00000⟩,
  ⟨0x20030, 32, 0x80, 1, 0x4, 0xffffffff, 0x0, 0x0, 0x0, 0x0, 0x0⟩,
  ⟨0x20034, 32, 0x80, 1, 0x4, 0xffffffff, 0x0, 0x0, 0x0, 0x0, 0x0⟩,
  ⟨0x20038, 32, 0x80, 1, 0x4, 0xffffffff, 0x0, 0x0, 0x0, 0x0, 0x0⟩,
  ⟨0x2003c, 32, 0x80, 1, 0x4, 0xffffffff, 0x0, 0x0, 0x0, 0x0, 0x0⟩,
  ⟨0x20040, 32, 0x80, 1, 0x4, 0x0, 0x0, 0x0, 0x0, 0x0, 0x0⟩,
  ⟨0x20044, 32, 0x80, 1, 0x4, 0x0, 0x0, 0x0, 0x0, 0x0, 0x0⟩,
  ⟨0x20048, 32, 0x80, 1, 0x4, 0x0, 0x0, 0x0, 0x0, 0x0, 0x0⟩,
  ⟨0x2004c, 32, 0x80, 1, 0x4, 0x0, 0x0, 0x0, 0x0, 0x0, 0x0⟩,
  ⟨0x20050, 32, 0x80, 1, 0x4, 0x0, 0x0, 0x0, 0x0, 0x0, 0x0⟩,
  ⟨0x20054, 32, 0x80, 1, 0x4, 0x0, 0x0, 0x0, 0x0, 0x0, 0x0⟩,
  ⟨0x21000, 1, 0x4, 1, 0x4, 0x0, 0x0, 0x0, 0x0, 0x0, 0x0⟩,
  ⟨0x21004, 1, 0x4, 1, 0x4, 0x0, 0x0, 0x0, 0x0, 0x1, 0x0⟩,
  ⟨0x21008, 1, 0x4, 1, 0x4, 0x0, 0x0, 0x0, 0x0, 0x0, 0x0⟩,
  ⟨0x2100c, 1, 0x4, 1, 0x4, 0x0, 0x0, 0x0, 0xffffff, 0x0, 0x0⟩,
  ⟨0x21040, 16, 0x4, 1, 0x4, 0xff0fffff, 0x0, 0x0, 0x0, 0x0, 0x5000000⟩,
  ⟨0x21080, 16, 0x4, 1, 0x4, 0xfffff, 0x0, 0x0, 0x0, 0x0, 0x0⟩,
  ⟨0x210c0, 16, 0x4, 1, 0x4, 0x0, 0x0, 0x0, 0x0, 0x0, 0x0⟩,
  ⟨0x21100, 8, 0x4, 1, 0x4, 0x0, 0xffff37ff, 0x0, 0x0, 0x0, 0x1⟩,
  ⟨0x21120, 8, 0x4, 1, 0x4, 0xffff, 0x0, 0x0, 0x0, 0x0, 0x0⟩,
  ⟨0x21140, 8, 0x4, 1, 0x4, 0x0, 0x0, 0x0, 0x0, 0x0, 0x0⟩,
  ⟨0x21800, 512, 0x8, 1, 0x4, 0xffffffff, 0x0, 0x0, 0x0, 0x0, 0x0⟩,
  ⟨0x21804, 512, 0x8, 1, 0x4, 0xffffffff, 0x0, 0x0, 0x0, 0x0, 0x0⟩]

/-- The registers of the HI window. -/
def rowsHI : List RegRow := [
  ⟨0x28000, 1, 0x4, 1, 0x4, 0x1, 0x0, 0x0, 0x0, 0x0, 0x0⟩,
  ⟨0x28004, 1, 0x4, 1, 0x4, 0x0, 0x0, 0x0, 0xe0, 0x0, 0x0⟩,
  ⟨0x28008, 1, 0x4, 1, 0x4, 0x0, 0x0, 0x0, 0x0, 0x0, 0x0⟩,
  ⟨0x28010, 1, 0x4, 1, 0x4, 0xffffffff, 0x0, 0x0, 0x0, 0x0, 0x0⟩,
  ⟨0x28014, 1, 0x4, 1, 0x4, 0xffffffff, 0x0, 0x0, 0x0, 0x0, 0x0⟩,
  ⟨0x28018, 1, 0x4, 1, 0x4, 0xffffffff, 0x0, 0x0, 0x0, 0x0, 0x0⟩,
  ⟨0x2801c, 1, 0x4, 1, 0x4, 0xffffffff, 0x0, 0x0, 0x0, 0x0, 0x0⟩,
  ⟨0x28020, 1, 0x4, 1, 0x4, 0xffffffff, 0x0, 0x0, 0x0, 0x0, 0x0⟩,
  ⟨0x28024, 1, 0x4, 1, 0x4, 0xffffffff, 0x0, 0x0, 0x0, 0x0, 0x0⟩,
  ⟨0x28028, 1, 0x4, 1, 0x4, 0xff8f, 0x0, 0x0, 0x0, 0x0, 0xff04⟩,
  ⟨0x28030, 1, 0x4, 1, 0x4, 0x0, 0x0, 0x0, 0x0, 0x0, 0x0⟩,
  ⟨0x28034, 1, 0x4, 1, 0x4, 0x0, 0x0, 0x0, 0x0, 0x0, 0x0⟩,
  ⟨0x28038, 1, 0x4, 1, 0x4, 0x0, 0x0, 0x0, 0x0, 0x0, 0x0⟩,
  ⟨0x28040, 1, 0x4, 1, 0x4, 0x0, 0x0, 0x0, 0x0, 0x0, 0x0⟩,
  ⟨0x28044, 1, 0x4, 1, 0x4, 0x0, 0x0, 0x0, 0x0, 0x0, 0x0⟩,
  ⟨0x28048, 1, 0x4, 1, 0x4, 0x0, 0x0, 0x0, 0x0, 0x0, 0x0⟩,
  ⟨0x2804c, 1, 0x4, 1, 0x4, 0x0, 0x0, 0x0, 0x0, 0x0, 0x0⟩,
  ⟨0x29000, 64, 0x10, 1, 0x4, 0xfffffffc, 0x0, 0x0, 0x0, 0x0, 0x0⟩,
  ⟨0x29004, 64, 0x10, 1, 0x4, 0xffffffff, 0x0, 0x0, 0x0, 0x0, 0x0⟩,
  ⟨0x29008, 64, 0x10, 1, 0x4, 0xffffffff, 0x0, 0x0, 0x0, 0x0, 0x0⟩,
  ⟨0x2900c, 64, 0x10, 1, 0x4, 0x1, 0x0, 0x0, 0x0, 0x0, 0x1⟩,
  ⟨0x29800, 1, 0x4, 1, 0x4, 0x0, 0x0, 0x0, 0x0, 0x0, 0x0⟩,
  ⟨0x29804, 1, 0x4, 1, 0x4, 0x0, 0x0, 0x0, 0x0, 0x0, 0x0⟩]

/-- The registers of the LN window. -/
def rowsLN : List RegRow := [
  ⟨0x30000, 1, 0x4, 1, 0x4, 0x0, 0x1, 0x0, 0x0, 0x100, 0x0⟩,
  ⟨0x30004, 1, 0x4, 1, 0x4, 0x0, 0x0, 0x0, 0x30000, 0x0, 0x0⟩,
  ⟨0x30008, 1, 0x4, 1, 0x4, 0x0, 0x0, 0x0, 0x0, 0x0, 0x3e⟩,
  ⟨0x3000c, 1, 0x4, 1, 0x4, 0xffffffff, 0x0, 0x0, 0x0, 0x0, 0x64⟩,
  ⟨0x30010, 1, 0x4, 1, 0x4, 0x0, 0x0, 0x0, 0x0, 0x0, 0x0⟩,
  ⟨0x30020, 2, 0x4, 1, 0x4, 0x0, 0x33, 0x0, 0x0, 0x0, 0x3⟩,
  ⟨0x30030, 2, 0x4, 1, 0x4, 0x0, 0x0, 0x0, 0x30, 0x0, 0x3f000000⟩,
  ⟨0x30040, 2, 0x4, 1, 0x4, 0x0, 0x0, 0x0, 0x0, 0x0, 0x0⟩,
  ⟨0x30048, 2, 0x4, 1, 0x4, 0x0, 0x0, 0x0, 0x0, 0x0, 0x0⟩,
  ⟨0x30050, 2, 0x4, 1, 0x4, 0x0, 0x0, 0x0, 0x0, 0x0, 0x0⟩,
  ⟨0x30100, 48, 0x4, 1, 0x4, 0x0, 0x0, 0x0, 0x0, 0x0, 0x0⟩,
  ⟨0x30200, 10, 0x10, 1, 0x4, 0xff00ffff, 0x0, 0x0, 0x0, 0x800000, 0x0⟩,
  ⟨0x30204, 10, 0x10, 1, 0x4, 0x0, 0x0, 0x0, 0x0, 0x0, 0x0⟩,
  ⟨0x30208, 10, 0x10, 1, 0x4, 0x0, 0x0, 0x0, 0x0, 0x0, 0x0⟩,
  ⟨0x3020c, 10, 0x10, 1, 0x4, 0x0, 0x0, 0x0, 0x0, 0x0, 0x0⟩,
  ⟨0x30300, 10, 0x4, 1, 0x4, 0x0, 0x0, 0x0, 0x0, 0x0, 0x0⟩]

/-- The registers of the BL window. -/
def rowsBL : List RegRow := [
  ⟨0x38000, 1, 0x4, 1, 0x4, 0x0, 0x0, 0x0, 0x0, 0x1, 0x0⟩,
  ⟨0x38004, 1, 0x4, 1, 0x4, 0x0, 0x0, 0x0, 0x4, 0x0, 0x0⟩,
  ⟨0x38008, 1, 0x4, 1, 0x4, 0x0, 0x0, 0x0, 0x0, 0x0, 0x0⟩,
  ⟨0x3800c, 1, 0x4, 1, 0x4, 0x0, 0x0, 0x0, 0x0, 0x0, 0x0⟩,
  ⟨0x38010, 1, 0x4, 1, 0x4, 0x0, 0x0, 0x0, 0x0, 0x0, 0x0⟩,
  ⟨0x38014, 1, 0x4, 1, 0x4, 0x0, 0x0, 0x0, 0x0, 0x0, 0x0⟩,
  ⟨0x38018, 1, 0x4, 1, 0x4, 0x0, 0x0, 0x0, 0x0, 0x0, 0x0⟩,
  ⟨0x3801c, 1, 0x4, 1, 0x4, 0x0, 0x0, 0x0, 0x0, 0x0, 0x0⟩,
  ⟨0x38020, 1, 0x4, 1, 0x4, 0x0, 0x0, 0x0, 0x0, 0x0, 0x0⟩]

/-- The registers of the MB window. -/
def rowsMB : List RegRow := [
  ⟨0x200000, 1, 0x4, 1, 0x4, 0x803f00ff, 0x0, 0x0, 0x0, 0x0, 0x0⟩,
  ⟨0x200004, 1, 0x4, 1, 0x4, 0x0, 0x0, 0x0, 0x0, 0x0, 0x0⟩,
  ⟨0x200008, 1, 0x4, 1, 0x4, 0xffffffff, 0x0, 0x0, 0x0, 0x0, 0x0⟩,
  ⟨0x20000c, 1, 0x4, 1, 0x4, 0x0, 0x0, 0x0, 0x0, 0x0, 0x0⟩,
  ⟨0x200010, 1, 0x4, 1, 0x4, 0x3, 0x0, 0x0, 0x0, 0x0, 0x0⟩]

/-- The registers of the VT window. -/
def rowsVT : List RegRow := [
  ⟨0x40000, 1, 0x4, 1, 0x4, 0x0, 0x0, 0x0, 0x300, 0x0, 0x0⟩,
  ⟨0x40004, 1, 0x4, 1, 0x4, 0x0, 0x80ffffff, 0x0, 0x0, 0x0, 0x1⟩,
  ⟨0x40008, 1, 0x4, 1, 0x4, 0x0, 0x0, 0x3, 0x0, 0x0, 0x0⟩,
  ⟨0x4000c, 1, 0x4, 1, 0x4, 0x0, 0x0, 0x0, 0x0, 0x0, 0x0⟩,
  ⟨0x40010, 1, 0x4, 1, 0x4, 0x0, 0x0, 0x0, 0x0, 0x0, 0x0⟩,
  ⟨0x40014, 1, 0x4, 1, 0x4, 0x0, 0x0, 0x0, 0x0, 0x0, 0x0⟩,
  ⟨0x40018, 1, 0x4, 1, 0x4, 0x0, 0x0, 0x0, 0x0, 0x0, 0x0⟩,
  ⟨0x4001c, 1, 0x4, 1, 0x4, 0x0, 0x0, 0x0, 0x0, 0x0, 0x0⟩,
  ⟨0x40020, 1, 0x4, 1, 0x4, 0x0, 0x0, 0x0, 0x0, 0x0, 0x0⟩,
  ⟨0x40024, 1, 0x4, 1, 0x4, 0x0, 0x0, 0x0, 0x0, 0x0, 0x0⟩,
  ⟨0x40028, 1, 0x4, 1, 0x4, 0x0, 0x0, 0x0, 0xf, 0x0, 0x0⟩]

/-- The registers of the SV window. -/
def rowsSV : List RegRow := [
  ⟨0x48000, 1, 0x4, 1, 0x4, 0x0, 0xf0003, 0x0, 0x0, 0x0, 0x0⟩,
  ⟨0x48004, 1, 0x4, 1, 0x4, 0x0, 0x0, 0x0, 0x0, 0x0, 0x0⟩,
  ⟨0x48008, 1, 0x4, 1, 0x4, 0x0, 0x0, 0x0, 0x0, 0xf, 0x0⟩,
  ⟨0x4800c, 1, 0x4, 1, 0x4, 0x0, 0x0, 0x0, 0x1ffff, 0x0, 0x0⟩,
  ⟨0x48010, 1, 0x4, 1, 0x4, 0x0, 0x0, 0x0, 0x0, 0x0, 0x0⟩,
  ⟨0x48014, 1, 0x4, 1, 0x4, 0x0, 0x1e, 0x0, 0x0, 0x0, 0x0⟩,
  ⟨0x48018, 1, 0x4, 1, 0x4, 0x0, 0x0, 0x0, 0x0, 0x0, 0x0⟩,
  ⟨0x4801c, 1, 0x4, 1, 0x4, 0x0, 0xff, 0x0, 0x0, 0x0, 0x78⟩,
  ⟨0x48020, 1, 0x4, 1, 0x4, 0x0, 0x0, 0x0, 0x0, 0x0, 0x0⟩,
  ⟨0x48100, 1, 0x4, 1, 0x4, 0x0, 0x1fff1, 0x0, 0x0, 0x0, 0x330⟩,
  ⟨0x48104, 1, 0x4, 1, 0x4, 0x0, 0x0, 0x0, 0x300, 0x0, 0x0⟩,
  ⟨0x48108, 1, 0x4, 1, 0x4, 0x0, 0xffffffff, 0x0, 0x0, 0x0, 0x0⟩,
  ⟨0x4810c, 1, 0x4, 1, 0x4, 0x0, 0xffffffff, 0x0, 0x0, 0x0, 0x0⟩,
  ⟨0x48110, 1, 0x4, 1, 0x4, 0x0, 0x0, 0x0, 0x0, 0x0, 0x0⟩,
  ⟨0x48120, 8, 0x4, 1, 0x4, 0x0, 0xffffffff, 0x0, 0x0, 0x0, 0x0⟩,
  ⟨0x48180, 32, 0x4, 1, 0x4, 0x0, 0xffff, 0x0, 0x0, 0x0, 0x0⟩]

/-- The registers of the BC window. -/
def rowsBC : List RegRow := [
  ⟨0x58000, 1, 0x4, 1, 0x4, 0x0, 0xff03, 0x0, 0x0, 0x0, 0x1e00⟩,
  ⟨0x58004, 1, 0x4, 1, 0x4, 0x0, 0x0, 0x0, 0x2, 0x0, 0x0⟩,
  ⟨0x58008, 1, 0x4, 1, 0x4, 0x0, 0x0, 0x0, 0x0, 0xf, 0x0⟩,
  ⟨0x5800c, 1, 0x4, 1, 0x4, 0x0, 0xffffffff, 0x0, 0x0, 0x0, 0x0⟩,
  ⟨0x58010, 1, 0x4, 1, 0x4, 0x0, 0x0, 0x0, 0x0, 0x0, 0xff000000⟩,
  ⟨0x58020, 8, 0x4, 1, 0x4, 0x0, 0x73ff, 0x0, 0x0, 0x0, 0x7000⟩,
  ⟨0x58040, 4, 0x4, 1, 0x4, 0x0, 0x1cf, 0x0, 0x0, 0x0, 0x0⟩,
  ⟨0x58050, 4, 0x4, 1, 0x4, 0x0, 0xf1, 0x0, 0x0, 0x0, 0x0⟩,
  ⟨0x58060, 4, 0x4, 1, 0x4, 0x0, 0xffffffff, 0x0, 0x0, 0x0, 0xff000000⟩,
  ⟨0x58080, 33, 0x4, 1, 0x4, 0x0, 0x3ff, 0x0, 0x0, 0x0, 0x0⟩,
  ⟨0x58200, 4, 0x40, 16, 0x4, 0x0, 0xfffff3ff, 0x0, 0x0, 0x0, 0x0⟩]

/-- The registers of the EV window. -/
def rowsEV : List RegRow := [
  ⟨0x70000, 64, 0x10, 1, 0x4, 0xff05, 0x0, 0x0, 0x0, 0x0, 0xff01⟩,
  ⟨0x70004, 64, 0x10, 1, 0x4, 0x0, 0x0, 0x0, 0x0, 0x0, 0x0⟩,
  ⟨0x70008, 64, 0x10, 1, 0x4, 0x0, 0x0, 0x0, 0x0, 0x0, 0x0⟩,
  ⟨0x7000c, 64, 0x10, 1, 0x4, 0x0, 0x0, 0x0, 0x0, 0x0, 0x0⟩,
  ⟨0x70400, 1, 0x4, 1, 0x4, 0x0, 0x0, 0x0, 0x0, 0x0, 0x0⟩,
  ⟨0x70404, 1, 0x4, 1, 0x4, 0x0, 0x0, 0x0, 0x0, 0x0, 0x0⟩,
  ⟨0x70408, 1, 0x4, 1, 0x4, 0x0, 0x0, 0x0, 0x0, 0x0, 0x0⟩,
  ⟨0x7040c, 1, 0x4, 1, 0x4, 0xffffffff, 0x0, 0x0, 0x0, 0x0, 0x0⟩,
  ⟨0x70410, 1, 0x4, 1, 0x4, 0x0, 0x0, 0x0, 0x0, 0x0, 0x0⟩,
  ⟨0x70420, 8, 0x4, 1, 0x4, 0x0, 0x0, 0x0, 0x0, 0x0, 0x0⟩]

/-- The registers of the SP window. -/
def rowsSP : List RegRow := [
  ⟨0x50000, 1, 0x4, 1, 0x4, 0x0, 0xfff03, 0x0, 0x0, 0x0, 0x400⟩,
  ⟨0x50004, 1, 0x4, 1, 0x4, 0x0, 0x0, 0x0, 0x100, 0x0, 0x0⟩,
  ⟨0x50008, 1, 0x4, 1, 0x4, 0x0, 0x9fff07ff, 0x0, 0x0, 0x0, 0x0⟩,
  ⟨0x5000c, 1, 0x4, 1, 0x4, 0x0, 0xff3f, 0x0, 0x0, 0x0, 0x6401⟩,
  ⟨0x50010, 1, 0x4, 1, 0x4, 0x0, 0x0, 0x0, 0x0, 0x0, 0x0⟩,
  ⟨0x50014, 1, 0x4, 1, 0x4, 0x0, 0x0, 0x0, 0x0, 0x0, 0x0⟩,
  ⟨0x50080, 32, 0x4, 1, 0x4, 0x0, 0x801f0fff, 0x0, 0x0, 0x0, 0x0⟩,
  ⟨0x50100, 32, 0x4, 1, 0x4, 0x0, 0xffffffff, 0x0, 0x0, 0x0, 0x0⟩,
  ⟨0x50200, 128, 0x4, 1, 0x4, 0x0, 0xffffffff, 0x0, 0x0, 0x0, 0x0⟩,
  ⟨0x50400, 128, 0x4, 1, 0x4, 0x0, 0x0, 0x0, 0x0, 0x0, 0x0⟩]

/-- The registers of the GLB window. -/
def rowsGLB : List RegRow := [
  ⟨0x0, 1, 0x4, 1, 0x4, 0x0, 0x0, 0x0, 0x0, 0x0, 0x2561d7c⟩,
  ⟨0x4, 1, 0x4, 1, 0x4, 0x0, 0x0, 0x0, 0x0, 0x0, 0x11d7c⟩,
  ⟨0x8, 1, 0x4, 1, 0x4, 0x0, 0x0, 0x0, 0x0, 0x0, 0x4202⟩,
  ⟨0xc, 1, 0x4, 1, 0x4, 0x0, 0x0, 0x0, 0x0, 0x0, 0x0⟩,
  ⟨0x10, 1, 0x4, 1, 0x4, 0x0, 0x0, 0x0, 0x0, 0x0, 0x0⟩,
  ⟨0x14, 1, 0x4, 1, 0x4, 0x0, 0x0, 0x0, 0x0, 0x0, 0x0⟩,
  ⟨0x18, 1, 0x4, 1, 0x4, 0x3, 0x0, 0x0, 0x0, 0x0, 0x0⟩,
  ⟨0x1c, 1, 0x4, 1, 0x4, 0x0, 0x0, 0x0, 0x100, 0x0, 0x0⟩,
  ⟨0x20, 1, 0x4, 1, 0x4, 0x0, 0x0, 0x0, 0x0, 0x0, 0x0⟩,
  ⟨0x24, 1, 0x4, 1, 0x4, 0x0, 0x0, 0x0, 0x0, 0x0, 0x0⟩,
  ⟨0x28, 1, 0x4, 1, 0x4, 0x0, 0x0, 0x0, 0x0, 0x0, 0x0⟩,
  ⟨0x2c, 1, 0x4, 1, 0x4, 0x0, 0x0, 0x0, 0x0, 0x0, 0x0⟩,
  ⟨0x30, 1, 0x4, 1, 0x4, 0x80000003, 0x0, 0x0, 0x0, 0x0, 0x0⟩,
  ⟨0x40, 1, 0x4, 1, 0x4, 0x0, 0x0, 0x0, 0x0, 0x0, 0x0⟩,
  ⟨0x800, 256, 0x8, 1, 0x4, 0x0, 0x0, 0x0, 0x0, 0x0, 0x0⟩,
  ⟨0x804, 256, 0x8, 1, 0x4, 0x0, 0x0, 0x0, 0x0, 0x0, 0x0⟩]

/-- The setup-space windows of R478 with the rows of each: first and last offset. -/
def windowRows (off : Nat) : List RegRow :=
  if off < 0x1000 then rowsGLB else
  if off < 0x2000 then rowsTB else
  if off < 0x3000 then rowsFR else
  if off < 0x4000 then rowsGL else
  if off < 0x10000 then rowsFE else
  if off < 0x14000 then rowsIN else
  if off < 0x18000 then rowsDF else
  if off < 0x20000 then rowsAQ else
  if off < 0x28000 then rowsCE else
  if off < 0x30000 then rowsHI else
  if off < 0x38000 then rowsLN else
  if off < 0x40000 then rowsBL else
  if off < 0x48000 then rowsVT else
  if off < 0x50000 then rowsSV else
  if off < 0x58000 then rowsSP else
  if off < 0x60000 then rowsBC else
  if off < 0x70000 then rowsCAL else
  if off < 0x80000 then rowsEV else
  if off < 0x200000 then [] else rowsMB

/-- Whether a row covers an offset (R479). -/
def RegRow.covers (r : RegRow) (off : Nat) : Bool :=
  let d := off - r.base
  decide (r.base ≤ off) && decide (d / r.s < r.n) && decide (d % r.s % r.s2 = 0) && decide (d % r.s / r.s2 < r.n2)

/-- The row of an offset; `none` for an unimplemented offset (R7). -/
def regRow? (off : Nat) : Option RegRow := (windowRows off).find? (fun r => r.covers off)

/-- The sources whose EV_CFG.ff is 1 at reset (R442). -/
def ffSources : List Nat := [0, 1, 13, 14, 30, 35, 37, 42, 48, 53, 56, 57, 60]

/-- The reset word of an offset: its row's, but for the array registers whose reset depends on the index: IN_LEAD
(R63, R87), BC_GAMMA (R425) and EV_CFG (R442). An unimplemented offset reads 0 (R7). -/
def resetWord (off : Nat) : Word :=
  match regRow? off with
  | none => 0
  | some r =>
    if r.base = Reg.IN_LEAD 0 then BitVec.ofNat 32 ((off - r.base) / 0x20 / 8 * 0x10000)
    else if r.base = Reg.BC_GAMMA 0 then
      (if (off - r.base) / 4 = 32 then 1023 else BitVec.ofNat 32 (32 * ((off - r.base) / 4)))
    else if r.base = Reg.EV_CFG 0 then
      (if ffSources.contains ((off - r.base) / 16) then 0xFF05 else 0xFF01)
    else r.reset

/-- The multi-word values (R8, R9): the address of the lowest word of a value, and how many words it has. -/
structure MultiRow where
  base : Nat
  n : Nat
  s : Nat
  words : Nat
  deriving DecidableEq, Repr

/-- Every multi-word value a chapter names: R49, R115, R159, R172, R237, R263, R297, R332, R355, R390, R440, R480. -/
def multiRows : List MultiRow := [
  ⟨Reg.GLB_SERIAL_LO, 1, 8, 2⟩, ⟨Reg.GLB_ENSTAT_LO, 1, 8, 2⟩, ⟨Reg.GLB_LEDGER_LO 0, 256, 8, 2⟩,
  ⟨Reg.FR_EPOCH_LO, 1, 8, 2⟩, ⟨Reg.FR_FRAME_LO, 1, 8, 2⟩, ⟨Reg.FR_FIRST_LO, 1, 8, 2⟩, ⟨Reg.FR_LASTOVR_LO, 1, 8, 2⟩,
  ⟨Reg.TB_NOW_FRAC, 1, 28, 7⟩, ⟨Reg.TB_OFF_FRAC, 1, 12, 3⟩, ⟨Reg.TB_RATE_LO, 1, 8, 2⟩, ⟨Reg.TB_SET_FRAC, 1, 16, 4⟩,
  ⟨Reg.TB_PTPGM_LO, 1, 8, 2⟩, ⟨Reg.TB_PPSSEC_LO, 1, 8, 2⟩, ⟨Reg.TB_SUM_LO, 1, 8, 2⟩,
  ⟨Reg.GL_RES_VAL, 1, 16, 4⟩, ⟨Reg.GL_TGT_VAL 0, 96, 8, 2⟩,
  ⟨Reg.CE_LSP_LO 0, 32, 0x80, 2⟩, ⟨Reg.CE_LUMIN_LO 0, 32, 0x80, 2⟩, ⟨Reg.CE_LUMAX_LO 0, 32, 0x80, 2⟩,
  ⟨Reg.CE_LSLEW_LO 0, 32, 0x80, 2⟩, ⟨Reg.CE_LSAFE_LO 0, 32, 0x80, 2⟩, ⟨Reg.CE_LOUTV_LO 0, 32, 0x80, 2⟩,
  ⟨Reg.CE_LPV_LO 0, 32, 0x80, 2⟩, ⟨Reg.CE_LINTEG_LO 0, 32, 0x80, 2⟩, ⟨Reg.CE_COEF_LO 0, 512, 8, 2⟩,
  ⟨Reg.HI_DB_LO, 1, 8, 2⟩, ⟨Reg.HI_MGD_LO, 1, 8, 2⟩, ⟨Reg.HI_MGC_LO, 1, 8, 2⟩, ⟨Reg.HI_DMAERR_LO, 1, 8, 2⟩,
  ⟨Reg.LN_TBITS_LO 0, 10, 0x10, 2⟩, ⟨Reg.BL_IN_LO, 1, 8, 2⟩, ⟨Reg.BL_OUT_LO, 1, 8, 2⟩, ⟨Reg.VT_KEYID_LO, 1, 8, 2⟩,
  ⟨Reg.CAL_STGHASH 0, 1, 48, 12⟩, ⟨Reg.EV_FF 0, 1, 32, 8⟩]

/-- Whether a multi-word row covers an offset. -/
def MultiRow.covers (r : MultiRow) (off : Nat) : Bool :=
  decide (r.base ≤ off) && decide ((off - r.base) / r.s < r.n) && decide ((off - r.base) % r.s / 4 < r.words)

/-- For an offset inside a multi-word value: the address of its lowest word, and its number of words. -/
def multiOf? (off : Nat) : Option (Nat × Nat) :=
  match multiRows.find? (fun r => r.covers off) with
  | none => none
  | some r => some (r.base + (off - r.base) / r.s * r.s, r.words)

end Sys2Proof.Machine
end

