-- ==== Sys2Proof/Machine/State.lean ====
section
/-! DEFINITION. The state of the hub, plain data: its registers, and behind them every piece of state the chapters give
its blocks.  What the spec's registers show of it is formed at the read (Machine/HostBus.lean) where the spec derives
it, and stands in the register map where the register is its home. -/

namespace Sys2Proof.Machine

/-- Why a step stops with a fault.  No command of the hub stops it: every error the spec names is an event, a status bit
or a completion status, so exec never answers a fault and the type has no use (safe: nothing is hidden by a stop).  The
one constructor stands for "never". -/
inductive Fault where
  /-- Raised by no command (safe). -/
  | never
  deriving DecidableEq, Repr

/-- Why a command has no meaning. -/
inductive Refusal where
  /-- An arm of exec that is not modelled yet (safe: the block stops). -/
  | notModelled (mnemonic : String)
  deriving DecidableEq, Repr

/-! ## Power, reset and enabling (chapter 18) -/

/-- The power states of R462 with start-up; Safe is a substate of Run and stands in `SvSt.safe`. -/
inductive Power where
  | off | fallow | startUp | idle | hold | run
  deriving DecidableEq, Repr

/-- State of the power and enable logic (R458 to R477). -/
structure PwSt where
  power : Power
  /-- RESET_N, PERST# or power-fail holds the hub in reset until its release (R460, R465, R468). -/
  inReset : Bool
  /-- The Fallow domain is valid (R461). -/
  fallowValid : Bool
  /-- The consistency check is running (R473). -/
  checking : Bool
  /-- A member that passed its check waits for the head (R475). -/
  waiting : Bool
  /-- What the head has distributed last: on a member, the parameters of the ring (R318, R475). -/
  headParams : Option RingParams
  /-- The tick after which Run ends, once GLB_CTL.run = 0 was written (R476). -/
  lastTick : Option Nat
  /-- PERST# is asserted on a head (R469). -/
  perst : Bool
  /-- The function is in D0 with Bus Master Enable (R265). -/
  d0 : Bool
  /-- On a member: the head's state, as it was last told (R297). -/
  headD0 : Bool
  /-- Straps sampled at power good (GLB_STRAP, R459, R480). -/
  headSel : Bool
  twinPri : Bool
  hubAddr : BitVec 6
  io33 : BitVec 4
  /-- Serial number of the die (R485). -/
  serial : Word64
  /-- A measurement-chain check of GLB_REQ op 1: the outcome so far and the targets still to convert (R485). -/
  reqTargets : List Nat
  reqResult : Nat
  /-- A check of op 1 runs: until GLB_REQ.go clears (R485). -/
  reqGlean : Bool
  deriving DecidableEq, Repr

/-! ## Time (chapter 8) -/

/-- A step of corrected time waiting for its tick (R189). -/
structure StepPlan where
  tick : Nat
  /-- Signed step in units of 2^-16 ns. -/
  delta : Int
  /-- The cause code of TIME_STEP (R434): 1 host; 2 Run step. -/
  cause : Nat
  deriving DecidableEq, Repr

/-- Half of a stamp exchange on a ring port (R194): what this hub must hold until the partner's stamps arrive. -/
structure LinkStamps where
  /-- Times of this hub's last four time cells sent on the port, newest first. -/
  sent : List Int
  /-- Receive time of the partner's last cell on the port. -/
  rcvd : Option Int
  /-- The last 64 means, newest first, in 2^-16 ns. -/
  means : List Int
  deriving DecidableEq, Repr

/-- The time base (R170 to R198). -/
structure TbSt where
  /-- The 500 MHz counter (R170). -/
  cnt : Word64
  /-- The signed offset, exact, in units of 2^-64 ns (R171). -/
  off : Int
  /-- Raw time of the last rate change, in units of 2^-16 ns (R171). -/
  anchor : Int
  /-- The servo integrator, exact, in units of 2^-48 / (2·10^9) (R185). -/
  integ : Int
  /-- The integrator at the last 16 measurements, newest first (R190). -/
  integs : List Int
  /-- Consecutive measurements within lock_thr (R186). -/
  lockRun : Nat
  /-- The servo was LOCKED since the last step (R183). -/
  lockedOnce : Bool
  /-- TB_PPSSEC has been written since reset (R192). -/
  ppsSecSet : Bool
  /-- PPS_MISSING was raised in the present run of missing edges (R183). -/
  ppsMissRun : Bool
  /-- The level of PPS_OUT (R184). -/
  ppsOut : Bool
  /-- Path delays of the last 16 exchanges, newest first, in 2^-16 ns (R180). -/
  mpds : List Int
  /-- A Delay_Req waits for its response: its transmit stamp (R180). -/
  delayReq : Option Int
  /-- The last Sync's stamps t2 and t1', kept for a later exchange (R180). -/
  lastSync : Option (Int × Int)
  /-- The raw time of the last accepted Sync (R174). -/
  syncRaw : Option Int
  /-- The ring has formed and this member has not yet stepped to the head's time (R187). -/
  formStep : Bool
  /-- TB_STAT.time_port of the last ring measurement, 0 before the first (R193). -/
  lastPort : Nat
  /-- A grandmaster is selected and its Syncs are accepted (R181, R182). -/
  gmOk : Bool
  /-- A step that waits for its tick (R189). -/
  step : Option StepPlan
  /-- Stamp exchanges with the neighbours on U, D and the twin lane (R194). -/
  linkU : LinkStamps
  linkD : LinkStamps
  linkT : LinkStamps
  /-- The data set of the selected grandmaster (R181, R182). -/
  gm : Option Announce
  /-- The raw time of the last PPS_IN edge stamped (R183, TB_STAT.pps_seen). -/
  ppsLast : Option Int
  deriving DecidableEq, Repr

/-! ## Frame scheduler (chapter 2) -/

/-- A frame that overruns (R40): its number, whether a step before seal was cut, the cycles that its work takes from the next
window, and the cycles of its six steps. -/
structure Overrun where
  frame : Nat
  cut : Bool
  carry : Nat
  cycles : List Nat
  deriving DecidableEq, Repr

/-- The frame scheduler (R31 to R43). -/
structure FrSt where
  /-- The frame whose window is open or was the last to open is FR_FRAME; this is the tick that opens the next one. -/
  nextTick : Nat
  /-- The epoch in force, TAI seconds (R31, R32). -/
  epoch : Nat
  /-- The tick at which acquisition starts (R33). -/
  tickS : Nat
  /-- The last window overruns; of a cut frame the seal and deliver steps wait for the next tick (R40). -/
  overrun : Option Overrun
  /-- Frames skipped by a time step that wait for the next issued tick (R189). -/
  skipped : List Nat
  /-- Modulator words by which a backward step stretches the present interval (R189). -/
  stretch : Nat
  /-- Consecutive ticks at which the control heartbeat was missing (R43). -/
  hbMissing : Nat
  /-- The heartbeat of the last window was posted (R43). -/
  hbPosted : Bool
  /-- The count at which the present window opened, and the work in it, in order: the phase code of FR_STAT and its cycles (R34,
  R49). -/
  opened : Word64
  work : List (Nat × Nat)
  /-- The reset code that the closure record at the end of Run carries (R469). -/
  endReset : Nat
  deriving DecidableEq, Repr

/-! ## Events and the fault trace (chapter 16) -/

/-- One event record (R292, R434). Times are corrected time in units of 2^-16 ns. -/
structure EvRec where
  src : Nat
  /-- The address of the hub at the occurrence. -/
  hub : Nat
  /-- rflags: bit 0 first, bit 1 summary, bit 2 twin. -/
  rflags : Nat
  occ : Word
  time : Int
  obj : Nat
  cause : Nat
  aux8 : Nat
  data : Word64
  deriving DecidableEq, Repr

/-- An open coalesced run of a source (R436). -/
structure EvRun where
  src : Nat
  first : EvRec
  count : Word
  lastOcc : Word
  lastTime : Int
  deriving DecidableEq, Repr

/-- The event queue, the open runs and the fault trace (R435 to R440). -/
structure EvSt where
  queue : List EvRec
  /-- Open runs in the order of their first occurrence. -/
  runs : List EvRun
  /-- The entries held, oldest first, at most 2,048. -/
  trace : List EvRec
  /-- The next word of the selected entry (R439). -/
  trWord : Nat
  /-- EV_FF[0] was read and EV_FF[7] not since (R440). -/
  ffArmed : Bool
  /-- Vectors already sent in this base slot while no EVENT furrow exists (R435). -/
  slotVecs : List Nat
  slotNo : Int
  /-- The records in the EVENT buffer being filled (R287, R435). -/
  bufRecs : List EvRec
  deriving DecidableEq, Repr

/-! ## Furrows (chapter 11) -/

inductive FurrowKind where
  | mgmt | sample | plot | setpoint | job | seal | side | event
  deriving DecidableEq, Repr

/-- The completion statuses the spec names; it gives them no numbers (R281). -/
inductive CStatus where
  | done | doneEmpty | failedParam | failedLimit | failedSpace | failedDma | failedLate | failedSafe | failedVault
  | failedVerify | abortedDestroy | abortedRecovery | skippedStall
  deriving DecidableEq, Repr

/-- A completion as written to a completion ring (R281). -/
structure Completion where
  furrow : Nat
  seq : Word
  status : CStatus
  twin : Bool
  ecc : Bool
  more : Bool
  first : Bool
  phase : Bool
  len : Nat
  aux : Word
  deriving DecidableEq, Repr

/-- What has become of a fetched item. -/
inductive ItemSt where
  /-- Given back to the ring by a stall: its descriptor is to be fetched again (R268, R294). -/
  | back
  /-- Fetched, not started: behind a fence, a subsystem reset or the previous item of furrow 0. -/
  | held
  /-- Started: a posted buffer, a queued setpoint, a job or transfer in work, a waiting fence. -/
  | active
  /-- Its outcome stands; its completion waits for its turn in sequence order (R283). -/
  | finished (status : CStatus) (len : Nat) (aux : Word) (ecc more first : Bool)
  deriving DecidableEq, Repr

/-- A fetched item of a furrow. -/
structure Item where
  seq : Word
  op : Byte
  desc : Desc
  /-- The parameter block a CREATE reads: none when its read fails (R271). -/
  block : Option (List Byte)
  st : ItemSt
  /-- Bytes already written into the buffer, and records among them (R292). -/
  wrote : Nat
  recs : Nat
  /-- The host will refuse the write of data into this buffer, at this address (R287). -/
  refused : Option Word64
  deriving DecidableEq, Repr

/-- An entry record of the chain (R369). -/
structure EntryRec where
  kind : Nat
  furrow : Nat
  sealNo : Word
  pos : Word
  length : Nat
  digest : List Byte
  deriving DecidableEq, Repr

/-- The values and status bytes one frame contributes to a block, in slot order (R285), with its flag nibble. -/
structure FrameSlots where
  frame : Nat
  nibble : BitVec 4
  values : List Word
  status : List Byte
  deriving DecidableEq, Repr

/-- A closed sample block (R285, R288). -/
structure Block where
  furrow : Nat
  first : Nat
  frames : List FrameSlots
  slots : Nat
  gap : Bool
  twin : Bool
  /-- Tick time of the first frame, units of 2^-16 ns. -/
  tick : Int
  groups : Word
  epoch : Word
  sealNo : Word
  pos : Word
  /-- Its entry record, which a discard notice repeats (R373); none while no object enters a chain (R376). -/
  entry : Option EntryRec
  deriving DecidableEq, Repr

/-- A part on its way to a PLOT furrow (R290): its bytes, and how many of them earlier buffers of the part took. -/
structure Part where
  unit : Nat
  plotSeq : Word
  bytes : List Byte
  sent : Nat
  /-- The part is the record's last, so its completion raises PLOT_DONE (R434). -/
  last : Bool
  /-- The byte of the part at which an uncorrectable error was met (R201). -/
  eccAt : Option Nat
  /-- Bytes of rows it occupies in a streaming unit's FIFO (R228). -/
  fifo : Nat
  /-- The record it is of occupies a slot (R232). -/
  slot : Bool
  entry : Option EntryRec
  deriving DecidableEq, Repr

/-- A furrow (R269 to R295). -/
structure Furrow where
  kind : FurrowKind
  handle : Word
  lsize : Nat
  vector : Nat
  irqAll : Bool
  descRing : Word64
  cplRing : Word64
  /-- Frames per block and input mask of a SAMPLE furrow. -/
  frames : Nat
  mask : BitVec 256
  /-- The accepted producer index (R276). -/
  prod : Word
  /-- The next descriptor to fetch, and the next completion to post. -/
  nextFetch : Word
  nextPost : Word
  items : List Item
  stalled : Bool
  failed : Bool
  /-- RING_EMPTY was raised in the present episode (R289). -/
  emptyEp : Bool
  /-- The furrow takes frames after this one (R272); `none` until its tick. -/
  from? : Option Nat
  openFrames : List FrameSlots
  blocks : List Block
  gapRun : Bool
  parts : List Part
  /-- Adopted from a twin partner (R414, R415). -/
  twin : Bool
  deriving DecidableEq, Repr

/-- A subsystem reset in progress (R427, R428). -/
structure SubReset where
  code : Nat
  index : Nat
  aborted : Nat
  deriving DecidableEq, Repr

/-- What the hub knows of a doorbell area (R48, R275): a read of the counter or of the indices is outstanding, the counter
whose indices have been read, the counter read last, and whether the run of failed reads has been reported. -/
structure DbArea where
  poll : Bool
  idx : Bool
  count : Word64
  next : Word64
  failRun : Bool
  deriving DecidableEq, Repr

/-- The host engine (R264 to R297). -/
structure HiSt where
  furrows : KMap Furrow
  /-- The own doorbell area, and that of a retired partner whose furrows this hub has adopted (R414). -/
  db : DbArea
  dbTwin : DbArea
  /-- Ignored producer indices that have been reported, by index (R276), and indices last seen where no furrow is. -/
  ignored : KMap Word
  noFurrow : KMap Word
  /-- A stop of the engine is in progress (R268). -/
  stopping : Bool
  /-- MSI-X pending bits (R265, R282). -/
  pba : Word64
  /-- BACKLOG_HIGH was raised and the backlog has not fallen below 50 % since (R289). -/
  backlogHigh : Bool
  subreset : Option SubReset
  /-- The model's own: the upper word that the last 64-bit read returned (R6), and the tag of the setup request that is to bring
  one (R328). -/
  readHi : Word
  hiTag : Option Nat
  /-- Max_Payload_Size of the function in bytes (R264). -/
  maxPayload : Nat
  /-- The host refuses a write of furrow 0's next LEDGER to this address (R294). -/
  refuseAt : Option Word64
  deriving DecidableEq, Repr

/-- What a read of host memory is for: a doorbell area, the descriptor of a furrow's item, the parameter block of a CREATE, the item
of a Baler pipe or of the side port; at the head also a member's request and its tag (R327). -/
inductive ReadBy where
  | doorbell (partner : Bool)
  | descriptor (f : Nat)
  | block
  | job (comp : Bool)
  | transfer
  | member (m tag : Nat)
  deriving DecidableEq, Repr

/-- A read request; `tag` is the one under which a member has sent its own to the head. -/
structure ReadReq where
  who : ReadBy
  addr : Word64
  len : Nat
  tag : Nat
  deriving DecidableEq, Repr

/-- What the hub sends to the outside: host memory, the ring, the twin lane, the pins. -/
inductive Output where
  | dmaWrite (addr : Word64) (bytes : List Byte)
  | dmaRead (addr : Word64) (len : Nat)
  | completion (addr : Word64) (c : Completion)
  | msix (vector : Nat)
  /-- A cell on a port: its bytes, and the line bits of each lane that carries it (R299 to R301). -/
  | cell (port : Nat) (type : Nat) (bytes : List Byte) (lanes : List (Nat × List Bool))
  /-- Idle cells that fill the line between two cells (R302): how many, and the bytes of the first. -/
  | idle (port : Nat) (cells : Nat) (bytes : List Byte)
  | ptpDelayReq (domain : Nat) (udp : Bool) (stamp : Int)
  /-- Clocks of SP_CLK under the selects of a mask: for each clock the bits that it drives, of w of them the first on SP_D(w−1) and
  the last on SP_D0; none while the lanes turn or bits come in (R445). -/
  | sideShift (select : Nat) (clocks : List (List Bool))
  | mailbox (status : Nat) (resp : List Byte)
  /-- The proof test raises these output enables for 2 µs (R404). -/
  | oenPulse (mask : Nat)
  /-- SAFE_N pulled low for 20 µs by the proof test (R404). -/
  | safeNPulse
  deriving DecidableEq, Repr
/-! ## Front ends, modulators and decimation (chapters 3 to 6) -/

/-- A stretch of modulator words of a frame, first and last word after the tick (R91), and for an overload whether the
clip was the upper one (R511). -/
structure WordSpan where
  first : Nat
  last : Nat
  upper : Bool
  deriving DecidableEq, Repr

/-- What the front end and the decimator hold for one input. -/
structure InSt where
  /-- The frame means the response uses, newest first, in units of 2^-46 (R122, R125). -/
  hist : List Int
  /-- The last frame of the settle counts that run (R130 to R133). -/
  setEnd : Nat
  /-- Overload words of the present interval and of the one before (R93, R94). -/
  ovl : List WordSpan
  ovlPrev : List WordSpan
  /-- Words a headland sense discards in the present interval (R106), and what guard, blanking, diagnostic window and sense have
  discarded of the last words of the one before (R119). -/
  sense : List WordSpan
  discPrev : List WordSpan
  /-- The blanking that marked the last frame went on past its tick (R131). -/
  blkEp : Bool
  /-- The comparator result of this frame's diagnostic window (R73, R75), and the run of trips (R78). -/
  window : Option Bool
  tripRun : Nat
  /-- Compliance occurred in the present interval; the episode has been reported (R76). -/
  compl : Bool
  complEp : Bool
  /-- Episodes of OVERRANGE (R53) and of overload (R95). -/
  ovrEp : Bool
  ovlEp : Bool
  /-- The value and status byte of the last frame. -/
  value : Word
  status : Byte
  deriving DecidableEq, Repr

/-- A blanking group (R69 to R71). -/
structure BlankSt where
  /-- The pin is high. -/
  pin : Bool
  /-- The pin is at its active level, since this word (of the present interval). -/
  asserted : Bool
  /-- The blanking interval is running (extension included); its first word. -/
  active : Bool
  first : Nat
  /-- The last word to blank once the pin is released. -/
  last : Option Nat
  /-- Completed blanked stretches of the present interval. -/
  spans : List WordSpan
  /-- Whole frames of continuous blanking, and whether BLANK_LONG was raised (R71). -/
  frames : Nat
  longRaised : Bool
  deriving DecidableEq, Repr

/-- The front ends and the decimator (chapters 3 to 6). -/
structure FeSt where
  ins : KMap InSt
  blanks : KMap BlankSt
  /-- A link failure fell into the present interval (R14). -/
  failA : Bool
  failB : Bool
  /-- A moment of a die's reset fell into the present interval (R427). -/
  resetSeenA : Bool
  resetSeenB : Bool
  /-- The die's reset by SUBRESET runs until its link passes (R427). -/
  resetA : Bool
  resetB : Bool
  /-- The modulator-clock PLL was unlocked at some moment of the present interval (R96). -/
  pllFlt : Bool
  /-- The PLL lost lock by a time step (R189). -/
  pllStep : Bool
  /-- IN writes accepted in Run that wait for the next tick (R88): register offset and value. -/
  pend : List (Nat × Word)
  /-- Lead groups measured since enable (R66) and since reset (R67), and results that wait for the acquire step (R113). -/
  leadSeen : Word
  leadEver : Word
  leadRes : List (Nat × Int × Bool)
  /-- A die trim is due or runs (R97, R98). -/
  trimA : Bool
  trimB : Bool
  /-- The inputs that yielded a slot in the last frame reduced (R136, R285). -/
  slotted : List Nat
  deriving DecidableEq, Repr

/-- The running conversion of the gleaner (R104). -/
structure Conv where
  target : Nat
  sub : Nat
  /-- 0 schedule; 1 edge; 2 host. -/
  source : Nat
  edge : Nat
  start : Int
  deriving DecidableEq, Repr

/-- The gleaner converter (R101 to R116). -/
structure GlSt where
  running : Option Conv
  /-- Running edge timers: entry and expiry (R110). -/
  timers : KMap Int
  /-- The due time of the host request (R111). -/
  reqDue : Option Int
  /-- The last frame in which GLEAN_DROPPED was raised (R112). -/
  dropFrame : Option Nat
  /-- The frame of the latest result of each target (R242). -/
  resFrame : KMap Nat
  deriving DecidableEq, Repr

/-! ## Calibration (chapter 7) -/

/-- An image of the calibration store: words by image offset; an unlisted word is that of the ideal factory image or, with
`ideal` false, 0. -/
structure Image where
  ideal : Bool
  words : KMap Word
  deriving DecidableEq, Repr

/-- A programmed bank (R152, R162). -/
structure Bank where
  img : Image
  epoch : Word
  origin : Bool
  time : BitVec 48
  deriving DecidableEq, Repr

/-- The calibration store (R152 to R169). -/
structure CalSt where
  inForce : Option Bank
  /-- The set whose stored timing trims act: one that takes its place at a seal step trims from the next tick on (R163). -/
  trims : Option Bank
  /-- A set committed in Run that waits for its frame boundary (R163). -/
  next : Option Bank
  /-- A partly programmed bank is left by an interrupted commit (R153, R164). -/
  partly : Bool
  staging : Option Image
  /-- The hash is being recomputed (R159). -/
  hashDue : Bool
  /-- The commit in programming: the image as it stood when the token was accepted (R161). -/
  commit : Option Image
  /-- CAL_STAT.result. -/
  result : Nat
  wrcnt : Word
  deriving DecidableEq, Repr

/-! ## Plots, triggers and the drill bus (chapter 9) -/

/-- A row of a capture unit (R203): its running index, row time, values and flag bytes. -/
structure Row where
  idx : Nat
  t : Int
  values : List Word
  flags : List Byte
  deriving DecidableEq, Repr

/-- A firing that is held until re-arm (R215) or fires at once. -/
structure Firing where
  cond : Nat
  tp : Int
  j : Nat
  drillCh : Nat
  late : Int
  isLate : Bool
  /-- The time at which the condition was met (R221). -/
  tdet : Int
  deriving DecidableEq, Repr

/-- A plot in capture or complete (R206, R213, R236). -/
structure Plot where
  seq : Word
  source : Nat
  tp : Int
  j : Nat
  coin : Byte
  drillCh : Nat
  drillOff : Int
  flags : BitVec 16
  pre : Nat
  post : Nat
  rows : List Row
  written : Nat
  viol : Option Nat
  eccRow : Option Nat
  /-- A streaming record: the rows not yet in a segment, and the index of the first of them. -/
  pendRows : List Row
  pendFirst : Nat
  deriving DecidableEq, Repr

/-- The watch state of a condition (R212). -/
structure CondSt where
  up : Bool
  down : Bool
  last : Option Word
  /-- The index of that row: only its neighbour makes a pair with it. -/
  lastIdx : Nat
  lastT : Int
  lastBits : Byte
  deriving DecidableEq, Repr

/-- A capture unit (R202 to R235). -/
structure UnitSt where
  /-- The newest rows, newest first (R208), and the index of the newest row there has been. -/
  hist : List Row
  newest : Option Nat
  /-- The index of the first row of the Run. -/
  first : Option Nat
  /-- The last gap in the row indices: the rows before and after it (R205). -/
  gap : Option (Nat × Nat)
  /-- A time step ended its plot; it re-arms at the first row after the modulator clock has relocked (R234). -/
  slipWait : Bool
  conds : KMap CondSt
  plot : Option Plot
  held : List Firing
  /-- Plots since the unit was armed (R216). -/
  count : Nat
  /-- Time of the last arming or re-arming (R217), and whether the next automatic plot is reported. -/
  armedAt : Int
  autoNews : Bool
  /-- TRIGGER_COLLISION was raised for the plot in capture, or for the run of firings without a slot (R214). -/
  collRaised : Bool
  noSlotRun : Bool
  memLow : Bool
  /-- Complete parts that wait for the plot mover (R233), and slots they occupy. -/
  ready : List Part
  usedSlots : Nat
  fifo : Nat
  deriving DecidableEq, Repr

/-- A drill message that waits for its t_act (R222). -/
structure DrillMsg where
  origin : Nat
  ch : Nat
  seq : Word
  tp : Int
  tact : Int
  deriving DecidableEq, Repr

/-- Capture, triggers and the drill bus. -/
structure AqSt where
  units : KMap UnitSt
  drills : List DrillMsg
  /-- Origins and sequence numbers already acted on (R224). -/
  seen : List (Nat × Word)
  drillSeq : Word
  /-- The last accepted edge of each pin, in raw time (R211). -/
  lastEdge : KMap Int
  /-- TRIG_OUT pulses running (R227). -/
  tout : BitVec 2
  /-- The latest sample of each fast-tap slot: its index, value and flag byte (R119, R203). -/
  ftRow : KMap (Nat × Word × Byte)
  deriving DecidableEq, Repr

/-! ## Control (chapter 10) -/

/-- The states of a loop (R240 to R248). -/
structure LoopSt where
  started : Bool
  integ : Word64
  dfilt : Word64
  pvPrev : Word64
  sections : List (Word64 × Word64)
  /-- The start value u0 (R243). -/
  u0 : Word64
  /-- The setpoint in force of a loop with sp_src = 1 (R249, R470). -/
  setpoint : Option Word64
  /-- The loop restarts so that its output stays (R240). -/
  restart : Bool
  /-- uraw lay outside its limits in the last frame (R247). -/
  outside : Bool
  /-- A non-finite result stopped the loop until an applied change (R248). -/
  numericStop : Bool
  holdRun : Nat
  failed : Bool
  deriving DecidableEq, Repr

/-- A setpoint in the queue (R250), with its relay state (R413). -/
structure QSet where
  furrow : Nat
  seq : Word
  loop : Nat
  frame : Nat
  value : Word64
  acked : Bool
  deriving DecidableEq, Repr

/-- A published value (R257). -/
structure Shared where
  frame : Nat
  valid : Bool
  value : Word64
  deriving DecidableEq, Repr

/-- One PWM output: the pin and the running period (R255). -/
structure PwmSt where
  isOn : Bool
  duty : Nat
  deriving DecidableEq, Repr

/-- A loop as it stood before the control step: its states, its output, CE_LINTEG and CE_LSTAT (R241). -/
structure LoopUndo where
  st : LoopSt
  u : Word64
  integ : Word64
  lstat : Word
  deriving DecidableEq, Repr

/-- The control engine and its outputs. -/
structure CeSt where
  loops : KMap LoopSt
  /-- Staged loop copies (register offset to word, R239) and copies accepted for the next tick entry. -/
  staged : KMap Word
  applied : KMap Word
  /-- The shadow coefficient bank's written words (R262), and the bank accepted for the next tick entry. -/
  shadow : KMap Word
  coefNext : Option (KMap Word)
  queue : List QSet
  /-- Setpoints whose outcome waits for the deliver step (R251): furrow, sequence number, status, named frame. -/
  ended : List (Nat × Word × CStatus × Word)
  /-- Outputs staged for the next tick (R43): AOUT code, PWM duty and slot value by output. -/
  aoNext : KMap Nat
  pwmNext : KMap Nat
  slotNext : KMap Nat
  pwm : KMap PwmSt
  /-- Shared values by identifier: the latest frame's (R257). -/
  shared : KMap Shared
  /-- Consecutive failed readback checks by output: AOUT j at j, PWM j at 16 + j (R259). -/
  rbFail : KMap Nat
  /-- The control step of the last window completed. -/
  ran : Bool
  /-- Loop states and outputs as they stood before the last control step, for its discard (R241, R403, R407). -/
  undo : KMap LoopUndo
  deriving DecidableEq, Repr

/-! ## Lanes and ring (chapter 12) -/

/-- A key agreement on a port (R385). -/
structure Agree where
  /-- The own ephemeral key and offer, and the partner's offer once it has come. -/
  priv : List Byte
  offer : List Byte
  partner : List Byte
  deriving DecidableEq, Repr

/-- A cell without its link sequence number, tag and CRC (R303, R304). -/
structure Cell where
  typ : Nat
  src : Nat
  dst : Nat
  first : Bool
  last : Bool
  turned : Bool
  payload : List Byte
  /-- The model's own: the ring port by which the cell came in; 2 for one of this hub's (R308). -/
  via : Nat
  deriving DecidableEq, Repr

/-- The transmitter of a lane (R300, R301): the scrambled bits it sent last, the newest in bit 0; the line bit it sent last, and how
many of that kind it has sent in a row. -/
structure LaneTx where
  past : BitVec 58
  level : Bool
  run : Nat
  deriving DecidableEq, Repr

/-- A port: 0 U, 1 D, 2 the twin lane (R298 to R317). -/
structure PortSt where
  /-- Hellos have been exchanged since training (R318). -/
  hello : Bool
  /-- The next number to send and the number expected (R315, R316). -/
  txSeq : BitVec 12
  rxSeq : BitVec 12
  /-- A nak was sent and the expected number has not arrived (R316); cells accepted since the last acknowledgement. -/
  naked : Bool
  acceptedSince : Nat
  /-- Unacknowledged cells, oldest first (R315), and whether they are to be sent again once the partner lets them (R308). -/
  replay : List (BitVec 12 × Cell)
  replayDue : Bool
  replaysOfOldest : Nat
  replaysInSecond : Nat
  /-- Cells waiting to be sent, each with its queue's place in the order of R307. -/
  queue : List (Nat × Cell)
  /-- The partner sent hold (R308); this end sent hold. -/
  heldByPartner : Bool
  holding : Bool
  /-- The receiver knows where cells begin; the bad cells it has met in a row since (R302). -/
  delineated : Bool
  badRun : Nat
  /-- Tag failures in the present run (R310). -/
  authRun : Nat
  /-- A key for each direction is installed (R309); the rekey count (R385). -/
  keys : Option (List Byte × List Byte)
  rekey : Nat
  agree : Option Agree
  /-- The port failed its agreement and stays down (R310, R385). -/
  keyBlocked : Bool
  /-- Subtype of the ring control message that last began to come in (R305). -/
  ringSub : Nat
  /-- Corrupt the next sequenced cell (R330). -/
  inject : Bool
  /-- The lanes the partner reports in service (link control), and those it has asked to have looped back (R329). -/
  partnerLanes : BitVec 2
  loops : BitVec 2
  /-- The transmitter of each lane (R300, R301), and the time at which the line is free, in units of 10 ps (log 86). -/
  tx : List LaneTx
  lineFree : Nat
  /-- Cell slots sent and received since the keys were installed (R309). -/
  txSlots : Word64
  rxSlots : Word64
  deriving DecidableEq, Repr

/-- A reroute in progress (R322). -/
structure Reroute where
  x : Nat
  y : Nat
  /-- This hub's own traffic crossed the cut: it is held until the tail. -/
  holdsOwn : Bool
  /-- The cut notice has come; the flush of the farther neighbour has come. -/
  noticed : Bool
  flushed : Bool
  held : List Cell
  deriving DecidableEq, Repr

/-- Lanes and ring. -/
structure LnSt where
  ports : KMap PortSt
  /-- The own position downstream of the head, and the positions at the ends of the cut links, upstream end first, oldest cut
  first. -/
  position : Nat
  cuts : List (Nat × Nat)
  /-- The directions of the first cut whose notice has passed this hub (R322, step 3). -/
  passed : List Nat
  /-- Positions of the hubs by address, from the address map (R318, R319). -/
  map : KMap Nat
  /-- Reroutes in progress, by the port through which the traffic that crossed the cut went. -/
  reroutes : KMap Reroute
  /-- New-route cells held for a source until its route marker (R324), and cells held at a destination. -/
  waitMarker : List Nat
  heldDst : List Cell
  /-- Cells of this hub, and cells to be forwarded, for hubs that cannot be reached (R325). -/
  stranded : List Cell
  /-- The model's own: the cells that have reached their units in this hub, newest first. -/
  absorbed : List Cell
  /-- What the last formation found (R22, R319): two hubs with HEAD_SEL high, equal addresses, more than 48 hubs. -/
  twoHeads : Bool
  sameAddrs : List Nat
  over48 : Bool
  /-- The census has been sent and has not returned (R318). -/
  censusOut : Bool
  censusLate : Bool
  /-- The hubs found downstream of a broken ring's head, nearest first. -/
  census : Option (List CensusEntry)
  /-- Eye events that have been raised and not re-enabled, by lane (R312). -/
  eyeLow : List Nat
  /-- Pending BAR4 reads at the head: tag, hub address (R328). -/
  setups : List (Nat × Nat)
  nextTag : BitVec 16
  /-- Outstanding read requests, and those that wait for one to return, in arrival order (R264, R327). -/
  reads : List ReadReq
  readWait : List ReadReq
  /-- At the head: the next write order number of each member, and what came before its turn: member, number, request (R266,
  R326). -/
  orders : KMap Word
  early : List (Nat × Word × Output)
  /-- A member's own write order number (R326). -/
  order : Word
  /-- Serial numbers by address, head only. -/
  serials : KMap Word64
  /-- The hubs of the ring whose address another hub has in `map` (R22). -/
  twins : List MapEntry
  /-- By lane, the counter at the last error that a test has found since it started (R331). -/
  lastErr : KMap Word64
  /-- What waits at the head for the function to return to D0 (R327). -/
  tunnel : List Output
  deriving DecidableEq, Repr

/-! ## The Baler (chapter 13) -/

/-- An open COMPRESS stream of a furrow (R337, R338). -/
structure Stream where
  format : Nat
  /-- Everything the stream has taken in, pre-filter headers and filtered bytes included (the window is its end). -/
  taken : List Byte
  /-- How many of those bytes belong to blocks already coded. -/
  coded : Nat
  /-- Bits not yet written, less than a byte, in stream order. -/
  bits : List Bool
  /-- Adler-32 of the stream's source bytes before the pre-filter (R349). -/
  adler : Word
  header : Bool
  /-- What the stream has written so far, as the self-check expands it (R345). -/
  written : List Byte
  deriving DecidableEq, Repr

structure BlSt where
  /-- The item in each pipe: furrow and sequence number (R336). -/
  comp : Option (Nat × Word)
  exp : Option (Nat × Word)
  streams : KMap Stream
  /-- The furrow served last by each pipe. -/
  lastComp : Nat
  lastExp : Nat
  /-- The furrow of the item in the compression pipe has been resumed: its stream ends with the item (R339). -/
  compDrop : Bool
  deriving DecidableEq, Repr

/-! ## The vault (chapter 14) -/

/-- A discard notice, in 64 bytes of the space of its object (R373, R374): of the backlog, or of the slot or the FIFO that a plot part
stood in. -/
structure Notice where
  entry : EntryRec
  block : Bool
  part : Option Part
  deriving DecidableEq, Repr

/-- The frames in whose seal steps the entries of an interval were absorbed, and the tick time of the last (R378). -/
structure EntrySpan where
  first : Nat
  last : Nat
  lastT : Int
  deriving DecidableEq, Repr

/-- A closed interval: its record without the signature (R377), then the seal number. -/
structure SealRec where
  sealNo : Word
  body : List Byte
  /-- Its discard notices, whose space is free once it is signed (R374). -/
  notices : List Notice
  /-- The seal key that signs it; erased with the signature. -/
  key : List Byte
  deriving DecidableEq, Repr

/-- A microcode session (R366). -/
structure UcodeSession where
  length : Nat
  digest : List Byte
  image : List Byte
  deriving DecidableEq, Repr

/-- An entry of the tamper log (R388). -/
structure TamperEntry where
  bits : BitVec 4
  second : Word
  time : Int
  deriving DecidableEq, Repr

/-- What a key certificate holds beside the fixed fields of R358: the time of issue and the issuer's signature. -/
structure KeyCert where
  issued : Nat
  sig : List Byte
  deriving DecidableEq, Repr

/-- The vault. -/
structure VtSt where
  /-- Non-volatile: owner and user keys, seal key with its key_id, identity key, chain counter, microcode versions. -/
  owner : Option (List Byte)
  user : Option (List Byte)
  identity : Bool
  sealKey : Option (List Byte)
  /-- Certificates of R358. -/
  identityCert : KeyCert
  sealCert : KeyCert
  /-- The key of the open interval, when a rotation has already installed another (R359). -/
  openKey : Option (List Byte)
  chainNo : Word
  ucodeActive : BitVec 16
  ucodeStored : BitVec 16
  /-- Fallow key memory: the running chain value and the value at the open interval's start (R370, R371). -/
  chain : List Byte
  link : List Byte
  chainOpen : Bool
  /-- The open interval: frames of its first and last seal step, plot-part entries and notices of its manifest. -/
  first : Option Nat
  last : Nat
  /-- Tick time of frame `last`, and epoch and origin of the calibration in force for it. -/
  lastT : Int
  calOf : Word × Bool
  parts : List EntryRec
  taken : List Notice
  /-- Discard notices that wait for a later manifest (R374). -/
  waiting : List Notice
  /-- The frames of the entries absorbed; the last frame of the record before, with its tick time (R378). -/
  ents : Option EntrySpan
  prev : Nat × Int
  overruns : Nat
  gaps : Nat
  /-- Flags the next record carries (R377): start, tamper, fallow, key_new, cfg; reasons to close. -/
  start : Bool
  tampered : Bool
  fallowFirst : Bool
  keyNew : Bool
  cfgChanged : Bool
  rotate : Bool
  extended : Bool
  calClose : Bool
  /-- Closed records waiting for their signature (R377), and signed records in the seal queue (R379). -/
  unsigned : List SealRec
  queue : List SealRec
  config : List Byte
  /-- Roles and tokens (R360 to R363). -/
  session : Bool
  nonce : List Byte
  armed : Option (Nat × List Byte)
  lockout : Bool
  ucode : Option UcodeSession
  /-- The mailbox: request buffer by word, response bytes, request under way for a member (R367, R368). -/
  req : KMap Word
  resp : List Byte
  memberReq : Option Nat
  /-- On a member: the tag of the head's forwarded request that is under way (R368). -/
  mailTag : Option Nat
  /-- Tamper log and counters of the Fallow domain (R387, R388). -/
  log : List TamperEntry
  logCount : Word
  second : Word
  fallowTamper : BitVec 4
  deriving DecidableEq, Repr

/-! ## Supervisor, twin pair, beacons (chapter 15) and side port (chapter 17) -/

/-- The twin pair (R405 to R416). -/
structure TwinSt where
  /-- This hub's twin frame of the last control step, and the partner's (R406). -/
  mine : Option TwinFrameIn
  theirs : Option TwinFrameIn
  compared : Bool
  /-- Outputs of the last frame whose comparison matched (R407): AOUT codes, PWM duties, slot values. -/
  agreedAo : KMap Nat
  agreedPwm : KMap Nat
  agreedSlot : KMap Nat
  /-- The loops' outputs of that frame (R409). -/
  agreedU : KMap Word64
  /-- Outputs and states are held until the decision (R407). -/
  held : Bool
  /-- The frame of the k-th mismatch (R408), the own and the partner's report. -/
  mismatchFrame : Option Nat
  myReport : Option Bool
  theirReport : Option Bool
  /-- The last frame in which a compared input or an output of this hub failed (R408). -/
  lastBad : Option Nat
  /-- The fail-over gap is open since this frame's mismatch (R409); this hub is to take over (R412, R414). -/
  gap : Option Nat
  failing : Bool
  /-- When ILK_O rose (R410). -/
  claimAt : Int
  /-- The partner's hub address, and whether it has left the ring (R415). -/
  partnerAddr : Nat
  partnerGone : Bool
  /-- This hub took over from that partner in this Run (R414, R415). -/
  tookOver : Bool
  /-- The active is in safe state, as a joining hub knows it (R416). -/
  activeSafe : Bool
  /-- Outcomes of relayed setpoints: furrow, sequence number, status, named frame (R414). -/
  applied : List (Nat × Word × CStatus × Word)
  agreeRun : Nat
  joinAt : Option Nat
  snapshotSent : Bool
  partnerFurrows : List SnapFurrow
  partnerDb : Word64
  deriving DecidableEq, Repr

/-- The supervisor (R391 to R404). -/
structure SvSt where
  safe : Bool
  /-- Levels of OEN3 to OEN0. -/
  oen : BitVec 4
  /-- This hub pulls SAFE_N low; the level of the line as last read. -/
  pulls : Bool
  safeN : Bool
  /-- Whether the supervisor's hold-off pump runs (R393). -/
  pump : Bool
  ilkO : Bool
  ilkI : Bool
  /-- An accepted release waits for its tick; the SAFE_N check is due; OEN rises at the next tick (R398). -/
  releasePend : Bool
  checkDue : Bool
  raiseDue : Bool
  ptest : Bool
  twin : TwinSt
  deriving DecidableEq, Repr

/-- One pattern engine (R418). -/
structure EngineSt where
  step : Nat
  /-- Milliseconds since the step began. -/
  ms : Nat
  /-- The level the step ramps from. -/
  from' : Nat
  done : Bool
  deriving DecidableEq, Repr

/-- The beacon driver (R417 to R422). -/
structure BcSt where
  engines : KMap EngineSt
  /-- The command of each sink in codes (R417). -/
  sinks : KMap Nat
  /-- The latest BCN_NTC result in integer ohms and its frame (R420). -/
  ntc : Option (Nat × Nat)
  deriving DecidableEq, Repr

/-- The side port (R443 to R456). -/
structure SpSt where
  /-- The transfer in progress: sequence number of its item (R446). -/
  xfer : Option Word
  /-- A setpoint or safe frame is being shifted; its bits; the bits that came back (R449). -/
  shifting : Bool
  frame : List Bool
  rx : List Bool
  /-- Observer mode: shift register, select level, permit, discard mark and sequence number (R452 to R454). -/
  obsSel : Bool
  obsReg : List Bool
  permit : Bool
  obsErr : Bool
  obsSeq : Byte
  /-- The setpoint frame is inhibited until the port's reset completes (R427). -/
  inhibit : Bool
  deriving DecidableEq, Repr

/-! ## The whole machine -/

/-- The state of the hub. -/
structure State where
  /-- The registers of the setup space and the mailbox: the words that differ from their reset words, by address. -/
  regs : KMap Word
  /-- Shadow copies (R8) and staged words (R9) by address. -/
  shadow : KMap Word
  staged : KMap Word
  /-- The model's own: what the last read command returned. -/
  rdata : Word
  pw : PwSt
  tb : TbSt
  fr : FrSt
  fe : FeSt
  gl : GlSt
  cal : CalSt
  aq : AqSt
  ce : CeSt
  hi : HiSt
  ln : LnSt
  bl : BlSt
  vt : VtSt
  sv : SvSt
  bc : BcSt
  sp : SpSt
  ev : EvSt
  /-- The model's own: what the hub has sent to the outside, newest first. -/
  out : List Output
  /-- The model's own: how many free values have been drawn. -/
  freeCtr : Nat
  /-- The commands that wait, first in, first out. -/
  pending : List Instr
  deriving DecidableEq, Repr

/-! ## Reset: right after power-on reset (R458, R467, R471), before start-up completes -/

/-- The state after power-on reset.  Registers read their reset words; GLB_RSTCAUSE names the power-on (R471); SAFE_N is
pulled low and every OEN is low (R465); the counter starts from 0 (R170); the fault trace is empty (R438); the die trims are due
(R97).  DESIGN CHOICE (log 3): the straps are those of
a head hub at address 0 with 3.3 V banks; the store holds the ideal factory set (log 4); the keys are those of a new part. -/
def State.reset : State :=
  { regs := [(Reg.GLB_RSTCAUSE, 1)]
    shadow := []
    staged := []
    rdata := 0
    pw := { power := .startUp, inReset := false, fallowValid := false, checking := false, waiting := false, headParams := none, lastTick := none
            perst := false, d0 := false, headD0 := false, headSel := true, twinPri := false, hubAddr := 0, io33 := 15, serial := 1
            reqTargets := [], reqResult := 0, reqGlean := false }
    tb := { cnt := 0, off := 0, anchor := 0, integ := 0, integs := [], lockRun := 0, lockedOnce := false
            ppsSecSet := false, ppsMissRun := false, ppsOut := false, mpds := [], delayReq := none, lastSync := none, syncRaw := none, formStep := false, lastPort := 0
            gmOk := false, step := none
            linkU := { sent := [], rcvd := none, means := [] }
            linkD := { sent := [], rcvd := none, means := [] }
            linkT := { sent := [], rcvd := none, means := [] }
            gm := none, ppsLast := none }
    fr := { nextTick := 0, epoch := 0, tickS := 0, overrun := none, skipped := [], stretch := 0, hbMissing := 0, hbPosted := false, opened := 0, work := []
            endReset := 0 }
    fe := { ins := [], blanks := [], failA := false, failB := false, resetSeenA := false, resetSeenB := false, resetA := false, resetB := false, pllFlt := false
            pllStep := false, slotted := [], pend := [], leadSeen := 0, leadEver := 0, leadRes := [], trimA := true, trimB := true }
    gl := { running := none, timers := [], reqDue := none, dropFrame := none, resFrame := [] }
    cal := { inForce := some { img := { ideal := true, words := [] }, epoch := 1, origin := false, time := 0 }
             trims := some { img := { ideal := true, words := [] }, epoch := 1, origin := false, time := 0 }
             next := none, partly := false, staging := none, hashDue := false, commit := none, result := 0, wrcnt := 0 }
    aq := { units := [], drills := [], seen := [], drillSeq := 0, lastEdge := [], tout := 0, ftRow := [] }
    ce := { loops := [], staged := [], applied := [], shadow := [], coefNext := none, queue := [], ended := []
            aoNext := [], pwmNext := [], slotNext := [], pwm := [], shared := [], rbFail := [], ran := false, undo := [] }
    hi := { furrows := [], db := { poll := false, idx := false, count := 0, next := 0, failRun := false }, dbTwin := { poll := false, idx := false, count := 0, next := 0, failRun := false }
            ignored := [], noFurrow := [], stopping := false, pba := 0
            backlogHigh := false, subreset := none, readHi := 0, hiTag := none, maxPayload := 128, refuseAt := none }
    ln := { ports := [], position := 0, cuts := [], passed := [], map := [], reroutes := [], waitMarker := [], heldDst := [], stranded := [], absorbed := []
            twoHeads := false, sameAddrs := [], over48 := false, censusOut := false
            censusLate := false, census := none, eyeLow := [], setups := [], nextTag := 0, reads := [], readWait := [], orders := [], early := [], order := 0, serials := [], twins := []
            lastErr := [], tunnel := [] }
    bl := { comp := none, exp := none, streams := [], lastComp := 0, lastExp := 0, compDrop := false }
    vt := { owner := none, user := none, identity := true, sealKey := some Config.factorySealKey
            identityCert := { issued := Config.factoryIssued, sig := Config.factorySig 0 }
            sealCert := { issued := Config.factoryIssued, sig := Config.factorySig 1 }, openKey := none
            chainNo := 0, ucodeActive := 1, ucodeStored := 1, chain := [], link := [], chainOpen := false, first := none
            last := 0, lastT := 0, calOf := (0, false), parts := [], taken := [], waiting := [], ents := none, prev := (0, 0), overruns := 0, gaps := 0, start := false, tampered := false
            fallowFirst := false, keyNew := false, cfgChanged := false, rotate := false, extended := false
            calClose := false, unsigned := [], queue := [], config := [], session := false, nonce := [], armed := none
            lockout := false, ucode := none, req := [], resp := [], memberReq := none, mailTag := none, log := [], logCount := 0
            second := 0, fallowTamper := 0 }
    sv := { safe := false, oen := 0, pulls := true, safeN := false, pump := false, ilkO := false, ilkI := false
            releasePend := false, checkDue := false, raiseDue := false, ptest := false
            twin := { mine := none, theirs := none, compared := false, agreedAo := [], agreedPwm := [], agreedSlot := [], agreedU := []
                      held := false, mismatchFrame := none, myReport := none, theirReport := none, lastBad := none, gap := none, failing := false, claimAt := 0
                      partnerAddr := 0x3F, partnerGone := false, tookOver := false, activeSafe := false, applied := []
                      agreeRun := 0, joinAt := none, snapshotSent := false, partnerFurrows := [], partnerDb := 0 } }
    bc := { engines := [], sinks := [], ntc := none }
    sp := { xfer := none, shifting := false, frame := [], rx := [], obsSel := false, obsReg := [], permit := false
            obsErr := false, obsSeq := 0, inhibit := false }
    ev := { queue := [], runs := []
            trace := [], trWord := 0, ffArmed := false, slotVecs := [], slotNo := 0, bufRecs := [] }
    out := []
    freeCtr := 0
    pending := [] }

end Sys2Proof.Machine
end

