-- ==== Sys2Proof/Machine/Line.lean ====
section
/-! DEFINITION. The line coding of Edxia lanes: cell bytes in 16-bit groups over the lanes in service (R299), scrambled on each
lane (R300), and stuffed (R301). -/

namespace Sys2Proof.Machine

/-! ## Bytes and bits, groups and lanes (R299, R300) -/

/-- The bits of bytes, least significant first. -/
def bitsOf (bs : List Byte) : List Bool := bs.flatMap (fun b => (List.range 8).map (fun i => b.getLsbD i))

/-- Bytes from their bits; bits of an unfinished byte are left. -/
def bytesOfBits : Nat → List Bool → List Byte
  | 0, _ => []
  | n + 1, bits =>
    BitVec.ofNat 8 ((bits.take 8).foldr (fun b v => b2n b + 2 * v) 0) :: bytesOfBits n (bits.drop 8)

/-- The groups of two bytes that a lane carries, the `i`-th of `n` in service. -/
def laneGroups (n i : Nat) (cell : List Byte) : List Byte :=
  ((List.range (cell.length / 2)).filter (fun g => g % n == i)).flatMap (fun g => slice cell (2 * g) 2)

/-- A cell of `len` bytes put together from its lanes. -/
def joinGroups (len : Nat) (lanes : List (List Byte)) : List Byte :=
  (List.range (len / 2)).flatMap (fun g => slice (lanes.getD (g % lanes.length) []) (2 * (g / lanes.length)) 2)

/-! ## The scrambler x^58 + x^39 + 1 (R300) -/

/-- Scrambled bits, and the 58 sent last: bit 0 of `past` is the newest. -/
def scramble : BitVec 58 → List Bool → List Bool × BitVec 58
  | past, [] => ([], past)
  | past, d :: t =>
    let b := d ^^ past.getLsbD 38 ^^ past.getLsbD 57
    let (out, last) := scramble ((past <<< 1) ||| BitVec.ofNat 58 (b2n b)) t
    (b :: out, last)

/-- The bits recovered: each is the received bit with those 39 and 58 before it. -/
def descramble (past : BitVec 58) (line : List Bool) : List Bool :=
  let all := (List.range 58).map (fun i => past.getLsbD (57 - i)) ++ line
  List.zipWith (fun s p => s ^^ p) (List.zipWith (fun s p => s ^^ p) line (all.drop 19)) all

/-! ## Stuffing (R301) -/

/-- The run of identical bits in which the line stands after one more bit. -/
def runAfter (level : Bool) (run : Nat) (b : Bool) : Nat := if b = level then run + 1 else 1

/-- After 24 identical bits the transmitter inserts one complement bit, which starts a new run. -/
def stuff : Bool → Nat → List Bool → List Bool × Bool × Nat
  | level, run, [] => ([], level, run)
  | level, run, b :: t =>
    if 24 ≤ runAfter level run b then
      let (out, rest) := stuff (!b) 1 t
      (b :: (!b) :: out, rest)
    else
      let (out, rest) := stuff b (runAfter level run b) t
      (b :: out, rest)

/-- The receiver deletes the bit after 24 identical ones; the second result says that every deleted bit was the complement. -/
def unstuff : Bool → Nat → List Bool → List Bool × Bool
  | _, _, [] => ([], true)
  | level, run, b :: t =>
    if 24 ≤ run then
      let (out, ok) := unstuff b 1 t
      (out, ok && b != level)
    else
      let (out, ok) := unstuff b (runAfter level run b) t
      (b :: out, ok)

/-! ## A cell on its lanes -/

/-- A lane sends its share of a cell: the line bits, and the transmitter after them. -/
def LaneTx.send (x : LaneTx) (bytes : List Byte) : List Bool × LaneTx :=
  let (s, past) := scramble x.past (bitsOf bytes)
  let (out, level, run) := stuff x.level x.run s
  (out, { past := past, level := level, run := run })

/-- A lane receives its share of a cell: `n` bytes, and whether the stuffing was sound. -/
def laneTake (x : LaneRx) (n : Nat) : List Byte × Bool :=
  let (s, ok) := unstuff x.level x.run x.bits
  (bytesOfBits n (descramble x.past s), ok)

/-- Bytes of a cell on the line: header, payload, any tag, CRC. -/
def cellLen : Nat := 264

/-- The lanes in service of a mask, in order. -/
def lanesIn (mask : Nat) : List Nat := [0, 1].filter (fun i => mask.testBit i)

/-- A received cell, realigned and put together from the given lanes; whether its stuffing was sound. -/
def cellOfLanes (x : CellRx) (lanes : List Nat) : List Byte × Bool :=
  let ls := lanes.map (fun i => laneTake (if i = 0 then x.lane0 else x.lane1) (cellLen / lanes.length))
  (joinGroups cellLen (ls.map Prod.fst), ls.all Prod.snd)

/-- The next bits of a PRBS-31 generator (x^31 + x^28 + 1; R304). -/
def prbs31 : Nat → BitVec 31 → List Bool
  | 0, _ => []
  | n + 1, g =>
    let b := g.getLsbD 30 != g.getLsbD 27
    b :: prbs31 n (g <<< 1 ||| BitVec.ofNat 31 b.toNat)

/-- The payload of an idle cell, from the generator's state. -/
def idlePayload (n : Nat) (g : BitVec 31) : List Byte :=
  let bits := prbs31 (8 * n) g
  (List.range n).map (fun i => BitVec.ofNat 8 (((bits.drop (8 * i)).take 8).foldr (fun b x => b.toNat + 2 * x) 0))

end Sys2Proof.Machine
end

