-- ==== Sys2Proof/Machine/Inflate.lean ====
section
/-! DEFINITION. Expansion of DEFLATE and zlib streams (RFC 1951, RFC 1950) as R346 to R350 accept them, and the delta
pre-filter (R351 to R353).  Streams are read bit by bit, least significant bit of each byte first. -/

namespace Sys2Proof.Machine

/-- The expander: bits not yet read, bits read so far, and the expanded bytes, newest first, each with the number of bits
read when it came out. -/
structure Inf where
  bits : List Bool
  pos : Nat
  out : List (Byte × Nat)
  deriving DecidableEq, Repr

/-- A failure: the reason of *Stream errors*, and where the expander stood. -/
abbrev InfM := Except (Nat × Inf)

/-- `n` bits as a number, the first the least significant; the source ends before them: reason 5. -/
def Inf.bitsN : Nat → Inf → InfM (Nat × Inf)
  | 0, x => .ok (0, x)
  | n + 1, x =>
    match x.bits with
    | [] => .error (5, x)
    | b :: t =>
      match Inf.bitsN n { x with bits := t, pos := x.pos + 1 } with
      | .ok (v, y) => .ok (b2n b + 2 * v, y)
      | .error e => .error e

/-- To the next byte boundary. -/
def Inf.align (x : Inf) : Inf :=
  let k := (8 - x.pos % 8) % 8
  { x with bits := x.bits.drop k, pos := x.pos + k }

def Inf.emit (x : Inf) (b : Byte) : Inf := { x with out := (b, x.pos) :: x.out }

/-- `n` bytes copied from the source. -/
def Inf.copyStored : Nat → Inf → InfM Inf
  | 0, x => .ok x
  | n + 1, x =>
    match Inf.bitsN 8 x with
    | .ok (v, y) => Inf.copyStored n (y.emit (BitVec.ofNat 8 v))
    | .error e => .error e

/-- `n` bytes copied from distance `d`. -/
def Inf.copyBack (d : Nat) : Nat → Inf → Inf
  | 0, x => x
  | n + 1, x => Inf.copyBack d n (x.emit ((x.out.getD (d - 1) (0, 0)).1))

/-! ## Huffman codes -/

/-- A canonical code: for each length from 1 to 15 its symbols in order. -/
abbrev Huff := List (List Nat)

def mkHuff (lens : List Nat) : Huff :=
  (List.range 15).map (fun l => (lens.zipIdx.filter (fun p => p.1 == l + 1)).map Prod.snd)

/-- What of the code space of 2^15 is left over; negative where a code is over-subscribed. -/
def kraft (lens : List Nat) : Int := lens.foldl (fun (r : Int) l => if l = 0 then r else r - (2 ^ (15 - l) : Nat)) 32768

/-- One symbol; no code can match any more: reason 2. -/
def huffSym : Huff → Nat → Nat → Inf → InfM (Nat × Inf)
  | [], _, _, x => .error (2, x)
  | syms :: rest, code, first, x =>
    if syms.isEmpty && rest.all List.isEmpty then .error (2, x)
    else match Inf.bitsN 1 x with
    | .error e => .error e
    | .ok (b, y) =>
      let code := 2 * code + b
      let first := 2 * first
      if code < first + syms.length then .ok (syms.getD (code - first) 0, y)
      else huffSym rest code (first + syms.length) y

def lenBase : List Nat := [3, 4, 5, 6, 7, 8, 9, 10, 11, 13, 15, 17, 19, 23, 27, 31, 35, 43, 51, 59, 67, 83, 99, 115, 131, 163, 195, 227, 258]
def lenExtra : List Nat := [0, 0, 0, 0, 0, 0, 0, 0, 1, 1, 1, 1, 2, 2, 2, 2, 3, 3, 3, 3, 4, 4, 4, 4, 5, 5, 5, 5, 0]
def distBase : List Nat := [1, 2, 3, 4, 5, 7, 9, 13, 17, 25, 33, 49, 65, 97, 129, 193, 257, 385, 513, 769, 1025, 1537, 2049, 3073, 4097, 6145,
  8193, 12289, 16385, 24577]
def distExtra : List Nat := [0, 0, 0, 0, 1, 1, 2, 2, 3, 3, 4, 4, 5, 5, 6, 6, 7, 7, 8, 8, 9, 9, 10, 10, 11, 11, 12, 12, 13, 13]

/-- The symbols of a block, up to its end-of-block symbol. -/
def infCodes (lit dist : Huff) : Nat → Inf → InfM Inf
  | 0, x => .error (5, x)
  | fuel + 1, x =>
    match huffSym lit 0 0 x with
    | .error e => .error e
    | .ok (sym, y) =>
      if sym < 256 then infCodes lit dist fuel (y.emit (BitVec.ofNat 8 sym))
      else if sym = 256 then .ok y
      else if 285 < sym then .error (2, y)
      else
        match Inf.bitsN (lenExtra.getD (sym - 257) 0) y with
        | .error e => .error e
        | .ok (le, y) =>
          match huffSym dist 0 0 y with
          | .error e => .error e
          | .ok (ds, y) =>
            if 29 < ds then .error (2, y)
            else
              match Inf.bitsN (distExtra.getD ds 0) y with
              | .error e => .error e
              | .ok (de, y) =>
                let d := distBase.getD ds 0 + de
                if y.out.length < d then .error (3, y)
                else infCodes lit dist fuel (y.copyBack d (lenBase.getD (sym - 257) 0 + le))

def fixedLit : Huff := mkHuff (List.replicate 144 8 ++ List.replicate 112 9 ++ List.replicate 24 7 ++ List.replicate 8 8)
def fixedDist : Huff := mkHuff (List.replicate 32 5)

/-- The order in which the lengths of the code-length code stand. -/
def clOrder : List Nat := [16, 17, 18, 0, 8, 7, 9, 6, 10, 5, 11, 4, 12, 3, 13, 2, 14, 1, 15]

def readCl : Nat → Inf → InfM (List Nat × Inf)
  | 0, x => .ok ([], x)
  | n + 1, x =>
    match Inf.bitsN 3 x with
    | .error e => .error e
    | .ok (v, y) =>
      match readCl n y with
      | .error e => .error e
      | .ok (vs, z) => .ok (v :: vs, z)

/-- The code lengths of a dynamic block, `n` in all. -/
def readLens (cl : Huff) (n : Nat) : Nat → List Nat → Inf → InfM (List Nat × Inf)
  | 0, acc, x => .ok (acc, x)
  | fuel + 1, acc, x =>
    if n ≤ acc.length then (if n = acc.length then .ok (acc, x) else .error (2, x))
    else
      match huffSym cl 0 0 x with
      | .error e => .error e
      | .ok (sym, y) =>
        if sym < 16 then readLens cl n fuel (acc ++ [sym]) y
        else
          let rep := fun (bits base : Nat) (v : Option Nat) =>
            match v with
            | none => (.error (2, y) : InfM (List Nat × Inf))
            | some v =>
              match Inf.bitsN bits y with
              | .error e => .error e
              | .ok (k, z) => readLens cl n fuel (acc ++ List.replicate (base + k) v) z
          if sym = 16 then rep 2 3 acc.getLast? else if sym = 17 then rep 3 3 (some 0) else rep 7 11 (some 0)

/-- A dynamic block. -/
def infDynamic (x : Inf) : InfM Inf :=
  match Inf.bitsN 14 x with
  | .error e => .error e
  | .ok (h, y) =>
    let hlit := h % 32 + 257
    let hdist := h / 32 % 32 + 1
    let hclen := h / 1024 + 4
    if 286 < hlit then .error (2, y)
    else
      match readCl hclen y with
      | .error e => .error e
      | .ok (cls, y) =>
        let lens := (List.range 19).map (fun s => match (clOrder.take hclen).idxOf? s with | some i => cls.getD i 0 | none => 0)
        if kraft lens != 0 then .error (2, y)
        else
          match readLens (mkHuff lens) (hlit + hdist) (hlit + hdist + 1) [] y with
          | .error e => .error e
          | .ok (all, y) =>
            let lit := all.take hlit
            let dist := all.drop hlit
            let used := dist.filter (fun l => l != 0)
            if kraft lit != 0 || !(kraft dist == 0 || used.isEmpty || used == [1]) then .error (2, y)
            else infCodes (mkHuff lit) (mkHuff dist) (y.bits.length + 1) y

/-- A stored block. -/
def infStored (x : Inf) : InfM Inf :=
  match Inf.bitsN 32 x.align with
  | .error e => .error e
  | .ok (v, y) => if v % 65536 + v / 65536 = 65535 then Inf.copyStored (v % 65536) y else .error (4, y)

/-- Blocks up to the final one. -/
def infBlocks : Nat → Inf → InfM Inf
  | 0, x => .error (5, x)
  | fuel + 1, x =>
    match Inf.bitsN 3 x with
    | .error e => .error e
    | .ok (h, y) =>
      let r := match h / 2 with
        | 0 => infStored y
        | 1 => infCodes fixedLit fixedDist (y.bits.length + 1) y
        | 2 => infDynamic y
        | _ => .error (1, y)
      match r with
      | .error e => .error e
      | .ok z => if h % 2 = 1 then .ok z else infBlocks fuel z

/-- The bytes a state holds, in order. -/
def Inf.bytes (x : Inf) : List Byte := x.out.reverse.map Prod.fst

/-- A whole stream of a format: 0 raw, 1 zlib (R346, R347). -/
def inflate (zlib : Bool) (src : List Byte) : InfM Inf :=
  let x : Inf := { bits := bitsOf src, pos := 0, out := [] }
  let body := fun x => infBlocks (src.length * 8 + 1) x
  let ends := fun (x : Inf) => let y := x.align; if y.bits.isEmpty then .ok y else (.error (7, y) : InfM Inf)
  if zlib then
    match Inf.bitsN 16 x with
    | .error e => .error e
    | .ok (h, y) =>
      let cmf := h % 256
      let flg := h / 256
      if cmf % 16 != 8 || 7 < cmf / 16 || (256 * cmf + flg) % 31 != 0 || flg / 32 % 2 = 1 then .error (1, y)
      else
        match body y with
        | .error e => .error e
        | .ok z =>
          match Inf.bitsN 32 z.align with
          | .error e => .error e
          | .ok (v, w) =>
            if ofBe (leBytes 4 v) = (adler32From 1 (Inf.bytes w)).toNat then ends w else .error (6, w)
  else
    match body x with
    | .error e => .error e
    | .ok z => ends z

/-! ## The delta pre-filter (R351 to R353) -/

/-- Elements of `w` bytes, little-endian; a rest shorter than an element is left. -/
def elements (w : Nat) : Nat → List Byte → List Nat
  | 0, _ => []
  | fuel + 1, bs => if w = 0 || bs.length < w then [] else ofLe (bs.take w) :: elements w fuel (bs.drop w)

/-- The filter over elements; `hist` holds the source elements before, newest first, `k` elements a record. -/
def deltaOut (w k : Nat) : List Nat → List Nat → List Nat
  | _, [] => []
  | hist, e :: t =>
    let m := 2 ^ (8 * w)
    (if k ≤ hist.length then (e + m - hist.getD (k - 1) 0) % m else e) :: deltaOut w k (e :: hist) t

/-- Its reverse; `hist` holds the restored elements. -/
def deltaIn (w k : Nat) : List Nat → List Nat → List Nat
  | _, [] => []
  | hist, d :: t =>
    let m := 2 ^ (8 * w)
    let e := if k ≤ hist.length then (d + hist.getD (k - 1) 0) % m else d
    e :: deltaIn w k (e :: hist) t

/-- One section's data, filtered or restored; the last bytes that fill no element are copied (R351). -/
def deltaSection (restore : Bool) (w r : Nat) (bs : List Byte) : List Byte :=
  let es := elements w (bs.length + 1) bs
  let out := if restore then deltaIn w (r / w) [] es else deltaOut w (r / w) [] es
  out.flatMap (leBytes w) ++ bs.drop (es.length * w)

/-- A section as COMPRESS feeds it: header, then filtered bytes. -/
def deltaEncode (widthCode r : Nat) (bs : List Byte) : List Byte :=
  leBytes 4 0x46444C42 ++ [1, BitVec.ofNat 8 widthCode, 0, 0] ++ leBytes 4 r ++ leBytes 4 bs.length
    ++ deltaSection false (2 ^ widthCode) r bs

/-- Sections restored from expanded bytes, from place `i` of them on; the place at which a section is invalid, if one is. `ended` tells
that the expanded data ends here. Of an element that is cut off nothing is restored (R352, R353). -/
def deltaDecode : Nat → Bool → Nat → List (Byte × Nat) → List (Byte × Nat) × Option Nat
  | 0, _, _, _ => ([], none)
  | fuel + 1, ended, i, bs =>
    let cut := if ended then some (i + bs.length) else none
    if bs.isEmpty then ([], none)
    else if bs.length < 16 then ([], cut)
    else
      let h := (bs.take 16).map Prod.fst
      let wc := (h.getD 5 0).toNat
      let r := ofLe (slice h 8 4)
      let n := ofLe (slice h 12 4)
      if ofLe (h.take 4) != 0x46444C42 || h.getD 4 0 != 1#8 || 3 < wc || ofLe (slice h 6 2) != 0 || r = 0 || r % 2 ^ wc != 0 then
        ([], some i)
      else
        let data := (bs.drop 16).take n
        let data := if data.length < n then data.take (data.length / 2 ^ wc * 2 ^ wc) else data
        let out := (deltaSection true (2 ^ wc) r (data.map Prod.fst)).zip (data.map Prod.snd)
        if bs.length - 16 < n then (out, cut)
        else
          let (rest, bad) := deltaDecode fuel ended (i + 16 + n) (bs.drop (16 + n))
          (out ++ rest, bad)

end Sys2Proof.Machine
end

