-- ==== Sys2Proof/Machine/Deflate.lean ====
section
/-! DEFINITION. The compressor of COMPRESS (R340, R341): matches, code lengths and the bits of a dynamic Huffman block. -/

namespace Sys2Proof.Machine

/-! ## Matches (R340) -/

/-- What a block is made of: single bytes, and copies of a length from a distance. -/
inductive Tok where
  | lit (b : Byte)
  | copy (len dist : Nat)
  deriving DecidableEq, Repr

/-- How many bytes of two strings agree from the start. -/
def agree : List Byte → List Byte → Nat
  | a :: t, b :: u => if a = b then agree t u + 1 else 0
  | _, _ => 0

/-- What stands at a distance back; `past` are the bytes before, newest first, and the string runs on into `rest`. -/
def fromBack (past rest : List Byte) (d : Nat) : List Byte := (past.take d).reverse ++ rest

/-- The distances on the hash chain of the next three bytes, nearest first: at most 32 entries within 32 KiB. The hash is free
(log 54). -/
def hashChain (past rest : List Byte) : List Nat :=
  (((List.range (min 32768 past.length)).map (· + 1)).filter (fun d =>
    Config.matchHash ((fromBack (past.take d) rest d).take 3) == Config.matchHash (rest.take 3))).take 32

/-- The longest match on the chain, of at most 258 bytes: its length and distance; of equal ones the nearest (log 54). -/
def longest (past rest : List Byte) : Nat × Nat :=
  if rest.length < 3 then (0, 0)
  else (hashChain past rest).foldl (fun best d =>
    let n := min 258 (agree (fromBack past rest d) rest)
    if best.1 < n then (n, d) else best) (0, 0)

/-- One greedy pass: a match of 3 bytes or more is taken, unless the one at the next byte is longer (R340). -/
def tokens : Nat → List Byte → List Byte → List Tok
  | 0, _, _ => []
  | _, _, [] => []
  | fuel + 1, past, b :: t =>
    let m := longest past (b :: t)
    if m.1 < 3 then .lit b :: tokens fuel (b :: past) t
    else
      let n := longest (b :: past) t
      if m.1 < n.1 then .lit b :: .copy n.1 n.2 :: tokens fuel ((t.take n.1).reverse ++ b :: past) (t.drop n.1)
      else .copy m.1 m.2 :: tokens fuel (((b :: t).take m.1).reverse ++ past) ((b :: t).drop m.1)

/-! ## Symbols and codes (R341) -/

/-- The place of a value in a table of bases. -/
def baseIdx (bases : List Nat) (v : Nat) : Nat := (bases.filter (fun b => decide (b ≤ v))).length - 1

/-- The symbol of a length or a distance, and its extra bits: how many, and their value. -/
def lenSym (n : Nat) : Nat × Nat × Nat :=
  let i := baseIdx lenBase n
  (257 + i, lenExtra.getD i 0, n - lenBase.getD i 0)
def distSym (d : Nat) : Nat × Nat × Nat :=
  let i := baseIdx distBase d
  (i, distExtra.getD i 0, d - distBase.getD i 0)

def Tok.litSym : Tok → Nat
  | .lit b => b.toNat
  | .copy n _ => (lenSym n).1

def Tok.dist? : Tok → Option Nat
  | .lit _ => none
  | .copy _ d => some d

/-- How often each of `n` symbols occurs. -/
def counts (n : Nat) (syms : List Nat) : List Nat := (List.range n).map (fun s => syms.count s)

/-- Code lengths that serve: at most `cap`, for every symbol that occurs, and a complete code; one code of one bit, or none at all, also
serves where no more symbols occur. -/
def serves (cap : Nat) (used lens : List Nat) : Bool :=
  lens.all (fun l => decide (l ≤ cap))
    && used.zipIdx.all (fun e => e.1 == 0 || lens.getD e.2 0 != 0)
    && (kraft lens == 0 || lens.filter (fun l => l != 0) == [1] || (lens.all (fun l => l == 0) && used.all (fun n => n == 0)))

/-- The lengths chosen for a code are free among those that serve (log 54). -/
def codeLens (kind cap : Nat) (used fallback : List Nat) : List Nat :=
  let l := (Config.huffman kind used).take fallback.length
  if serves cap used l then l else fallback

/-- Literal and length symbols, with the end of the block; the code has at least 257 lengths. -/
def litLens (used : List Nat) : List Nat :=
  let l := codeLens 0 15 used (List.replicate 226 8 ++ List.replicate 60 9)
  if l.length < 257 || kraft l != 0 then List.replicate 226 8 ++ List.replicate 60 9 else l

def distLens (used : List Nat) : List Nat :=
  let l := codeLens 1 15 used (List.replicate 2 4 ++ List.replicate 28 5)
  if l.isEmpty then [0] else l

/-- The first code of each length of a canonical code, from length 1 on. -/
def firstCodes (lens : List Nat) : Nat → Nat → Nat → List Nat
  | 0, _, _ => []
  | n + 1, l, code => code :: firstCodes lens n (l + 1) (2 * (code + lens.count l))

/-- A code from its most significant bit on. -/
def msbFirst (n v : Nat) : List Bool := (List.range n).map (fun i => v.testBit (n - 1 - i))

/-- The code of a symbol. -/
def symBits (lens : List Nat) (sym : Nat) : List Bool :=
  let l := lens.getD sym 0
  msbFirst l ((firstCodes lens 15 1 0).getD (l - 1) 0 + (lens.take sym).count l)

/-- A number of `n` bits, least significant first. -/
def lsbFirst (n v : Nat) : List Bool := (List.range n).map v.testBit

/-! ## The head of a block -/

/-- What a run of the code-length alphabet stands for, after the lengths so far: a length, or a repetition. -/
def runOut (sofar : List Nat) (r : Nat × Nat) : List Nat :=
  match r.1 with
  | 16 => if r.2 < 4 then List.replicate (3 + r.2) (sofar.getLastD 16) else []
  | 17 => if r.2 < 8 then List.replicate (3 + r.2) 0 else []
  | 18 => if r.2 < 128 then List.replicate (11 + r.2) 0 else []
  | l => if l < 16 then [l] else []

/-- A run whose repetition its extra bits hold. -/
def runOk (r : Nat × Nat) : Bool :=
  decide (r.1 < 16) || (r.1 == 16 && decide (r.2 < 4)) || (r.1 == 17 && decide (r.2 < 8)) || (r.1 == 18 && decide (r.2 < 128))

/-- The runs in which the code lengths go out: free among those that spell them (log 54). -/
def lengthRuns (all : List Nat) : List (Nat × Nat) :=
  let rs := Config.lengthRuns all
  if rs.foldl (fun a r => a ++ runOut a r) [] == all && rs.all runOk then rs
  else all.map (fun l => (l, 0))

def runExtra (sym : Nat) : Nat := if sym = 16 then 2 else if sym = 17 then 3 else if sym = 18 then 7 else 0

/-- HLIT, HDIST, HCLEN, the lengths of the code-length code, then the lengths of the two codes. -/
def headBits (lit dist : List Nat) : List Bool :=
  let rs := lengthRuns (lit ++ dist)
  let cl := codeLens 2 7 (counts 19 (rs.map Prod.fst)) (List.replicate 13 4 ++ List.replicate 6 5)
  let cl := if cl.length = 19 && kraft cl == 0 then cl else List.replicate 13 4 ++ List.replicate 6 5
  let order := clOrder.map (fun s => cl.getD s 0)
  let n := max 4 (19 - (order.reverse.takeWhile (fun l => l == 0)).length)
  lsbFirst 5 (lit.length - 257) ++ lsbFirst 5 (dist.length - 1) ++ lsbFirst 4 (n - 4) ++ (order.take n).flatMap (lsbFirst 3)
    ++ rs.flatMap (fun r => symBits cl r.1 ++ lsbFirst (runExtra r.1) r.2)

/-- One token. -/
def tokBits (lit dist : List Nat) : Tok → List Bool
  | .lit b => symBits lit b.toNat
  | .copy n d =>
    let l := lenSym n
    let e := distSym d
    symBits lit l.1 ++ lsbFirst l.2.1 l.2.2 ++ symBits dist e.1 ++ lsbFirst e.2.1 e.2.2

/-- The dynamic Huffman block that bytes make after a window, after its block header. -/
def dynamicBits (window bs : List Byte) : List Bool :=
  let ts := tokens bs.length window.reverse bs
  let lit := litLens (counts 286 (ts.map Tok.litSym ++ [256]))
  let dist := distLens (counts 30 (ts.filterMap (fun t => t.dist?.map (fun d => (distSym d).1))))
  headBits lit dist ++ ts.flatMap (tokBits lit dist) ++ symBits lit 256

end Sys2Proof.Machine
end

