-- ==== Sys2Proof/Machine/Gmac.lean ====
section
/-! DEFINITION. AES-256-GMAC (R309): the block cipher of FIPS 197 with a 256-bit key, and the authentication code of SP 800-38D
over data that is not encrypted. -/

namespace Sys2Proof.Machine

/-! ## The field of 256 elements and the substitution -/

/-- Multiplication by x modulo x^8 + x^4 + x^3 + x + 1. -/
def gfTwice (a : Byte) : Byte := if a.getLsbD 7 then (a <<< 1) ^^^ 0x1B#8 else a <<< 1

/-- The product, by the bits of the second factor from the top. -/
def gfTimes (a b : Byte) : Byte :=
  (List.range 8).foldr (fun i acc => if b.getLsbD i then gfTwice acc ^^^ a else gfTwice acc) 0

/-- The 254th power: the inverse, and 0 of 0. -/
def gfInverse (a : Byte) : Byte :=
  let squares := (List.range 7).foldl (fun (p : Byte × Byte) _ => let q := gfTimes p.1 p.1; (q, gfTimes p.2 q)) (a, 1)
  squares.2

def aesSub (a : Byte) : Byte :=
  let b := gfInverse a
  b ^^^ b.rotateLeft 1 ^^^ b.rotateLeft 2 ^^^ b.rotateLeft 3 ^^^ b.rotateLeft 4 ^^^ 0x63#8

/-! ## The cipher -/

def xorBytes (a b : List Byte) : List Byte := List.zipWith (· ^^^ ·) a b

/-- The words of the key schedule, newest first: the eight of the key, then as many as asked for. -/
def aesWords (key : List Byte) : Nat → List (List Byte)
  | 0 => ((List.range 8).map (fun i => slice key (4 * i) 4)).reverse
  | n + 1 =>
    let ws := aesWords key n
    let newest := ws.headD []
    let turned :=
      if n % 8 = 0 then
        xorBytes ((newest.drop 1 ++ newest.take 1).map aesSub) [Nat.repeat gfTwice (n / 8) 1, 0, 0, 0]
      else if n % 8 = 4 then newest.map aesSub
      else newest
    xorBytes (ws.getD 7 []) turned :: ws

/-- The fifteen round keys. -/
def aesKeys (key : List Byte) : List (List Byte) :=
  let ws := (aesWords key 52).reverse
  (List.range 15).map (fun r => ((ws.drop (4 * r)).take 4).flatten)

/-- Substitution, then each row of the block turned by its number; the block stands column by column. -/
def aesShift (b : List Byte) : List Byte :=
  (List.range 16).map (fun i => aesSub (b.getD ((i + 4 * (i % 4)) % 16) 0))

/-- The columns multiplied by 3x^3 + x^2 + x + 2. -/
def aesMix (b : List Byte) : List Byte :=
  (List.range 16).map (fun i =>
    let at_ := fun (k : Nat) => b.getD (i / 4 * 4 + (i + k) % 4) 0
    gfTwice (at_ 0) ^^^ gfTwice (at_ 1) ^^^ at_ 1 ^^^ at_ 2 ^^^ at_ 3)

/-- One block enciphered. -/
def aesBlock (key block : List Byte) : List Byte :=
  match aesKeys key with
  | [] => block
  | k :: ks =>
    let inner := (ks.take 13).foldl (fun b k => xorBytes (aesMix (aesShift b)) k) (xorBytes block k)
    xorBytes (aesShift inner) (ks.getD 13 [])

/-! ## The authentication code -/

/-- A block as the element whose coefficient of x^i is bit i counted from the top. -/
def gcmBlock (bs : List Byte) : BitVec 128 := BitVec.ofNat 128 (ofBe (fitBytes 16 bs))

/-- The product modulo x^128 + x^7 + x^2 + x + 1. -/
def gcmTimes (a h : BitVec 128) : BitVec 128 :=
  ((List.range 128).foldl (fun (p : BitVec 128 × BitVec 128) i =>
    (if a.getMsbD i then p.1 ^^^ p.2 else p.1,
     if p.2.getLsbD 0 then (p.2 >>> 1) ^^^ (0xE1#128 <<< 120) else p.2 >>> 1)) (0, h)).1

/-- The tag over data, with a 96-bit initialisation vector. -/
def gmac (key iv data : List Byte) : List Byte :=
  let h := gcmBlock (aesBlock key (zeros 16))
  let blocks := (List.range (ceilDiv data.length 16)).map (fun i => gcmBlock (slice data (16 * i) 16))
  let sizes := gcmBlock (beBytes 8 (8 * data.length) ++ zeros 8)
  let sum := (blocks ++ [sizes]).foldl (fun y b => gcmTimes (y ^^^ b) h) 0
  xorBytes (beBytes 16 sum.toNat) (aesBlock key (fitBytes 12 iv ++ [0, 0, 0, 1]))

end Sys2Proof.Machine
end

