-- ==== Sys2Proof/Machine/KMap.lean ====
section
/-! DEFINITION. Keyed lists: reading, writing and erasing an entry.  A list that these operations build keeps its keys
strictly rising. -/

namespace Sys2Proof.Machine

/-- The entry of a key. -/
def kget? {α : Type} : KMap α → Nat → Option α
  | [], _ => none
  | (k', v) :: t, k => if k' = k then some v else kget? t k

/-- The entry of a key, or a given value where none is listed. -/
def kgetD {α : Type} (m : KMap α) (k : Nat) (d : α) : α := (kget? m k).getD d

/-- Writing an entry, in its place in the rising order. -/
def kset {α : Type} : KMap α → Nat → α → KMap α
  | [], k, v => [(k, v)]
  | (k', v') :: t, k, v =>
    if k < k' then (k, v) :: (k', v') :: t
    else if k = k' then (k, v) :: t
    else (k', v') :: kset t k v

/-- Erasing an entry. -/
def kerase {α : Type} (m : KMap α) (k : Nat) : KMap α := m.filter (fun e => e.1 != k)

/-- Changing an entry that is listed. -/
def kmod {α : Type} (m : KMap α) (k : Nat) (f : α → α) : KMap α :=
  match kget? m k with
  | none => m
  | some v => kset m k (f v)

/-- The keys in rising order. -/
def kkeys {α : Type} (m : KMap α) : List Nat := m.map Prod.fst

/-- The entries in the order of their keys. -/
def kvals {α : Type} (m : KMap α) : List α := m.map Prod.snd

/-- Keys strictly rising, the canonical form. -/
def kwf {α : Type} : KMap α → Bool
  | [] => true
  | [_] => true
  | (a, _) :: (b, v) :: t => decide (a < b) && kwf ((b, v) :: t)

/-- Inserting an element before the first that it does not follow. -/
def insertBy {α : Type} (le : α → α → Bool) (a : α) : List α → List α
  | [] => [a]
  | b :: t => if le a b then a :: b :: t else b :: insertBy le a t

/-- A list in the order of a relation; what the relation does not tell apart keeps its order. -/
def sortBy {α : Type} (le : α → α → Bool) (l : List α) : List α := l.foldr (insertBy le) []

end Sys2Proof.Machine
end

