-- ==== Sys2Proof/Machine/Ops.lean ====
section
/-! DEFINITION. The named operations on State that every family shares: reading and writing registers and their fields,
64-bit values, saturating counters, free values, outputs, and corrected time (R171). -/

namespace Sys2Proof.Machine

/-! ## Registers -/

/-- The word at an offset: the listed word, or the reset word. -/
def regRead (m : KMap Word) (off : Nat) : Word :=
  match kget? m off with
  | some w => w
  | none => resetWord off

/-- Writing a word keeps the canonical form: a word equal to the reset word is not listed. -/
def regWrite (m : KMap Word) (off : Nat) (w : Word) : KMap Word :=
  if w = resetWord off then kerase m off else kset m off w

/-- The canonical form of the register map: rising keys, and no entry equal to its reset word. -/
def regsWf (m : KMap Word) : Bool := kwf m && m.all (fun e => e.2 != resetWord e.1)

def State.rd (s : State) (a : Nat) : Word := regRead s.regs a
def State.wr (s : State) (a : Nat) (w : Word) : State := { s with regs := regWrite s.regs a w }

/-- A register read as a number. -/
def State.rdN (s : State) (a : Nat) : Nat := (s.rd a).toNat

/-- A field of a register. -/
def State.fget (s : State) (a : Nat) (f : BitField) : Nat := BitField.get f (s.rd a)
def State.fput (s : State) (a : Nat) (f : BitField) (v : Nat) : State := s.wr a (BitField.put f v (s.rd a))

/-- A one-bit field as a truth value. -/
def State.flag (s : State) (a : Nat) (f : BitField) : Bool := s.fget a f != 0
def State.setFlag (s : State) (a : Nat) (f : BitField) (b : Bool) : State := s.fput a f (b2n b)

/-- A two-word value, lower word at the lower address. -/
def State.rd64 (s : State) (a : Nat) : Word64 := join64 (s.rd a) (s.rd (a + 4))
def State.wr64 (s : State) (a : Nat) (w : Word64) : State := (s.wr a (lo32 w)).wr (a + 4) (hi32 w)

/-- A counter that saturates at 0xFFFF_FFFF. -/
def State.incSat (s : State) (a : Nat) (n : Nat) : State := s.wr a (word (min 0xFFFFFFFF (s.rdN a + n)))

/-- A shadow copy of a word (R8): one equal to the reset word is not listed. -/
def shadowPut (m : KMap Word) (a : Nat) (w : Word) : KMap Word := regWrite m a w

/-- Returning a stretch of registers to their reset words. -/
def State.resetRange (s : State) (lo hi : Nat) : State :=
  { s with regs := s.regs.filter (fun e => !(decide (lo ≤ e.1) && decide (e.1 < hi)))
           shadow := s.shadow.filter (fun e => !(decide (lo ≤ e.1) && decide (e.1 < hi)))
           staged := s.staged.filter (fun e => !(decide (lo ≤ e.1) && decide (e.1 < hi))) }

/-! ## Free values and outputs -/

/-- Drawing a fresh 64-bit free value (log 2). -/
def State.draw64 (s : State) : Word64 × State := (Config.free64 s.freeCtr, { s with freeCtr := s.freeCtr + 1 })

/-- Drawing a fresh free truth value (log 2). -/
def State.drawBit (s : State) : Bool × State := (Config.freeBit s.freeCtr, { s with freeCtr := s.freeCtr + 1 })

/-- Drawing `n` fresh free bytes (log 2). -/
def State.drawBytes (s : State) (n : Nat) : List Byte × State :=
  (fitBytes n (Config.freeBytes s.freeCtr), { s with freeCtr := s.freeCtr + 1 })

/-- Sending something to the outside. -/
def State.emit (s : State) (o : Output) : State := { s with out := o :: s.out }

/-- GLB_ACCADDR of an access (R484). -/
def accWord (write : Bool) (off : Nat) : Word := word (2 ^ 31 * b2n write + off % 2 ^ 20)

/-- A register write that is discarded, or a malformed access: GLB_STAT.acc_err is set, and GLB_ACCADDR records the
access if acc_err was clear (R3, R6, R484). -/
def State.accErr (s : State) (write : Bool) (off : Nat) : State :=
  let s' := if s.flag Reg.GLB_STAT Fld.GLB_STAT_acc_err then s
    else s.wr Reg.GLB_ACCADDR (accWord write off)
  s'.setFlag Reg.GLB_STAT Fld.GLB_STAT_acc_err true

/-! ## Power states -/

def State.inRun (s : State) : Bool := s.pw.power == .run
def State.inIdle (s : State) : Bool := s.pw.power == .idle
/-- Hardware is powered and out of reset. -/
def State.alive (s : State) : Bool := !(s.pw.power == .off) && !(s.pw.power == .fallow)
/-- RWL writes are accepted: in Idle, and not while the consistency check runs (R3, R473). -/
def State.idleOpen (s : State) : Bool := s.inIdle && !s.pw.checking

/-! ## Corrected time (R170, R171), in units of 2^-16 ns -/

/-- The rate correction, units of 2^-48. -/
def State.rate (s : State) : Int := (s.rd64 Reg.TB_RATE_LO).toInt

/-- The raw time of a count with fraction. -/
def rawOf (count : Nat) (frac : Nat) : Int := ((count * 65536 + frac) * 2 : Nat)

/-- Corrected time of a raw time, exact, in units of 2^-64 ns. -/
def State.corr64 (s : State) (raw : Int) : Int := raw * 2 ^ 48 + s.tb.off + s.rate * (raw - s.tb.anchor)

/-- Corrected time of a raw time, in units of 2^-16 ns; the rounding of the last bit is open (log 6). -/
def State.corrOf (s : State) (raw : Int) : Int := openDiv (s.corr64 raw) (2 ^ 48)

/-- Corrected time now. -/
def State.now (s : State) : Int := s.corrOf (rawOf s.tb.cnt.toNat 0)

/-- Corrected time of a stamp (R177). -/
def State.stampTime (s : State) (t : Stamp) : Int := s.corrOf (rawOf t.count.toNat t.frac.toNat)

/-- One nanosecond, one base slot and one second in units of 2^-16 ns. -/
def nsU : Int := 65536
def slotU : Int := 62500 * 65536
def secU : Int := 1000000000 * 65536

/-- The time that a PTP-format time names. -/
def PtpTime.val (t : PtpTime) : Int :=
  (t.sec.toNat : Int) * secU + (t.ns.toNat : Int) * nsU + (t.frac.toNat : Int)

/-- A time in the format of R171. -/
def timeParts (t : Int) : PtpTime :=
  { sec := BitVec.ofInt 48 (t / secU), ns := BitVec.ofInt 32 (t % secU / nsU), frac := BitVec.ofInt 16 (t % nsU) }

/-- The 12 bytes of a time: fraction, nanoseconds, seconds, in that order. -/
def timeBytes (t : Int) : List Byte :=
  let p := timeParts t
  leBytes 2 p.frac.toNat ++ leBytes 4 p.ns.toNat ++ leBytes 6 p.sec.toNat

/-- The frame period m in base slots. -/
def State.m (s : State) : Nat := s.fget Reg.FR_PERIOD Fld.FR_PERIOD_period

/-- The frame period P. -/
def State.periodU (s : State) : Int := (s.m : Int) * slotU

/-- The grid time T_n of a tick (R31). -/
def State.tickTime (s : State) (n : Nat) : Int := (s.fr.epoch : Int) * secU + (n : Int) * s.periodU

/-- The frame whose window is open or was the last to open (FR_FRAME). -/
def State.frameNo (s : State) : Nat := (s.rd64 Reg.FR_FRAME_LO).toNat

/-- Frames run: ticks are scheduled (FR_STAT.running). -/
def State.running (s : State) : Bool := s.flag Reg.FR_STAT Fld.FR_STAT_running

/-- The first count at which corrected time is at or after `t`. -/
def State.countAt (s : State) (t : Int) : Nat :=
  let den : Int := 2 * 65536 * (2 ^ 48 + s.rate)
  let num : Int := t * 2 ^ 48 - s.tb.off + s.rate * s.tb.anchor
  ((num + den - 1) / den).toNat

/-- Time passes up to `t`: the counter runs on to the first count at or after it (log 5). -/
def State.advanceTo (s : State) (t : Int) : State :=
  if s.tb.cnt.toNat < s.countAt t then { s with tb := { s.tb with cnt := BitVec.ofNat 64 (s.countAt t) } } else s

/-- One period of the counter clock passes: the counter runs whenever the hub die is powered (R170). -/
def idleTick (s : State) : State := if s.alive then { s with tb := { s.tb with cnt := s.tb.cnt + 1 } } else s

/-- The own hub address (LN_ADDR). -/
def State.hubAddr (s : State) : Nat := s.fget Reg.LN_ADDR Fld.LN_ADDR_addr

end Sys2Proof.Machine
end

