-- ==== Sys2Proof/Machine/Link.lean ====
section
/-! DEFINITION. Cells on a port: layout and tag, the line they go out on, link sequence numbers, the replay buffer, hold and release,
the order of the queues, routes round the ring, and what goes to the host (R264 to R266, R299 to R309, R315, R322 to R327). -/

namespace Sys2Proof.Machine

/-- A lane's transmitter before its first bit: the scrambler of R301's remark, all zero (log 86). -/
def LaneTx.init : LaneTx := { past := 0, level := false, run := 0 }

/-- A port before its first training. -/
def PortSt.init : PortSt :=
  { hello := false, txSeq := 0, rxSeq := 0, naked := false, acceptedSince := 0, replay := [], replayDue := false, replaysOfOldest := 0
    replaysInSecond := 0, queue := [], heldByPartner := false, holding := false, delineated := false, badRun := 0, authRun := 0
    keys := none, rekey := 0, agree := none, keyBlocked := false, ringSub := 0, inject := false, partnerLanes := 3, loops := 0
    tx := [LaneTx.init, LaneTx.init], lineFree := 0, txSlots := 0, rxSlots := 0 }

def State.port (s : State) (p : Nat) : PortSt := (kget? s.ln.ports p).getD PortSt.init
def State.setPort (s : State) (p : Nat) (x : PortSt) : State := { s with ln := { s.ln with ports := kset s.ln.ports p x } }
def State.modPort (s : State) (p : Nat) (f : PortSt → PortSt) : State := s.setPort p (f (s.port p))

/-- A ring port (0 U, 1 D) or the twin lane (2) is up. -/
def State.portUp (s : State) (p : Nat) : Bool :=
  if p < 2 then 3 ≤ s.fget (Reg.LN_PSTAT p) Fld.LN_PSTAT_state else s.flag Reg.SV_TWSTAT Fld.SV_TWSTAT_lane

/-- Lanes in service of a ring port; the twin lane is a lane 0. -/
def State.inService (s : State) (p : Nat) : Nat := if p < 2 then s.fget (Reg.LN_PSTAT p) Fld.LN_PSTAT_in_service else b2n (s.portUp 2)
def State.setInService (s : State) (p v : Nat) : State := if p < 2 then s.fput (Reg.LN_PSTAT p) Fld.LN_PSTAT_in_service v else s

/-- The lanes that carry a port's cells, in order. -/
def State.lanesOn (s : State) (p : Nat) : List Nat := if p < 2 then lanesIn (s.inService p) else [0]

/-- The ring runs in authenticated mode. -/
def State.authOn (s : State) : Bool := s.flag Reg.LN_STAT Fld.LN_STAT_auth_on

/-! ## Cell layout (R303, R304, R309) -/

def Cell.header (seq : Nat) (c : Cell) : Nat :=
  2 ^ 28 * c.typ + 2 ^ 22 * c.src + 2 ^ 16 * c.dst + 2 ^ 15 * b2n c.first + 2 ^ 14 * b2n c.last + 2 ^ 13 * b2n c.turned + seq

/-- Payload bytes of a cell. -/
def State.payloadLen (s : State) : Nat := if s.authOn then 240 else 256

/-- The initialisation vector of a cell slot: the transmitter's address and port, whose packing into 32 bits the spec leaves open
(log 18), then the slots sent before since the key was installed. -/
def slotIv (addr port : Nat) (count : Word64) : List Byte := leBytes 4 (Config.linkAddress addr port).toNat ++ leBytes 8 count.toNat

/-- The tag of a cell: idle and key agreement cells carry zeros. -/
def State.txTag (s : State) (p typ : Nat) (body : List Byte) : List Byte :=
  if !s.authOn then []
  else match typ, (s.port p).keys with
    | 0, _ | 0xD, _ | _, none => zeros 16
    | _, some k => gmac k.1 (slotIv s.hubAddr p (s.port p).txSlots) body

/-- The bytes of a cell on the line; `bad` corrupts its CRC (R330). -/
def State.cellBytes (s : State) (p seq : Nat) (c : Cell) (bad : Bool) : List Byte :=
  let body := leBytes 4 (Cell.header seq c) ++ fitBytes s.payloadLen c.payload
  let body := body ++ s.txTag p c.typ body
  body ++ leBytes 4 (if bad then ~~~ (crc32c body) else crc32c body).toNat

/-! ## Cells on the line (R299 to R302) -/

/-- Duration of a cell slot in units of 10 ps: 264 bytes at 12.5 Gb/s, at half of that with one lane or at the fallback rate, at a
quarter with both. -/
def State.slotTime (s : State) (p : Nat) : Nat :=
  let lanes := max 1 (s.lanesOn p).length
  let rate := if p < 2 && s.fget (Reg.LN_PSTAT p) Fld.LN_PSTAT_rate = 1 then 1 else 2
  16896 * 4 / (lanes * rate)

/-- A lane's transmitter after idle cells or a training, whose bits the spec does not fix, is free (log 86). -/
def State.drawLane (s : State) (p i : Nat) : State :=
  let (w, s) := s.draw64
  let (b, s) := s.drawBit
  let x := s.port p
  s.setPort p { x with tx := x.tx.set i { past := w.setWidth 58, level := b, run := (w >>> 58).toNat % 24 } }

/-- A port has trained: its line is free from now on. -/
def State.lineStarts (s : State) (p : Nat) : State :=
  ((s.drawLane p 0).drawLane p 1).modPort p (fun x => { x with lineFree := 200 * s.tb.cnt.toNat })

/-- The bytes of an idle cell, from the state of the free-running generator (R303, R304). -/
def State.idleBytes (s : State) (p : Nat) (g : BitVec 31) : List Byte :=
  s.cellBytes p 0 { typ := 0, src := s.hubAddr, dst := 0x3F, first := true, last := true, turned := false
                    payload := idlePayload s.payloadLen g, via := 2 } false

/-- The line up to the next cell slot: idle cells fill the time since the line fell free (R302). Where their generator stands is free
(log 86). -/
def State.nextSlot (s : State) (p : Nat) : State :=
  let x := s.port p
  let idle := ceilDiv (200 * s.tb.cnt.toNat - x.lineFree) (s.slotTime p)
  if idle = 0 then s
  else
    let (g, s) := s.draw64
    (((s.drawLane p 0).drawLane p 1).modPort p (fun x =>
      { x with lineFree := x.lineFree + idle * s.slotTime p, txSlots := x.txSlots + BitVec.ofNat 64 idle })).emit
        (.idle p idle (s.idleBytes p (g.setWidth 31)))

/-- A cell goes out in its slot, over the lanes in service. -/
def State.putCell (s : State) (p seq : Nat) (c : Cell) (bad : Bool) : State :=
  let s := s.nextSlot p
  let bs := s.cellBytes p seq c bad
  let x := s.port p
  let on := s.lanesOn p
  let sent := on.zipIdx.map (fun e => (e.1, (x.tx.getD e.1 LaneTx.init).send (laneGroups on.length e.2 bs)))
  let tx := [0, 1].map (fun i => ((sent.lookup i).map Prod.snd).getD (x.tx.getD i LaneTx.init))
  (s.setPort p { x with tx := tx, lineFree := x.lineFree + s.slotTime p, txSlots := x.txSlots + 1 }).emit
    (.cell p c.typ bs (sent.map (fun e => (e.1, e.2.1))))

/-- A cell of this hub without a sequence number. -/
def State.sendUnseq (s : State) (p typ dst : Nat) (first last : Bool) (payload : List Byte) : State :=
  s.putCell p 0 { typ := typ, src := s.hubAddr, dst := dst, first := first, last := last, turned := false, payload := payload, via := 2 } false

/-! ## Sequenced cells (R307, R308, R315) -/

/-- The place of a sequenced cell in the order of R307.  Cut notices, flushes, tails and route markers go behind every cell that
waits, as R322 and R324 have it; the cells that continue a longer message have no subtype of their own and keep its place (R305). -/
def Cell.queueOf (own : Bool) (c : Cell) : Nat :=
  match c.typ with
  | 3 => if c.first && decide (4 ≤ (c.payload.getD 0 0).toNat) then 8 else 3
  | 0xB => 4
  | 0xC => 5
  | 9 => 6
  | 0xA => 6
  | _ => if own then 8 else 7

/-- A sequenced cell may go now. -/
def State.mayTransmit (s : State) (p : Nat) : Bool :=
  s.portUp p && !(s.port p).heldByPartner && decide ((s.port p).replay.length < 4095)

/-- A cell takes the next number and goes out; the replay buffer keeps it. -/
def State.transmit (s : State) (p : Nat) (c : Cell) : State :=
  let x := s.port p
  (s.putCell p x.txSeq.toNat c x.inject).modPort p (fun y =>
    { y with txSeq := x.txSeq + 1, replay := x.replay ++ [(x.txSeq, c)], inject := false })

/-- A cell takes its place behind the waiting cells of its own queue and of the earlier ones. -/
def enqueue (k : Nat) (c : Cell) (q : List (Nat × Cell)) : List (Nat × Cell) :=
  q.takeWhile (fun e => decide (e.1 ≤ k)) ++ [(k, c)] ++ q.dropWhile (fun e => decide (e.1 ≤ k))

/-- Sending a sequenced cell on a port: at once, or behind the cells that wait. -/
def State.sendCell (s : State) (p : Nat) (own : Bool) (c : Cell) : State :=
  if s.mayTransmit p && (s.port p).queue.isEmpty then s.transmit p c
  else s.modPort p (fun x => { x with queue := enqueue (Cell.queueOf own c) c x.queue })

def State.pumpN (p : Nat) : Nat → State → State
  | 0, s => s
  | n + 1, s =>
    match (s.port p).queue with
    | e :: rest => if s.mayTransmit p then State.pumpN p n ((s.modPort p (fun x => { x with queue := rest })).transmit p e.2) else s
    | [] => s

/-- Waiting cells go out as far as the partner allows. -/
def State.pump (s : State) (p : Nat) : State := s.pumpN p (s.port p).queue.length

/-! ## Routes (R306, R322, R325) -/

/-- The way down from position `a` over `d` hops crosses the cut behind position `c`. -/
def crosses (n a d c : Nat) : Bool := decide ((c + n - a) % n < d)

/-- The way from position `a` to position `b` round a ring of `n`: 0 for port U, 1 for port D. It is the shorter way, U at
exactly halfway; after a break, the one that crosses no cut; none where both do (R306, R325). -/
def routeOf (n a b : Nat) (cuts : List (Nat × Nat)) : Option Nat :=
  if n = 0 || a = b then none
  else
    let d := (b + n - a) % n
    match cuts.all (fun c => !crosses n a d c.1), cuts.all (fun c => crosses n a d c.1) with
    | true, true => if d < n - d then some 1 else some 0
    | true, false => some 1
    | false, true => some 0
    | false, false => none

/-- Hubs in the ring: those in the map, and those whose address another one has there. -/
def State.hubs (s : State) : Nat := s.ln.map.length + s.ln.twins.length

/-- The present route to an address, and the route of an unbroken ring. -/
def State.route (s : State) (dst : Nat) : Option Nat :=
  (kget? s.ln.map dst).bind (fun b => routeOf s.hubs s.ln.position b s.ln.cuts)
def State.wholeRoute (s : State) (dst : Nat) : Option Nat :=
  (kget? s.ln.map dst).bind (fun b => routeOf s.hubs s.ln.position b [])

/-- The host can be reached: this hub is the head, or has a route to it (R325). -/
def State.toHead (s : State) : Bool := s.pw.headSel || (s.route 0).isSome

/-- The way to the head's host is not held up by the next hub (R308). -/
def State.wayFree (s : State) : Bool := s.pw.headSel || (s.route 0).all (fun p => !(s.port p).heldByPartner)

/-- A message of one cell from this hub. -/
def State.ownCell (s : State) (typ dst : Nat) (payload : List Byte) : Cell :=
  { typ := typ, src := s.hubAddr, dst := dst, first := true, last := true, turned := false, payload := payload, via := 2 }

/-- A message split into cells (R305). -/
def cellsOf (typ src dst plen : Nat) : Nat → List Byte → Bool → List Cell
  | 0, _, _ => []
  | n + 1, bs, first =>
    let last := decide (bs.length ≤ plen)
    ({ typ := typ, src := src, dst := dst, first := first, last := last, turned := false, payload := bs.take plen, via := 2 } : Cell)
      :: (if last then [] else cellsOf typ src dst plen n (bs.drop plen) false)

/-- Sending this hub's own cell on its route: it waits for one while its destination cannot be reached (R325, R327), and while a
reroute is under way, traffic that crossed the cut is held (R322). -/
def State.sendOwn (s : State) (c : Cell) : State :=
  match s.route c.dst with
  | none => { s with ln := { s.ln with stranded := s.ln.stranded ++ [c] } }
  | some p =>
    let holds := s.ln.reroutes.find? (fun e => e.2.holdsOwn && s.wholeRoute c.dst == some e.1 && e.1 != p)
    match holds with
    | some (k, r) => { s with ln := { s.ln with reroutes := kset s.ln.reroutes k { r with held := r.held ++ [c] } } }
    | none => s.sendCell p true c

/-- The cells of a message of this hub. -/
def State.messageCells (s : State) (typ dst : Nat) (bs : List Byte) : List Cell :=
  cellsOf typ s.hubAddr dst s.payloadLen (bs.length / s.payloadLen + 1) bs true

/-- A ring control message whose contents the spec names without a place for each: the subtype, then 8 bytes of the message for each
value (log 2). -/
def ringBytes (sub : Nat) (values : List Nat) : List Byte :=
  [BitVec.ofNat 8 sub] ++ zeros 3 ++ fitBytes (8 * values.length) (Config.ringMessage sub values)

/-- Such a message on a port, in as many cells as it takes. -/
def State.sendValues (s : State) (p sub dst : Nat) (values : List Nat) : State :=
  (s.messageCells 3 dst (ringBytes sub values)).foldl (fun s c => s.sendCell p true c) s

/-- A message of this hub, in as many cells as it takes (R305). -/
def State.sendMessage (s : State) (typ dst : Nat) (bs : List Byte) : State := (s.messageCells typ dst bs).foldl State.sendOwn s

/-! ## Host memory (R264 to R266, R326, R327) -/

/-- A request of the head, or of a member through it, goes to the host, or waits while the function is outside the state of R265. -/
def State.tunnelled (s : State) (o : Output) : State :=
  if s.pw.d0 then s.emit o else { s with ln := { s.ln with tunnel := s.ln.tunnel ++ [o] } }

/-- A write as PCI Express writes of at most `mps` bytes each (R264, R326). -/
def splitWrite (mps : Nat) (addr : Word64) (bs : List Byte) : List Output :=
  (List.range (ceilDiv bs.length mps)).map (fun i => .dmaWrite (addr + BitVec.ofNat 64 (mps * i)) (slice bs (mps * i) (min mps (bs.length - mps * i))))

/-- A write of host memory at the head. -/
def State.memWrite (s : State) (addr : Word64) (bs : List Byte) : State :=
  (splitWrite s.hi.maxPayload addr bs).foldl State.tunnelled s

/-- A member's write, in pieces that one write header can name: at most 1,048,576 bytes each (R304). -/
def tunnelParts (addr : Word64) (bs : List Byte) : List (Word64 × List Byte) :=
  (List.range (ceilDiv bs.length 1048576)).map (fun i => (addr + BitVec.ofNat 64 (1048576 * i), slice bs (1048576 * i) (min 1048576 (bs.length - 1048576 * i))))

/-- One write header of a member and its data (R326). -/
def State.tunnelWrite (s : State) (e : Word64 × List Byte) : State :=
  let n := s.ln.order
  let s := { s with ln := { s.ln with order := n + 1 } }
  (s.sendMessage 4 0 (leBytes 8 e.1.toNat ++ leBytes 4 e.2.length ++ leBytes 4 n.toNat)).sendMessage 6 0 e.2

/-- What goes to the host: a head's own requests; a member's cells to the head, at address 0 (R266, R326). -/
def State.toHost (s : State) (o : Output) : State :=
  match s.pw.headSel, o with
  | true, .dmaWrite a bs => s.memWrite a bs
  | true, o => s.emit o
  | false, .dmaWrite a bs =>
    (tunnelParts a bs).foldl State.tunnelWrite s
  | false, .msix v => s.sendMessage 8 0 [BitVec.ofNat 8 v]
  | false, o => s.emit o

/-- Outstanding read requests that a hub may have (R264, R327). -/
def State.readLimit (s : State) : Nat := if s.pw.headSel then 64 else 16

/-- The lowest tag of a member under which no read is outstanding. -/
def State.freeTag (s : State) : Nat := ((List.range 16).find? (fun t => !s.ln.reads.any (fun r => r.tag == t))).getD 0

/-- A read request goes out. -/
def State.sendRead (s : State) (r : ReadReq) : State :=
  if s.pw.headSel then s.emit (.dmaRead r.addr r.len)
  else s.sendMessage 5 0 (leBytes 8 r.addr.toNat ++ leBytes 4 r.len ++ [BitVec.ofNat 8 r.tag])

def State.pumpReadsN : Nat → State → State
  | 0, s => s
  | n + 1, s =>
    match s.ln.readWait with
    | [] => s
    | r :: rest =>
      if (s.pw.headSel && !s.pw.d0) || decide (s.readLimit ≤ s.ln.reads.length) then s
      else
        let r := { r with tag := s.freeTag }
        State.pumpReadsN n (({ s with ln := { s.ln with readWait := rest, reads := s.ln.reads ++ [r] } }).sendRead r)

/-- The read requests that wait go out in arrival order, as far as the limit and the function allow (R265, R327). -/
def State.pumpReads (s : State) : State := s.pumpReadsN s.ln.readWait.length

/-- A read of host memory, in requests of at most 4,096 bytes (R264). -/
def State.readHost (s : State) (who : ReadBy) (addr : Word64) (len : Nat) : State :=
  let rs : List ReadReq := (List.range (ceilDiv len 4096)).map (fun i =>
    { who := who, addr := addr + BitVec.ofNat 64 (4096 * i), len := min 4096 (len - 4096 * i), tag := 0 })
  ({ s with ln := { s.ln with readWait := s.ln.readWait ++ rs } }).pumpReads

/-- Reads that are over, or that nothing waits for any more. -/
def State.dropReads (s : State) (who : ReadBy) : State :=
  ({ s with ln := { s.ln with reads := s.ln.reads.filter (fun r => r.who != who)
                              readWait := s.ln.readWait.filter (fun r => r.who != who) } }).pumpReads

def State.readsDoneN (who : ReadBy) : Nat → State → State
  | 0, s => s
  | n + 1, s =>
    let s := ({ s with ln := { s.ln with reads := s.ln.reads.filter (fun r => r.who != who) } }).pumpReads
    if s.ln.reads.any (fun r => r.who == who) then State.readsDoneN who n s else s

/-- What was to be read has come: the requests of it that still waited have gone out in their turn, as those before them returned
(R327). -/
def State.readsDone (s : State) (who : ReadBy) : State := s.readsDoneN who (s.ln.readWait.length + 1)

/-- What was to be read can have come: none of its requests must still wait. -/
def State.readsCame (s : State) (who : ReadBy) : Bool := !(s.readsDone who).ln.readWait.any (fun r => r.who == who)

/-- A read request can go out at once (R264, R265, R327). -/
def State.readRoom (s : State) : Bool :=
  !(s.pw.headSel && !s.pw.d0) && s.ln.readWait.isEmpty && decide (s.ln.reads.length < s.readLimit)

/-- A read for which there is room, answered within the command. -/
def State.readNow (s : State) (who : ReadBy) (addr : Word64) (len : Nat) : State := (s.readHost who addr len).dropReads who

/-- A cell for all hubs leaves its origin on both ring ports (R306). -/
def State.sendAll (s : State) (c : Cell) : State :=
  let s := if s.portUp 0 then s.sendCell 0 true c else s
  if s.portUp 1 then s.sendCell 1 true c else s

end Sys2Proof.Machine
end

