-- ==== Sys2Proof/Machine/Completions.lean ====
section
/-! DEFINITION. Furrows as plain data, and the posting of completions: in sequence order, each after the data of its item,
then the MSI-X message (R281, R282, R283 promises 1 and 2), and the drain ledger (R280, R431). -/

namespace Sys2Proof.Machine

def State.furrow? (s : State) (f : Nat) : Option Furrow := kget? s.hi.furrows f
def State.setFurrow (s : State) (f : Nat) (fu : Furrow) : State :=
  { s with hi := { s.hi with furrows := kset s.hi.furrows f fu } }
def State.modFurrow (s : State) (f : Nat) (g : Furrow → Furrow) : State :=
  { s with hi := { s.hi with furrows := kmod s.hi.furrows f g } }

/-- The index of the first furrow of a kind. -/
def State.furrowOf? (s : State) (k : FurrowKind) : Option Nat :=
  (s.hi.furrows.find? (fun e => e.2.kind == k)).map Prod.fst

/-- An MSI-X message falls due: it is sent, or, outside D0 or while its vector is masked, its pending bit is set (R265,
R282). Vector 0xFF names none (R271). A member's message goes to the head, which sends it (R266). -/
def State.sendMsix (s : State) (vec : Nat) : State :=
  if 63 < vec then s
  else if s.pw.headSel && (!s.pw.d0 || s.flag (Reg.HI_MSIX_CTL vec) Fld.HI_MSIX_CTL_mask) then
    { s with hi := { s.hi with pba := s.hi.pba ||| (1#64 <<< vec) } }
  else s.toHost (.msix vec)

/-- The messages whose pending bits stand, sent once the state and their masks allow (R265). -/
def State.flushMsix (s : State) : State :=
  (List.range 64).foldl (fun s v =>
    if s.hi.pba.getLsbD v && s.pw.d0 && !s.flag (Reg.HI_MSIX_CTL v) Fld.HI_MSIX_CTL_mask then
      ({ s with hi := { s.hi with pba := s.hi.pba &&& ~~~ (1#64 <<< v) } }).toHost (.msix v)
    else s) s

/-- The place of a status among the names the spec gives. -/
def CStatus.place : CStatus → Nat
  | .done => 0 | .doneEmpty => 1 | .failedParam => 2 | .failedLimit => 3 | .failedSpace => 4 | .failedDma => 5
  | .failedLate => 6 | .failedSafe => 7 | .failedVault => 8 | .failedVerify => 9 | .abortedDestroy => 10
  | .abortedRecovery => 11 | .skippedStall => 12

/-- The 16 bytes of a completion (R281); the numbers of the statuses are free (log 19). -/
def Completion.bytes (c : Completion) : List Byte :=
  leBytes 4 c.seq.toNat ++ leBytes 2 (Config.statusCode (CStatus.place c.status)).toNat
    ++ [BitVec.ofNat 8 (b2n c.phase + 2 * b2n c.twin + 4 * b2n c.ecc + 8 * b2n c.more + 16 * b2n c.first), BitVec.ofNat 8 c.furrow]
    ++ leBytes 4 c.len ++ leBytes 4 c.aux.toNat

/-- The phase bit of a completion (R281). -/
def phaseOf (seq : Word) (lsize : Nat) : Bool := seq.toNat / 2 ^ lsize % 2 == 0

/-- Where the completion and the descriptor of an item stand in the rings (R274). -/
def Furrow.cplAddr (fu : Furrow) (seq : Word) : Word64 := fu.cplRing + BitVec.ofNat 64 (16 * (seq.toNat % 2 ^ fu.lsize))
def Furrow.descAddr (fu : Furrow) (seq : Word) : Word64 := fu.descRing + BitVec.ofNat 64 (32 * (seq.toNat % 2 ^ fu.lsize))

/-- One completion goes out: the record, the ledger's sequence number, then the message if one is asked for. -/
def State.postOne (s : State) (f : Nat) (fu : Furrow) (it : Item) (st : CStatus) (len : Nat) (aux : Word)
    (ecc more first : Bool) : State :=
  let c : Completion := { furrow := f % 256, seq := it.seq, status := st, twin := fu.twin, ecc := ecc, more := more
                          first := first, phase := phaseOf it.seq fu.lsize, len := len, aux := aux }
  let s := if s.pw.headSel then s.emit (.completion (fu.cplAddr it.seq) c) else s.toHost (.dmaWrite (fu.cplAddr it.seq) (Completion.bytes c))
  let s := if f < 256 then s.wr (Reg.GLB_LEDGER_LO f) it.seq else s
  if fu.irqAll || it.desc.flags.getLsbD 0 then s.sendMsix fu.vector else s

/-- Posting the completion at the front of a furrow, if its turn has come: false when nothing could be posted. -/
def State.postFront (s : State) (f : Nat) : Bool × State :=
  match s.furrow? f with
  | none => (false, s)
  | some fu =>
    match fu.items with
    | [] => (false, s)
    | it :: rest =>
      match it.st with
      | .finished st len aux ecc more first =>
        if fu.failed || !s.pw.d0 then (false, s)
        else (true, (s.postOne f fu it st len aux ecc more first).setFurrow f
                      { fu with items := rest, nextPost := it.seq + 1 })
      | _ => (false, s)

def State.postN (f : Nat) : Nat → State → State
  | 0, s => s
  | n + 1, s => match s.postFront f with
    | (true, s') => State.postN f n s'
    | (false, s') => s'

/-- Posting every completion of a furrow whose turn has come. -/
def State.postFinished (s : State) (f : Nat) : State :=
  match s.furrow? f with
  | none => s
  | some fu => State.postN f fu.items.length s

/-- The outcome of an item is decided; the first decision stands (R426). -/
def Furrow.finish (fu : Furrow) (seq : Word) (st : CStatus) (len : Nat) (aux : Word) (ecc more first : Bool) : Furrow :=
  { fu with items := fu.items.map (fun it =>
      if it.seq = seq then
        (match it.st with
         | .finished .. => it
         | _ => { it with st := .finished st len aux ecc more first })
      else it) }

/-- An item of a furrow ends with a status, and what can be posted is posted. -/
def State.endItem (s : State) (f : Nat) (seq : Word) (st : CStatus) (len : Nat) (aux : Word) : State :=
  (s.modFurrow f (fun fu => Furrow.finish fu seq st len aux false false false)).postFinished f

/-- The aux of an item that ends without a result of its own: of a SETPOINT its frame [31:0] (R281). -/
def Item.plainAux (it : Item) : Word := if it.op = 0x20#8 then it.desc.w2 else 0

/-- HI_DMAERR records the access, and HI_STAT and the counter tell of it (R294, R297). -/
def State.dmaErr (s : State) (addr : Word64) : State :=
  ((s.wr64 Reg.HI_DMAERR_LO addr).incSat Reg.HI_DMAERRCNT 1).setFlag Reg.HI_STAT Fld.HI_STAT_dma_err true

/-- The records of an EVENT buffer that ends without DONE go back to the front of the queue (R287). -/
def State.evBack (s : State) : State := { s with ev := { s.ev with queue := s.ev.bufRecs ++ s.ev.queue, bufRecs := [] } }

/-- The part that a PLOT furrow's next buffer goes on with is rewritten from its start (R290). -/
def Furrow.rewind (fu : Furrow) : Furrow :=
  { fu with parts := match fu.parts with | p :: r => { p with sent := 0 } :: r | [] => [] }

/-- The data that goes out to a buffer is refused: the buffer fails, and the data stays with the hub (R287, R290). -/
def State.failBuffer (s : State) (f : Nat) (it : Item) (addr : Word64) : State :=
  let s := (s.dmaErr addr).modFurrow f Furrow.rewind
  let s := if (s.furrow? f).any (fun fu => fu.kind == .event) then s.evBack else s
  s.endItem f it.seq .failedDma 0 0

/-- Every fetched item of a furrow that has not ended ends with a status; what a stall gave back to the ring stays there (R268,
R273, R428). -/
def State.endAll (s : State) (f : Nat) (st : CStatus) : State :=
  (s.modFurrow f (fun fu => { fu with items := fu.items.map (fun it =>
      match it.st with
      | .finished .. | .back => it
      | _ => { it with st := .finished st 0 (Item.plainAux it) false false false }) })).postFinished f

/-- Whether an item has ended. -/
def Item.ended (it : Item) : Bool := match it.st with | .finished .. => true | _ => false
def Item.isActive (it : Item) : Bool := match it.st with | .active => true | _ => false
def Item.isHeld (it : Item) : Bool := match it.st with | .held => true | _ => false
def Item.isBack (it : Item) : Bool := match it.st with | .back => true | _ => false

/-- The oldest posted buffer of a furrow that has been started (R286). -/
def Furrow.buffer? (fu : Furrow) : Option Item := fu.items.find? (fun it => Item.isActive it && it.op == 0x10#8)

/-- Address and length of a BUF or LEDGER descriptor (R278). -/
def Desc.len (d : Desc) : Nat := d.w1.toNat
def Desc.addr (d : Desc) : Word64 := join64 d.w2 d.w3

end Sys2Proof.Machine
end

