-- ==== Sys2Proof/Machine/Events.lean ====
section
/-! DEFINITION. Raising an event: its occurrence number, its fault-trace entry, the first-fault record, the event queue
with its coalesced runs, and the EVENT buffers (R292, R293, R433 to R440). -/

namespace Sys2Proof.Machine

/-- The eight words of an event record as the fault trace and EV_FF show them (R292, R434, R438). -/
def EvRec.words (e : EvRec) : List Word :=
  let bytes := [BitVec.ofNat 8 e.src, BitVec.ofNat 8 e.rflags, BitVec.ofNat 8 e.hub, 0] ++ leBytes 4 e.occ.toNat
    ++ timeBytes e.time ++ leBytes 2 e.obj ++ [BitVec.ofNat 8 e.cause, BitVec.ofNat 8 e.aux8] ++ leBytes 8 e.data.toNat
  (List.range 8).map (fun i => word (ofLe (slice bytes (4 * i) 4)))

/-- Free places of the event queue (R436). -/
def State.evFree (s : State) : Nat := 512 - s.ev.queue.length

/-- The EVENT buffer being filled: its furrow, and the item. -/
def State.evBuffer? (s : State) : Option (Nat × Item) :=
  match s.furrowOf? .event with
  | none => none
  | some f => match s.furrow? f with
    | none => none
    | some fu => if fu.failed || !s.pw.d0 || !s.toHead then none else (Furrow.buffer? fu).map (fun it => (f, it))

/-- The EVENT buffer ends with the records it holds; the messages of their sources follow its completion (R292, R435). -/
def State.evEnd (s : State) (f : Nat) (it : Item) : State :=
  let srcs := (s.ev.bufRecs.map (fun r => r.src % 64)).eraseDups
  let s := s.endItem f it.seq .done (32 * it.recs) (word it.recs)
  let s := { s with ev := { s.ev with bufRecs := [] } }
  (srcs.map (fun c => s.fget (Reg.EV_CFG c) Fld.EV_CFG_vec)).eraseDups.foldl (fun s v => s.sendMsix v) s

/-- The oldest record of the queue moves into the posted buffer; a full buffer completes. False when none can move. -/
def State.evMove (s : State) : Bool × State :=
  match s.ev.queue, s.evBuffer? with
  | r :: rest, some (f, it) =>
    if 32 * it.recs + 32 ≤ Desc.len it.desc then
      let it' := { it with recs := it.recs + 1, wrote := it.wrote + 32 }
      let bytes := (EvRec.words r).flatMap (fun w => leBytes 4 w.toNat)
      let s := s.toHost (.dmaWrite (Desc.addr it.desc + BitVec.ofNat 64 (32 * it.recs)) bytes)
      let s := { s with ev := { s.ev with queue := rest
                                          bufRecs := s.ev.bufRecs ++ [r] } }
      let s := s.modFurrow f (fun fu => { fu with items := fu.items.map (fun i => if i.seq = it.seq then it' else i) })
      (true, if 32 * it'.recs + 32 ≤ Desc.len it.desc then s else s.evEnd f it')
    else (false, s)
  | _, _ => (false, s)

def State.evFillN : Nat → State → State
  | 0, s => s
  | n + 1, s => match s.evMove with
    | (true, s') => State.evFillN n s'
    | (false, s') => s'

/-- Records that wait move into posted EVENT buffers with room (R436). -/
def State.evFill (s : State) : State := State.evFillN s.ev.queue.length s

/-- A record is to go into an EVENT buffer whose writes the host refuses: the buffer fails, and the records stay (R287). -/
def State.evRefuse (s : State) : State :=
  match s.ev.queue, s.evBuffer? with
  | _ :: _, some (f, it) => match it.refused with
    | some a => s.failBuffer f it a
    | none => s
  | _, _ => s

/-- The end of a deliver step, and the timeout outside Run: a buffer that has received a record completes (R292). -/
def State.evFlush (s : State) : State :=
  match s.evBuffer? with
  | some (f, it) => if it.recs = 0 then s else s.evEnd f it
  | none => s

/-- An entry is written to the fault trace, which holds 2,048 (R438). -/
def State.traceAppend (s : State) (e : EvRec) : State :=
  let full := decide (2048 ≤ s.ev.trace.length)
  let s := { s with ev := { s.ev with trace := (if full then s.ev.trace.drop 1 else s.ev.trace) ++ [e] } }
  let s := s.wr Reg.EV_TRCNT (s.rd Reg.EV_TRCNT + 1)
  if full then s.incSat Reg.EV_TROVW 1 else s

/-- The words of the first fault, from word `n` on (R440). -/
def State.ffWords (s : State) (n : Nat) (ws : List Word) : State :=
  (ws.foldl (fun (p : Nat × State) w => (p.1 + 1, p.2.wr (Reg.EV_FF p.1) w)) (n, s)).2

/-- An entry is captured as the first fault, if it may be and none is held (R440). -/
def State.firstFault (s : State) (e : EvRec) (ff : Bool) : State :=
  if ff && !s.flag Reg.EV_STAT Fld.EV_STAT_ff_valid then
    (s.ffWords 0 (EvRec.words e)).setFlag Reg.EV_STAT Fld.EV_STAT_ff_valid true
  else s

/-- The trace entry of an occurrence, and the first fault. -/
def State.trace (s : State) (e : EvRec) (ff : Bool) : State := (s.traceAppend e).firstFault e ff

/-- The source has an open run. -/
def State.hasRun (s : State) (src : Nat) : Bool := s.ev.runs.any (fun r : EvRun => r.src == src)

/-- An occurrence while the run of its source is open (R436). -/
def State.joinRun (s : State) (e : EvRec) : State :=
  let s := { s with ev := { s.ev with runs := s.ev.runs.map (fun r : EvRun =>
    if r.src = e.src then
      ({ r with count := if r.count = 0xFFFFFFFF#32 then r.count else r.count + 1
                lastOcc := e.occ, lastTime := e.time } : EvRun)
    else r) } }
  s.incSat (Reg.EV_RUN e.src) 1

/-- A record enters the queue, or its source's run (R436). -/
def State.evQueue (s : State) (e : EvRec) : State :=
  if s.hasRun e.src then s.joinRun e
  else if 129 ≤ s.evFree then { s with ev := { s.ev with queue := s.ev.queue ++ [e] } }
  else
    let s := { s with ev := { s.ev with runs := s.ev.runs ++
      [({ src := e.src, first := e, count := 1, lastOcc := e.occ, lastTime := e.time } : EvRun)] } }
    (s.wr (Reg.EV_RUN e.src) 1).wr (Reg.EV_RUNOCC e.src) e.occ

/-- With no EVENT furrow, the vector of the source is sent once in a base slot (R435). -/
def State.evVector (s : State) (src : Nat) : State :=
  let v := s.fget (Reg.EV_CFG src) Fld.EV_CFG_vec
  let slot := s.now / slotU
  let vecs := if s.ev.slotNo = slot then s.ev.slotVecs else []
  if (s.furrowOf? .event).isNone && decide (v < 64) && !vecs.contains v then
    ({ s with ev := { s.ev with slotVecs := v :: vecs, slotNo := slot } }).sendMsix v
  else s

/-- One occurrence of a source with its detail fields: no record of it is posted while the source is off, though an open run counts it
(R433, R436); `flags` are the record flags (R414 sets bit 2 for an adopted
furrow). -/
def State.raiseF (s : State) (flags src obj cause aux8 : Nat) (data : Word64) : State :=
  let e : EvRec := { src := src, hub := s.hubAddr, rflags := flags, occ := s.rd (Reg.EV_OCC src), time := s.now, obj := obj, cause := cause
                     aux8 := aux8, data := data }
  let s := s.wr (Reg.EV_OCC src) (s.rd (Reg.EV_OCC src) + 1)
  let s := s.trace { e with rflags := 0 } (s.flag (Reg.EV_CFG src) Fld.EV_CFG_ff)
  if s.flag (Reg.EV_CFG src) Fld.EV_CFG_en then
    let s := s.evQueue e
    (if s.inRun then s else s.evFill).evVector src
  else if s.hasRun src then s.joinRun e
  else s

/-- A blank data field holds the number of the frame whose window is open, or 0 in Idle (R434). -/
def State.frameData (s : State) : Word64 := if s.running then s.rd64 Reg.FR_FRAME_LO else 0

/-- An occurrence with a data field of its own. -/
def State.raiseD (s : State) (src obj cause aux8 : Nat) (data : Word64) : State := s.raiseF 0 src obj cause aux8 data

/-- An occurrence whose data field is blank. -/
def State.raise (s : State) (src obj cause : Nat) : State := s.raiseF 0 src obj cause 0 s.frameData

end Sys2Proof.Machine
end

