-- ==== Sys2Proof/Machine/Items.lean ====
section
/-! DEFINITION. Items of a furrow in work: their states, fences before them, stalls, and the record of a failed DMA access
(R283, R284, R294, R297). -/

namespace Sys2Proof.Machine

def Furrow.item? (fu : Furrow) (seq : Word) : Option Item := fu.items.find? (fun it => it.seq == seq)

/-- Changing one item. -/
def Furrow.modItem (fu : Furrow) (seq : Word) (g : Item → Item) : Furrow :=
  { fu with items := fu.items.map (fun it => if it.seq = seq then g it else it) }

/-- The items before an item. -/
def Furrow.before (fu : Furrow) (seq : Word) : List Item := fu.items.takeWhile (fun it => it.seq != seq)

/-- An item waits behind a fence that has not completed (R284). -/
def Furrow.fenced (fu : Furrow) (seq : Word) : Bool := (Furrow.before fu seq).any (fun it => it.op == 0x01#8 && !Item.ended it)

/-- An item is under way. -/
def State.activate (s : State) (f : Nat) (seq : Word) : State :=
  s.modFurrow f (fun fu => Furrow.modItem fu seq (fun it => if Item.isHeld it then { it with st := .active } else it))

/-- HI_STAT.stalled: some furrow is stalled. -/
def State.noteStalled (s : State) : State :=
  s.setFlag Reg.HI_STAT Fld.HI_STAT_stalled (s.hi.furrows.any (fun e => e.2.stalled))

/-- Record flags of an event about a furrow: an adopted one's carry the bit twin (R414). -/
def Furrow.evFlags (fu : Furrow) : Nat := if fu.twin then 4 else 0

/-- A SETPOINT, JOB or SIDE furrow stalls at an item (R294): later items that it had not started go back to the ring; those before
it, and those that run already, go on. -/
def State.stall (s : State) (f : Nat) (seq : Word) : State :=
  match s.furrow? f with
  | none => s
  | some fu =>
    if fu.kind == .setpoint || fu.kind == .job || fu.kind == .side then
      let s := s.setFurrow f { fu with stalled := true, items := fu.items.map (fun it =>
        if decide (0 < (it.seq - seq).toInt) && Item.isHeld it then { it with st := .back } else it) }
      (s.noteStalled).raiseF (Furrow.evFlags fu) 49 (f % 256) 0 0 (join64 fu.handle seq)
    else s

/-- The item of a furrow fails with its DMA access (R294). -/
def State.failDma (s : State) (f : Nat) (seq : Word) (len : Nat) : State :=
  (s.stall f seq).endItem f seq .failedDma len 0

end Sys2Proof.Machine
end

