-- ==== Sys2Proof/Machine/Safe.lean ====
section
/-! DEFINITION. The supervisor's shared operations: latching a cause, entering safe state, retiring from a twin pair, the
permissives, and the gate on the output enables (R391 to R400, R411, R412). -/

namespace Sys2Proof.Machine

/-- The causes that are hub faults; the same causes have the twin class Hub (R395). -/
def hubFaults : List Nat := [2, 3, 4, 5, 6, 7, 12, 13, 14, 16]

/-- SV_TWSTAT.role: 0 not twin; 1 active; 2 ready standby; 3 standby not ready; 4 joining; 5 retired. -/
def State.role (s : State) : Nat := s.fget Reg.SV_TWSTAT Fld.SV_TWSTAT_role
def State.setRole (s : State) (r : Nat) : State := s.fput Reg.SV_TWSTAT Fld.SV_TWSTAT_role r
def State.isTwin (s : State) : Bool := s.flag Reg.SV_TWCFG Fld.SV_TWCFG_en

/-- The partner can take over: the active's partner is a ready standby, or this hub is the ready standby of an active. -/
def State.partnerReady (s : State) : Bool :=
  (s.role == 1 && s.flag Reg.SV_TWSTAT Fld.SV_TWSTAT_p_ready) || s.role == 2

/-- A retired or joining hub and a standby that is not ready never drive SAFE_N (R411). -/
def State.mayPull (s : State) : Bool := s.role != 3 && s.role != 4 && s.role != 5

/-- Driving SAFE_N: the hold-off pump stops and the line goes low; or the pump runs and the line is let go, which the
external pull-up then raises unless something else holds it (R393; a line so held is reported by its own command). -/
def State.pullSafeN (s : State) (b : Bool) : State :=
  { s with sv := { s.sv with pulls := b, pump := !b, safeN := !b } }

/-- The output enables the supervisor may drive high (R392). -/
def State.oenAllowed (s : State) : BitVec 4 :=
  if s.inRun && !s.sv.safe && (!s.isTwin || s.sv.ilkO) then
    BitVec.ofNat 4 (s.fget Reg.SV_CTL Fld.SV_CTL_oen_en) else 0

/-- The supervisor's gate stands over every command: an OEN whose conditions do not hold is low (R392). -/
def supervise (s : State) : State := { s with sv := { s.sv with oen := s.sv.oen &&& s.oenAllowed } }

/-- How a command ends: the hub goes on, its output enables gated. -/
def fin (s : State) : Host.Outcome State Fault Refusal := .next (supervise s)

/-- One PWM output takes a steady level: on for a duty of 0xFFFF (R396), never on while disabled. -/
def State.pwmSteady (s : State) (j : Nat) (duty : Nat) : State :=
  let s := s.wr (Reg.CE_PWMCUR j) (word duty)
  let st : PwmSt := { isOn := duty == 0xFFFF && s.flag (Reg.CE_PWMCFG j) Fld.CE_PWMCFG_en, duty := duty }
  { s with ce := { s.ce with pwm := kset s.ce.pwm j st } }

/-- The safe codes go into the converters and the safe duties into the PWM outputs, whose running periods end (R396). -/
def State.loadSafeOutputs (s : State) : State :=
  let s := (List.range 16).foldl (fun s j =>
    s.wr (Reg.CE_AOCUR j) (word (s.fget (Reg.CE_AOCFG j) Fld.CE_AOCFG_safe))) s
  (List.range 8).foldl (fun s j => s.pwmSteady j (s.fget (Reg.CE_PWMCFG j) Fld.CE_PWMCFG_safe)) s

/-- Entry to safe state (R396): enables low, SAFE_N low unless R411 forbids it, safe values out, an accepted release
withdrawn (R398).  An entry counts once. -/
def State.enterSafe (s : State) : State :=
  let s := if s.mayPull then s.pullSafeN true else s
  if s.sv.safe then { s with sv := { s.sv with oen := 0, releasePend := false, checkDue := false, raiseDue := false } }
  else
    let s := { s with sv := { s.sv with safe := true, oen := 0, releasePend := false, checkDue := false, raiseDue := false } }
    (s.incSat Reg.SV_SAFECNT 1).loadSafeOutputs

/-- Retiring from the pair (R411): OEN and ILK_O low, outputs at their safe values, SAFE_N never driven, role retired. -/
def State.retire (s : State) : State :=
  let s := (s.setRole 5).setFlag Reg.SV_TWSTAT Fld.SV_TWSTAT_p_ready false
  let s := { s with sv := { s.sv with oen := 0, ilkO := false, releasePend := false, checkDue := false, raiseDue := false } }
  let s := if s.sv.pulls then s.pullSafeN false else s
  if s.sv.safe then s
  else ({ s with sv := { s.sv with safe := true } }.incSat Reg.SV_SAFECNT 1).loadSafeOutputs

/-- A cause's bit of SV_CAUSE. -/
def State.hasCause (s : State) (b : Nat) : Bool := (s.rd Reg.SV_CAUSE).getLsbD b

/-- SV_FIRST of a cause latched in frame `n`, 0 where no frame runs: valid, the cause, the frame number's low bits (R395). -/
def causeWord (b n : Nat) : Word := word (2 ^ 31 + 2 ^ 24 * b + n % 2 ^ 24)

/-- Latching a cause (R395, R396): its bit, SV_FIRST if empty, the event SAFE_STATE with its trace entry; then, in Run, safe
state, or retirement for a Hub-class cause while the partner is ready (R412). A cause already latched is not latched again. -/
def State.latchCause (s : State) (b : Nat) : State :=
  if s.hasCause b then s
  else
    let s := s.wr Reg.SV_CAUSE (s.rd Reg.SV_CAUSE ||| (1#32 <<< b))
    let s := if s.flag Reg.SV_FIRST Fld.SV_FIRST_valid then s
      else s.wr Reg.SV_FIRST (causeWord b s.frameData.toNat)
    let s := s.raise 35 0 b
    if s.inRun then (if hubFaults.contains b && s.partnerReady then s.retire else s.enterSafe) else s

/-- A group whose BC_GRP.warn is 1 (R422). -/
def State.warnGroups (s : State) : List Nat :=
  (List.range 4).filter (fun g => s.flag (Reg.BC_GRP g) Fld.BC_GRP_warn)

/-- The outputs of a group in ascending number (R417, R418). -/
def State.groupOutputs (s : State) (g : Nat) : List Nat :=
  (List.range 8).filter (fun j => s.fget (Reg.BC_OUT j) Fld.BC_OUT_grp == g)

/-- The engine a group runs (R418). -/
def State.groupEngine (s : State) (g : Nat) : Nat :=
  if s.flag (Reg.BC_GRP g) Fld.BC_GRP_safe_sw && s.sv.safe then s.fget (Reg.BC_GRP g) Fld.BC_GRP_safe_eng
  else s.fget (Reg.BC_GRP g) Fld.BC_GRP_eng

/-- The present step of an engine. -/
def State.engineStep (s : State) (e : Nat) : Nat := ((kget? s.bc.engines e).map EngineSt.step).getD 0

/-- The warning group is healthy and lit (R422); none is lit while no group is configured, so SV_PERM reads 0 at reset. -/
def State.warnLit (s : State) : Bool :=
  !s.warnGroups.isEmpty && s.warnGroups.all (fun g =>
    let e := s.groupEngine g
    let mask := s.fget (Reg.BC_STEP e (s.engineStep e)) Fld.BC_STEP_mask
    s.flag Reg.BC_CTL Fld.BC_CTL_en && s.flag (Reg.BC_GRP g) Fld.BC_GRP_en
      && !(s.fget Reg.BC_STAT Fld.BC_STAT_fault).testBit g
      && !s.flag Reg.BC_STAT Fld.BC_STAT_tripped
      && ((s.groupOutputs g).zipIdx.all (fun p => !mask.testBit p.2 || decide (35 ≤ kgetD s.bc.sinks p.1 0))))

/-- A permissive of R399 is in force. -/
def State.permInForce (s : State) (p : Nat) : Bool :=
  match p with
  | 0 => !s.warnGroups.isEmpty
  | 1 => s.flag Reg.SV_PERMEN Fld.SV_PERMEN_time
  | 2 => s.flag Reg.SV_PERMEN Fld.SV_PERMEN_vault
  | 3 => s.flag Reg.SV_PERMEN Fld.SV_PERMEN_twin
  | 4 => s.flag Reg.SV_PERMEN Fld.SV_PERMEN_obs
  | _ => false

/-- TB_STAT.state reads LOCKED (R186, TB_STAT); VT_STAT.state reads operational. -/
def tbLocked : Nat := 2
def vtOperational : Nat := 1

/-- A permissive holds (R399). -/
def State.permHolds (s : State) (p : Nat) : Bool :=
  match p with
  | 0 => s.warnLit
  | 1 => s.fget Reg.TB_STAT Fld.TB_STAT_state == tbLocked
  | 2 => s.fget Reg.VT_STAT Fld.VT_STAT_state == vtOperational
  | 3 => s.flag Reg.SV_TWSTAT Fld.SV_TWSTAT_p_ready
  | _ => s.sp.permit

/-- Every permissive in force holds. -/
def State.permsHold (s : State) : Bool := (List.range 5).all (fun p => !s.permInForce p || s.permHolds p)

/-- A cause whose condition still stands (R395, R398): a missing heartbeat; an output whose last two checks failed (R259); a failed
loop with fail_safe (R243); a permissive in force that does not hold; SAFE_N low while this hub does not pull it; a failed die link
or a disabled die with fe_react; an unlocked modulator clock with pll_react. The present state of a supply, a sensor, the clocks and
the pins is no state of the block: `w` says it, bit by cause. -/
def State.causePersists (s : State) (w : Word64) (b : Nat) : Bool :=
  match b with
  | 2 => s.running && decide (2 ≤ s.fr.hbMissing)
  | 5 | 6 | 14 | 16 => w.getLsbD b
  | 7 => s.running && s.ce.rbFail.any (fun e => decide (2 ≤ e.2))
  | 8 => (List.range 32).any (fun l => s.flag (Reg.CE_LCTL l) Fld.CE_LCTL_en && s.flag (Reg.CE_LCTL l) Fld.CE_LCTL_fail_safe
      && s.flag (Reg.CE_LSTAT l) Fld.CE_LSTAT_failed)
  | 9 => s.inRun && !s.permsHold
  | 10 => !s.sv.pulls && !s.sv.safeN
  | 12 => s.flag Reg.SV_CTL Fld.SV_CTL_fe_react
      && (!s.flag Reg.FE_STAT Fld.FE_STAT_a_link || !s.flag Reg.FE_STAT Fld.FE_STAT_b_link
        || (s.running && (s.rd Reg.FE_CTL &&& 3#32) != 3#32))
  | 13 => s.flag Reg.SV_CTL Fld.SV_CTL_pll_react && !s.flag Reg.CV_STAT Fld.CV_STAT_lock
  | _ => false

/-! ## What the SV registers show (R394, R399, R424) -/

/-- FAULT_N is low (R394), and until a start has reached Idle (R465). -/
def State.faultLow (s : State) : Bool := hubFaults.any s.hasCause || s.role == 5 || s.pw.power == .startUp || s.pw.inReset

def State.svStat (s : State) : Word :=
  (s.rd Reg.SV_STAT &&& 3#32) ||| word (2 ^ 31 * b2n s.sv.safe + 2 ^ 30 * b2n s.faultLow + 2 ^ 29 * b2n s.sv.safeN
    + 2 ^ 28 * b2n s.sv.ilkO + 2 ^ 27 * b2n s.sv.ilkI + 2 ^ 26 * b2n s.pw.twinPri + 2 ^ 22 * s.sv.oen.toNat)

def State.svPerm (s : State) : Word :=
  word ((List.range 5).foldl (fun n p => n + b2n (s.permHolds p) * 2 ^ p) 0)

/-- A word of the SV window as it reads. -/
def State.svWord (s : State) (a : Nat) : Word :=
  if a = Reg.SV_STAT then s.svStat
  else if a = Reg.SV_PERM then s.svPerm
  else if a = Reg.SV_PERMEN then BitField.put Fld.SV_PERMEN_beacon (b2n !s.warnGroups.isEmpty) (s.rd a)
  else if a = Reg.SV_TWSTAT then BitField.put Fld.SV_TWSTAT_lane (b2n (s.portUp 2)) (s.rd a)
  else s.rd a

end Sys2Proof.Machine
end

