-- ==== Sys2Proof/Machine/Baler.lean ====
section
/-! DEFINITION. The Baler (R333 to R355): its two pipes, streams, what COMPRESS writes, and the outcomes of its items. -/

namespace Sys2Proof.Machine

/-! ## Job options (R334) -/

def optRec (d : Desc) : Nat := d.param.toNat / 256
def optWidth (d : Desc) : Nat := d.param.toNat / 64 % 4
def optDelta (d : Desc) : Bool := d.param.getLsbD 5
def optCont (d : Desc) : Bool := d.param.getLsbD 4
def optFlush (d : Desc) : Bool := d.param.getLsbD 3
def optFinal (d : Desc) : Bool := d.param.getLsbD 2
def optFormat (d : Desc) : Nat := d.param.toNat % 4
/-- The delta record length R. -/
def optR (d : Desc) : Nat := if optRec d = 0 then 2 ^ optWidth d else 16 * optRec d
def Desc.srcLen (d : Desc) : Nat := d.w1.toNat
def Desc.dstLen (d : Desc) : Nat := d.w6.toNat
def Desc.dstAddr (d : Desc) : Word64 := join64 d.w4 d.w5
/-- Flag bits [7:1] are 0 (R278). -/
def Desc.flagsOk (d : Desc) : Bool := d.flags &&& 0xFE#8 == 0

/-- BL_STAT.streams. -/
def State.noteStreams (s : State) : State := s.fput Reg.BL_STAT Fld.BL_STAT_streams s.bl.streams.length

/-- The open stream of a furrow is abandoned (R339). -/
def State.abandon (s : State) (f : Nat) : State :=
  ({ s with bl := { s.bl with streams := kerase s.bl.streams f } }).noteStreams

/-- A new stream, in place of any that was open (R337). -/
def Stream.new (format : Nat) : Stream := { format := format, taken := [], coded := 0, bits := [], adler := 1, header := false, written := [] }
def State.openStream (s : State) (f format : Nat) : State :=
  ({ s with bl := { s.bl with streams := kset s.bl.streams f (Stream.new format) } }).noteStreams

/-- A parameter failure of R335, judged when the item starts. -/
def State.jobBad (s : State) (f : Nat) (op : Byte) (d : Desc) : Bool :=
  !Desc.flagsOk d || d.w7 != 0 || 1 < optFormat d || decide (0x10000000 < Desc.srcLen d)
    || (op == 0x32#8 && decide (0x10000000 < Desc.dstLen d))
    || (op != 0x30#8 && d.param &&& 0xFFDC#16 != 0)
    || (op == 0x30#8 && optCont d && match kget? s.bl.streams f with
        | none => true
        | some st => st.format != optFormat d)

/-! ## What COMPRESS writes (R338 to R343) -/

/-- Zero bits up to a byte boundary, where `n` bits stand. -/
def alignBits (n : Nat) : List Bool := List.replicate ((8 - n % 8) % 8) false

/-- Stored blocks of at most 65,535 bytes, the first at bit offset `n`. -/
def storedBits (final : Bool) : Nat → Nat → List Byte → List Bool
  | 0, _, _ => []
  | fuel + 1, n, bs =>
    let part := bs.take 65535
    let rest := bs.drop 65535
    let hd := [final && rest.isEmpty, false, false]
    let b := hd ++ alignBits (n + 3) ++ bitsOf (leBytes 2 part.length ++ leBytes 2 (65535 - part.length) ++ part)
    if rest.isEmpty then b else b ++ storedBits final fuel (n + b.length) rest

/-- One block with data: dynamic Huffman codes, or stored where that is shorter (R341). -/
def blockBits (final : Bool) (n : Nat) (window bs : List Byte) : List Bool :=
  let dyn := [final, false, true] ++ dynamicBits window bs
  let st := storedBits final (bs.length / 65535 + 1) n bs
  if st.length < dyn.length then st else dyn

/-- Cutting into blocks of 65,536 bytes. -/
def cutBlocks : Nat → List Byte → List (List Byte)
  | 0, _ => []
  | fuel + 1, bs => if bs.isEmpty then [] else bs.take 65536 :: cutBlocks fuel (bs.drop 65536)

/-- Blocks appended to the bits of a stream: `done` are the bytes coded before. -/
def codeBlocks (final : Bool) : List (List Byte) → List Byte → List Bool → List Bool
  | [], _, bits => bits
  | b :: t, done, bits =>
    let w := done.drop (done.length - 32768)
    codeBlocks final t (done ++ b) (bits ++ blockBits (final && t.isEmpty) bits.length w b)

/-- Whole bytes of a bit string, and the bits left. -/
def packBits : Nat → List Bool → List Byte × List Bool
  | 0, bits => ([], bits)
  | fuel + 1, bits =>
    if bits.length < 8 then ([], bits)
    else
      let v := ((bits.take 8).zipIdx.map (fun p => b2n p.1 * 2 ^ p.2)).foldl (· + ·) 0
      let (bs, rest) := packBits fuel (bits.drop 8)
      (BitVec.ofNat 8 v :: bs, rest)

/-- One COMPRESS item on a stream: the bytes it writes, and the stream after it. The empty stored block of a flush that ends the
stream is its last block (R338, R341). -/
def compressItem (st : Stream) (d : Desc) (src : List Byte) : List Byte × Stream :=
  let fed := if src.isEmpty then [] else if optDelta d then deltaEncode (optWidth d) (optR d) src else src
  let taken := st.taken ++ fed
  let bits0 := st.bits ++ (if st.format = 1 && !st.header then bitsOf [0x78, 0x5E] else [])
  let blocks := cutBlocks (taken.length + 1) (taken.drop st.coded)
  let last := optFinal d || optFlush d
  let blocks := if last then blocks else blocks.filter (fun b => b.length == 65536)
  let flush := optFlush d && !src.isEmpty
  let bits := codeBlocks (optFinal d && !src.isEmpty && !flush) blocks (taken.take st.coded) bits0
  let bits := if flush then bits ++ [optFinal d, false, false] ++ alignBits (bits.length + 3) ++ bitsOf [0, 0, 0xFF, 0xFF] else bits
  let bits :=
    if optFinal d then
      let bits := if src.isEmpty then bits ++ [true, true, false] ++ List.replicate 7 false else bits
      let bits := bits ++ alignBits bits.length
      if st.format = 1 then bits ++ bitsOf (beBytes 4 (adler32From 1 taken).toNat) else bits
    else bits
  let (bytes, rest) := packBits (bits.length + 1) bits
  (bytes, { st with taken := taken, coded := st.coded + (blocks.map List.length).foldl (· + ·) 0, bits := rest
                    adler := adler32From st.adler src, header := true })

/-! ## The pipes (R336) -/

def jobOp (comp : Bool) (op : Byte) : Bool := if comp then op == 0x30#8 else op == 0x31#8 || op == 0x32#8

/-- The oldest item of a furrow that a pipe can run. -/
def Furrow.runnable? (fu : Furrow) (comp : Bool) : Option Item :=
  if fu.kind == .job && !fu.failed then
    match fu.items.find? (fun it => Item.isHeld it && jobOp comp it.op) with
    | some it => if Furrow.fenced fu it.seq then none else some it
    | none => none
  else none

/-- Furrows in turn after the one served last. -/
def turnOrder (last : Nat) (ks : List Nat) : List Nat :=
  ks.filter (fun k => decide (last < k)) ++ ks.filter (fun k => decide (k ≤ last))

/-- A Baler item has ended. -/
def State.endJob (s : State) (f : Nat) (seq : Word) (st : CStatus) (len : Nat) (aux : Word) : State :=
  (s.incSat Reg.BL_JOBS 1).endItem f seq st len aux

/-- A pipe takes its next item: it ends at once, or occupies the pipe. False when there is none. -/
def State.pipeTake (comp : Bool) (s : State) : Bool × State :=
  let busy := if comp then s.bl.comp.isSome else s.bl.exp.isSome
  let resetting := match s.hi.subreset with | some r => r.code == 1 | none => false
  if busy || resetting then (false, s)
  else
    let order := turnOrder (if comp then s.bl.lastComp else s.bl.lastExp) (kkeys s.hi.furrows)
    match order.findSome? (fun f => (s.furrow? f).bind (fun fu => (Furrow.runnable? fu comp).map (fun it => (f, it)))) with
    | none => (false, s)
    | some (f, it) =>
      let s := if comp then { s with bl := { s.bl with lastComp := f } } else { s with bl := { s.bl with lastExp := f } }
      if s.jobBad f it.op it.desc then
        (true, (if comp && optCont it.desc then s.abandon f else s).endJob f it.seq .failedParam 0 0)
      else if Desc.srcLen it.desc = 0 && !(comp && optFinal it.desc) then (true, s.endJob f it.seq .doneEmpty 0 0)
      else
        let s := s.activate f it.seq
        let s := if comp && !optCont it.desc then s.openStream f (optFormat it.desc) else s
        let s := if comp then { s with bl := { s.bl with comp := some (f, it.seq), compDrop := false } } else { s with bl := { s.bl with exp := some (f, it.seq) } }
        let s := s.readHost (.job comp) (join64 it.desc.w2 it.desc.w3) (Desc.srcLen it.desc)
        let s := if it.op = 0x32#8 then s.readHost (.job comp) (Desc.dstAddr it.desc) (Desc.dstLen it.desc) else s
        (true, s.setFlag Reg.BL_STAT (if comp then Fld.BL_STAT_comp_busy else Fld.BL_STAT_exp_busy) true)

def State.pipeN (comp : Bool) : Nat → State → State
  | 0, s => s
  | n + 1, s => match s.pipeTake comp with
    | (true, s') => State.pipeN comp n s'
    | (false, s') => s'

/-- Both pipes take what they can run. -/
def State.balerPump (s : State) : State :=
  let n := (s.hi.furrows.map (fun e => e.2.items.length)).foldl (· + ·) 1
  (s.pipeN true n).pipeN false n

/-- A pipe falls free. -/
def State.freePipe (s : State) (comp : Bool) : State :=
  let s := s.dropReads (.job comp)
  if comp then ({ s with bl := { s.bl with comp := none } }).setFlag Reg.BL_STAT Fld.BL_STAT_comp_busy false
  else ({ s with bl := { s.bl with exp := none } }).setFlag Reg.BL_STAT Fld.BL_STAT_exp_busy false

/-- Bytes consumed and written (R355). -/
def State.countBytes (s : State) (inp out : Nat) : State :=
  (s.wr64 Reg.BL_IN_LO (s.rd64 Reg.BL_IN_LO + BitVec.ofNat 64 inp)).wr64 Reg.BL_OUT_LO (s.rd64 Reg.BL_OUT_LO + BitVec.ofNat 64 out)

/-- FAILED_VERIFY with its reason and offset (R350). -/
def State.failVerify (s : State) (f : Nat) (it : Item) (len reason off : Nat) : State :=
  let s := s.wr Reg.BL_LASTERR (word (2 ^ 28 * reason + 2 ^ 16 * it.op.toNat + f))
  s.endJob f it.seq .failedVerify len (word (2 ^ 28 * reason + off % 2 ^ 28))

/-- The first place at which two byte strings differ, in content or in length. -/
def firstDiff : List Byte → List Byte → Nat → Option Nat
  | [], [], _ => none
  | a :: t, b :: u, i => if a = b then firstDiff t u (i + 1) else some i
  | _, _, i => some i

/-- What reached the output: where the compressor is at fault, its bytes differ from those it should write. -/
def faulty (out fault : List Byte) : List Byte :=
  out.zipIdx.map (fun p => p.1 ^^^ fault.getD p.2 0)

/-- The self-check of a stream's output (R345): the place among the bytes fed to the compressor at which its expansion first
differs from them, if it does; of a final item it must end well and with all of them. -/
def selfCheck (format : Nat) (final : Bool) (written fed : List Byte) : Option Nat :=
  let (e, good) := match inflate (format == 1) written with
    | .ok x => (Inf.bytes x, true)
    | .error (r, x) => (Inf.bytes x, r == 5 && !final)
  match firstDiff e (fed.take e.length) 0 with
  | some i => some i
  | none => if good && (!final || e.length == fed.length) then none else some e.length

/-- How much of `n` an item that stopped early took or wrote: the spec states no figure (log 90). -/
def State.partOf (s : State) (n : Nat) : Nat × State := let (w, s) := s.draw64; (w.toNat % (n + 1), s)

/-- A COMPRESS item has run (R344, R345, R349). `fault` is what a faulty compressor changed in its output; of an output without a
fault the expansion is the source. The offset of a failure is that of the source byte whose check failed, 0 for one of an earlier
item (log 90). -/
def State.compressDone (s : State) (f : Nat) (fu : Furrow) (it : Item) (src fault : List Byte) : State :=
  let st := kgetD s.bl.streams f (Stream.new (optFormat it.desc))
  let (good, st') := compressItem st it.desc src
  let out := faulty good fault
  let st' := { st' with written := st.written ++ out }
  let bad := if out = good then none else selfCheck st.format (optFinal it.desc) st'.written st'.taken
  match bad with
  | some i =>
    let (n, s) := s.partOf (min out.length (Desc.dstLen it.desc))
    let s := ((s.incSat Reg.BL_VFAIL 1).setFlag Reg.BL_STAT Fld.BL_STAT_vfail true).abandon f
    let s := if n = 0 then s else s.toHost (.dmaWrite (Desc.dstAddr it.desc) (out.take n))
    let s := s.countBytes src.length n
    let s := s.raiseF (Furrow.evFlags fu) 60 f 0 0 (join64 fu.handle it.seq)
    s.failVerify f it n 10 (min src.length (i - st.taken.length - (if optDelta it.desc && !src.isEmpty then 16 else 0)))
  | none =>
    if Desc.dstLen it.desc < out.length then
      let (n, s) := s.partOf src.length
      ((s.countBytes n 0).abandon f).endJob f it.seq .failedSpace 0 0
    else
      let s := if out.isEmpty then s else s.toHost (.dmaWrite (Desc.dstAddr it.desc) out)
      let s := s.countBytes src.length out.length
      let s := if optFinal it.desc || s.bl.compDrop then s.abandon f
        else ({ s with bl := { s.bl with streams := kset s.bl.streams f st' } }).noteStreams
      s.endJob f it.seq .done out.length st'.adler

/-- Where the expanded bytes end: at a failure of the stream or of the pre-filter, or well. -/
def expandAll (d : Desc) (src : List Byte) : List (Byte × Nat) × Option (Nat × Nat) :=
  let (raw, err) := match inflate (optFormat d == 1) src with
    | .ok x => (x.out.reverse, none)
    | .error (r, x) => (x.out.reverse, some (r, if r = 5 then src.length else if r = 7 then x.pos / 8 else (x.pos - 1) / 8))
  if optDelta d then
    let (out, bad) := deltaDecode (raw.length + 1) err.isNone 0 raw
    (out, match bad with
      | none => err
      | some i => some (8, match raw[i]? with | some b => (b.2 - 1) / 8 | none => src.length))
  else (raw, err)

/-- An EXPAND or VERIFY item has run (R346 to R350, R352). -/
def State.expandDone (s : State) (f : Nat) (it : Item) (src dst : List Byte) : State :=
  let (out, err) := expandAll it.desc src
  let bytes := out.map Prod.fst
  if it.op = 0x32#8 then
    let s := s.countBytes src.length 0
    let want := if err.isSome then dst.take bytes.length else dst
    match firstDiff bytes want 0, err with
    | some i, _ => s.failVerify f it 0 9 i
    | none, some (r, o) => s.failVerify f it 0 r o
    | none, none => s.endJob f it.seq .done 0 (adler32From 1 bytes)
  else
    let n := Desc.dstLen it.desc
    let kept := bytes.take n
    let s := if kept.isEmpty then s else s.toHost (.dmaWrite (Desc.dstAddr it.desc) kept)
    if n < bytes.length then
      let o := ((out.getD n (0, 1)).2 - 1) / 8
      (s.countBytes o n).endJob f it.seq .failedLimit n (word (o % 2 ^ 28))
    else
      let s := s.countBytes src.length bytes.length
      match err with
      | some (r, o) => s.failVerify f it bytes.length r o
      | none => s.endJob f it.seq .done bytes.length (adler32From 1 bytes)

/-- BALER_ITEM_DONE: the item of a pipe has run on the source bytes (and, for VERIFY, the bytes at dst) that were read; a compressor
at fault changed its output by `fault`. -/
def balerItemDone (comp : Bool) (src dst fault : List Byte) (s : State) : State :=
  if !s.readsCame (.job comp) then s
  else match (if comp then s.bl.comp else s.bl.exp) with
  | none => s
  | some (f, seq) =>
    let s := (s.readsDone (.job comp)).freePipe comp
    match s.furrow? f with
    | none => s
    | some fu =>
      match Furrow.item? fu seq with
      | none => s
      | some it =>
        let src := fitBytes (Desc.srcLen it.desc) src
        let s := if comp then s.compressDone f fu it src fault else s.expandDone f it src (fitBytes (Desc.dstLen it.desc) dst)
        s.balerPump

def execBalerItemDone (comp : Bool) (src : List Byte) (dst : List Byte) (fault : List Byte) (s : State) :
    Host.Outcome State Fault Refusal := fin (balerItemDone comp src dst fault s)

/-- BL_CTL.clr (R355). -/
def blClr (s : State) : State :=
  (((s.wr Reg.BL_JOBS 0).wr Reg.BL_VFAIL 0).wr64 Reg.BL_IN_LO 0).wr64 Reg.BL_OUT_LO 0

def execBlClr (s : State) : Host.Outcome State Fault Refusal := fin (blClr s)

/-- A DMA access of a job failed: its pipe falls free and its stream is gone (R294, R339). -/
def State.jobDmaFailed (s : State) (f : Nat) (seq : Word) : State :=
  if s.bl.comp = some (f, seq) then (s.freePipe true).abandon f
  else if s.bl.exp = some (f, seq) then s.freePipe false
  else s

/-- The Baler loses its work: pipes and streams (R339, R427). -/
def State.balerClear (s : State) : State :=
  let s := (s.dropReads (.job true)).dropReads (.job false)
  let s := { s with bl := { s.bl with comp := none, exp := none, streams := [] } }
  ((s.setFlag Reg.BL_STAT Fld.BL_STAT_comp_busy false).setFlag Reg.BL_STAT Fld.BL_STAT_exp_busy false).noteStreams

end Sys2Proof.Machine
end

