-- ==== Sys2Proof/Machine/Float64.lean ====
section
/-! DEFINITION. Binary64 arithmetic on bit patterns, rounded to nearest with ties to even, as the frame processor and the
control engine carry it (R148, R238, R244).  The payload of a NaN is open and no rule stores one (log 11). -/

namespace Sys2Proof.Machine

/-- What a binary64 pattern stands for: a finite number is ± m · 2^e. -/
inductive FVal where
  | nan
  | inf (neg : Bool)
  | fin (neg : Bool) (m : Nat) (e : Int)
  deriving DecidableEq, Repr

/-- Reading a pattern. -/
def fval (w : Word64) : FVal :=
  let neg := w.getLsbD 63
  let ex : Nat := w.toNat / 2 ^ 52 % 2048
  let m : Nat := w.toNat % 2 ^ 52
  if ex = 2047 then (if m = 0 then .inf neg else .nan)
  else if ex = 0 then .fin neg m (-1074)
  else .fin neg (2 ^ 52 + m) ((ex : Int) - 1075)

def fNan : Word64 := 0x7FF8000000000000
def fInf (neg : Bool) : Word64 := if neg then 0xFFF0000000000000 else 0x7FF0000000000000

/-- `n · 2^e` as a fraction of naturals. -/
def scale2 (n : Nat) (e : Int) : Nat × Nat := if 0 ≤ e then (n * 2 ^ e.toNat, 1) else (n, 2 ^ (-e).toNat)

/-- Rounding ± (num / den) · 2^e to binary64; den is positive. -/
def fround (neg : Bool) (num den : Nat) (e : Int) : Word64 :=
  let sign : Nat := if neg then 2 ^ 63 else 0
  if num = 0 then BitVec.ofNat 64 sign
  else
    let q0 : Int := (Nat.log2 num : Int) - (Nat.log2 den : Int) + e - 53
    let part := fun (q : Int) => let p := scale2 num (e - q); (p.1, p.2 * den)
    let p0 := part q0
    let q1 := if 2 ^ 53 ≤ p0.1 / p0.2 then q0 + 1 else q0
    let q := if q1 < -1074 then -1074 else q1
    let p := part q
    let f := p.1 / p.2
    let r := 2 * (p.1 % p.2)
    let f := if p.2 < r || (r = p.2 && f % 2 = 1) then f + 1 else f
    let bits := (q + 1074).toNat * 2 ^ 52 + f
    if 0x7FF0000000000000 ≤ bits then fInf neg else BitVec.ofNat 64 (sign + bits)

/-- The binary64 nearest to an integer times a power of two. -/
def fofScaled (n e : Int) : Word64 := fround (decide (n < 0)) n.natAbs 1 e
def fofInt (n : Int) : Word64 := fofScaled n 0

/-- A decimal constant `num / den`. -/
def fofRat (num den : Nat) : Word64 := fround false num den 0

def fneg (a : Word64) : Word64 := a ^^^ 0x8000000000000000

/-- The signed significand. -/
def sgn (neg : Bool) (m : Nat) : Int := if neg then -(m : Int) else m

def fadd (a b : Word64) : Word64 :=
  match fval a, fval b with
  | .nan, _ => fNan
  | _, .nan => fNan
  | .inf x, .inf y => if x = y then fInf x else fNan
  | .inf x, _ => fInf x
  | _, .inf y => fInf y
  | .fin x m e, .fin y n f =>
    let lo := min e f
    let t := sgn x m * 2 ^ (e - lo).toNat + sgn y n * 2 ^ (f - lo).toNat
    if t = 0 then (if x && y then 0x8000000000000000 else 0) else fofScaled t lo

def fsub (a b : Word64) : Word64 := fadd a (fneg b)

def fmul (a b : Word64) : Word64 :=
  match fval a, fval b with
  | .nan, _ => fNan
  | _, .nan => fNan
  | .inf x, .inf y => fInf (x != y)
  | .inf x, .fin y n _ => if n = 0 then fNan else fInf (x != y)
  | .fin x m _, .inf y => if m = 0 then fNan else fInf (x != y)
  | .fin x m e, .fin y n f => fround (x != y) (m * n) 1 (e + f)

def fdiv (a b : Word64) : Word64 :=
  match fval a, fval b with
  | .nan, _ => fNan
  | _, .nan => fNan
  | .inf _, .inf _ => fNan
  | .inf x, .fin y _ _ => fInf (x != y)
  | .fin x _ _, .inf y => fround (x != y) 0 1 0
  | .fin x m e, .fin y n f =>
    if n = 0 then (if m = 0 then fNan else fInf (x != y)) else fround (x != y) m n (e - f)

/-- Whether a pattern is a finite number. -/
def fFinite (a : Word64) : Bool := match fval a with | .fin .. => true | _ => false

/-- `a < b`; false where either is a NaN. -/
def flt (a b : Word64) : Bool :=
  match fval a, fval b with
  | .nan, _ => false
  | _, .nan => false
  | .inf x, .inf y => x && !y
  | .inf x, _ => x
  | _, .inf y => !y
  | .fin x m e, .fin y n f =>
    let lo := min e f
    decide (sgn x m * 2 ^ (e - lo).toNat < sgn y n * 2 ^ (f - lo).toNat)

def feq (a b : Word64) : Bool :=
  match fval a, fval b with
  | .nan, _ => false
  | _, .nan => false
  | .fin x m e, .fin y n f =>
    let lo := min e f
    decide (sgn x m * 2 ^ (e - lo).toNat = sgn y n * 2 ^ (f - lo).toNat)
  | _, _ => decide (a = b)

def fle (a b : Word64) : Bool := flt a b || feq a b
def fabs (a : Word64) : Word64 := a &&& 0x7FFFFFFFFFFFFFFF

/-- `max lo (min hi x)`. -/
def fclamp (lo hi x : Word64) : Word64 := if flt hi x then hi else if flt x lo then lo else x

/-- `a · k` rounded to the nearest integer, ties away from zero (R148, R254, R255): the product is taken exactly. -/
def froundI (a : Word64) (k : Nat) : Option Int :=
  match fval a with
  | .fin x m e => let p := scale2 (m * k) e; some (roundDiv (sgn x p.1) p.2)
  | _ => none

def f0 : Word64 := 0
def f1 : Word64 := 0x3FF0000000000000
def fm1 : Word64 := 0xBFF0000000000000
def f05 : Word64 := 0x3FE0000000000000
def f4 : Word64 := 0x4010000000000000

end Sys2Proof.Machine
end

