-- ==== Sys2Proof/Machine/Coef.lean ====
section
/-! DEFINITION. The response ROM (R125, R126, R510).  Each list is the first half of a symmetric response in units of
2^-31; the second half mirrors it.  The numbers are those of the construction of R510, evaluated outside Lean (log 12). -/

namespace Sys2Proof.Machine

def coef1 : List Int := [61185343, 1012556481]
def coef2 : List Int := [10167857, 0, -192732507, 1256306474]
def coef3 : List Int := [2365364, -5740308, 4838877, 9857037, -53125744, 149867131, -370959029, 1336638496]
def coef4 : List Int := [640054, -1596903, 2914781, -4417204, 5727376, -6229851, 5048938, -1039279, -7231681,
  21559626, -44356186, 79388220, -133983318, 226757412, -426465293, 1357025132]
def coef5 : List Int := [2035703, 996726, -10153728, -31670553, -46539128, -22275648, 68836545, 222285859, 389962082,
  500263966]
def coef6 : List Int := [1129102, 1496934, 1171335, -357295, -3462531, -8173497, -13985943, -19754975, -23724102,
  -23720411, -17507451, -3244519, 20035531, 52037203, 91004029, 133781905, 176163087, 213468516, 241269804, 256115102]
def coef7 : List Int := [469846, 562776, 636012, 677355, 673580, 610976, 476011, 256080, -59665, -479436, -1007927,
  -1645456, -2387177, -3222403, -4134086, -5098484, -6085054, -7056607, -7969724, -8775462, -9420342, -9847595,
  -9998669, -9814929, -9239531, -8219394, -6707219, -4663479, -2058315, 1126745, 4897311, 9244958, 14146422, 19563210,
  25441655, 31713435, 38296574, 45096883, 52009845, 58922878, 65717920, 72274269, 78471585, 84192972, 89328037,
  93775834, 97447593, 100269150, 102182995, 103149871]
def coef8a : List Int := [237242, 262305, 285817, 307094, 325402, 339966, 349977, 354598, 352974, 344241, 327537,
  302012, 266840, 221233, 164454, 95828, 14758, -79260, -186629, -307628, -442409, -590974, -753172, -928681,
  -1116999, -1317438, -1529111, -1750931, -1981599, -2219608, -2463236, -2710550, -2959408, -3207460, -3452160,
  -3690773, -3920385, -4137918, -4340144, -4523706, -4685132, -4820864, -4927275, -5000698, -5037454, -5033873,
  -4986334, -4891285, -4745281, -4545011]
def coef8b : List Int := [-4287334, -3969304, -3588208, -3141590, -2627287, -2043450, -1388579, -661540, 138407,
  1011589, 1957901, 2976794, 4067257, 5227814, 6456511, 7750920, 9108139, 10524791, 11997041, 13520600, 15090745,
  16702340, 18349853, 20027387, 21728708, 23447276, 25176285, 26908694, 28637274, 30354647, 32053331, 33725787,
  35364464, 36961848, 38510509, 40003150, 41432655, 42792133, 44074970, 45274867, 46385885, 47402487, 48319573,
  49132518, 49837202, 50430037, 50907995, 51268629, 51510086, 51631125]

/-- The first half of a code's coefficients. -/
def coefHalf (code : Nat) : List Int :=
  match code with
  | 1 => coef1
  | 2 => coef2
  | 3 => coef3
  | 4 => coef4
  | 5 => coef5
  | 6 => coef6
  | 7 => coef7
  | 8 => coef8a ++ coef8b
  | _ => []

/-- The L coefficients of codes 1 to 8. -/
def coefs (code : Nat) : List Int := coefHalf code ++ (coefHalf code).reverse

/-- W ÷ 62.5 µs of a mains code, 0 for the others (R126). -/
def mainsSlots (code : Nat) : Nat :=
  if code = 9 then 320 else if code = 10 then 800 else if code = 11 then 1600 else 0

/-- A mains code is valid where m divides its window. -/
def mainsOk (code m : Nat) : Bool := mainsSlots code != 0 && m != 0 && mainsSlots code % m == 0

/-- A response code that may be used at the present m (R126, R127). -/
def respOk (code m : Nat) : Bool := decide (code ≤ 8) || mainsOk code m

/-- The settle length L in frames (R125, R126). -/
def settleOf (code m : Nat) : Nat :=
  if code ≤ 8 then [1, 4, 8, 16, 32, 20, 40, 100, 200].getD code 0
  else if mainsOk code m then 2 * (mainsSlots code / m) - 1 else 0

/-- DF_RESPINFO of a code: settle L, and the delay D in half frames, which is L for every code (R125, R139). -/
def respInfo (code m : Nat) : Nat := settleOf code m * 65536 + settleOf code m

/-- The mean of binary64 values, summed in the order given. -/
def fmean (l : List Word64) : Word64 := fdiv (l.foldl fadd f0) (fofInt l.length)

/-- The response output from the last frame means, newest first, in units of 2^-46 (R125, R126, R510): codes 1 to 8 sum in
ascending i, codes 9 to 11 average twice, oldest first.  Frames before the response's history count as 0. -/
def response (code m : Nat) (hist : List Int) : Word64 :=
  if code = 0 then fofScaled (hist.headD 0) (-46)
  else if code ≤ 8 then
    ((coefs code).zipIdx).foldl (fun acc p => fadd acc (fmul (fofScaled p.1 (-31)) (fofScaled (hist.getD p.2 0) (-46)))) f0
  else
    let k := mainsSlots code / m
    let z := fun (i : Nat) => fmean ((List.range k).reverse.map (fun d => fofScaled (hist.getD (i + d) 0) (-46)))
    fmean ((List.range k).reverse.map z)

end Sys2Proof.Machine
end

