-- ==== Sys2Proof/Machine/Limits.lean ====
section
/-! DEFINITION. The configuration as it stands, read field by field; the frame cost model (R35 to R38); and the conditions
of the consistency check that concern inputs and the gleaner schedule (classes 0x01 to 0x06 of R477).  Run-time writes are
judged by the same conditions on the state they would lead to. -/

namespace Sys2Proof.Machine

/-! ## Inputs -/

def headland (n : Nat) : Bool := decide (n < 16) || (decide (128 ≤ n) && decide (n < 144))

def State.inEn (s : State) (n : Nat) : Bool := s.flag (Reg.IN_CFG n) Fld.IN_CFG_en
def State.inMode (s : State) (n : Nat) : Nat := s.fget (Reg.IN_CFG n) Fld.IN_CFG_mode
def State.inRange (s : State) (n : Nat) : Nat := s.fget (Reg.IN_CFG n) Fld.IN_CFG_range
def State.inPull (s : State) (n : Nat) : Nat := if headland n then s.fget (Reg.IN_CFG n) Fld.IN_CFG_pull else 0
def State.inAmp (s : State) (n : Nat) : Nat := s.fget (Reg.IN_EXC n) Fld.IN_EXC_amp
def State.inRmin (s : State) (n : Nat) : Nat := s.fget (Reg.IN_EXC n) Fld.IN_EXC_rmin
def State.inK (s : State) (n : Nat) : Nat := s.fget (Reg.IN_REV n) Fld.IN_REV_k
def State.inGuard (s : State) (n : Nat) : Nat := s.fget (Reg.IN_REV n) Fld.IN_REV_guard
def State.inResp (s : State) (n : Nat) : Nat := s.fget (Reg.IN_FILT n) Fld.IN_FILT_resp
def State.inRefEn (s : State) (n : Nat) : Bool := s.flag (Reg.IN_FILT n) Fld.IN_FILT_ref_en
def State.inRef (s : State) (n : Nat) : Nat := s.fget (Reg.IN_FILT n) Fld.IN_FILT_ref_idx
def State.inGroup (s : State) (n : Nat) : Nat := s.fget (Reg.IN_LEAD n) Fld.IN_LEAD_group
def State.inWeight (s : State) (n : Nat) : Nat := s.fget (Reg.IN_LEAD n) Fld.IN_LEAD_weight

/-- Excitation reverses in excited resistive mode, the test current in self-test (R55, R81). -/
def State.reverses (s : State) (n : Nat) : Bool := s.inMode n == 0 || s.inMode n == 2

def State.dieEn (s : State) (d : Nat) : Bool :=
  if d = 0 then s.flag Reg.FE_CTL Fld.FE_CTL_die_a_en else s.flag Reg.FE_CTL Fld.FE_CTL_die_b_en

def State.enabledInputs (s : State) : List Nat := (List.range 256).filter s.inEn

/-- Settle length of an input's response. -/
def State.settle (s : State) (n : Nat) : Nat := settleOf (s.inResp n) s.m

/-! ## The excitation budget (R54, R58, R59) -/

/-- Range full scale in µA; none for code 7 (R52). -/
def fsUA (r : Nat) : Nat := if r < 7 then 4 ^ r else 0

/-- Budget current in µA, rounded up; of the refused mode code 3, for which R58 gives none, 0 (DESIGN CHOICE, log 82). -/
def State.budgetCurrent (s : State) (n : Nat) : Nat :=
  match s.inMode n with
  | 0 =>
    if s.inRmin n = 0 then Config.budgetOpen (s.rd (Reg.IN_CFG n)) (s.rd (Reg.IN_EXC n))
    else ceilDiv ((327675 + 245 * s.inAmp n) * 10000) (65535 * s.inRmin n)
  | 2 =>
    if s.inRange n = 7 then Config.budgetOpen (s.rd (Reg.IN_CFG n)) (s.rd (Reg.IN_EXC n))
    else ceilDiv (fsUA (s.inRange n) * [1, 2, 4, 6].getD (s.fget (Reg.IN_CFG n) Fld.IN_CFG_st_level) 0) 8
  | _ => 0

/-- The sum of a die; a disabled die contributes 0 (R85). -/
def State.budgetSum (s : State) (d : Nat) : Nat :=
  if s.dieEn d then
    ((List.range 128).map (fun i => if s.inEn (128 * d + i) then s.budgetCurrent (128 * d + i) else 0)).foldl (· + ·) 0
  else 0

/-! ## The frame cost model (R35, R36) -/

def respCost (code : Nat) : Nat :=
  [8, 24, 40, 72, 136, 96, 160, 352, 672, 120, 120, 120].getD code 0

/-- Acquire and reduce cycles of a vector group. -/
def State.groupCost (s : State) (j : Nat) : Nat :=
  let ins := ((List.range 8).map (fun i => 8 * j + i)).filter s.inEn
  if ins.isEmpty then 0
  else 6 + (ins.map (fun n => respCost (s.inResp n))).foldl max 0 + (if ins.any (fun n => s.inMode n == 0) then 48 else 32)

def State.lctl (s : State) (l : Nat) (f : BitField) : Nat := s.fget (Reg.CE_LCTL l) f
def State.loopEn (s : State) (l : Nat) : Bool := s.flag (Reg.CE_LCTL l) Fld.CE_LCTL_en
def State.loopLaw (s : State) (l : Nat) : Nat := s.lctl l Fld.CE_LCTL_law
def State.loopSections (s : State) (l : Nat) : Nat := s.lctl l Fld.CE_LCTL_sections + 1
def State.loopBase (s : State) (l : Nat) : Nat := s.fget (Reg.CE_LCOEF l) Fld.CE_LCOEF_base
def State.loopKind (s : State) (l : Nat) : Nat := s.fget (Reg.CE_LOUT l) Fld.CE_LOUT_kind
def State.loopIdx (s : State) (l : Nat) : Nat := s.fget (Reg.CE_LOUT l) Fld.CE_LOUT_index
def State.loopShares (s : State) (l : Nat) : Bool := s.flag (Reg.CE_LOUT l) Fld.CE_LOUT_share_en
def State.loopType (s : State) (l : Nat) : Nat := s.fget (Reg.CE_LIN l) Fld.CE_LIN_type
def State.loopSrc (s : State) (l : Nat) : Nat := s.fget (Reg.CE_LIN l) Fld.CE_LIN_index

/-- Entry of the coefficient bank; beyond the bank there is none, read here as 0. -/
def State.coef (s : State) (i : Nat) : Word64 := if i < 512 then s.rd64 (Reg.CE_COEF_LO i) else 0

/-- How many coefficients the law takes, and where kff stands among them (R244, R246). -/
def State.coefCount (s : State) (l : Nat) : Nat := if s.loopLaw l = 3 then 3 + 5 * s.loopSections l else 7
def State.kffPos (s : State) (l : Nat) : Nat := if s.loopLaw l = 3 then 2 else 4

def State.loopCost (s : State) (l : Nat) : Nat :=
  if !s.loopEn l then 0
  else
    (match s.loopLaw l with
     | 0 => 220
     | 1 => 420
     | 3 => 60 + 80 * s.loopSections l
     | _ => 0)
    + (if fabs (s.coef (s.loopBase l + s.kffPos l)) = 0 then 0 else 30)
    + (if s.loopKind l = 3 then 40 else 0)
    + (if s.loopShares l || s.loopType l = 1 then 20 else 0)

/-- Inputs of a mask that are in it. -/
def maskInputs (mask : BitVec 256) : List Nat := (List.range 256).filter (fun n => mask.getLsbD n)

/-- Bytes of a sample block: header, frames, padding to 64 (R285). -/
def blockBytes (slots frames : Nat) : Nat := ceilDiv (64 + frames * 5 * slots) 64 * 64

/-- Seal and deliver cycles of a sample furrow in the frame that ends a block. -/
def furrowCost (slots frames : Nat) : Nat :=
  40 * ceilDiv (5 * slots) 128 + 60 + 150 + ceilDiv (blockBytes slots frames) 64

/-- Slots of a sample furrow: the inputs of its mask that are enabled (R272). -/
def State.furrowSlots (s : State) (fu : Furrow) : Nat := ((maskInputs fu.mask).filter s.inEn).length

/-! ### Capture units (R202, R203, R233) -/

def State.ucfg (s : State) (u : Nat) (f : BitField) : Bool := s.flag (Reg.AQ_UCFG u) f
def State.unitEn (s : State) (u : Nat) : Bool := s.ucfg u Fld.AQ_UCFG_en
def State.unitStream (s : State) (u : Nat) : Bool := s.ucfg u Fld.AQ_UCFG_stream
/-- Kind 1, the fast tap. -/
def State.unitFast (s : State) (u : Nat) : Bool := s.ucfg u Fld.AQ_UCFG_kind

/-- The sources of a unit in ascending number: inputs in kind 0, fast-tap slots in kind 1. -/
def State.unitSources (s : State) (u : Nat) : List Nat :=
  (List.range (if s.unitFast u then 32 else 256)).filter (fun i => (s.rd (Reg.AQ_USRC u (i / 32))).getLsbD (i % 32))

def rowBytes (sources : Nat) : Nat := 4 * sources + 4 * ceilDiv sources 4

/-- A streaming unit of kind 0 counts as a furrow that ends a block of 64 + row bytes in every frame (R233). -/
def State.unitCost (s : State) (u : Nat) : Nat :=
  if s.unitEn u && s.unitStream u && !s.unitFast u then
    let r := rowBytes (s.unitSources u).length
    40 * ceilDiv r 128 + 60 + 150 + ceilDiv (64 + r) 64
  else 0

/-- The worst-case window: tick entry, acquire, reduce, control, and every block ending together (R35, R37). -/
def State.windowCost (s : State) : Nat :=
  400 + 300 + ((List.range 32).map s.groupCost).foldl (· + ·) 0 + ((List.range 32).map s.loopCost).foldl (· + ·) 0
    + (s.hi.furrows.map (fun e => if e.2.kind = .sample then furrowCost (s.furrowSlots e.2) e.2.frames else 0)).foldl (· + ·) 0
    + ((List.range 8).map s.unitCost).foldl (· + ·) 0

/-- The count is within 90 % of m × 25,000 cycles (R37, R38). -/
def State.costOk (s : State) : Bool := decide (s.windowCost ≤ s.m * 22500)

/-- A changed configuration that is accepted leaves its count in FR_BUDGET (R37, R38). -/
def State.noteBudget (s : State) : State := s.wr Reg.FR_BUDGET (word s.windowCost)

/-! ## The gleaner schedule (R108, R109) -/

def State.schedG (s : State) : Nat := s.fget Reg.GL_CYCLE Fld.GL_CYCLE_frames
def State.schedValid (s : State) (i : Nat) : Bool := s.flag (Reg.GL_SCHEDB i) Fld.GL_SCHEDB_valid
def State.schedF (s : State) (i : Nat) : Nat := s.fget (Reg.GL_SCHEDA i) Fld.GL_SCHEDA_f
def State.schedSlot (s : State) (i : Nat) : Nat := s.fget (Reg.GL_SCHEDA i) Fld.GL_SCHEDA_slot
def State.schedTarget (s : State) (i : Nat) : Nat := s.fget (Reg.GL_SCHEDB i) Fld.GL_SCHEDB_target
def State.schedEntries (s : State) : List Nat := (List.range 32).filter s.schedValid
/-- The place of an entry in the cycle, in base slots. -/
def State.schedAt (s : State) (i : Nat) : Nat := s.schedF i * s.m + s.schedSlot i
def State.scheduled (s : State) (target : Nat) : Bool := s.schedEntries.any (fun i => s.schedTarget i == target)

/-- Consecutive pairs of a list. -/
def pairs {α : Type} : List α → List (α × α)
  | a :: b :: t => (a, b) :: pairs (b :: t)
  | _ => []

/-! ## Conditions -/

/-- A condition of *Consistency check details*: class, detail, and the indices for which it holds. -/
structure Cond where
  cls : Nat
  det : Nat
  bad : List Nat
  deriving DecidableEq, Repr

/-- The index that names no object (R474). -/
def noIndex (b : Bool) : List Nat := if b then [0xFFFF] else []

/-- The lowest index of a list, as a list. -/
def sortNat (l : List Nat) : List Nat := sortBy (fun a b => decide (a ≤ b)) l

def State.condsBudget (s : State) : List Cond :=
  let es := s.schedEntries
  let ps := pairs es
  let g := s.schedG
  let cyc := g * s.m
  let gapBad := (ps.filter (fun p => s.schedAt p.1 < s.schedAt p.2 && s.schedAt p.2 < s.schedAt p.1 + 4)).map Prod.snd
  let wrapBad := match es, es.getLast? with
    | a :: _ :: _, some z => if cyc + s.schedAt a < s.schedAt z + 4 then [a] else []
    | _, _ => []
  [ { cls := 1, det := 1, bad := noIndex (!s.costOk) },
    { cls := 1, det := 2, bad := noIndex (g = 0 || 256 < g) },
    { cls := 1, det := 3, bad := es.filter (fun i => g ≤ s.schedF i || s.m ≤ s.schedSlot i || 0x5F < s.schedTarget i) },
    { cls := 1, det := 4, bad := (ps.filter (fun p => s.schedAt p.2 ≤ s.schedAt p.1)).map Prod.snd },
    { cls := 1, det := 5, bad := sortNat (gapBad ++ wrapBad) },
    { cls := 1, det := 6, bad := match es with | [a] => if cyc < 4 then [a] else [] | _ => [] } ]

/-- A fast-tap slot and its input (R120). -/
def State.ftEn (s : State) (i : Nat) : Bool := s.flag (Reg.DF_FTSEL i) Fld.DF_FTSEL_en
def State.ftInput (s : State) (i : Nat) : Nat := s.fget (Reg.DF_FTSEL i) Fld.DF_FTSEL_input
def State.ftSlots (s : State) : List Nat := (List.range 32).filter s.ftEn

def State.condsRate (s : State) : List Cond :=
  let ins := s.enabledInputs
  let m := s.m
  let ft := s.ftSlots
  [ { cls := 2, det := 1, bad := noIndex (m = 0 || 16000 < m) },
    { cls := 2, det := 2, bad := ft.filter (fun i => !s.inEn (s.ftInput i)) },
    { cls := 2, det := 3, bad := ft.filter (fun i => ft.any (fun j => j < i && s.ftInput j == s.ftInput i)) },
    { cls := 2, det := 4, bad := ins.filter (fun n => s.inResp n < 12 && !respOk (s.inResp n) m) },
    { cls := 2, det := 5, bad := ins.filter (fun n => 12 ≤ s.inResp n) } ]

/-- The per-input conditions of classes 0x03 to 0x06: class, detail, and whether input `n` breaks it. -/
def inputRules : List (Nat × Nat × (State → Nat → Bool)) :=
  [ (3, 1, fun s n => s.inK n = 0 || 64 < s.inK n),
    (3, 2, fun s n => s.reverses n && s.inK n != 0 && s.m % (2 * s.inK n) != 0),
    (3, 3, fun s n => s.inGuard n < 2 || 64 < s.inGuard n),
    (3, 4, fun s n => s.inMode n == 0 && s.inRmin n == 0),
    (4, 1, fun s n => s.inMode n == 3),
    (4, 2, fun s n => s.inRange n == 7),
    (4, 3, fun s n => s.reverses n && s.inRange n < 7 && decide (fsUA (s.inRange n) < s.budgetCurrent n)),
    (4, 4, fun s n => (s.inPull n == 1 || s.inPull n == 2) && s.fget (Reg.IN_LIM n) Fld.IN_LIM_ow_thr == 0),
    (4, 5, fun s n => s.inMode n != 0 && s.fget (Reg.IN_LIM n) Fld.IN_LIM_floor_cnt != 0),
    (4, 6, fun s n => s.inPull n == 3),
    (5, 1, fun s n => s.inRefEn n && s.inMode n != 0),
    (5, 2, fun s n => s.inRefEn n && !headland (s.inRef n)),
    (5, 3, fun s n => s.inRefEn n && s.inRef n == n),
    (5, 4, fun s n => s.inRefEn n && !s.inEn (s.inRef n)),
    (5, 5, fun s n => s.inRefEn n && s.inMode (s.inRef n) != 0),
    (5, 6, fun s n => s.inRefEn n && s.inRefEn (s.inRef n)),
    (6, 1, fun s n => decide (32 ≤ s.inGroup n) && decide (s.inGroup n ≤ 62)),
    (6, 2, fun s n => s.inMode n == 0 && s.inWeight n != 0 && s.inGroup n < 32 && !s.scheduled (s.inGroup n)) ]

/-- The die budget condition names the die's highest enabled input (R59). -/
def State.dieOver (s : State) : List Nat :=
  ([0, 1].filter (fun d => 256000 < s.budgetSum d)).map (fun d =>
    ((List.range 128).filter (fun i => s.inEn (128 * d + i))).foldl (fun a i => max a (128 * d + i)) (128 * d))

/-- Classes 0x03 to 0x06 over the enabled inputs: of a disabled input with ref_en = 1 R141 does not say whether it counts, and the model
judges none (DESIGN CHOICE, log 88). -/
def State.condsInputs (s : State) : List Cond :=
  let ins := s.enabledInputs
  let part := fun (c : Nat) => (inputRules.filter (fun r => r.1 == c)).map (fun r =>
    ({ cls := r.1, det := r.2.1, bad := ins.filter (r.2.2 s) } : Cond))
  let age := s.fget Reg.FE_LEADCTL Fld.FE_LEADCTL_max_age
  part 3 ++ [{ cls := 3, det := 5, bad := s.dieOver }] ++ part 4 ++ part 5 ++ part 6
    ++ [ { cls := 6, det := 3, bad := noIndex (age = 0) },
         { cls := 6, det := 4, bad := noIndex (age < s.schedG) },
         { cls := 6, det := 5, bad := noIndex (s.fget Reg.FE_LEADCTL Fld.FE_LEADCTL_ild = 3) } ]

/-! ## Run-time writes to inputs (R38, R61, R88, R127, R142) -/

/-- The configuration with every accepted change that still waits for its tick in place: IN writes (R88), loop copies
(R239) and a coefficient bank (R262). -/
def State.pended (s : State) : State :=
  (s.fe.pend ++ s.ce.applied ++ s.ce.coefNext.getD []).foldl (fun s p => s.wr p.1 p.2) s

/-- A write to register `reg` of input `n` that leads to `c` names no refused range code (R52) and no refused response (R127); an
enabled input has none. -/
def codesOk (c : State) (n reg : Nat) : Bool :=
  ((reg != 0 && !c.inEn n) || c.inRange n != 7) && ((reg != 3 && !c.inEn n) || respOk (c.inResp n) c.m)

/-- A candidate configuration `c`, reached from `b` by a write to input `n`, is acceptable: an enabled input breaks no rule, no
die exceeds its budget, the window fits (R38), and no other input loses its reference, but for a reference in use that enters
self-test (R142). -/
def State.inputOk (b c : State) (n : Nat) : Bool :=
  (!c.inEn n || inputRules.all (fun r => !(r.2.2 c n)
        || (r.1 == 5 && r.2.1 == 5 && c.inMode (c.inRef n) == 2 && b.inEn n && b.inRefEn n && b.inRef n == c.inRef n)))
  && c.dieOver.isEmpty && c.costOk
  && c.enabledInputs.all (fun q => q == n || !c.inRefEn q || c.inRef q != n
      || (c.inEn n && !c.inRefEn n && (c.inMode n == 0 || c.inMode n == 2)))

end Sys2Proof.Machine
end

