-- ==== Sys2Proof/Machine/Beacon.lean ====
section
/-! DEFINITION. The beacon driver (R417 to R422): pattern engines, the commands of the eight sinks, derating from the
thermistor, the trip and the lamp faults. -/

namespace Sys2Proof.Machine

def State.bstep (s : State) (e i : Nat) (f : BitField) : Nat := s.fget (Reg.BC_STEP e i) f

def State.engine (s : State) (e : Nat) : EngineSt :=
  kgetD s.bc.engines e { step := 0, ms := 0, from' := (Config.beaconFrom e).toNat, done := false }
def State.setEngine (s : State) (e : Nat) (x : EngineSt) : State :=
  { s with bc := { s.bc with engines := kset s.bc.engines e x } }

/-- The gamma table (R419). -/
def State.gamma (s : State) (b : Nat) : Nat :=
  let i := b / 32
  let lo : Int := s.fget (Reg.BC_GAMMA i) Fld.BC_GAMMA_entry
  let hi : Int := s.fget (Reg.BC_GAMMA (i + 1)) Fld.BC_GAMMA_entry
  (lo + Int.tdiv ((hi - lo) * ((b : Int) - 32 * (i : Int))) 32).toNat

/-- The present level of an engine (R418, R419); the rounding of a ramp to a whole level is open (log 6). -/
def State.engineLevel (s : State) (e : Nat) : Nat :=
  let x := s.engine e
  let level := s.bstep e x.step Fld.BC_STEP_level
  let shape := s.bstep e x.step Fld.BC_STEP_shape
  let total := 10 * s.bstep e x.step Fld.BC_STEP_time
  let b := if shape = 0 || total ≤ x.ms then level
    else ((x.from' : Int) + openDiv (((level : Int) - x.from') * x.ms) total).toNat
  if shape = 2 then s.gamma b else b

/-- The derating scale in force, in 1/255, and whether the result is stale (R420).  No result yet counts as a stale one,
and so does one of a later frame number, which only an earlier Run can have left. -/
def State.derate (s : State) : Nat × Bool :=
  if !s.flag Reg.BC_CTL Fld.BC_CTL_derate then (255, false)
  else
    let sc := fun (i : Nat) => s.fget (Reg.BC_DERATE i) Fld.BC_DERATE_scale
    let om := fun (i : Nat) => s.fget (Reg.BC_DERATE i) Fld.BC_DERATE_ohms
    match s.bc.ntc with
    | none => (sc 3, true)
    | some (r, f) =>
      if f + 2 * s.schedG < s.frameNo || s.frameNo < f then (sc 3, true)
      else if om 0 ≤ r then (sc 0, false)
      else if r ≤ om 3 then (sc 3, false)
      else
        let i := if om 1 ≤ r then 0 else if om 2 ≤ r then 1 else 2
        let lo : Int := om (i + 1)
        ((sc (i + 1) + openDiv (((sc i : Int) - sc (i + 1)) * ((r : Int) - lo)) (om i - om (i + 1)) : Int).toNat, false)

/-- A group that is on: enabled, without a latched fault and not tripped, with the driver enabled. -/
def State.groupOn (s : State) (g : Nat) : Bool :=
  s.flag Reg.BC_CTL Fld.BC_CTL_en && s.flag (Reg.BC_GRP g) Fld.BC_GRP_en
    && !(s.fget Reg.BC_STAT Fld.BC_STAT_fault).testBit g && !s.flag Reg.BC_STAT Fld.BC_STAT_tripped

/-- The command of an output in codes (R417); derating takes no warning output below 35 codes (R422). -/
def State.sinkCode (s : State) (g place j : Nat) : Nat :=
  let e := s.groupEngine g
  if s.groupOn g && (s.bstep e (s.engineStep e) Fld.BC_STEP_mask).testBit place then
    let full := s.fget (Reg.BC_OUT j) Fld.BC_OUT_imax * s.engineLevel e
    let code := (roundDiv ((full * s.derate.1 : Nat) : Int) (1023 * 255)).toNat
    if s.flag (Reg.BC_GRP g) Fld.BC_GRP_warn then max code (min 35 (roundDiv (full : Int) 1023).toNat) else code
  else 0

/-- Every sink takes its command. -/
def State.lightSinks (s : State) : State :=
  let (sc, stale) := s.derate
  let sinks := (List.range 4).foldl (fun m g =>
    ((s.groupOutputs g).zipIdx).foldl (fun m p =>
      let c := s.sinkCode g p.2 p.1
      if c = 0 then m else kset m p.1 c) m) []
  let lit := (List.range 4).foldl (fun a g => if s.groupOn g then a + 2 ^ g else a) 0
  let s := { s with bc := { s.bc with sinks := sinks } }
  let s := (s.fput Reg.BC_STAT Fld.BC_STAT_lit lit).setFlag Reg.BC_STAT Fld.BC_STAT_stale stale
  s.fput Reg.BC_SCALE Fld.BC_SCALE_scale sc

/-- The millisecond's update (R417): the engines run on while the driver is enabled. -/
def beaconUpdate (s : State) : State :=
  if !s.alive then s
  else if s.flag Reg.BC_CTL Fld.BC_CTL_en then
    ((List.range 4).foldl (fun s e =>
      let x := s.engine e
      s.setEngine e { x with ms := min (x.ms + 1) (10 * s.bstep e x.step Fld.BC_STEP_time) }) s).lightSinks
  else ({ s with bc := { s.bc with engines := [] } }).lightSinks

def execBeaconUpdate (s : State) : Host.Outcome State Fault Refusal := fin (beaconUpdate s)

/-- A step's time has run out (R418). -/
def beaconStep (e : BitVec 2) (s : State) : State :=
  let n := e.toNat
  if !(s.alive && s.flag Reg.BC_CTL Fld.BC_CTL_en) then s
  else
    let x := s.engine n
    let level := s.bstep n x.step Fld.BC_STEP_level
    if s.fget (Reg.BC_ENG n) Fld.BC_ENG_last ≤ x.step then
      if s.flag (Reg.BC_ENG n) Fld.BC_ENG_once then
        (s.setEngine n { x with ms := 10 * s.bstep n x.step Fld.BC_STEP_time, done := true }).lightSinks
      else (s.setEngine n { x with step := 0, ms := 0, from' := level }).lightSinks
    else (s.setEngine n { x with step := x.step + 1, ms := 0, from' := level }).lightSinks

def execBeaconStep (e : BitVec 2) (s : State) : Host.Outcome State Fault Refusal := fin (beaconStep e s)

/-- An output carries less than 75 % of its command of `c` codes of 60 mA ÷ 1,023; its pin stands above short_v (R421). -/
def lampOpen (x : LampRead) (c : Nat) : Bool := decide (4 * 1023 * x.ua.toNat < 3 * 60000 * c)
def State.lampShort (s : State) (x : LampRead) : Bool := decide (1000 * s.fget Reg.BC_CTL Fld.BC_CTL_short_v < x.mv.toNat)

/-- A lamp fault is latched with its output's group, and raised. -/
def State.lampFault (s : State) (n : Nat) (short : Bool) : State :=
  let f := if short then Fld.BC_STAT_short else Fld.BC_STAT_open
  let g := s.fget (Reg.BC_OUT n) Fld.BC_OUT_grp
  let s := s.fput Reg.BC_STAT f (s.fget Reg.BC_STAT f ||| 2 ^ n)
  let s := s.fput Reg.BC_STAT Fld.BC_STAT_fault (s.fget Reg.BC_STAT Fld.BC_STAT_fault ||| 2 ^ g)
  s.lightSinks.raise 62 n (if short then 2 else 1)

/-- BEACON_FAULT: an output commanded to at least 35 codes has shown this for 1 ms (R421). -/
def beaconFault (j : BitVec 3) (x : LampRead) (s : State) : State :=
  let n := j.toNat
  let g := s.fget (Reg.BC_OUT n) Fld.BC_OUT_grp
  let c := kgetD s.bc.sinks n 0
  if s.alive && g < 4 && s.groupOn g && decide (35 ≤ c) then
    let t := if lampOpen x c then s.lampFault n false else s
    if s.lampShort x then t.lampFault n true else t
  else s

def execBeaconFault (j : BitVec 3) (lamp : LampRead) (s : State) : Host.Outcome State Fault Refusal :=
  fin (beaconFault j lamp s)

/-- BC_CMD.clear: the named groups light again; the faults of their outputs are no longer latched. -/
def beaconClear (mask : BitVec 4) (s : State) : State :=
  let outs := (List.range 4).foldl (fun a g =>
    if mask.getLsbD g then (s.groupOutputs g).foldl (fun a j => a ||| 2 ^ j) a else a) 0
  let drop := fun (v m w : Nat) => v &&& ((2 ^ w - 1) ^^^ m)
  let s := s.fput Reg.BC_STAT Fld.BC_STAT_fault (drop (s.fget Reg.BC_STAT Fld.BC_STAT_fault) mask.toNat 4)
  let s := s.fput Reg.BC_STAT Fld.BC_STAT_short (drop (s.fget Reg.BC_STAT Fld.BC_STAT_short) outs 8)
  let s := s.fput Reg.BC_STAT Fld.BC_STAT_open (drop (s.fget Reg.BC_STAT Fld.BC_STAT_open) outs 8)
  s.lightSinks

def execBeaconClear (mask : BitVec 4) (s : State) : Host.Outcome State Fault Refusal := fin (beaconClear mask s)

/-- A BCN_NTC result (Q24.8 Ω) with its frame: derating, the trip and the recovery (R420). -/
def State.ntcResult (s : State) (raw : Int) (frame : Nat) : State :=
  let ohms := (openDiv raw 256).toNat
  let s := { s with bc := { s.bc with ntc := some (ohms, frame) } }
  let s := s.fput Reg.BC_SCALE Fld.BC_SCALE_ntc ohms
  let trip := s.fget Reg.BC_TRIP Fld.BC_TRIP_trip
  if ohms < trip then
    if s.flag Reg.BC_STAT Fld.BC_STAT_tripped then s
    else
      let s := (s.setFlag Reg.BC_STAT Fld.BC_STAT_tripped true).setFlag Reg.BC_STAT Fld.BC_STAT_trip_lat true
      s.lightSinks.raiseD 63 0 0 0 (BitVec.ofNat 64 ohms)
  else if s.fget Reg.BC_TRIP Fld.BC_TRIP_rec < ohms then
    (s.setFlag Reg.BC_STAT Fld.BC_STAT_tripped false).lightSinks
  else s

end Sys2Proof.Machine
end

