-- ==== Sys2Proof/Machine/Auth.lean ====
section
/-! DEFINITION. Owner authorisations at the register fields that need one (R4, R160, R363). -/

namespace Sys2Proof.Machine

/-- An RWP write without a valid authorisation is discarded whole and raises AUTH_REJECTED, cause 3 (R4). -/
def State.rwpRefused (s : State) (off : Nat) : State := s.raiseD 59 0 3 0 (BitVec.ofNat 64 off)

/-- The next write to the op's RWP field consumes the authorisation armed for that op; it takes effect only if the digest
matches, and only while the vault is operational (R363, R384). -/
def State.useAuth (s : State) (op : Nat) (digest : List Byte) : Bool × State :=
  match s.vt.armed with
  | some (o, d) =>
    if o = op then
      (d == digest && s.fget Reg.VT_STAT Fld.VT_STAT_state == vtOperational,
        ({ s with vt := { s.vt with armed := none } }).setFlag Reg.VT_STAT Fld.VT_STAT_armed false)
    else (false, s)
  | none => (false, s)

end Sys2Proof.Machine
end

