-- ==== Sys2Proof/Machine/Calib.lean ====
section
/-! DEFINITION. The calibration store (chapter 7, R152 to R169): the image and its entries, staging, the commit with its
plausibility checks, and the trims. -/

namespace Sys2Proof.Machine

/-! ## The image -/

/-- The word of the ideal factory image at an image offset: header, gains of 1.0, everything else 0 (log 4). -/
def idealWord (serial : Word64) (off : Nat) : Word :=
  if off = 0 then 0x4C414331#32
  else if off = 4 then 1
  else if off = 8 then lo32 serial
  else if off = 12 then hi32 serial
  else if 0x1000 ≤ off && off < 0xF000 then (if (off - 0x1000) % 0xE0 % 0x20 = 4 then 0x40000000#32 else 0)
  else if 0xF100 ≤ off && off < 0xF200 then (if off % 8 = 4 then 0x40000000#32 else 0)
  else if 0xF200 ≤ off && off < 0xF280 then (if off % 8 = 0 then 0x40000000#32 else 0)
  else 0

/-- A word of an image. -/
def Image.rd (img : Image) (serial : Word64) (off : Nat) : Word :=
  match kget? img.words off with
  | some w => w
  | none => if img.ideal then idealWord serial off else 0

def Image.setWord (img : Image) (off : Nat) (w : Word) : Image := { img with words := kset img.words off w }

/-- A word of a programmed bank: the hub owns the epoch, the origin and the commit time (R153). -/
def Bank.rd (b : Bank) (serial : Word64) (off : Nat) : Word :=
  if off = 0x10 then b.epoch
  else if off = 0x14 then word (b2n b.origin)
  else if off = 0x18 then b.time.setWidth 32
  else if off = 0x1C then (b.time >>> 32).setWidth 32
  else b.img.rd serial off

/-- A word of a set; with none every word reads 0 (R153). -/
def setWord (set : Option Bank) (serial : Word64) (off : Nat) : Word :=
  match set with
  | some b => b.rd serial off
  | none => 0

/-- A word of the set in force (R153). -/
def State.calWord (s : State) (off : Nat) : Word := setWord s.cal.inForce s.pw.serial off
/-- A stored timing trim that acts (R153, R163, R167). -/
def State.trimWord (s : State) (off : Nat) : Word := setWord s.cal.trims s.pw.serial off

/-- Word `w` of the entry of an input and range (R154): 0 offset, 1 gain, 2 to 6 the corrections. -/
def State.calEntry (s : State) (n r w : Nat) : Word := s.calWord (0x1000 + n * 0xE0 + r * 0x20 + 4 * w)

/-- Offset and gain of a lead group's loop (R155); unity and zero with no set in force (R153). -/
def State.leadCal (s : State) (g : Nat) : Int × Nat :=
  if s.cal.inForce.isNone then (0, 2 ^ 30)
  else ((s.calWord (0xF100 + 8 * g)).toInt, (s.calWord (0xF104 + 8 * g)).toNat)

/-- Gain and offset of an analog output (R156); unity and zero with no set in force (R153). -/
def State.aoutCal (s : State) (j : Nat) : Nat × Int :=
  if s.cal.inForce.isNone then (2 ^ 30, 0)
  else ((s.calWord (0xF200 + 8 * j)).toNat, (s.calWord (0xF204 + 8 * j)).toInt)

/-- A stored time-stamp trim in units of 2^-16 ns: 16 ps a step, entries receive then transmit of Ethernet, U, D, twin
(R167, R177); the last bit's rounding is open (log 6). -/
def State.stampTrim (s : State) (e : Nat) : Int :=
  openDiv (((s.trimWord (0xF020 + 4 * e)).setWidth 10 : BitVec 10).toInt * 16 * 65536) 1000

/-- A stored trigger-pin trim in units of 2^-16 ns (R167, R211). -/
def State.pinTrim (s : State) (p : Nat) : Int :=
  openDiv ((((s.trimWord (0xF000 + 4 * p)).toNat % 256 * 16 * 65536 : Nat) : Int)) 1000

/-- The bytes of an image, hub-owned bytes taken as 0 for the hash (R159). -/
def Image.bytes (img : Image) (serial : Word64) (zeroOwned : Bool) : List Byte :=
  (List.range 15872).flatMap (fun i =>
    if zeroOwned && 4 ≤ i && i < 8 then zeros 4 else leBytes 4 (img.rd serial (4 * i)).toNat)

/-- The bytes of a programmed bank, with what the hub owns (R153, R165). -/
def Bank.bytes (b : Bank) (serial : Word64) : List Byte :=
  (List.range 15872).flatMap (fun i => leBytes 4 (b.rd serial (4 * i)).toNat)

/-- CAL_STGHASH of a staged image (R159). -/
def State.stageHash (s : State) (img : Image) : List Byte := sha384 (img.bytes s.pw.serial true)

/-! ## Staging (R157 to R159) -/

/-- A change of the staging buffer makes the hash due. -/
def State.setStaging (s : State) (img : Image) : State :=
  { s with cal := { s.cal with staging := some img, hashDue := true } }

/-- CAL_CMD.open: the set in force is copied, header included; with none in force the buffer is 0 (R157). -/
def calOpen (s : State) : State :=
  if s.cal.commit.isSome then s.accErr true Reg.CAL_CMD
  else
    let img : Image := match s.cal.inForce with
      | none => { ideal := false, words := [] }
      | some b => [0x10, 0x14, 0x18, 0x1C].foldl (fun i o => i.setWord o (b.rd s.pw.serial o)) b.img
    (s.setStaging img).wr Reg.CAL_STGPTR 0

def execCalOpen (s : State) : Host.Outcome State Fault Refusal := fin (calOpen s)

/-- The staging buffer is discarded (R157).  DESIGN CHOICE (log 31): CAL_STGHASH keeps the last hash. -/
def State.dropStaging (s : State) : State := { s with cal := { s.cal with staging := none, hashDue := false } }

/-- CAL_CMD.close: the staging buffer is discarded (R157), and CAL_STGHASH keeps the last hash (log 31). -/
def calClose (s : State) : State := if s.cal.commit.isSome then s.accErr true Reg.CAL_CMD else s.dropStaging

def execCalClose (s : State) : Host.Outcome State Fault Refusal := fin (calClose s)

/-- A write to CAL_STGPTR (R158, R161). -/
def calStgptrWrite (val : Word) (s : State) : State :=
  let a := BitField.get Fld.CAL_STGPTR_word val * 4
  if s.cal.commit.isSome || 0xF800 ≤ a then s.accErr true Reg.CAL_STGPTR else s.wr Reg.CAL_STGPTR (word a)

def execCalStgptrWrite (val : Word) (s : State) : Host.Outcome State Fault Refusal := fin (calStgptrWrite val s)

/-- A write to CAL_STGDATA stores at the pointer and advances it (R157, R158, R161). -/
def calStgdataWrite (val : Word) (s : State) : State :=
  let p := s.rdN Reg.CAL_STGPTR
  match s.cal.staging with
  | none => s.accErr true Reg.CAL_STGDATA
  | some img =>
    if s.cal.commit.isSome || 0xF800 ≤ p then s.accErr true Reg.CAL_STGDATA
    else (s.setStaging (img.setWord p val)).wr Reg.CAL_STGPTR (word (p + 4))

def execCalStgdataWrite (val : Word) (s : State) : Host.Outcome State Fault Refusal := fin (calStgdataWrite val s)

/-- A read of CAL_STGDATA returns the word at the pointer and advances it (R157, R158). -/
def calStgdataRead (s : State) : State :=
  let p := s.rdN Reg.CAL_STGPTR
  match s.cal.staging with
  | none => { s with rdata := 0 }
  | some img =>
    if 0xF800 ≤ p then { s with rdata := 0 }
    else { (s.wr Reg.CAL_STGPTR (word (p + 4))) with rdata := img.rd s.pw.serial p }

def execCalStgdataRead (s : State) : Host.Outcome State Fault Refusal := fin (calStgdataRead s)

/-- The recomputed hash appears in CAL_STGHASH (R159). -/
def calStghashUpdate (s : State) : State :=
  match s.cal.staging with
  | none => s
  | some img =>
    if s.cal.hashDue then
      let h := s.stageHash img
      let s := (List.range 12).foldl (fun s i => s.wr (Reg.CAL_STGHASH i) (word (ofLe (slice h (4 * i) 4)))) s
      { s with cal := { s.cal with hashDue := false } }
    else s

def execCalStghashUpdate (s : State) : Host.Outcome State Fault Refusal := fin (calStghashUpdate s)

/-! ## Commit (R160 to R164) -/

/-- CAL_CMD.commit: the token first, then busy, stage_open and R379 (R160, R161). The digest is that of the buffer as it
stands (log 7). -/
def calCommit (s : State) : State :=
  let digest := match s.cal.staging with
    | some img => s.stageHash img
    | none => (List.range 12).flatMap (fun i => leBytes 4 (s.rdN (Reg.CAL_STGHASH i)))
  match s.useAuth 1 digest with
  | (false, s) => s.rwpRefused Reg.CAL_CMD
  | (true, s) =>
    match s.cal.staging with
    | none => s.accErr true Reg.CAL_CMD
    | some img =>
      if s.cal.commit.isSome || s.vt.extended then s.accErr true Reg.CAL_CMD
      else { s with cal := { s.cal with commit := some img } }

def execCalCommit (s : State) : Host.Outcome State Fault Refusal := fin (calCommit s)

/-- A signed word within a bound on either side. -/
def withinI (w : Word) (b : Nat) : Bool := decide (w.toInt.natAbs ≤ b)

/-- A gain within ±0.5 % of 1.0. -/
def gainOk (w : Word) : Bool := decide (0x3FAE147B ≤ w.toNat) && decide (w.toNat ≤ 0x4051EB85)

/-- The first index of a list that fails a check. -/
def firstBad (l : List Nat) (ok : Nat → Bool) : Option Nat := l.find? (fun i => !ok i)

/-- Image offsets that hold no value: 0x20-0xFFF and 0xF280-0xF7FF, which the layout reserves, and 0xF010-0xF01F and 0xF040-0xF0FF, which
stand in none of its rows and are taken for reserved too (R153, R161; DESIGN CHOICE, log 88). -/
def calReserved (o : Nat) : Bool :=
  (0x20 ≤ o && o < 0x1000) || (0xF010 ≤ o && o < 0xF020) || (0xF040 ≤ o && o < 0xF100) || (0xF280 ≤ o && o < 0xF800)

/-- The plausibility limits, in ascending reason code, then ascending index: the first failure (R161). -/
def calFailure (img : Image) (serial : Word64) (wrcnt : Nat) : Option (Nat × Nat) :=
  let w := img.rd serial
  let ent := fun i k => w (0x1000 + i / 8 * 0xE0 + i % 8 * 0x20 + 4 * k)
  let ents := (List.range 2048).filter (fun i => i % 8 < 7)
  let at1 := fun (c : Nat) (r : Option Nat) => r.map (fun i => (c, i))
  let bad := fun (c : Nat) (b : Bool) => if b then none else some (c, 0)
  (bad 1 (w 8 == lo32 serial && w 12 == hi32 serial)).orElse fun _ =>
  (bad 2 (w 0 == 0x4C414331#32 && w 4 == 1#32)).orElse fun _ =>
  (at1 3 (firstBad ents (fun i => withinI (ent i 0) 2147484))).orElse fun _ =>
  (at1 4 (firstBad ents (fun i => gainOk (ent i 1)))).orElse fun _ =>
  (at1 5 (firstBad ents (fun i => [2, 3, 4, 5, 6].all (fun k => withinI (ent i k) 21475)))).orElse fun _ =>
  (at1 6 (firstBad (List.range 32) (fun g => decide ((w (0xF100 + 8 * g)).toNat ≤ 0x20000) && gainOk (w (0xF104 + 8 * g))))).orElse fun _ =>
  (at1 7 (firstBad (List.range 16) (fun j => gainOk (w (0xF200 + 8 * j)) && withinI (w (0xF204 + 8 * j)) 4294967))).orElse fun _ =>
  (at1 8 (firstBad (List.range 12) (fun e =>
    let x := if e < 4 then (w (0xF000 + 4 * e)).toNat else (w (0xF020 + 4 * (e - 4))).toNat
    let tapBits := if e < 4 then 8 else 10
    let limit := if e < 4 then 24 else 40
    decide (x % 65536 < 2 ^ tapBits) && decide (x / 2 ^ 24 = 0) && decide (x / 65536 ≤ limit)))).orElse fun _ =>
  (bad 9 (decide (wrcnt < 100000))).orElse fun _ =>
  at1 10 (firstBad (List.range 15872) (fun i => !calReserved (4 * i) || w (4 * i) == 0#32))

/-- The new set stands by for its frame boundary: in Run once the first acquired frame's window has opened (R163). -/
def State.commitWaits (s : State) : Bool := s.inRun && s.running && decide (s.fr.tickS + 1 < s.fr.nextTick)

/-- The commit ends (R161, R162, R163). The corrected time of the commit is the time at which it completes (DESIGN CHOICE, log 88). -/
def calCommitComplete (s : State) : State :=
  match s.cal.commit with
  | none => s
  | some img =>
    let s := { s with cal := { s.cal with commit := none } }
    match calFailure img s.pw.serial s.cal.wrcnt.toNat with
    | some (reason, index) =>
      let s := { s with cal := { s.cal with result := 2 } }
      let s := s.wr Reg.CAL_REJ (word (2 ^ 24 * reason + index))
      (s.setFlag Reg.CAL_STAT Fld.CAL_STAT_rejected true).raise 21 index reason
    | none =>
      let b : Bank := { img := img, epoch := s.cal.wrcnt + 2, origin := true, time := (timeParts s.now).sec }
      let waits := s.commitWaits
      let s := { s with cal := { s.cal with result := 1, wrcnt := s.cal.wrcnt + 1, staging := none, hashDue := false
                                            next := if waits then some b else none
                                            inForce := if waits then s.cal.inForce else some b
                                            trims := if waits then s.cal.trims else some b }
                        vt := { s.vt with calClose := waits } }
      (s.setFlag Reg.CAL_STAT Fld.CAL_STAT_written true).raiseD 22 0 0 0 (b.epoch.setWidth 64)

def execCalCommitComplete (s : State) : Host.Outcome State Fault Refusal := fin (calCommitComplete s)

/-- A committed set takes its place at the frame boundary, or when Run ends (R163). -/
def State.calSwap (s : State) : State :=
  match s.cal.next with
  | some b => { s with cal := { s.cal with inForce := some b, next := none } }
  | none => s

/-- The stored timing trims of the set in force act from this tick on (R163). -/
def State.latchTrims (s : State) : State := { s with cal := { s.cal with trims := s.cal.inForce } }

/-- Loading the store at a start (R153): a partly programmed bank is discarded and named in the result. -/
def State.calStart (s : State) : State :=
  let s := s.calSwap.latchTrims
  { s with cal := { s.cal with result := if s.cal.partly then 3 else 0, partly := false, staging := none
                               hashDue := false, commit := none } }

/-- A loss of power or a RESET_N interrupts a commit (R164). -/
def State.calInterrupt (s : State) : State :=
  { s with cal := { s.cal with partly := s.cal.partly || s.cal.commit.isSome, commit := none, staging := none
                               hashDue := false } }

/-- PERST# or a function-level reset: the hub erases the partly programmed bank itself (R164); the staging buffer goes
with every reset (R157). -/
def State.calAbandon (s : State) : State :=
  { s with cal := { s.cal with result := if s.cal.commit.isSome then 3 else s.cal.result, commit := none, staging := none
                               hashDue := false } }

end Sys2Proof.Machine
end

