-- ==== Sys2Proof/Machine/Time.lean ====
section
/-! DEFINITION. Time (chapter 8, R170 to R198): the rate and the steps of corrected time, the servo and its sources PTP,
PPS and ring, holdover, and the reference clock.  Times are in units of 2^-16 ns. -/

namespace Sys2Proof.Machine

/-- TB_STAT.time_port (R193): a member takes time on its way to the head, 1 for port U and 2 for port D; 0 its own source. -/
def State.timePort (s : State) : Nat := if s.pw.headSel then 0 else match s.route 0 with | some p => p + 1 | none => 0

/-- The source in use: a member ignores TB_CTL.src (R174). -/
def State.timeSrc (s : State) : Nat := s.fget Reg.TB_CTL Fld.TB_CTL_src
def State.freeRunHost (s : State) : Bool := s.pw.headSel && s.timeSrc == 0

/-! ## Rate and steps -/

/-- The clamp of the rate: ±200 ppm in units of 2^-48 (R173). -/
def rateClamp : Int := 56294995342
def clampRate (r : Int) : Int := clampI (-rateClamp) rateClamp r

/-- A new rate: the old one is folded into the offset at the present raw time (R171). -/
def State.setRate (s : State) (r : Int) : State :=
  let a := rawOf s.tb.cnt.toNat 0
  let s := { s with tb := { s.tb with off := s.tb.off + s.rate * (a - s.tb.anchor), anchor := a } }
  s.wr64 Reg.TB_RATE_LO (BitVec.ofInt 64 (clampRate r))

/-- A servo state is entered: TB_STAT.state, and the seal summary's state bits (R186, R198); leaving LOCKED sets
TB_STAT.unlock and raises SERVO_UNLOCK with the last offset. A change of state starts the count of measurements anew (DESIGN CHOICE,
log 88). -/
def State.servoTo (s : State) (st : Nat) (theta : Int) : State :=
  let old := s.fget Reg.TB_STAT Fld.TB_STAT_state
  let s := s.fput Reg.TB_STAT Fld.TB_STAT_state st
  let s := s.wr Reg.TB_SUM_HI (s.rd Reg.TB_SUM_HI ||| word (2 ^ (8 + st)))
  let s := if old = st then s else { s with tb := { s.tb with lockRun := 0 } }
  if old = tbLocked && st ≠ tbLocked then
    (s.setFlag Reg.TB_STAT Fld.TB_STAT_unlock true).raiseD 3 0 0 0 (BitVec.ofInt 64 (openDiv theta 256))
  else if st = tbLocked then { s with tb := { s.tb with lockedOnce := true } } else s

/-- The stamps of a link, in a time that has moved. -/
def LinkStamps.moved (delta : Int) (l : LinkStamps) : LinkStamps :=
  { l with sent := l.sent.map (fun t => t + delta), rcvd := l.rcvd.map (fun t => t + delta) }

/-- A step of corrected time takes effect (R187, R189): TB_STAT.stepped, the seal summary's count, TIME_STEP. The stamps that the hub
itself has taken and still holds, of time cells and of a PTP exchange, move with the time they are stated in, so that no measurement
mixes the time before the step with that after it (R171, R177; DESIGN CHOICE, log 88). -/
def State.stepNow (s : State) (delta : Int) (cause : Nat) : State :=
  let s := { s with tb := { s.tb with off := s.tb.off + delta * 2 ^ 48, lockedOnce := false
                                      linkU := s.tb.linkU.moved delta, linkD := s.tb.linkD.moved delta
                                      linkT := s.tb.linkT.moved delta
                                      lastSync := s.tb.lastSync.map (fun (e : Int × Int) => (e.1 + delta, e.2))
                                      delayReq := s.tb.delayReq.map (fun t => t + delta) } }
  let s := s.setFlag Reg.TB_STAT Fld.TB_STAT_stepped true
  let s := s.fput Reg.TB_SUM_HI Fld.TB_SUM_HI_steps (min 255 (s.fget Reg.TB_SUM_HI Fld.TB_SUM_HI_steps + 1))
  s.raiseD 2 0 cause 0 (BitVec.ofInt 64 (openDiv delta 65536))

/-- A step in Run is scheduled for the first tick at least 4 ms away, on a head with run_step, within 16 P (R189). -/
def State.planStep (s : State) (delta : Int) (cause : Nat) : State :=
  let t := s.now + 4000000 * nsU - (s.fr.epoch : Int) * secU
  let n := max s.fr.nextTick ((t + s.periodU - 1) / s.periodU).toNat
  { s with tb := { s.tb with step := some { tick := n, delta := delta, cause := cause } } }

def State.runStepOk (s : State) (delta : Int) : Bool :=
  s.pw.headSel && s.flag Reg.TB_CTL Fld.TB_CTL_run_step && decide ((delta.natAbs : Int) ≤ 16 * s.periodU)

/-! ## The servo (R185 to R191) -/

/-- The servo's update of integrator and rate (R185); both gains' products are in units of 2^-48 / (2·10^9), and a last bit, where
the interval does not divide them, and the rounding of the rate to 2^-48 are open (log 6). -/
def State.servoUpdate (s : State) (theta : Int) (tau : Nat) : State :=
  let term := fun (gain : Nat) => openDiv ((gain : Int) * theta * (65536 * 2000000000 * 65536)) tau
  let p : Int := term (s.fget Reg.TB_SERVO Fld.TB_SERVO_kp)
  let integ := s.tb.integ + term (s.fget Reg.TB_SERVO Fld.TB_SERVO_ki)
  let limit : Int := (s.fget Reg.TB_SLEW Fld.TB_SLEW_max_slew : Int) * 200 * 2 ^ 48
  let p := if s.fget Reg.TB_STAT Fld.TB_STAT_state = tbLocked then p else clampI (-limit) limit p
  let s := { s with tb := { s.tb with integ := integ, integs := (integ :: s.tb.integs).take 16 } }
  s.setRate (openDiv (-(p + integ)) 2000000000)

/-- The largest |θ| of the seal interval, in ns (R198). -/
def State.sumTheta (s : State) (theta : Int) : State :=
  let ns := (openDiv (theta.natAbs : Int) 65536).toNat
  s.wr Reg.TB_SUM_LO (word (max (s.rdN Reg.TB_SUM_LO) (min 0xFFFFFFFF ns)))

/-- An accepted measurement θ with interval τ (R185 to R191).  A measurement beyond step_thr steps outside Run, is
scheduled as a step on a head that may, and otherwise only slews, back in ACQUIRE (log 8); the first one after a ring has formed
steps a member whatever its size (log 8), and takes one that is LOCKED back to ACQUIRE (DESIGN CHOICE, log 88). -/
def State.measure (s : State) (theta : Int) (tau : Nat) : State :=
  let a := theta.natAbs
  let s := s.wr Reg.TB_THETA (satWord (openDiv theta 256))
  let s := s.sumTheta theta
  let st := s.fget Reg.TB_STAT Fld.TB_STAT_state
  let far := decide (s.rdN Reg.TB_STEP * 65536 < a) || s.tb.formStep
  let s := { s with tb := { s.tb with formStep := false } }
  let out := decide (s.fget Reg.TB_LOCK Fld.TB_LOCK_unlock_thr * 65536 < a)
  let inn := decide (a ≤ s.fget Reg.TB_LOCK Fld.TB_LOCK_lock_thr * 65536)
  let s := if st = 0 || st = 3 || out || far then s.servoTo 1 theta else s
  let s := { s with tb := { s.tb with lockRun := if inn then s.tb.lockRun + 1 else 0 } }
  if far && !s.inRun then s.stepNow (-theta) 0
  else if far && s.tb.step.isSome then s
  else if far && s.runStepOk theta then s.planStep (-theta) 2
  else
    let s := s.servoUpdate theta tau
    let clamped := decide (rateClamp ≤ (s.rate.natAbs : Int))
    if clamped then (if s.fget Reg.TB_STAT Fld.TB_STAT_state = tbLocked then s.servoTo 1 theta else s)
    else if s.fget Reg.TB_STAT Fld.TB_STAT_state = 1 && 16 ≤ s.tb.lockRun then s.servoTo 2 theta
    else s

/-- Holdover is entered (R190): the rate holds minus the average of the integrator over the last 16 measurements. -/
def holdoverEnter (s : State) : State :=
  let st := s.fget Reg.TB_STAT Fld.TB_STAT_state
  if st = 0 || st = 3 then s
  else
    let s := s.servoTo 3 ((s.rd Reg.TB_THETA).toInt * 256)
    let s := s.setFlag Reg.TB_STAT Fld.TB_STAT_hold_ent true
    let s := s.raise 4 (s.timePort) 0
    if s.tb.integs.isEmpty then s
    else s.setRate (openDiv (-(s.tb.integs.foldl (· + ·) 0)) (2000000000 * s.tb.integs.length))

def execHoldoverEnter (s : State) : Host.Outcome State Fault Refusal := fin (holdoverEnter s)

/-! ## Host commands -/

/-- The time staged in TB_SET. -/
def State.tbSet (s : State) : Int :=
  ((s.fget Reg.TB_SET_SEC_HI ⟨15, 0⟩ * 2 ^ 32 + s.rdN Reg.TB_SET_SEC_LO : Nat) : Int) * secU
    + (s.rdN Reg.TB_SET_NS : Int) * nsU + (s.fget Reg.TB_SET_FRAC ⟨15, 0⟩ : Int)

/-- TB_CMD.step (R187 to R189): accepted on a head in free run; in Run only with run_step. -/
def tbStepCmd (s : State) : State :=
  if !s.freeRunHost then s.accErr true Reg.TB_CMD
  else
    let delta := s.tbSet - s.now
    if !s.inRun then s.stepNow delta 1
    else if !s.flag Reg.TB_CTL Fld.TB_CTL_run_step then s.accErr true Reg.TB_CMD
    else if s.runStepOk delta && s.tb.step.isNone then s.planStep delta 1
    else s

def execTbStepCmd (s : State) : Host.Outcome State Fault Refusal := fin (tbStepCmd s)

/-- A committed write of TB_RATE (R171, R173): the staged upper word, the lower word written; in free run only. -/
def tbRateWrite (val : Word) (s : State) : State :=
  let hi := kgetD s.staged Reg.TB_RATE_HI (s.rd Reg.TB_RATE_HI)
  if s.freeRunHost then ({ s with staged := kerase s.staged Reg.TB_RATE_HI }).setRate (join64 val hi).toInt
  else s.accErr true Reg.TB_RATE_LO

def execTbRateWrite (val : Word) (s : State) : Host.Outcome State Fault Refusal := fin (tbRateWrite val s)

/-! ## Reference clock (R175, R176) -/

def refclkLoss (s : State) : State :=
  if s.flag Reg.TB_STAT Fld.TB_STAT_ref_ok then
    ((s.setFlag Reg.TB_STAT Fld.TB_STAT_ref_ok false).setFlag Reg.TB_STAT Fld.TB_STAT_refclk_lost true).raise 7 0 0
  else s

def execRefclkLoss (s : State) : Host.Outcome State Fault Refusal := fin (refclkLoss s)

def refclkReturn (is25 : Bool) (s : State) : State :=
  if s.alive then (s.setFlag Reg.TB_STAT Fld.TB_STAT_ref25 is25).setFlag Reg.TB_STAT Fld.TB_STAT_ref_ok true else s

def execRefclkReturn (is25 : Bool) (s : State) : Host.Outcome State Fault Refusal := fin (refclkReturn is25 s)

/-! ## PTP (R179 to R182) -/

/-- The PTP port serves the hub: a head whose source is PTP. -/
def State.ptpOn (s : State) : Bool := s.alive && s.pw.headSel && s.timeSrc == 1

/-- A message of the domain and the transport that TB_PTPCFG selects; every other is ignored (R179). -/
def State.ptpHears (s : State) (h : PtpHdr) : Bool :=
  s.ptpOn && h.domain.toNat == s.fget Reg.TB_PTPCFG Fld.TB_PTPCFG_domain
    && b2n h.udp == s.fget Reg.TB_PTPCFG Fld.TB_PTPCFG_transport

/-- A message of the selected grandmaster's port. -/
def State.ptpFromGm (s : State) (h : PtpHdr) : Bool :=
  s.ptpHears h && s.tb.gmOk && s.tb.gm.any (fun g => g.hdr.source == h.source)

/-- PTP_FAULT with the grandmaster's clockIdentity. -/
def State.ptpFault (s : State) (cause : Nat) : State := s.raiseD 6 0 cause 0 (s.rd64 Reg.TB_PTPGM_LO)

/-- Measurements stop until a grandmaster is selected again (R182). -/
def State.dropGm (s : State) (port : Nat) : State :=
  ({ s with tb := { s.tb with gmOk := false, gm := none, syncRaw := none } }).fput Reg.TB_PTPSTAT Fld.TB_PTPSTAT_port_state port

/-- The mean path delay (R180): the average of the exchanges held, twice each, with half the asymmetry. -/
def State.ptpDelay (s : State) : Int :=
  let n := s.tb.mpds.length
  openDiv (s.tb.mpds.foldl (· + ·) 0 * 1000 + (s.rd (Reg.TB_LINKASYM 0)).toInt * 65536 * n) (2000 * n)

/-- The interval that a Sync names, in units of 2^-16 ns. -/
def syncNominal (logInt : Int) : Nat :=
  65536 * (if logInt < 0 then 1000000000 / 2 ^ (-logInt).toNat else 1000000000 * 2 ^ logInt.toNat)

/-- The interval from the last accepted Sync to one received at a raw time (R174); for the first one, what it names (log 83). -/
def State.syncTau (s : State) (raw logInt : Int) : Nat :=
  match s.tb.syncRaw with
  | some r => if r < raw then (raw - r).toNat else syncNominal logInt
  | none => syncNominal logInt

/-- A Sync with its Follow_Up (R174, R179, R180, R182). -/
def ptpSync (m : PtpSyncIn) (s : State) : State :=
  if !s.ptpFromGm m.hdr then s
  else if m.logInt.toInt < -7 || 1 < m.logInt.toInt then (s.ptpFault 4).dropGm 4
  else
    let t2 := s.stampTime m.rx - s.stampTrim 0
    let t1 := (PtpTime.val m.origin) + m.corr.toInt
    let s := { s with tb := { s.tb with lastSync := some (t2, t1) } }
    if s.tb.mpds.isEmpty then s
    else
      let raw := rawOf m.rx.count.toNat m.rx.frac.toNat
      let tau := s.syncTau raw m.logInt.toInt
      let s := ({ s with tb := { s.tb with syncRaw := some raw } }).fput Reg.TB_PTPSTAT Fld.TB_PTPSTAT_port_state 9
      s.measure (t2 - t1 - s.ptpDelay) tau

def execPtpSync (m : PtpSyncIn) (s : State) : Host.Outcome State Fault Refusal := fin (ptpSync m s)

/-- A Delay_Req is sent and its transmit stamp kept (R177, R179). -/
def ptpDelayReqSend (tx : Stamp) (s : State) : State :=
  if s.ptpOn && s.tb.gmOk then
    let t := s.stampTime tx + s.stampTrim 1
    ({ s with tb := { s.tb with delayReq := some t } }).emit
      (.ptpDelayReq (s.fget Reg.TB_PTPCFG Fld.TB_PTPCFG_domain) (s.fget Reg.TB_PTPCFG Fld.TB_PTPCFG_transport == 1) t)
  else s

def execPtpDelayReqSend (tx : Stamp) (s : State) : Host.Outcome State Fault Refusal := fin (ptpDelayReqSend tx s)

/-- A Delay_Resp completes an exchange (R179, R180, R182). -/
def ptpDelayResp (r : PtpResp) (corr : Word64) (logInt : BitVec 8) (s : State) : State :=
  if !s.ptpFromGm r.hdr then s
  else if logInt.toInt < -7 || 5 < logInt.toInt then (s.ptpFault 4).dropGm 4
  else
    match s.tb.delayReq, s.tb.lastSync with
    | some t3, some (t2, t1) =>
      let d2 := (PtpTime.val r.t4 - corr.toInt - t1) - (t3 - t2)
      let s := { s with tb := { s.tb with delayReq := none, mpds := (d2 :: s.tb.mpds).take 16 } }
      s.wr Reg.TB_PTPMPD (wordI (openDiv s.ptpDelay 256))
    | _, _ => s

def execPtpDelayResp (resp : PtpResp) (corr : Word64) (logInt : BitVec 8) (s : State) : Host.Outcome State Fault Refusal :=
  fin (ptpDelayResp resp corr logInt s)

/-- The order of the data set comparison (IEEE 1588-2019, log 9): lower is better. Between two paths to one grandmaster the steps
decide, then the port that sends. -/
def gmRank (a : Announce) : List Nat :=
  [a.priority1.toNat, a.clockClass.toNat, a.accuracy.toNat, a.variance.toNat, a.priority2.toNat,
   ofBe (leBytes 8 a.identity.toNat), a.steps.toNat, a.hdr.source.toNat]

def lexLt : List Nat → List Nat → Bool
  | x :: xs, y :: ys => if x < y then true else if y < x then false else lexLt xs ys
  | _, _ => false

/-- The selected grandmaster's fields (R181, R182). -/
def State.takeGm (s : State) (a : Announce) : State :=
  let changed := match s.tb.gm with
    | some g => g.identity != a.identity
    | none => false
  let again := s.tb.gmOk && !changed
  let s := s.wr64 Reg.TB_PTPGM_LO a.identity
  let port := if again then s.fget Reg.TB_PTPSTAT Fld.TB_PTPSTAT_port_state else 8
  let s := s.wr Reg.TB_PTPSTAT (word (2 ^ 16 * a.utcOffset.toNat + 2 ^ 8 * a.steps.toNat + 2 ^ 7 * b2n a.traceable
    + 2 ^ 6 * b2n a.ptpTimescale + port))
  let s := { s with tb := { s.tb with gm := some a, gmOk := true } }
  if changed then s.ptpFault 3 else s

/-- An Announce message (R179, R181, R182): the selected port's own is always taken, another's where it ranks before. -/
def ptpAnnounce (a : Announce) (s : State) : State :=
  if !s.ptpHears a.hdr then s
  else
    let mine := s.tb.gm.any (fun g => g.hdr.source == a.hdr.source)
    if !(mine || s.tb.gm.all (fun g => lexLt (gmRank a) (gmRank g))) then s
    else if !a.ptpTimescale && !s.flag Reg.TB_CTL Fld.TB_CTL_arb_ok then
      let s := s.raiseD 6 0 5 0 a.identity
      if mine then s.dropGm 4 else s
    else s.takeGm a

def execPtpAnnounce (a : Announce) (s : State) : Host.Outcome State Fault Refusal := fin (ptpAnnounce a s)

def ptpAnnounceTimeout (s : State) : State :=
  if s.ptpOn && s.tb.gm.isSome then (s.ptpFault 1).dropGm 4 else s

def execPtpAnnounceTimeout (s : State) : Host.Outcome State Fault Refusal := fin (ptpAnnounceTimeout s)

def ptpPortFaulty (s : State) : State := if s.ptpOn then (s.ptpFault 2).dropGm 2 else s

def execPtpPortFaulty (s : State) : Host.Outcome State Fault Refusal := fin (ptpPortFaulty s)

/-! ## PPS (R183, R184) -/

/-- The TAI second of the next edge. -/
def State.ppsSec (s : State) : Nat := s.fget Reg.TB_PPSSEC_HI ⟨15, 0⟩ * 2 ^ 32 + s.rdN Reg.TB_PPSSEC_LO
def State.setPpsSec (s : State) (n : Nat) : State :=
  (s.wr Reg.TB_PPSSEC_LO (word n)).wr Reg.TB_PPSSEC_HI (word (n / 2 ^ 32 % 65536))

/-- Distance of a time from the nearest whole second. -/
def secDist (t : Int) : Int := min (t % secU) (secU - t % secU)

/-- PPS_IN edge (R183): each accepted edge is the second of TB_PPSSEC, which it moves on by 1. An edge that is missing or ignored does
not move it (DESIGN CHOICE, log 88). -/
def ppsInEdge (st : Stamp) (falling : Bool) (s : State) : State :=
  if !s.alive || falling != s.flag Reg.TB_PPS Fld.TB_PPS_in_pol then s
  else
    let t := s.stampTime st
    let s := { s with tb := { s.tb with ppsLast := some (rawOf st.count.toNat st.frac.toNat) } }
    if !(s.pw.headSel && s.timeSrc == 2) then s
    else if s.tb.lockedOnce && decide ((s.fget Reg.TB_PPS Fld.TB_PPS_win : Int) * 1000 * nsU < secDist t) then s
    else
      let n := s.ppsSec
      let s := { s.setPpsSec (n + 1) with tb := { s.tb with ppsMissRun := false } }
      s.measure (t - (n : Int) * secU) (1000000000 * 65536)

def execPpsInEdge (t : Stamp) (falling : Bool) (s : State) : Host.Outcome State Fault Refusal :=
  fin (ppsInEdge t falling s)

def ppsMissing (s : State) : State :=
  if s.alive && s.pw.headSel && s.timeSrc == 2 then
    let s := s.setFlag Reg.TB_STAT Fld.TB_STAT_pps_miss true
    if s.tb.ppsMissRun then s
    else ({ s with tb := { s.tb with ppsMissRun := true } }).raiseD 5 0 0 0 (BitVec.ofNat 64 s.ppsSec)
  else s

def execPpsMissing (s : State) : Host.Outcome State Fault Refusal := fin (ppsMissing s)

def ppsOut (s : State) : State :=
  if s.alive && s.flag Reg.TB_CTL Fld.TB_CTL_pps_out_en then { s with tb := { s.tb with ppsOut := true } } else s

def execPpsOut (s : State) : Host.Outcome State Fault Refusal := fin (ppsOut s)

def ppsOutFall (s : State) : State := { s with tb := { s.tb with ppsOut := false } }

def execPpsOutFall (s : State) : Host.Outcome State Fault Refusal := fin (ppsOutFall s)

/-! ## Ring time (R193, R194) -/

def State.stamps (s : State) (p : Nat) : LinkStamps :=
  if p = 0 then s.tb.linkU else if p = 1 then s.tb.linkD else s.tb.linkT
def State.setStamps (s : State) (p : Nat) (l : LinkStamps) : State :=
  if p = 0 then { s with tb := { s.tb with linkU := l } }
  else if p = 1 then { s with tb := { s.tb with linkD := l } }
  else { s with tb := { s.tb with linkT := l } }

/-- The head is in HOLDOVER, as its time cells say; a member hands on what it was told. -/
def State.headHold (s : State) : Bool :=
  if s.pw.headSel then s.fget Reg.TB_STAT Fld.TB_STAT_state == 3 else s.flag Reg.TB_STAT Fld.TB_STAT_ring_hold

/-- A time cell goes out on an active port (R193; payload of cell type 0x2). -/
def timeCellSend (p : BitVec 2) (tx : Stamp) (s : State) : State :=
  let p := p.toNat
  if !(s.alive && s.portUp p) then s
  else
    let l := s.stamps p
    let t := s.stampTime tx + s.stampTrim (2 * p + 3)
    let step := match s.tb.step with
      | some q => leBytes 8 q.tick ++ leBytes 8 (BitVec.ofInt 64 q.delta).toNat
      | none => zeros 16
    let payload := timeBytes (l.sent.headD 0) ++ timeBytes (l.rcvd.getD 0) ++ step
      ++ [BitVec.ofNat 8 (b2n s.tb.step.isSome + 2 * b2n s.headHold)]
    (s.setStamps p { l with sent := (t :: l.sent).take 4 }).sendUnseq p 2 0x3F true true payload

def execTimeCellSend (port : BitVec 2) (tx : Stamp) (s : State) : Host.Outcome State Fault Refusal :=
  fin (timeCellSend port tx s)

/-- Twice the mean of an exchange: of the own sends that the partner may have meant, the one that leaves the least
non-negative trip (DEDUCED, log 10). -/
def linkTrip (t1 t2 t4 : Int) (sends : List Int) : Option Int :=
  (sends.map (fun t3 => (t4 - t1) - (t3 - t2))).foldl (fun best d =>
    if d < 0 then best else match best with
      | none => some d
      | some b => some (min b d)) none

/-- A measurement on a time port: one beyond lock_thr after a change of port leaves LOCKED (R193). -/
def State.portMeasured (s : State) (port : Nat) (theta : Int) : State :=
  let changed := s.tb.lastPort != 0 && s.tb.lastPort != port
  let s := { s with tb := { s.tb with lastPort := port } }
  if changed && s.fget Reg.TB_STAT Fld.TB_STAT_state == tbLocked
      && decide (s.fget Reg.TB_LOCK Fld.TB_LOCK_lock_thr * 65536 < theta.natAbs) then s.servoTo 1 theta else s

/-- The head's marker cell is back (R194); a broken ring reads 0. -/
def ringRttMarker (ns : Word) (s : State) : State :=
  if s.pw.headSel && s.fget Reg.LN_STAT Fld.LN_STAT_state == 2 then s.wr Reg.TB_RINGRTT ns else s

def execRingRttMarker (ns : Word) (s : State) : Host.Outcome State Fault Refusal := fin (ringRttMarker ns s)

/-- The seal summary at an interval's close (R198): 16 bytes later in the record; the next interval starts with the
present state. -/
def State.sumRestart (s : State) : State :=
  let s := s.wr Reg.TB_SUM_LO 0
  let s := s.wr Reg.TB_SUM_HI (word (2 ^ (8 + s.fget Reg.TB_STAT Fld.TB_STAT_state)))
  if s.flag Reg.TB_STAT Fld.TB_STAT_ring_hold then s.setFlag Reg.TB_SUM_HI Fld.TB_SUM_HI_ring_hold true else s

/-- The source in use, as the summary reports it: members report 3 (TB_SUM_HI.src). -/
def State.sumSrc (s : State) : Nat := if s.pw.headSel then s.timeSrc else 3

end Sys2Proof.Machine
end

