-- ==== Sys2Proof/Machine/Chain.lean ====
section
/-! DEFINITION. The seal chain and the Ferinel records (R357, R358, R369 to R380): entries, discard notices, the closing
of an interval, and the configuration image. -/

namespace Sys2Proof.Machine

/-! ## Keys and certificates (R357, R358) -/

def vtError : Nat := 2
def vtKeyless : Nat := 3

def State.vaultState (s : State) : Nat := s.fget Reg.VT_STAT Fld.VT_STAT_state
def State.vaultOk (s : State) : Bool := s.vaultState == vtOperational
/-- The vault is in an error state, keyless or not (R383, R384). -/
def State.vaultInError (s : State) : Bool := s.vaultState == vtError || s.vaultState == vtKeyless

/-- The public key of a private key, 96 bytes. -/
def publicKey (priv : List Byte) : List Byte := fitBytes 96 (Config.ecPublic priv)

/-- A key_id: bytes 0 to 7 of SHA-384 of the key field. -/
def keyId (pub : List Byte) : List Byte := (sha384 pub).take 8

/-- The fixed part of a certificate, bytes 0x00 to 0x9F (R358). -/
def certBody (usage : Nat) (serial : Word64) (issued : Nat) (pub issuer : List Byte) : List Byte :=
  leBytes 4 0x54524543 ++ leBytes 2 1 ++ leBytes 2 usage ++ leBytes 8 serial.toNat
    ++ [0x53#8, 0x4C#8, 0x48#8, 0x32#8, 0x35#8, 0x36#8, 0x42#8, 0] ++ leBytes 6 issued ++ zeros 2 ++ pub
    ++ keyId pub ++ keyId issuer ++ zeros 16

/-- The identity certificate, issued by the root key. -/
def State.identityCertBytes (s : State) : List Byte :=
  certBody 1 s.pw.serial s.vt.identityCert.issued (publicKey Config.factoryIdentityKey) (fitBytes 96 Config.rootPublic)
    ++ fitBytes 96 s.vt.identityCert.sig

/-- The certificate of the seal key, issued by the identity key; 256 zero bytes while there is none (R384). -/
def State.sealCertBytes (s : State) : List Byte :=
  match s.vt.sealKey with
  | none => zeros 256
  | some k => certBody 2 s.pw.serial s.vt.sealCert.issued (publicKey k) (publicKey Config.factoryIdentityKey)
      ++ fitBytes 96 s.vt.sealCert.sig

/-- The key that signs the open interval (R359). -/
def State.intervalKey (s : State) : List Byte :=
  match s.vt.openKey, s.vt.sealKey with
  | some k, _ => k
  | none, some k => k
  | none, none => []

/-! ## The configuration image (R380) -/

/-- Addresses of the registers of type RW, RWL or RWP among the rows of a window. -/
def imageOffsets (rows : List RegRow) : List Nat :=
  let offs := (rows.filter (fun r => r.rw ||| r.rwl ||| r.rwp != 0#32)).flatMap (fun r =>
    (List.range r.n).flatMap (fun i => (List.range r.n2).map (fun j => r.base + i * r.s + j * r.s2)))
  sortBy (fun a b => decide (a ≤ b)) offs

/-- The windows R380 names, in ascending offset; the CV registers sit in the FE window (R100). -/
def imageWindows : List (List RegRow) :=
  [rowsTB, rowsFR, rowsGL, rowsFE, rowsIN, rowsDF, rowsAQ, rowsCE, rowsSP, rowsBC]

/-- The code of a furrow kind. -/
def FurrowKind.code : FurrowKind → Nat
  | .mgmt => 0 | .sample => 1 | .plot => 2 | .setpoint => 3 | .job => 4 | .seal => 5 | .side => 6 | .event => 7

/-- The bytes of a SAMPLE mask. -/
def maskBytes (mask : BitVec 256) : List Byte := leBytes 32 mask.toNat

/-- The parameter block of a furrow (R271). -/
def Furrow.paramBlock (fu : Furrow) : List Byte :=
  [BitVec.ofNat 8 (FurrowKind.code fu.kind), BitVec.ofNat 8 fu.lsize, BitVec.ofNat 8 fu.vector, BitVec.ofNat 8 (b2n fu.irqAll)] ++ zeros 4
    ++ leBytes 8 fu.descRing.toNat ++ leBytes 8 fu.cplRing.toNat ++ [BitVec.ofNat 8 fu.frames] ++ zeros 7 ++ maskBytes fu.mask

/-- The configuration image of the present registers and furrows; furrow 0 has no parameter block. -/
def State.configImage (s : State) : List Byte :=
  imageWindows.flatMap (fun rows => (imageOffsets rows).flatMap (fun o => leBytes 4 o ++ leBytes 4 (s.rdN o)))
    ++ s.hi.furrows.flatMap (fun e => if e.1 = 0 then [] else Furrow.paramBlock e.2)

/-- The tick entry takes the image of its snapshot; a change within the interval is flagged (R377, R380). -/
def State.snapConfig (s : State) : State :=
  let img := s.configImage
  if img = s.vt.config then s
  else { s with vt := { s.vt with cfgChanged := s.vt.cfgChanged || !s.vt.config.isEmpty, config := img } }

/-! ## Entries (R369 to R376) -/

/-- The 64 bytes of an entry record. -/
def EntryRec.bytes (e : EntryRec) : List Byte :=
  [BitVec.ofNat 8 e.kind, BitVec.ofNat 8 e.furrow, 0, 0] ++ leBytes 4 e.sealNo.toNat ++ leBytes 4 e.pos.toNat
    ++ leBytes 4 e.length ++ fitBytes 48 e.digest

def State.sealNo (s : State) : Word := s.rd Reg.VT_SEALNO

/-- An object enters the chain (R369); in the error state nothing does (R376). -/
def State.absorb (s : State) (kind furrow : Nat) (bytes : List Byte) : Option EntryRec × State :=
  if s.vaultOk then
    let e : EntryRec := { kind := kind, furrow := furrow, sealNo := s.sealNo, pos := s.rd Reg.VT_SEALPOS
                          length := bytes.length, digest := sha384 bytes }
    let s := s.wr Reg.VT_SEALPOS (s.rd Reg.VT_SEALPOS + 1)
    let span : EntrySpan := { first := (s.vt.ents.map EntrySpan.first).getD s.vt.last, last := s.vt.last, lastT := s.vt.lastT }
    (some e, { s with vt := { s.vt with chain := sha384 (s.vt.chain ++ EntryRec.bytes e), ents := some span
                                        parts := if kind = 2 then s.vt.parts ++ [e] else s.vt.parts } })
  else (none, s)

/-- Entries of the open manifest (R374). -/
def State.manifestCount (s : State) : Nat := s.vt.parts.length + s.vt.taken.length

/-- The plot mover is held until the interval closes (R372). -/
def State.moverHeld (s : State) : Bool := s.vaultOk && decide (1016 ≤ s.manifestCount)

/-! ## The space of undelivered data and of notices (R200, R231, R288, R374) -/

/-- Length of a block in bytes. -/
def Block.len (b : Block) : Nat := blockBytes b.slots b.frames.length

/-- The discard notices whose record has not been signed (R374). -/
def State.notices (s : State) : List Notice := s.vt.waiting ++ s.vt.taken ++ s.vt.unsigned.flatMap SealRec.notices

/-- Bytes of the backlog in use: stored blocks, and 64 of each notice of a discarded one (R200, R288, R374). -/
def State.backlogUsed (s : State) : Nat :=
  64 * s.notices.countP Notice.block +
  (s.hi.furrows.map (fun e => (e.2.blocks.map (fun b => if b.gap then 0 else Block.len b)).foldl (· + ·) 0)).foldl (· + ·) 0

def State.backlogSize (s : State) : Nat := s.fget Reg.AQ_MEMCFG Fld.AQ_MEMCFG_backlog * 1048576

/-- HI_BACKLOG follows the backlog; BACKLOG_HIGH is armed again below 50 % (R289). -/
def State.noteBacklog (s : State) : State :=
  let u := s.backlogUsed
  let s := s.wr Reg.HI_BACKLOG (word u)
  if 2 * u < s.backlogSize then { s with hi := { s.hi with backlogHigh := false } } else s

/-- The slot or the FIFO space of a part is free; MEMORY_LOW may be raised anew once a slot is free or the FIFO has fallen
below half (R231, R232). -/
def State.freePart (s : State) (p : Part) : State :=
  { s with aq := { s.aq with units := kmod s.aq.units p.unit (fun u =>
      if p.slot then
        { u with usedSlots := u.usedSlots - b2n p.last, memLow := u.memLow && decide (s.rdN (Reg.AQ_USLOTS p.unit) ≤ u.usedSlots - b2n p.last) }
      else
        { u with fifo := u.fifo - p.fifo, memLow := u.memLow && decide (s.rdN (Reg.AQ_UFIFO p.unit) * 512 ≤ u.fifo - p.fifo) }) } }

/-- The space of notices is free again. -/
def State.freeNotices (s : State) (ns : List Notice) : State := ((ns.filterMap Notice.part).foldl State.freePart s).noteBacklog

/-- Waiting notices enter the manifest, oldest first, while it holds fewer than 1,016 entries; a notice of the open interval
waits for a later record (R374, R381). -/
def State.takeNotices (s : State) : State :=
  let ready := s.vt.waiting.takeWhile (fun e => e.entry.sealNo != s.sealNo)
  let k := min ready.length (1016 - s.manifestCount)
  { s with vt := { s.vt with taken := s.vt.taken ++ ready.take k, waiting := s.vt.waiting.drop k } }

/-- A discard notice (R373). -/
def State.notice (s : State) (n : Notice) : State :=
  ({ s with vt := { s.vt with waiting := s.vt.waiting ++ [n] } }).takeNotices

/-- A block is discarded: if it has entered the chain its notice stays in its space, of which a gap block has none. -/
def State.discardBlock (s : State) (b : Block) : State :=
  match b.entry with
  | none => s
  | some e => s.notice { entry := e, block := !b.gap, part := none }

/-- A plot part is discarded: if it has entered the chain its notice stays in its slot, or in 64 bytes of the FIFO. -/
def State.discardPart (s : State) (p : Part) : State :=
  match p.entry with
  | none => s.freePart p
  | some e =>
    let kept := min 64 p.fifo
    (s.freePart { p with last := false, fifo := p.fifo - kept }).notice
      { entry := e, block := false, part := some { p with bytes := [], fifo := kept } }

/-- The start of a chain (R370): counter, start value, interval 0. Notices of the chain before go with it (log 16). -/
def State.startChain (s : State) : State :=
  let gone := s.vt.waiting ++ s.vt.taken
  let c := s.vt.chainNo + 1
  let v := sha384 (leBytes 8 s.pw.serial.toNat ++ leBytes 4 c.toNat)
  let s := { s with vt := { s.vt with chainNo := c, chain := v, link := v, chainOpen := true, first := none, parts := []
                                      taken := [], waiting := [], overruns := 0, gaps := 0, start := true
                                      cfgChanged := false, extended := false, openKey := none, ents := none } }
  ((s.freeNotices gone).wr Reg.VT_SEALNO 0).wr Reg.VT_SEALPOS 0 |>.sumRestart

/-! ## The Ferinel record (R377) -/

def flReset : Nat := 2
def flCal : Nat := 4
def flRunEnd : Nat := 32
def flFull : Nat := 512

/-- The record flags of *Record flags*: what the interval has gathered, and why it closes. -/
def State.recordFlags (s : State) (why : Nat) : Nat :=
  why + b2n s.vt.start + 8 * b2n s.vt.extended + 16 * b2n s.vt.cfgChanged + 64 * b2n s.vt.tampered + 128 * b2n s.vt.fallowFirst
    + 256 * b2n s.vt.keyNew

/-- Furrows in state 2 of the drain ledger, as far as the field holds (R280, R377). -/
def State.abandoned (s : State) : Nat :=
  min 255 (((List.range 256).filter (fun f => s.rdN (Reg.GLB_LEDGER_HI f) / 2 ^ 24 == 2)).length)

/-- First and last frame of the record, and the tick time of the last: of the seal steps; of an interval that a reset has cut short
(`cut`) of its entries, or the last frame of the record before (R377, R378). -/
def State.recordSpan (s : State) (cut : Bool) : EntrySpan :=
  let v := s.vt
  if cut then v.ents.getD { first := v.prev.1, last := v.prev.1, lastT := v.prev.2 }
  else { first := v.first.getD v.last, last := v.last, lastT := v.lastT }

/-- The record without its signature. -/
def State.recordBytes (s : State) (why reset : Nat) (cut : Bool) : List Byte :=
  let v := s.vt
  let span := s.recordSpan cut
  let m := v.parts.length + v.taken.length
  leBytes 4 0x4E524546 ++ leBytes 2 1 ++ leBytes 2 (s.recordFlags why) ++ leBytes 4 (352 + 64 * m)
    ++ [BitVec.ofNat 8 s.hubAddr] ++ zeros 3 ++ leBytes 8 s.pw.serial.toNat ++ leBytes 4 v.chainNo.toNat ++ leBytes 4 s.sealNo.toNat
    ++ leBytes 8 span.first ++ leBytes 8 span.last ++ timeBytes span.lastT ++ leBytes 4 (s.rdN Reg.VT_SEALPOS)
    ++ fitBytes 48 v.link ++ fitBytes 48 v.chain
    ++ leBytes 4 v.calOf.1.toNat ++ [BitVec.ofNat 8 (b2n v.calOf.2)] ++ zeros 3 ++ sha384 v.config
    ++ leBytes 4 (s.rdN Reg.TB_SUM_LO) ++ leBytes 4 (BitField.put Fld.TB_SUM_HI_src s.sumSrc (s.rd Reg.TB_SUM_HI)).toNat
    ++ leBytes 4 v.parts.length ++ leBytes 4 v.taken.length ++ leBytes 4 v.overruns ++ leBytes 4 v.gaps
    ++ [BitVec.ofNat 8 reset, BitVec.ofNat 8 s.abandoned] ++ zeros 6 ++ keyId (publicKey s.intervalKey)
    ++ v.parts.flatMap EntryRec.bytes ++ v.taken.flatMap (fun n => EntryRec.bytes n.entry)

/-- An interval closes (R371, R377): its record waits for the signature, TB_SUM restarts (R198), the next interval opens. -/
def State.closeInterval (s : State) (why reset : Nat) (cut : Bool) : State :=
  if s.vaultOk then
    let span := s.recordSpan cut
    let r : SealRec := { sealNo := s.sealNo, body := s.recordBytes why reset cut, notices := s.vt.taken
                         key := s.intervalKey }
    let rotated := s.vt.openKey.isSome
    let s := { s with vt := { s.vt with unsigned := s.vt.unsigned ++ [r], link := s.vt.chain, first := none, parts := []
                                        taken := [], overruns := 0, gaps := 0, start := false, tampered := false
                                        fallowFirst := false, keyNew := rotated, cfgChanged := false, rotate := false
                                        extended := false, openKey := none, ents := none, last := span.last
                                        lastT := span.lastT, prev := (span.last, span.lastT) } }
    (((s.wr Reg.VT_SEALNO (s.sealNo + 1)).wr Reg.VT_SEALPOS 0).sumRestart).takeNotices
  else s

/-- Bytes free in the seal queue, records that wait for their signature counted (R379, log 17). -/
def State.queueFree (s : State) : Nat :=
  1048576 - ((s.vt.queue.map (fun r : SealRec => r.body.length)).foldl (· + ·) 0
    + (s.vt.unsigned.map (fun r : SealRec => r.body.length + 96)).foldl (· + ·) 0)

def State.noteQueue (s : State) : State :=
  s.wr Reg.VT_QUEUE (word ((s.vt.queue.map (fun r : SealRec => r.body.length)).foldl (· + ·) 0))

/-- The R47 grid: the interval in progress ends with frame `n`. -/
def State.sealGrid (s : State) (n : Nat) : Bool :=
  let k := s.fget Reg.VT_SEALCFG Fld.VT_SEALCFG_n
  if k = 0 then false
  else if s.flag Reg.VT_SEALCFG Fld.VT_SEALCFG_mode then
    let p := s.m * 62500
    let sec := k * 1000000000
    decide ((n - 1) * p / sec < n * p / sec)
  else n % k == 0

/-- The seal step of frame `n` takes note of its frame. -/
def State.sealFrame (s : State) (n : Nat) : State :=
  let cal := match s.cal.inForce with
    | some b => (b.epoch, b.origin)
    | none => ((0 : Word), false)
  { s with vt := { s.vt with first := s.vt.first.orElse (fun _ => some n), last := n, lastT := s.tickTime n, calOf := cal } }

/-- The closing decision of a seal step (R371, R379): R163 and the end of Run always close, and so does a rotation (log 17);
the grid and the manifest limit close only with the reserve free, else the interval is extended. -/
def State.sealClose (s : State) (n : Nat) (calChange runEnd : Bool) : State :=
  let full := decide (960 ≤ s.manifestCount)
  let code := if runEnd then s.fr.endReset else 0
  let why := (if calChange then flCal else 0) + (if runEnd then flRunEnd else 0) + (if full then flFull else 0)
    + (if code = 0 then 0 else flReset)
  if !s.vaultOk then s
  else if calChange || runEnd || s.vt.rotate then s.closeInterval why code false
  else if s.sealGrid n || full then
    if 130752 ≤ s.queueFree then s.closeInterval why 0 false
    else if s.vt.extended then s
    else
      let s := ({ s with vt := { s.vt with extended := true } }).setFlag Reg.VT_STAT Fld.VT_STAT_held true
      s.raiseD 58 0 0 0 (s.sealNo.setWidth 64)
  else s

end Sys2Proof.Machine
end

