-- ==== Sys2Proof/Machine/Deliver.lean ====
section
/-! DEFINITION. What a furrow's buffers receive: sample blocks, plot parts, Ferinel records and event records (R265, R285
to R292). -/

namespace Sys2Proof.Machine

/-- Data may flow to the host: the engine is up, the function is in the state of R265, and the way is not held up, so that data waits at
its source (R308). -/
def State.hostOpen (s : State) : Bool := s.toHead && s.wayFree && s.pw.d0 && s.flag Reg.HI_STAT Fld.HI_STAT_up && !s.hi.stopping

/-! ## Sample blocks (R285) -/

/-- The frame flags: a nibble for each frame. -/
def Block.fflags (b : Block) : Nat := b.frames.foldr (fun f n => f.nibble.toNat + 16 * n) 0

/-- The bytes of a block. -/
def Block.bytes (hub : Nat) (b : Block) : List Byte :=
  padTo 64 (leBytes 4 0x4C504D53 ++ [BitVec.ofNat 8 hub, BitVec.ofNat 8 b.furrow, BitVec.ofNat 8 b.frames.length, BitVec.ofNat 8 (b2n b.twin)]
    ++ leBytes 8 b.first ++ timeBytes b.tick ++ leBytes 2 b.slots ++ leBytes 2 (Block.len b / 64) ++ leBytes 8 (Block.fflags b)
    ++ leBytes 4 b.groups.toNat ++ leBytes 4 b.epoch.toNat ++ leBytes 4 b.sealNo.toNat ++ leBytes 4 b.pos.toNat ++ zeros 8
    ++ b.frames.flatMap (fun f =>
      if b.gap then zeros (5 * b.slots) else f.values.flatMap (fun v => leBytes 4 v.toNat) ++ f.status))

/-! ## Ending a buffer -/

/-- A posted buffer ends. -/
def State.endBuffer (s : State) (f : Nat) (seq : Word) (st : CStatus) (len : Nat) (aux : Word) (ecc more first : Bool) : State :=
  (s.modFurrow f (fun fu => Furrow.finish fu seq st len aux ecc more first)).postFinished f

/-- The oldest block of a SAMPLE furrow meets its oldest buffer (R286): false when there is nothing to do. -/
def State.sampleOne (f : Nat) (ecc : Bool) (s : State) : Bool × State :=
  match s.furrow? f with
  | none => (false, s)
  | some fu =>
    match fu.blocks, Furrow.buffer? fu with
    | b :: rest, some it =>
      if fu.failed then (false, s)
      else if Desc.len it.desc < Block.len b then (true, s.endBuffer f it.seq .failedSpace 0 0 false false false)
      else match it.refused with
      | some a => (true, s.failBuffer f it a)
      | none =>
        let s := s.toHost (.dmaWrite (Desc.addr it.desc) (Block.bytes s.hubAddr b))
        let s := s.modFurrow f (fun fu => { fu with blocks := rest })
        (true, (s.endBuffer f it.seq .done (Block.len b) (word b.first) ecc false false).noteBacklog)
    | _, _ => (false, s)

/-- The oldest part of a PLOT furrow meets its oldest buffer (R290); the completion of a record's last part frees its slot
and raises PLOT_DONE (R232, R434). -/
def State.plotOne (f : Nat) (ecc : Bool) (s : State) : Bool × State :=
  match s.furrow? f with
  | none => (false, s)
  | some fu =>
    match fu.parts, Furrow.buffer? fu with
    | p :: rest, some it =>
      if fu.failed then (false, s)
      else match it.refused with
      | some a => (true, s.failBuffer f it a)
      | none =>
        let n := min (Desc.len it.desc) (p.bytes.length - p.sent)
        let more := decide (p.sent + n < p.bytes.length)
        let bad := ecc || (match p.eccAt with
          | some o => decide (p.sent ≤ o) && decide (o < p.sent + n)
          | none => false)
        let s := s.toHost (.dmaWrite (Desc.addr it.desc) (slice p.bytes p.sent n))
        let s := s.modFurrow f (fun fu => { fu with parts := if more then { p with sent := p.sent + n } :: rest else rest })
        let s := s.endBuffer f it.seq .done n p.plotSeq bad more (p.sent == 0)
        if more then (true, s)
        else
          let s := s.freePart p
          (true, if p.last then s.raiseD 24 p.unit 0 0 (p.plotSeq.setWidth 64) else s)
    | _, _ => (false, s)

/-- The oldest signed record meets the oldest SEAL buffer (R291). -/
def State.sealOne (f : Nat) (s : State) : Bool × State :=
  match s.furrow? f with
  | none => (false, s)
  | some fu =>
    match Furrow.buffer? fu with
    | none => (false, s)
    | some it =>
      if fu.failed then (false, s)
      else if s.vaultInError then (true, s.endBuffer f it.seq .failedVault 0 0 false false false)
      else
        match s.vt.queue with
        | [] => (false, s)
        | r :: rest =>
          if Desc.len it.desc < r.body.length then (true, s.endBuffer f it.seq .failedSpace 0 0 false false false)
          else match it.refused with
          | some a => (true, s.failBuffer f it a)
          | none =>
            let s := s.toHost (.dmaWrite (Desc.addr it.desc) r.body)
            let s := ({ s with vt := { s.vt with queue := rest } }).noteQueue
            (true, s.endBuffer f it.seq .done r.body.length r.sealNo false false false)

/-- One more delivery on a furrow. -/
def State.deliverOne (f : Nat) (ecc : Bool) (s : State) : Bool × State :=
  match s.furrow? f with
  | none => (false, s)
  | some fu =>
    match fu.kind with
    | .sample => s.sampleOne f ecc
    | .plot => s.plotOne f ecc
    | .seal => s.sealOne f
    | _ => (false, s)

def State.deliverN (f : Nat) (ecc : Bool) : Nat → State → State
  | 0, s => s
  | n + 1, s => match s.deliverOne f ecc with
    | (true, s') => State.deliverN f false n s'
    | (false, s') => s'

/-- Data that waits goes into the posted buffers of a furrow, in order; `ecc` marks the first (R201). -/
def State.deliver (s : State) (f : Nat) (ecc : Bool) : State :=
  if s.hostOpen then
    match s.furrow? f with
    | none => s
    | some fu => s.deliverN f ecc fu.items.length
  else s

/-- Every furrow takes what its buffers allow. -/
def State.deliverAll (s : State) : State :=
  let s := (kkeys s.hi.furrows).foldl (fun s f => s.deliver f false) s
  if s.inRun then s else if s.hostOpen then s.evFill else s

/-- A corrected error of the field memory (R201). -/
def State.eccCorrected (s : State) : State := s.incSat Reg.AQ_ECCCNT 1

/-- An uncorrectable error of the field memory (R201). -/
def State.eccError (s : State) (hit : EccHit) : State :=
  (s.incSat Reg.AQ_ECCUNC 1).raiseD 30 0 0 0 (hit.addr.setWidth 64)

def State.eccHit (s : State) (hit : EccHit) : State := if hit.fixed then s.eccCorrected else s.eccError hit

/-- The errors of a window that lie in the oldest block of a furrow, or in the segment of a unit. -/
def furrowHits (ecc : List WindowEcc) (f : Nat) : List EccHit :=
  (ecc.filter (fun e => match e.place with | .furrow g => g.toNat == f | .unit _ => false)).map WindowEcc.hit
def unitHits (ecc : List WindowEcc) (u : Nat) : List EccHit :=
  (ecc.filter (fun e => match e.place with | .unit v => v.toNat == u | .furrow _ => false)).map WindowEcc.hit

/-- The oldest block of a furrow is about to be read: a buffer waits for it. -/
def State.readsBlock (s : State) (f : Nat) : Bool :=
  s.hostOpen && (s.furrow? f).any (fun fu => !fu.failed && !fu.blocks.isEmpty && (Furrow.buffer? fu).isSome)

/-- The deliver step at one furrow, with the errors met in the block that it reads. -/
def State.deliverRead (s : State) (f : Nat) (hits : List EccHit) : State :=
  if s.readsBlock f then (hits.foldl State.eccHit s).deliver f (hits.any (fun h => !h.fixed)) else s.deliver f false

/-- A furrow holds undelivered data. -/
def State.undelivered (s : State) (fu : Furrow) : Bool :=
  match fu.kind with
  | .sample => !fu.blocks.isEmpty
  | .plot => !fu.parts.isEmpty
  | .seal => !s.vt.queue.isEmpty
  | .event => !s.ev.queue.isEmpty
  | _ => false

/-- A buffer of the furrow stands posted: its descriptor has not been fetched, or it has been and has not ended (R289). -/
def Furrow.hasPosted (fu : Furrow) : Bool :=
  fu.nextFetch != fu.prod || fu.items.any (fun it => it.op == 0x10#8 && !Item.ended it)

/-- RING_EMPTY, once per episode, at a deliver step (R289); outside the state of R265 no buffer counts as posted. -/
def State.ringEmpty (s : State) : State :=
  s.hi.furrows.foldl (fun s e =>
    let fu := e.2
    let is := s.undelivered fu && !(fu.hasPosted && s.pw.d0)
    let s := s.modFurrow e.1 (fun fu => { fu with emptyEp := is })
    if is && !fu.emptyEp then s.raiseF (if fu.twin then 4 else 0) 50 (e.1 % 256) 0 0 (fu.handle.setWidth 64) else s) s

/-- The deliver step: blocks, parts and records that have buffers, event records, completed EVENT buffers (R286, R292,
R436), then RING_EMPTY. -/
def State.deliverStep (s : State) (ecc : List WindowEcc) : State :=
  let s := (kkeys s.hi.furrows).foldl (fun s f => s.deliverRead f (furrowHits ecc f)) s
  let s := s.ringEmpty
  if s.hostOpen then s.evRefuse.evFill.evFlush else s

/-! ## Closing a block (R285, R288) -/

/-- The open frames of a furrow become a block, stored or gap, which enters the chain. -/
def State.closeBlock (s : State) (f : Nat) (fu : Furrow) : State :=
  match fu.openFrames with
  | [] => s
  | first :: _ =>
    let n := fu.openFrames.length
    let slots := s.furrowSlots fu
    let full := decide (s.backlogSize < s.backlogUsed + blockBytes slots n)
    let frames := if full then fu.openFrames.map (fun x => { x with nibble := x.nibble ||| 5#4, values := [], status := [] })
      else fu.openFrames
    let ins := (maskInputs fu.mask).filter s.inEn
    let groups := ins.foldl (fun (w : Word) i => w ||| (1#32 <<< (i / 8))) 0
    let epoch := match s.cal.inForce with
      | some b => b.epoch
      | none => 0
    let enters := s.vaultOk
    let b : Block := { furrow := f, first := first.frame, frames := frames, slots := slots, gap := full, twin := fu.twin
                       tick := s.tickTime first.frame, groups := groups, epoch := epoch
                       sealNo := if enters then s.sealNo else 0xFFFFFFFF#32
                       pos := if enters then s.rd Reg.VT_SEALPOS else 0xFFFFFFFF#32, entry := none }
    let (e, s) := s.absorb 1 f (Block.bytes s.hubAddr b)
    let s := s.modFurrow f (fun fu => { fu with openFrames := [], gapRun := full, blocks := fu.blocks ++ [{ b with entry := e }] })
    if full then
      let s := ({ s with vt := { s.vt with gaps := s.vt.gaps + n } }).incSat Reg.HI_GAPCNT n
      let s := s.setFlag Reg.HI_STAT Fld.HI_STAT_gap true
      if fu.gapRun then s else s.raiseF (if fu.twin then 4 else 0) 52 (f % 256) 0 0 (BitVec.ofNat 64 first.frame)
    else
      let u := s.backlogUsed
      let s := s.wr Reg.HI_BACKLOG (word u)
      if 3 * s.backlogSize < 4 * u && !s.hi.backlogHigh then
        ({ s with hi := { s.hi with backlogHigh := true } }).raiseD 51 0 0 0 (BitVec.ofNat 64 u)
      else s

/-- The seal step's blocks: every SAMPLE furrow whose block ends with frame `n`, in ascending furrow index (R285, R369). -/
def State.closeBlocks (s : State) (n : Nat) (all : Bool) : State :=
  s.hi.furrows.foldl (fun s e =>
    if e.2.kind == .sample && (all || (e.2.frames != 0 && n % e.2.frames == 0)) then s.closeBlock e.1 e.2 else s) s

/-! ## The discarding of undelivered data (R273, R373) -/

/-- The record that a part is of. -/
def Part.record (p : Part) : Nat × Word := (p.unit, p.plotSeq)

/-- Undelivered data of a furrow is discarded, each object with its notice; the number of blocks, and the records of the parts. -/
def State.discard (s : State) (f : Nat) : Nat × List (Nat × Word) × State :=
  match s.furrow? f with
  | none => (0, [], s)
  | some fu =>
    let s := fu.parts.foldl State.discardPart (fu.blocks.foldl State.discardBlock s)
    (fu.blocks.length, fu.parts.map Part.record, (s.modFurrow f (fun fu => { fu with blocks := [], openFrames := [], parts := [] })).noteBacklog)

/-! ## Signing (R359, R374, R377) -/

/-- The posted SEAL buffers take what there is for them: records, or in an error state of the vault their end (R291, R376). -/
def State.serveSeals (s : State) : State :=
  match s.furrowOf? .seal with
  | some f => s.deliver f false
  | none => s

/-- A failed self-test (R383). -/
def State.selftestFail (s : State) (code : Nat) : State :=
  let s := s.raiseF 0 56 0 code 0 s.frameData
  let s := (s.wr Reg.VT_STFAIL (word code)).fput Reg.VT_STAT Fld.VT_STAT_state vtError
  ({ s with vt := { s.vt with chainOpen := false } }).serveSeals

/-- The oldest closed record is signed and stands in the seal queue: it needs its key no more (R359), and its notices need their
space no more (R374). -/
def sealSigned (s : State) : State :=
  match s.vt.unsigned with
  | [] => s
  | r :: rest =>
    if s.vaultInError then s
    else
      let sig := fitBytes 96 (Config.ecSign r.key r.body s.freeCtr)
      let s := { s with freeCtr := s.freeCtr + 1
                        vt := { s.vt with unsigned := rest, queue := s.vt.queue ++ [{ r with body := r.body ++ sig, key := [], notices := [] }] } }
      (s.freeNotices r.notices).noteQueue.serveSeals

def execSealSigned (s : State) : Host.Outcome State Fault Refusal := fin (sealSigned s)

end Sys2Proof.Machine
end

