-- ==== Sys2Proof/Machine/Ring.lean ====
section
/-! DEFINITION. Lanes, ports and the ring (R298 to R332): training and lanes in service, the cells of a link with go-back-N,
ring formation, breaks and healing. -/

namespace Sys2Proof.Machine

/-! ## Lanes and ports -/

/-- The port of a receive lane and its place in it, lanes numbered as CAL_EYE numbers them. -/
def lanePort (l : Nat) : Option (Nat × Nat) :=
  match l with
  | 5 => some (0, 0)
  | 6 => some (0, 1)
  | 7 => some (1, 0)
  | 8 => some (1, 1)
  | 9 => some (2, 0)
  | _ => none

/-- The CAL_EYE number of a port's lane. -/
def laneOf (p i : Nat) : Nat := 5 + 2 * p + i

/-- LN_PSTAT.state of a ring port; of the twin lane, up or down. -/
def State.pstate (s : State) (p : Nat) : Nat :=
  if p < 2 then s.fget (Reg.LN_PSTAT p) Fld.LN_PSTAT_state else if s.portUp 2 then 3 else 0
def State.setPstate (s : State) (p v : Nat) : State :=
  if p < 2 then s.fput (Reg.LN_PSTAT p) Fld.LN_PSTAT_state v else s.setFlag Reg.SV_TWSTAT Fld.SV_TWSTAT_lane (v == 3)

/-- Lanes that LN_PCFG enables. -/
def State.lanesEn (s : State) (p : Nat) : Nat := if p < 2 then s.fget (Reg.LN_PCFG p) Fld.LN_PCFG_lanes else 1

/-- LN_STAT.state: 0 training; 1 forming; 2 intact; 3 broken once; 4 split; 5 alone. -/
def State.ringState (s : State) : Nat := s.fget Reg.LN_STAT Fld.LN_STAT_state
/-- TB_RINGRTT reads 0 where the ring is not whole (R194). -/
def State.setRingState (s : State) (v : Nat) : State :=
  (if v = 2 then s else s.wr Reg.TB_RINGRTT 0).fput Reg.LN_STAT Fld.LN_STAT_state v

/-- LN_STAT.rerouting. -/
def State.noteReroute (s : State) : State :=
  s.setFlag Reg.LN_STAT Fld.LN_STAT_rerouting (!s.ln.reroutes.isEmpty || !s.ln.waitMarker.isEmpty)

/-! ## Cells that carry no sequence number (R314, R316, R318) -/

/-- A lane of the port runs a test of mode 3, which asks the partner to loop it back (R329). -/
def State.asksLoop (s : State) (p : Nat) : Bool :=
  (if p < 2 then [0, 1] else [0]).any (fun i => s.flag (Reg.LN_TEST (laneOf p i)) Fld.LN_TEST_run
    && s.fget (Reg.LN_TEST (laneOf p i)) Fld.LN_TEST_mode == 3)

/-- A link control cell of this end, with its nak, hold or release flag. -/
def State.sendControl (s : State) (p flags : Nat) : State :=
  let x := s.port p
  let flags := flags + 8 * b2n (s.asksLoop p)
  let straps := s.pw.hubAddr.toNat + 64 * b2n s.pw.headSel + 128 * b2n (s.flag Reg.LN_CTL Fld.LN_CTL_auth)
  let s := s.modPort p (fun x => { x with acceptedSince := 0 })
  s.sendUnseq p 1 0x3F true true (leBytes 2 (x.rxSeq - 1).toNat ++ [BitVec.ofNat 8 flags, BitVec.ofNat 8 (s.inService p)] ++ zeros 4
    ++ leBytes 8 s.pw.serial.toNat ++ [BitVec.ofNat 8 straps])

/-- LINK_CONTROL_SEND: a port that has trained sends one at least every 4 µs. -/
def linkControlSend (port : BitVec 2) (s : State) : State :=
  let p := port.toNat
  if s.alive && decide (p < 3) && (p = 2 || s.inService p != 0) then s.sendControl p 0 else s

def execLinkControlSend (port : BitVec 2) (s : State) : Host.Outcome State Fault Refusal := fin (linkControlSend port s)

/-! ## Replay (R315, R317) -/

/-- The sender sends its unacknowledged cells again, in order; between hold and release it does so later (R308). A cell that is
to be corrupted is the first of them (R330). -/
def State.replay (s : State) (p : Nat) : State :=
  let x := s.port p
  if x.replay.isEmpty || !s.portUp p then s
  else if x.heldByPartner then s.modPort p (fun x => { x with replayDue := true })
  else
    let s := x.replay.zipIdx.foldl (fun s e => s.putCell p e.1.1.toNat e.1.2 (x.inject && e.2 == 0)) s
    let s := if p < 2 then s.incSat (Reg.LN_REPLAY p) 1 else s
    s.modPort p (fun x => { x with replayDue := false, inject := false, replaysOfOldest := x.replaysOfOldest + 1
                                   replaysInSecond := x.replaysInSecond + 1 })

/-- The unacknowledged cells that an acknowledgement leaves: it covers those up to its number. -/
def unacked (ack : BitVec 12) (buf : List (BitVec 12 × Cell)) : List (BitVec 12 × Cell) :=
  if buf.any (fun e => e.1 == ack) then (buf.dropWhile (fun e => e.1 != ack)).drop 1 else buf

/-- What this port's acknowledgement covers is dropped from the replay buffer (R315). -/
def State.takeAck (s : State) (p : Nat) (ack : BitVec 12) : State :=
  let x := s.port p
  let rest := unacked ack x.replay
  if rest.length < x.replay.length then s.setPort p { x with replay := rest, replaysOfOldest := 0 } else s

/-- At a link-up the numbers go on from the last cell that the partner accepted, as its hello gives it; what it did not accept keeps
its order (log 22). -/
def State.syncNumbers (s : State) (p : Nat) (ack : BitVec 12) : State :=
  s.modPort p (fun x =>
    let rest := unacked ack x.replay
    { x with replay := rest.zipIdx.map (fun e => (ack + 1 + BitVec.ofNat 12 e.2, e.1.2))
             txSeq := ack + 1 + BitVec.ofNat 12 rest.length })

/-! ## Hold and release (R308) -/

/-- Cells of other hubs that came in on port `p` and wait to go on. -/
def State.heldForward (s : State) (p : Nat) : Nat :=
  ((((s.port 0).queue ++ (s.port 1).queue).map Prod.snd ++ s.ln.stranded).filter (fun c => c.via == p)).length

/-- Hold at 768 cells, release below 512. -/
def State.flowControl (s : State) (p : Nat) : State :=
  if 1 < p then s
  else
    let n := s.heldForward p
    if 768 ≤ n && !(s.port p).holding then (s.modPort p (fun x => { x with holding := true })).sendControl p 2
    else if n < 512 && (s.port p).holding then (s.modPort p (fun x => { x with holding := false })).sendControl p 4
    else s

/-! ## A port goes down (R314, R322) -/

/-- The twin lane is lost: readiness ends, which is no mismatch (R407), and a standby no longer drives SAFE_N (R411); a rejoin in progress aborts (SV_TWSTAT.abort 3). -/
def State.twinLaneLost (s : State) : State :=
  let ready := s.partnerReady
  let s := if s.role = 4 then s.fput Reg.SV_TWSTAT Fld.SV_TWSTAT_abort 3 else s
  let s := if s.role = 2 then (if s.sv.pulls then s.pullSafeN false else s).setRole 3 else s
  let s := s.setFlag Reg.SV_TWSTAT Fld.SV_TWSTAT_p_ready false
  if s.isTwin && ready then s.raise 36 0 3 else s

/-- The link behind a port of this hub: the positions of its ends, upstream end first. -/
def State.linkOf (s : State) (p : Nat) : Nat × Nat :=
  let n := s.hubs
  let a := s.ln.position
  if p = 1 then (a, (a + 1) % n) else ((a + n - 1) % n, a)

/-- Some traffic of the hub at position `h` that went by direction `k` crossed the cut whose far end is `y`. -/
def crossed (n h y k : Nat) : Bool :=
  let d := if k = 1 then (y + n - h) % n else (h + n - y) % n
  d != 0 && (if k = 1 then decide (2 * d < n) else decide (2 * d ≤ n))

/-- The neighbour of position `h` on the side away from the cut, for direction `k`. -/
def farther (n h k : Nat) : Nat := if k = 1 then (h + n - 1) % n else (h + 1) % n

/-- The payload of a ring control cell: subtype, link, last number accepted. -/
def ringControl (sub x y last : Nat) : List Byte :=
  [BitVec.ofNat 8 sub] ++ zeros 3 ++ [BitVec.ofNat 8 x, BitVec.ofNat 8 y] ++ zeros 2 ++ leBytes 2 last

/-- The address of the hub at a position. -/
def State.addrAt (s : State) (pos : Nat) : Nat := ((s.ln.map.find? (fun e => e.2 == pos)).map Prod.fst).getD 0x3F

/-- A ring control cell of this hub for the hub at a position. -/
def State.controlCell (s : State) (sub x y last pos : Nat) : Cell := s.ownCell 3 (s.addrAt pos) (ringControl sub x y last)

/-- Such a cell passed on: its source stays the hub that it comes from, the one at position `origin` (R303). -/
def State.passedCell (s : State) (sub x y last pos origin : Nat) : Cell :=
  { s.controlCell sub x y last pos with src := s.addrAt origin }

/-- A cut link is known here: on an intact ring it is a break, at which the head raises RING_BREAK (R322); a further one splits the
ring (R325). -/
def State.noteBreak (s : State) (link : Nat × Nat) : State :=
  if s.ringState < 2 || 4 < s.ringState || s.ln.cuts.contains link then s
  else
    let first := s.ringState == 2
    let s := { s with ln := { s.ln with cuts := s.ln.cuts ++ [link] } }
    if first then
      let s := (s.setRingState 3).setFlag Reg.LN_STAT Fld.LN_STAT_brk_lat true
      if s.pw.headSel then s.raise 42 (link.1 + 256 * link.2) 0 else s
    else s.setRingState 4

/-- The link is the first that was cut: its traffic is rerouted. -/
def State.firstCut (s : State) (link : Nat × Nat) : Bool := s.ln.cuts.head? == some link

/-- This hub takes part in the reroute of a direction: `x` and `y` the ends of the cut, `k` the port that led across it. -/
def State.joinReroute (s : State) (k x y : Nat) : State :=
  match kget? s.ln.reroutes k with
  | some _ => s
  | none =>
    let r : Reroute := { x := x, y := y, holdsOwn := crossed s.hubs s.ln.position y k, noticed := false, flushed := false, held := [] }
    ({ s with ln := { s.ln with reroutes := kset s.ln.reroutes k r } }).noteReroute

/-! ## Destinations (R322, R324) -/

/-- The direction in which a hub's traffic comes here on an unbroken ring. -/
def State.comesBy (s : State) (src : Nat) : Option Nat :=
  (kget? s.ln.map src).bind (fun b => routeOf s.hubs b s.ln.position [])

/-- The cuts that this hub knows lead the traffic of a source off its direction `k` of an unbroken ring. -/
def State.ledOff (s : State) (src k : Nat) : Bool :=
  (kget? s.ln.map src).any (fun b => (routeOf s.hubs b s.ln.position s.ln.cuts).any (fun r => r != k))

/-- A cell for this hub waits here: after a break, one that comes by the new way before the cut notice has passed (R322, step 3); after
a healing, one that comes by the new way before its source's route marker, whether or not this hub has learned of the healing yet
(R324). -/
def State.heldHere (s : State) (c : Cell) : Bool :=
  c.typ != 3 && c.via != 2 && match s.comesBy c.src with
    | none => s.ln.waitMarker.contains c.src
    | some k =>
      if s.ln.waitMarker.contains c.src then c.via != k
      else if c.via = k then !s.ln.passed.contains k
      else s.ln.passed.contains k && s.ledOff c.src k

/-- Held cells whose wait is over reach their units, in order. -/
def State.releaseHere (s : State) : State :=
  let free := s.ln.heldDst.filter (fun c => !s.heldHere c)
  { s with ln := { s.ln with heldDst := s.ln.heldDst.filter s.heldHere, absorbed := free.reverse ++ s.ln.absorbed } }

/-- The notice of a direction of the first cut has passed. -/
def State.noticePassed (s : State) (k : Nat) : State :=
  if s.ln.passed.contains k then s else ({ s with ln := { s.ln with passed := k :: s.ln.passed } }).releaseHere

/-- The port's registers and link state fall back; cells that wait or stand unacknowledged stay (R314). -/
def State.dropPort (s : State) (p : Nat) : State :=
  let s := s.setPstate p 0
  let s := if p < 2 then
      ((s.setInService p 0).fput (Reg.LN_PSTAT p) Fld.LN_PSTAT_rate 0).fput (Reg.LN_PSTAT p) Fld.LN_PSTAT_partner 0x3F
    else s
  s.modPort p (fun x => { x with hello := false, delineated := false, heldByPartner := false, holding := false, keys := none
                                 agree := none, naked := false, replaysOfOldest := 0, authRun := 0 })

/-- A port goes down. On an intact ring this is a break: this hub is X for what it sent over the link, and Y for what it
received, whose cut notice it sends on its other port (R322). -/
def State.portGoesDown (s : State) (p : Nat) : State :=
  if s.pstate p = 0 then s
  else
    let was := s.portUp p
    let last := ((s.port p).rxSeq - 1).toNat
    let s := s.dropPort p
    if 2 ≤ p then (if was then s.twinLaneLost else s)
    else if !was || s.hubs < 2 then s
    else
      let link := s.linkOf p
      let s := s.noteBreak link
      if !s.ln.cuts.contains link then s
      else
        let me := s.ln.position
        let other := if p = 1 then link.2 else link.1
        let s := if s.firstCut link && !s.ln.passed.contains (1 - p) then (s.joinReroute p me other).noticePassed (1 - p) else s
        if s.portUp (1 - p) then s.sendCell (1 - p) true (s.controlCell 4 other me last other) else s

/-- PORT_DOWN. -/
def portDown (port : BitVec 2) (s : State) : State := if port.toNat < 3 then s.portGoesDown port.toNat else s

def execPortDown (port : BitVec 2) (s : State) : Host.Outcome State Fault Refusal := fin (portDown port s)

/-- REPLAY_TIMEOUT; after 16 replays of one cell without an acknowledgement the port goes down (R314, R317). -/
def State.replayOrDown (s : State) (p : Nat) : State :=
  let s := s.replay p
  if 16 ≤ (s.port p).replaysOfOldest then s.portGoesDown p else s

/-- What waits at a port goes out: a replay that was put off, then its queues; both ports' buffers may have emptied by it. -/
def State.serve (s : State) (p : Nat) : State :=
  let s := if (s.port p).replayDue then s.replayOrDown p else s
  ((s.pump p).flowControl 0).flowControl 1

def replayTimeout (port : BitVec 2) (s : State) : State := if port.toNat < 3 then s.replayOrDown port.toNat else s

def execReplayTimeout (port : BitVec 2) (s : State) : Host.Outcome State Fault Refusal := fin (replayTimeout port s)

/-- The end of a second of corrected time (R317). -/
def laneRetryHigh (port : BitVec 2) (s : State) : State :=
  let p := port.toNat
  if 2 < p then s
  else
    let n := (s.port p).replaysInSecond
    let s := s.modPort p (fun x => { x with replaysInSecond := 0 })
    if s.rdN Reg.LN_RETRYTHR < n then
      let s := if p < 2 then s.setFlag (Reg.LN_PSTAT p) Fld.LN_PSTAT_retry_high true else s
      s.raiseD 41 (p + 1) 0 0 (BitVec.ofNat 64 n)
    else s

def execLaneRetryHigh (port : BitVec 2) (s : State) : Host.Outcome State Fault Refusal := fin (laneRetryHigh port s)

/-! ## Lanes (R311 to R313) -/

/-- A lane leaves service; the port goes on with the other, or goes down. -/
def State.laneOut (s : State) (l cause : Nat) (news : Bool) : State :=
  match lanePort l with
  | none => s
  | some (p, i) =>
    if !(s.inService p).testBit i then s
    else
      let left := s.inService p - 2 ^ i
      let s := s.setInService p left
      let s := if news then (if p < 2 then s.setFlag (Reg.LN_PSTAT p) Fld.LN_PSTAT_lane_down true else s).raise 40 l cause else s
      if left = 0 then s.portGoesDown p else s.replayOrDown p

def laneDown (lane : BitVec 4) (cause : BitVec 2) (s : State) : State := s.laneOut lane.toNat cause.toNat true

def execLaneDown (lane : BitVec 4) (cause : BitVec 2) (s : State) : Host.Outcome State Fault Refusal := fin (laneDown lane cause s)

/-- A lane under test (R329). -/
def State.laneTested (s : State) (l : Nat) : Bool :=
  s.flag (Reg.LN_TEST l) Fld.LN_TEST_run && s.fget (Reg.LN_TEST l) Fld.LN_TEST_mode != 4 && s.fget (Reg.LN_TEST l) Fld.LN_TEST_mode != 0

/-- Eye figures below the limits of *Trims*. -/
def eyeBad (e : EyeFig) : Bool := decide (e.width.toNat < 20) || decide (e.height.toNat < 12)

/-- Layout of CAL_EYE and LN_EYE. -/
def eyeWord (e : EyeFig) : Word := word (e.height.toNat * 65536 + e.width.toNat)

/-- A receive lane has trained: its eye is recorded, and one outside the limits is raised (R168). The event's figure has the width in
its low byte and the height in the next (DESIGN CHOICE, log 88). -/
def State.laneTrimmed (s : State) (lane : Nat) (e : EyeFig) : State :=
  let s := s.wr (Reg.CAL_EYE lane) (eyeWord e)
  if eyeBad e then s.raiseD 23 lane 1 0 (BitVec.ofNat 64 (e.height.toNat * 256 + e.width.toNat)) else s

/-- A lane that is down trains again, with the eye found if it trains at all; it rejoins if that meets its limits (R313). -/
def laneRetrain (lane : BitVec 4) (eye : Option EyeFig) (s : State) : State :=
  match lanePort lane.toNat, eye with
  | some (p, i), some e =>
    if decide (p < 2) && decide (3 ≤ s.pstate p) && (s.lanesEn p).testBit i && !(s.inService p).testBit i
        && !s.laneTested lane.toNat && !(s.port p).loops.getLsbD i then
      let s := s.laneTrimmed lane.toNat e
      if eyeBad e then s else (((s.setInService p (s.inService p + 2 ^ i)).setPstate p 3).drawLane p i).replayOrDown p
    else s
  | _, _ => s

def execLaneRetrain (lane : BitVec 4) (eye : Option EyeFig) (s : State) : Host.Outcome State Fault Refusal := fin (laneRetrain lane eye s)

/-- A port begins its training. Its cells and their numbers stay, so that none is lost (R315, R323). -/
def State.trainPort (s : State) (p : Nat) : State :=
  ((s.dropPort p).modPort p (fun x => { x with keyBlocked := false, partnerLanes := 3, loops := 0 })).setPstate p 1

/-- PORT_TRAINING: an enabled port that is down trains. -/
def portTraining (port : BitVec 2) (s : State) : State :=
  let p := port.toNat
  if s.alive && !s.pw.inReset && decide (p < 3) && s.lanesEn p != 0 && decide (s.pstate p < 2) then s.trainPort p else s

def execPortTraining (port : BitVec 2) (s : State) : Host.Outcome State Fault Refusal := fin (portTraining port s)

/-- A port's lanes are deskewed: the skew found is recorded, and one beyond the limit is raised (R168). -/
def State.deskewed (s : State) (p : Nat) (skew : Byte) : State :=
  let s := s.wr (Reg.CAL_DESKEW p) (skew.setWidth 32)
  if 4 < skew.toNat then s.raiseD 23 (p + 1) 2 0 (skew.setWidth 64) else s

/-- LANE_TRAINING_DONE (R311, R168, R169): the figures are those of the last training, whichever its rate; port 3 is the Ethernet port. With rate 0 a poor lane at 6.25 Gb/s sends the port into training
at the fallback rate. -/
def laneTrainingDone (port : BitVec 2) (t : TrainIn) (s : State) : State :=
  let p := port.toNat
  if p = 3 then (if s.alive && t.lanesOk.getLsbD 0 then s.laneTrimmed 4 ⟨t.width0, t.height0⟩ else s)
  else if p < 2 && s.pstate p != 1 then s
  else
    let en := s.lanesEn p
    let ok := (List.range 2).filter (fun i => en.testBit i && t.lanesOk.getLsbD i)
    let fig := fun (i : Nat) => if i = 0 then (⟨t.width0, t.height0⟩ : EyeFig) else ⟨t.width1, t.height1⟩
    let poor := ok.filter (fun i => eyeBad (fig i))
    let cfg := if p < 2 then s.fget (Reg.LN_PCFG p) Fld.LN_PCFG_rate else 1
    if ok.isEmpty then s.portGoesDown p
    else
      let s := ok.foldl (fun s i => s.laneTrimmed (laneOf p i) (fig i)) s
      let s := if p < 2 then s.deskewed p t.skew else s
      if cfg = 0 && t.rate = 2#2 && !poor.isEmpty then s
      else if p < 2 then
        ((s.setInService p ((ok.map (fun i => 2 ^ i)).foldl (· + ·) 0)).fput (Reg.LN_PSTAT p) Fld.LN_PSTAT_rate t.rate.toNat).lineStarts p
      else s.lineStarts p

def execLaneTrainingDone (port : BitVec 2) (t : TrainIn) (s : State) : Host.Outcome State Fault Refusal :=
  fin (laneTrainingDone port t s)

/-- EYE_SWEEP (R312). -/
def eyeSweep (lane : BitVec 4) (width height : Byte) (s : State) : State :=
  let l := lane.toNat
  if 9 < l || !s.alive then s
  else
    let s := s.wr (Reg.LN_EYE l) (eyeWord ⟨width, height⟩)
    if width.toNat < 16 || height.toNat < 10 then
      if s.ln.eyeLow.contains l then s
      else ({ s with ln := { s.ln with eyeLow := l :: s.ln.eyeLow } }).raiseD 44 l 0 0 (BitVec.ofNat 64 (height.toNat * 256 + width.toNat))
    else if 20 ≤ width.toNat && 12 ≤ height.toNat then { s with ln := { s.ln with eyeLow := s.ln.eyeLow.filter (fun x => x != l) } }
    else s

def execEyeSweep (lane : BitVec 4) (width height : Byte) (s : State) : Host.Outcome State Fault Refusal := fin (eyeSweep lane width height s)

/-! ## Cells of other hubs (R306, R322, R325) -/

/-- A cell of another hub that came in on port `q` goes on by its present route (R306), or waits where there is none (R325). While
its way across a cut is rerouted it goes on to X, which turns it back once the notice has come (R322, steps 4 and 5). -/
def State.forward (s : State) (q : Nat) (c : Cell) : State :=
  match kget? s.ln.reroutes (1 - q), c.turned with
  | some r, false =>
    if r.x != s.ln.position then s.sendCell (1 - q) false c
    else if r.noticed then s.sendCell q false { c with turned := true }
    else s.modPort (1 - q) (fun x => { x with queue := enqueue (Cell.queueOf false c) c x.queue })
  | _, _ =>
    match s.route c.dst with
    | none => { s with ln := { s.ln with stranded := s.ln.stranded ++ [c] } }
    | some p => s.sendCell p false { c with turned := c.turned || p == q }

/-- The cells that waited for a destination that could not be reached go as far as they can. -/
def State.releaseStranded (s : State) : State :=
  s.ln.stranded.foldl (fun s c => if c.via = 2 then s.sendOwn c else s.forward c.via c) { s with ln := { s.ln with stranded := [] } }

/-! ## Ring formation (R318 to R321) -/

/-- The values of a census: serial number, straps and present address of each hub in turn (R318). -/
def censusValues (es : List CensusEntry) : List Nat := es.flatMap (fun e => [e.serial.toNat, e.strap.toNat, b2n e.headSel, e.addr.toNat])

/-- This hub's entry of a census. -/
def State.censusEntry (s : State) : CensusEntry :=
  { serial := s.pw.serial, strap := s.pw.hubAddr, headSel := s.pw.headSel, addr := BitVec.ofNat 6 s.hubAddr }

/-- The values of the address map: serial number, address, position, and whether the address was assigned, of each hub; hubs with one
strapped address each have theirs (R22). -/
def State.mapValues (s : State) : List Nat :=
  s.ln.map.flatMap (fun e => [((kget? s.ln.serials e.1).getD 0).toNat, e.1, e.2, b2n (s.flag (Reg.LN_MAP e.1) Fld.LN_MAP_assigned)])
    ++ s.ln.twins.flatMap (fun e => [e.serial.toNat, e.addr.toNat, e.position.toNat, b2n e.assigned])

/-- FR_EPOCH as written. -/
def State.epochReg (s : State) : Nat := s.fget Reg.FR_EPOCH_HI ⟨15, 0⟩ * 2 ^ 32 + s.rdN Reg.FR_EPOCH_LO

/-- The values of the ring parameters: period and epoch (R23), latency (R223), mode (R309), whether the head has started and at which
tick (R475), and the cut links. -/
def State.ringValues (s : State) : List Nat :=
  let started := s.inRun && !s.pw.waiting
  [s.m, if started then s.fr.epoch else s.epochReg, s.fget Reg.AQ_DRILL Fld.AQ_DRILL_latency, b2n (s.flag Reg.LN_CTL Fld.LN_CTL_auth)
    , b2n started, s.fr.tickS] ++ s.ln.cuts.flatMap (fun c => [c.1, c.2])

/-- A message of formation to every member. -/
def State.tellRing (s : State) (sub : Nat) (content : List Nat) : State :=
  [0, 1].foldl (fun s p => if s.portUp p then s.sendValues p sub 0x3F content else s) s

/-- Addresses of a census: a strapped member keeps its strap, the others take the lowest free address in order (R319). -/
def assignAddrs : List CensusEntry → List Nat → List (CensusEntry × Nat × Bool)
  | [], _ => []
  | e :: t, used =>
    if e.strap.toNat != 0 then (e, e.strap.toNat, false) :: assignAddrs t used
    else
      let a := ((List.range 48).find? (fun a => a != 0 && !used.contains a)).getD 0x3E
      (e, a, true) :: assignAddrs t (a :: used)

/-- LN_MAP of a member. -/
def mapWord (reach assigned : Bool) (pos : Nat) : Word :=
  word (2 ^ 31 + 2 ^ 30 * b2n reach + 2 ^ 29 * b2n assigned + 2 ^ 16 * pos)

/-- The hubs whose address a later one of the list has too: a map by address keeps the later. -/
def shadowed : List MapEntry → List MapEntry
  | [] => []
  | e :: t => if t.any (fun x => x.addr == e.addr) then e :: shadowed t else shadowed t

/-- The head's ring is formed: addresses, map and parameters (R318, step 5). `missing` is the absent link of a broken ring. -/
def State.formed (s : State) (members : List CensusEntry) (missing : Option Nat) : State :=
  let n := members.length + 1
  let as := assignAddrs members (members.map (fun e => e.strap.toNat))
  let s := (List.range 48).foldl (fun s a => s.wr (Reg.LN_MAP a) 0) s
  let s := s.wr (Reg.LN_MAP 0) (mapWord true false 0)
  let s := as.zipIdx.foldl (fun s e => if e.1.2.1 < 48 then s.wr (Reg.LN_MAP e.1.2.1) (mapWord true e.1.2.2 (e.2 + 1)) else s) s
  let map : KMap Nat := as.zipIdx.foldl (fun m e => kset m e.1.2.1 (e.2 + 1)) [(0, 0)]
  let serials : KMap Word64 := as.foldl (fun m e => kset m e.2.1 e.1.serial) [(0, s.pw.serial)]
  let all := as.zipIdx.map (fun e =>
    ({ serial := e.1.1.serial, addr := BitVec.ofNat 6 e.1.2.1, position := BitVec.ofNat 6 (e.2 + 1), assigned := e.1.2.2 } : MapEntry))
  let straps := (members.map (fun e => e.strap.toNat)).filter (fun a => a != 0)
  let cuts := (missing.map (fun c => (c, (c + 1) % n))).toList
  let s := { s with ln := { s.ln with map := map, serials := serials, twins := shadowed all, position := 0, censusOut := false, censusLate := false, census := none
                                      cuts := cuts, passed := if cuts.isEmpty then [] else [0, 1], orders := [], early := []
                                      twoHeads := members.any CensusEntry.headSel, over48 := decide (48 < n)
                                      sameAddrs := straps.filter (fun a => decide (1 < straps.count a)) } }
  let s := s.fput Reg.LN_ADDR Fld.LN_ADDR_addr 0
  let s := (s.fput Reg.LN_STAT Fld.LN_STAT_hubs n).setRingState (if members.isEmpty then 5 else if missing.isSome then 3 else 2)
  let s := s.tellRing 2 s.mapValues
  (s.tellRing 3 s.ringValues).releaseStranded

/-- The head sends a census once both its ports have come up or stay down (R318, steps 3 and 4). -/
def State.formRing (s : State) : State :=
  if !(s.pw.headSel && decide (s.ringState < 2) && !s.ln.censusOut) then s
  else if [0, 1].any (fun p => s.pstate p == 1 || s.pstate p == 2) then s
  else
    let s := s.setRingState 1
    if s.portUp 1 then ({ s with ln := { s.ln with censusOut := true } }).sendValues 1 1 0x3F []
    else if s.portUp 0 then ({ s with ln := { s.ln with censusOut := true, censusLate := true, census := some [] } }).sendValues 0 1 0x3F []
    else s.formed [] none

/-- A cut link is back: sources whose route changes send a route marker by the old route, or by the new one where there was none;
new-route cells wait at their destinations for it (R324). The head marks whom it can reach again. -/
def State.heal (s : State) (link : Nat × Nat) : State :=
  if !s.ln.cuts.contains link then s
  else
    let n := s.hubs
    let me := s.ln.position
    let old := s.ln.cuts
    let new := old.filter (fun c => c != link)
    let mark := fun (s : State) (e : Nat × Nat) => s.sendOwn (s.ownCell 3 e.1 (ringControl 7 link.1 link.2 0))
    let moved := s.ln.map.filter (fun e => routeOf n me e.2 old != routeOf n me e.2 new)
    let s := (moved.filter (fun e => (routeOf n me e.2 old).isSome)).foldl mark s
    let waits := (s.ln.map.filter (fun e =>
      (routeOf n e.2 me old).isSome && routeOf n e.2 me old != routeOf n e.2 me new)).map Prod.fst
    let s := { s with ln := { s.ln with cuts := new, waitMarker := s.ln.waitMarker ++ waits
                                        passed := if new.isEmpty then [] else s.ln.passed } }
    let s := (moved.filter (fun e => (routeOf n me e.2 old).isNone)).foldl mark s
    let s := ((s.setRingState (if new.isEmpty then 2 else if new.length = 1 then 3 else 4)).setFlag Reg.LN_STAT Fld.LN_STAT_heal_lat true)
    let s := s.noteReroute.releaseStranded.releaseHere
    if s.pw.headSel then
      (s.ln.map.foldl (fun s e => if e.1 < 48 && (e.2 = 0 || (s.route e.1).isSome) then s.setFlag (Reg.LN_MAP e.1) Fld.LN_MAP_reachable true
        else s) s).raise 43 (link.1 + 256 * link.2) 0
    else s

/-- A port is up: what stands unacknowledged is sent again, then what waits; a cut link heals, and formation goes on. -/
def State.portComesUp (s : State) (p : Nat) : State :=
  let s := ((s.setPstate p 3).replay p).serve p
  if 2 ≤ p then s
  else
    let s := s.heal (s.linkOf p)
    let s := if !s.pw.headSel && s.ringState = 0 then s.setRingState 1 else s
    s.formRing

/-- A census arrives: a member notes a hub with its own strapped address (R22), adds itself if it is not yet in it, and passes it on, or back where its next port is down; at the head
it completes the formation (R318). -/
def census (entries : List CensusEntry) (port : BitVec 2) (s : State) : State :=
  let p := port.toNat
  if 1 < p || !s.alive then s
  else if !s.pw.headSel then
    let s := if entries.any (fun e => e.serial != s.pw.serial && e.strap != 0 && e.strap == s.pw.hubAddr) then
        { s with ln := { s.ln with sameAddrs := s.pw.hubAddr.toNat :: s.ln.sameAddrs } } else s
    let all := if entries.any (fun e => e.serial == s.pw.serial) then entries else entries ++ [s.censusEntry]
    s.sendValues (if s.portUp (1 - p) then 1 - p else p) 1 0x3F (censusValues all)
  else if !s.ln.censusOut then s
  else match p, s.ln.census, s.ln.censusLate with
    | 0, none, false => s.formed entries none
    | 0, some down, true => s.formed (down ++ entries.reverse) (some down.length)
    | 0, none, true => s.formed entries.reverse (some 0)
    | 1, _, _ =>
      if s.portUp 0 then { s with ln := { s.ln with census := some entries } }
      else s.formed entries (some entries.length)
    | _, _, _ => s

def execCensus (entries : List CensusEntry) (port : BitVec 2) (s : State) : Host.Outcome State Fault Refusal := fin (census entries port s)

/-- No census after 5 ms: the head also sends one on port U (R318). -/
def censusTimeout (s : State) : State :=
  if !(s.pw.headSel && s.ln.censusOut) then s
  else if s.ln.censusLate then s.formed (s.ln.census.getD []) (some (s.ln.census.getD []).length)
  else
    let s := { s with ln := { s.ln with censusLate := true } }
    if s.portUp 0 then s.sendValues 0 1 0x3F [] else s.formed (s.ln.census.getD []) (some (s.ln.census.getD []).length)

def execCensusTimeout (s : State) : Host.Outcome State Fault Refusal := fin (censusTimeout s)

/-- ADDRESS_MAP at a member: its address and position, and those of the others (R318, R319). -/
def addressMap (entries : List MapEntry) (s : State) : State :=
  if s.pw.headSel || !s.alive then s
  else
    let map : KMap Nat := entries.foldl (fun m e => kset m e.addr.toNat e.position.toNat) [(0, 0)]
    let addrs := entries.map (fun e => e.addr.toNat)
    let s := { s with ln := { s.ln with map := map, twins := shadowed entries, over48 := decide (47 < entries.length)
                                        sameAddrs := addrs.filter (fun a => decide (1 < addrs.count a)) } }
    let s := s.fput Reg.LN_STAT Fld.LN_STAT_hubs (min 63 s.hubs)
    match entries.find? (fun e => e.serial == s.pw.serial) with
    | none => s
    | some e =>
      let s := { s with ln := { s.ln with position := e.position.toNat } }
      (s.wr Reg.LN_ADDR (word (b2n e.assigned * 128 + e.addr.toNat))).releaseStranded

def execAddressMap (entries : List MapEntry) (s : State) : Host.Outcome State Fault Refusal := fin (addressMap entries s)

/-- LN_CTL.reform in Idle: every enabled port trains and the ring forms again (R318); elsewhere it is discarded (R3). -/
def ringReform (s : State) : State :=
  if !s.idleOpen then s.accErr true Reg.LN_CTL
  else
    let s := { s with ln := { s.ln with map := [], cuts := [], passed := [], reroutes := [], waitMarker := [], heldDst := []
                                        censusOut := false, censusLate := false, census := none, serials := [], twins := [], sameAddrs := [], twoHeads := false, over48 := false } }
    let s := ((s.setRingState 0).fput Reg.LN_STAT Fld.LN_STAT_hubs 0).noteReroute
    let s := (List.range 48).foldl (fun s a => s.wr (Reg.LN_MAP a) 0) s
    [0, 1].foldl (fun s p => if s.lanesEn p != 0 then s.trainPort p else s.dropPort p) s

def execRingReform (s : State) : Host.Outcome State Fault Refusal := fin (ringReform s)

/-- HELLO_TIMEOUT: the port stays down and formation goes on (R318). -/
def helloTimeout (port : BitVec 2) (s : State) : State :=
  let p := port.toNat
  if p < 3 && !(s.port p).hello && s.pstate p < 3 then (s.dropPort p).formRing else s

def execHelloTimeout (port : BitVec 2) (s : State) : Host.Outcome State Fault Refusal := fin (helloTimeout port s)

/-- Positions and cut links when a hub has left position `o` of the ring; its two links become one. -/
def State.unplug (s : State) (o : Nat) : State :=
  let n := s.hubs
  let at1 := fun (x : Nat) => if o < x then x - 1 else x
  let link := fun (c : Nat × Nat) => let x := if o ≤ c.1 then c.1 - 1 else c.1; (x, if n = 0 then 0 else (x + 1) % n)
  { s with ln := { s.ln with map := s.ln.map.map (fun e => (e.1, at1 e.2)), cuts := (s.ln.cuts.map link).eraseDups
                             twins := s.ln.twins.map (fun e => { e with position := BitVec.ofNat 6 (at1 e.position.toNat) }) } }

/-- Positions and cut links when a hub comes to stand at position `p`: those downstream move on by one, and a cut where it stands is
behind it (log 88). -/
def State.plug (s : State) (p : Nat) : State :=
  let n := s.hubs + 1
  let at1 := fun (x : Nat) => if p ≤ x then x + 1 else x
  let link := fun (c : Nat × Nat) => let x := if p ≤ c.1 + 1 then c.1 + 1 else c.1; (x, (x + 1) % n)
  { s with ln := { s.ln with map := s.ln.map.map (fun e => (e.1, at1 e.2)), cuts := s.ln.cuts.map link
                             twins := s.ln.twins.map (fun e => { e with position := BitVec.ofNat 6 (at1 e.position.toNat) }) } }

/-- The place that the map keeps for a serial number: address and position. -/
def State.placeOf (s : State) (serial : Word64) : Option (Nat × Nat) :=
  match s.ln.serials.find? (fun e => e.1 != 0 && e.2 == serial) with
  | some e => (kget? s.ln.map e.1).map (fun q => (e.1, q))
  | none => (s.ln.twins.find? (fun e => e.serial == serial)).map (fun e => (e.addr.toNat, e.position.toNat))

/-- A hub's own entry is taken out of the map. -/
def State.dropEntry (s : State) (serial : Word64) : State :=
  let mine := (s.ln.serials.filter (fun e => e.1 != 0 && e.2 == serial)).map Prod.fst
  { s with ln := { s.ln with map := mine.foldl kerase s.ln.map, serials := mine.foldl kerase s.ln.serials
                             twins := s.ln.twins.filter (fun e => e.serial != serial) } }

/-- The hub that has an address gives way to another with the same strap, and stays in the ring beside it (R22). -/
def State.makeTwin (s : State) (a : Nat) : State :=
  match kget? s.ln.map a with
  | none => s
  | some q =>
    let e : MapEntry := { serial := (kget? s.ln.serials a).getD 0, addr := BitVec.ofNat 6 a, position := BitVec.ofNat 6 q
                          assigned := s.flag (Reg.LN_MAP a) Fld.LN_MAP_assigned }
    { s with ln := { s.ln with twins := s.ln.twins ++ [e], sameAddrs := a :: s.ln.sameAddrs } }

/-- HUB_JOINED at the head (R321): the member takes an address by R319, where it comes back the one that its entry keeps; the hubs
downstream of a new one move on by one position. -/
def hubJoined (serial : Word64) (strap position : BitVec 6) (s : State) : State :=
  if !s.pw.headSel || s.ringState < 2 then s
  else
    let pos := position.toNat
    let old := s.placeOf serial
    let free := ((List.range 48).find? (fun a => a != 0 && !(kkeys s.ln.map).contains a)).getD 0x3E
    let a := if strap = 0 then (old.map Prod.fst).getD free else strap.toNat
    if 47 < a then s
    else
      let s := if old.any (fun e => e.2 == pos) then s.dropEntry serial
        else match old with
          | some e => ((s.dropEntry serial).unplug e.2).plug pos
          | none => s.plug pos
      let s := s.makeTwin a
      let s := { s with ln := { s.ln with map := kset s.ln.map a pos, serials := kset s.ln.serials a serial
                                          orders := kerase s.ln.orders a, early := s.ln.early.filter (fun e => e.1 != a) } }
      let s := s.ln.map.foldl (fun s e => if e.1 < 48 then s.fput (Reg.LN_MAP e.1) Fld.LN_MAP_position e.2 else s) s
      let s := s.wr (Reg.LN_MAP a) (mapWord true (strap == 0) pos)
      let s := (s.fput Reg.LN_STAT Fld.LN_STAT_hubs (min 63 s.hubs))
      let s := s.raiseD 46 a 0 0 serial
      let s := s.tellRing 2 s.mapValues
      s.tellRing 3 s.ringValues

def execHubJoined (serial : Word64) (strap position : BitVec 6) (s : State) : Host.Outcome State Fault Refusal :=
  fin (hubJoined serial strap position s)

/-- At the head: the hub keeps its entry in LN_MAP, no longer reachable (R321). -/
def State.hubLeaves (s : State) (addr : BitVec 6) : State :=
  let a := addr.toNat
  if s.pw.headSel && decide (a < 48) && s.flag (Reg.LN_MAP a) Fld.LN_MAP_present then
    (s.setFlag (Reg.LN_MAP a) Fld.LN_MAP_reachable false).raise 47 a 0
  else s

/-! ## Reroute (R322, R324) -/

/-- A reroute ends here: held traffic goes its new way. -/
def State.endReroute (s : State) (k : Nat) : State :=
  match kget? s.ln.reroutes k with
  | none => s
  | some r =>
    let s := ({ s with ln := { s.ln with reroutes := kerase s.ln.reroutes k } }).noteReroute
    r.held.foldl State.sendOwn s

/-- X has turned everything back: it sends the tail, and its own held traffic follows. -/
def State.sendTail (s : State) (k : Nat) (r : Reroute) : State :=
  (s.sendCell (1 - k) true (s.controlCell 6 r.x r.y 0 r.y)).endReroute k

/-- The port that led across a cut from `x` to `y`. -/
def State.cutDir (s : State) (x y : Nat) : Nat := if (x + 1) % s.hubs = y then 1 else 0

/-- CUT_NOTICE (R322). Of a further cut the hubs only learn (R325). -/
def cutNotice (x y : BitVec 6) (last : BitVec 12) (port : BitVec 2) (s : State) : State :=
  let xn := x.toNat
  let yn := y.toNat
  let q := port.toNat
  if 1 < q || s.hubs < 2 || !s.alive then s
  else
    let k := s.cutDir xn yn
    let link := if k = 1 then (xn, yn) else (yn, xn)
    let s := s.noteBreak link
    let passOn := fun (s : State) => if s.portUp (1 - q) then s.sendCell (1 - q) false (s.passedCell 4 xn yn last.toNat xn yn) else s
    if !s.firstCut link then (if s.ln.position = xn then s else passOn s)
    else
      let s := (s.joinReroute k xn yn).noticePassed k
      match kget? s.ln.reroutes k with
      | none => s
      | some r =>
        let r := { r with noticed := true }
        let s := { s with ln := { s.ln with reroutes := kset s.ln.reroutes k r } }
        let n := s.hubs
        let far := farther n s.ln.position k
        let flushing := crossed n far yn k
        if s.ln.position = xn then
          let p := s.port k
          let cells := (unacked last p.replay).map Prod.snd ++ p.queue.map Prod.snd
          let s := s.setPort k { p with replay := [], queue := [] }
          let s := cells.foldl (fun s c => s.sendCell (1 - k) false { c with turned := true }) s
          if flushing && !r.flushed then s else s.sendTail k r
        else
          let s := passOn s
          if r.holdsOwn && !flushing then s.sendCell k true (s.controlCell 5 xn yn 0 xn) else s

def execCutNotice (x y : BitVec 6) (last : BitVec 12) (port : BitVec 2) (s : State) : Host.Outcome State Fault Refusal :=
  fin (cutNotice x y last port s)

/-- RING_FLUSH: the end of a farther hub's traffic toward the cut. X sends its tail; another hub sends its own flush. -/
def ringFlush (port : BitVec 2) (s : State) : State :=
  let k := 1 - port.toNat
  match kget? s.ln.reroutes k with
  | none => s
  | some r =>
    let r := { r with flushed := true }
    let s := { s with ln := { s.ln with reroutes := kset s.ln.reroutes k r } }
    if r.x = s.ln.position then (if r.noticed then s.sendTail k r else s)
    else s.sendCell k true (s.controlCell 5 r.x r.y 0 r.x)

def execRingFlush (port : BitVec 2) (s : State) : Host.Outcome State Fault Refusal := fin (ringFlush port s)

/-- TAIL: passed on, then the held traffic goes (R322, step 6). -/
def tail (port : BitVec 2) (s : State) : State :=
  let q := port.toNat
  match kget? s.ln.reroutes q with
  | none => s
  | some r =>
    let s := if r.y = s.ln.position then s else s.sendCell (1 - q) false (s.passedCell 6 r.x r.y 0 r.y r.x)
    s.endReroute q

def execTail (port : BitVec 2) (s : State) : Host.Outcome State Fault Refusal := fin (tail port s)

/-- ROUTE_MARKER: the cut has healed, and the new-route cells of that source are released (R324). -/
def routeMarker (m : RouteMark) (s : State) : State :=
  let s := s.heal (m.up.toNat, m.down.toNat)
  ({ s with ln := { s.ln with waitMarker := s.ln.waitMarker.filter (fun a => a != m.src.toNat) } }).noteReroute.releaseHere

def execRouteMarker (m : RouteMark) (s : State) : Host.Outcome State Fault Refusal := fin (routeMarker m s)

/-! ## Received cells (R302 to R310, R316, R317) -/

/-- A cell fails its CRC or its stuffing, or is of a reserved type. -/
def State.crcError (s : State) (p : Nat) : State := if p < 2 then s.incSat (Reg.LN_CRCERR p) 1 else s

/-- A tag fails (R310): 16 in a row take the port down. -/
def State.tagError (s : State) (p : Nat) : State :=
  let s := if p < 2 then s.incSat (Reg.LN_AUTHFAIL p) 1 else s
  let n := (s.port p).authRun + 1
  let s := s.modPort p (fun x => { x with authRun := n })
  let s := if n = 1 then s.raise 59 (p + 1) 2 else s
  if 16 ≤ n then s.portGoesDown p else s

/-- The first discard after an accepted cell sends nak (R316). -/
def State.discardCell (s : State) (p : Nat) : State :=
  if (s.port p).naked then s else (s.modPort p (fun x => { x with naked := true })).sendControl p 1

/-- Reading the header of a cell that came in on port `p`. -/
def cellOf (p payload : Nat) (bs : List Byte) : Cell × BitVec 12 :=
  let h := ofLe (bs.take 4)
  ({ typ := h / 2 ^ 28, src := h / 2 ^ 22 % 64, dst := h / 2 ^ 16 % 64, first := (h / 2 ^ 15) % 2 == 1, last := (h / 2 ^ 14) % 2 == 1
     turned := (h / 2 ^ 13) % 2 == 1, payload := slice bs 4 payload, via := p }, BitVec.ofNat 12 h)

/-- Addresses a cell may carry (R303). -/
def cellAddrOk (c : Cell) : Bool := (decide (c.src < 48) || c.src == 0x3E) && (decide (c.dst < 48) || c.dst == 0x3F)

/-- A cell for this hub reaches its unit, or waits. -/
def State.takeCell (s : State) (c : Cell) : State :=
  if s.heldHere c then { s with ln := { s.ln with heldDst := s.ln.heldDst ++ [c] } }
  else { s with ln := { s.ln with absorbed := c :: s.ln.absorbed } }

/-- A cell for all hubs goes on by the other port, unless its origin comes next (R306). -/
def State.passAll (s : State) (p : Nat) (c : Cell) : State :=
  let out := 1 - p
  let next := if out = 1 then (s.ln.position + 1) % s.hubs else (s.ln.position + s.hubs - 1) % s.hubs
  if (s.hubs != 0 && kget? s.ln.map c.src == some next) || !s.portUp out then s else s.sendCell out false c

/-- The ring control messages that each hub takes and sends on itself: census, cut notice, flush and tail. -/
def isHopwise (sub : Nat) : Bool := sub == 1 || sub == 4 || sub == 5 || sub == 6

/-- An accepted cell: what is for another hub, or for all, goes on; what is for this hub acts by the row of its content. -/
def State.routeCell (s : State) (p : Nat) (c : Cell) : State :=
  if !cellAddrOk c then s
  else if 1 < p then s.takeCell c
  else
    let sub := if c.first then (c.payload.getD 0 0).toNat else (s.port p).ringSub
    let s := if c.typ = 3 then s.modPort p (fun x => { x with ringSub := sub }) else s
    if c.typ = 3 && isHopwise sub then s.takeCell c
    else if c.dst = 0x3F then (if c.src = s.hubAddr then s else (s.takeCell c).passAll p c)
    else if c.dst = s.hubAddr then s.takeCell c
    else s.forward p c

/-- Serial number and identity key in the certificate of an offer. -/
def offerSerial (o : List Byte) : Nat := ofLe (slice o 0x88 8)
def offerPublic (o : List Byte) : List Byte := slice o (0x80 + 0x20) 96

/-- The two offers, that of the lower serial number first. -/
def offersInOrder (a b : List Byte) : List Byte := if offerSerial a ≤ offerSerial b then a ++ b else b ++ a

/-- The keys of the two directions, sending first (R385, step 3). -/
def laneKeys (a : Agree) (rekey : Nat) : List Byte × List Byte :=
  let z := Config.ecdh a.priv (slice a.partner 0x20 96)
  let first := offersInOrder a.offer a.partner
  let nonces := slice first 0x10 16 ++ slice first (384 + 0x10) 16
  let key := fun (tx rx : List Byte) =>
    fitBytes 32 (Config.kdf z [0x45, 0x44, 0x58, 0x49, 0x41, 0x20, 0x4C, 0x41, 0x4E, 0x45]
      (slice tx 0x88 8 ++ slice rx 0x88 8 ++ slice tx 1 1 ++ nonces ++ leBytes 4 rekey))
  (key a.offer a.partner, key a.partner a.offer)

/-- Fresh keys come from the agreed secret, with the slot counts at 0 (R309). -/
def State.freshKeys (s : State) (p : Nat) : State :=
  let x := s.port p
  match x.agree, x.keys with
  | some a, some _ => s.setPort p { x with rekey := x.rekey + 1, keys := some (laneKeys a (x.rekey + 1)), txSlots := 0, rxSlots := 0 }
  | _, _ => s

/-- Delineation is lost: the receiver hunts again, under fresh keys (R302, R309). -/
def State.loseDelineation (s : State) (p : Nat) : State :=
  (s.modPort p (fun x => { x with delineated := false, badRun := 0 })).freshKeys p

/-- A cell fails its stuffing or its CRC: 8 in a row lose delineation (R301, R302, R304). -/
def State.badCell (s : State) (p : Nat) : State :=
  let s := (s.crcError p).modPort p (fun x => { x with badRun := x.badRun + 1 })
  if 8 ≤ (s.port p).badRun then s.loseDelineation p else s

/-- The tag of a cell that took the port's slot `n` verifies under the key of its sender; without a key none does, and idle and key
agreement cells are not checked (R309, R387). -/
def State.tagOk (s : State) (p typ : Nat) (n : Word64) (body tag : List Byte) : Bool :=
  let partner := if p < 2 then s.fget (Reg.LN_PSTAT p) Fld.LN_PSTAT_partner else s.sv.twin.partnerAddr
  match typ, (s.port p).keys with
  | 0, _ | 0xD, _ => true
  | _, none => false
  | _, some k => gmac k.2 (slotIv partner (if p < 2 then 1 - p else p) n) body == tag

/-- The forwarding buffer of a port is full, and the cell would have to go into it (R308). -/
def State.noRoom (s : State) (p : Nat) (c : Cell) : Bool := decide (p < 2) && c.dst != s.hubAddr && decide (1024 ≤ s.heldForward p)

/-- SEQUENCED_CELL: put together from its lanes and checked, then accepted or discarded (R299 to R304, R309, R310, R316). `skipped` are
the slots of good cells of other kinds since the last cell brought. -/
def sequencedCell (port : BitVec 2) (cell : CellRx) (skipped : Word64) (s : State) : State :=
  let p := port.toNat
  if 2 < p || !s.portUp p || !(s.port p).delineated then s
  else
    let slot := (s.port p).rxSlots + skipped
    let s := s.modPort p (fun x => { x with rxSlots := slot + 1, badRun := if skipped = 0 then x.badRun else 0 })
    let (bs, line) := cellOfLanes cell (s.lanesOn p)
    let body := 4 + s.payloadLen
    let (c, seq) := cellOf p s.payloadLen bs
    if !(line && ofLe (bs.drop 260) == (crc32c (bs.take 260)).toNat) then (s.badCell p).discardCell p
    else
      let s := s.modPort p (fun x => { x with badRun := 0 })
      if s.authOn && !s.tagOk p c.typ slot (bs.take body) (slice bs body 16) then
        let s := s.tagError p
        if s.portUp p then s.discardCell p else s
      else if 0xD < c.typ then s.crcError p
      else if c.typ < 3 || c.typ = 0xD then s
      else
        let s := s.modPort p (fun x => { x with authRun := 0 })
        if seq != (s.port p).rxSeq || s.noRoom p c then s.discardCell p
        else
          let s := s.modPort p (fun x => { x with rxSeq := x.rxSeq + 1, naked := false, acceptedSince := x.acceptedSince + 1 })
          let s := s.routeCell p c
          let s := if 64 ≤ (s.port p).acceptedSince then s.sendControl p 0 else s
          s.flowControl p

def execSequencedCell (port : BitVec 2) (cell : CellRx) (skipped : Word64) (s : State) : Host.Outcome State Fault Refusal :=
  fin (sequencedCell port cell skipped s)

/-- DELINEATION_FOUND, after 6 good cells in a row at one position (R302). -/
def delineationFound (d : Delineation) (s : State) : State :=
  if decide (d.port.toNat < 3) && s.alive && !d.far && d.good.reverse.take 6 == List.replicate 6 true then
    s.modPort d.port.toNat (fun x => { x with delineated := true, badRun := 0 })
  else s

def execDelineationFound (d : Delineation) (s : State) : Host.Outcome State Fault Refusal := fin (delineationFound d s)

/-- DELINEATION_LOST, after 8 bad cells in a row (R302): fresh keys at both ends, whichever end's receiver lost it (R309). -/
def delineationLost (d : Delineation) (s : State) : State :=
  let p := d.port.toNat
  if !(decide (p < 3) && d.good.reverse.take 8 == List.replicate 8 false) then s
  else if d.far then s.freshKeys p
  else if (s.port p).delineated then s.loseDelineation p
  else s

def execDelineationLost (d : Delineation) (s : State) : Host.Outcome State Fault Refusal := fin (delineationLost d s)

/-! ## Test modes (R329 to R331) -/

/-- A test write is taken: the lane is eligible, and mode and pattern are listed (R329). -/
def State.laneTestOk (s : State) (l : Nat) (val : Word) : Bool :=
  let otherUp := match lanePort l with
    | some (p, j) => (s.inService p).testBit (1 - j)
    | none => false
  let eligible :=
    if l < 4 then false
    else if l = 4 then s.fget Reg.TB_CTL Fld.TB_CTL_src != 1
    else if l = 9 then !(s.isTwin && s.inRun)
    else !s.inRun || otherUp
  eligible && decide (BitField.get Fld.LN_TEST_mode val ≤ 4) && decide (BitField.get Fld.LN_TEST_pattern val ≤ 5)

/-- LN_TEST_WRITE: a test starts or stops on an eligible lane. -/
def lnTestWrite (i : BitVec 4) (val : Word) (s : State) : State :=
  let l := i.toNat
  if 9 < l then s
  else
    let a := Reg.LN_TEST l
    if !s.laneTestOk l val then s.accErr true a
    else
      let was := s.laneTested l
      let runs := s.flag a Fld.LN_TEST_run
      let s := if BitField.get Fld.LN_TEST_run val = 1 && !runs then
          { s with ln := { s.ln with lastErr := kerase s.ln.lastErr l } } else s
      let s := s.wr a (val &&& 0xFF00FFFF#32 &&& ~~~(1#32 <<< 23))
      if s.laneTested l && !was then
        let s := s.laneOut l 0 false
        match lanePort l with
        | some (p, _) => if p < 2 && 3 ≤ s.pstate p then s.setPstate p 4 else s
        | none => s
      else if was && !s.laneTested l then
        match lanePort l with
        | some (p, _) => if p < 2 && s.pstate p = 4 then s.setPstate p 3 else s
        | none => s
      else s

def execLnTestWrite (i : BitVec 4) (val : Word) (s : State) : Host.Outcome State Fault Refusal := fin (lnTestWrite i val s)

/-- LN_TEST_INJECT: in mode 4 the next sequenced cell that goes out on the lane carries a bad CRC (R330); in modes 1 and 3 one bit of
the pattern is flipped, which the far end counts. -/
def lnTestInject (i : BitVec 4) (s : State) : State :=
  let l := i.toNat
  match lanePort l with
  | some (p, i) =>
    if s.flag (Reg.LN_TEST l) Fld.LN_TEST_run && s.fget (Reg.LN_TEST l) Fld.LN_TEST_mode == 4 && (s.inService p).testBit i then
      s.modPort p (fun x => { x with inject := true })
    else s
  | none => s

def execLnTestInject (i : BitVec 4) (s : State) : Host.Outcome State Fault Refusal := fin (lnTestInject i s)

/-- A second of the counter, at 500 MHz. -/
def secondCounts : Nat := 500000000

/-- An error is the first since the test started, or the first after a second without any (R331). -/
def State.firstError (s : State) (l : Nat) : Bool :=
  match kget? s.ln.lastErr l with
  | none => true
  | some t => decide (secondCounts ≤ (s.tb.cnt - t).toNat)

/-- PRBS_ERROR (R331): whether it is the first in its run, as the checker says too, follows from the counter. -/
def prbsError (lane : BitVec 4) (errors : Word) (bits : Word64) (_firstInRun : Bool) (s : State) : State :=
  let l := lane.toNat
  let mode := s.fget (Reg.LN_TEST l) Fld.LN_TEST_mode
  if 9 < l || l < 4 || !s.flag (Reg.LN_TEST l) Fld.LN_TEST_run || (mode != 2 && mode != 3) then s
  else
    let s := s.incSat (Reg.LN_TERR l) errors.toNat
    let s := s.wr64 (Reg.LN_TBITS_LO l) (s.rd64 (Reg.LN_TBITS_LO l) + bits)
    let first := s.firstError l
    let s := { s with ln := { s.ln with lastErr := kset s.ln.lastErr l s.tb.cnt } }
    if first then s.raiseD 45 l 0 0 ((s.rd (Reg.LN_TERR l)).setWidth 64) else s

def execPrbsError (lane : BitVec 4) (errors : Word) (bits : Word64) (firstInRun : Bool) (s : State) : Host.Outcome State Fault Refusal :=
  fin (prbsError lane errors bits firstInRun s)

end Sys2Proof.Machine
end

