-- ==== Sys2Proof/Machine/LinkAuth.lean ====
section
/-! DEFINITION. Link control cells, and the agreement of lane keys (R309, R310, R314 to R318, R385). -/

namespace Sys2Proof.Machine

/-- The port byte of a key agreement message: 1 U, 2 D, 3 twin. -/
def portByte (p : Nat) : Byte := BitVec.ofNat 8 (p + 1)

/-- The owner key_id an offer carries while same_owner is 1, else 0 (R385). -/
def State.ownerId (s : State) : List Byte :=
  if s.flag Reg.VT_SECCFG Fld.VT_SECCFG_same_owner then
    match s.vt.owner with
    | some k => keyId k
    | none => zeros 8
  else zeros 8

/-- A key agreement message goes out in its two cells, which carry no sequence number (R304, R305, R385). -/
def State.sendAgree (s : State) (p : Nat) (msg : List Byte) : State :=
  (s.sendUnseq p 0xD 0x3F true false (msg.take s.payloadLen)).sendUnseq p 0xD 0x3F false true (msg.drop s.payloadLen)

/-- This end sends its offer (R385, step 1). -/
def State.beginAgree (s : State) (p : Nat) : State :=
  let (priv, s) := s.drawBytes 48
  let (nonce, s) := s.drawBytes 16
  let offer := [1#8, portByte p] ++ zeros 6 ++ s.ownerId ++ nonce ++ publicKey priv ++ fitBytes 256 s.identityCertBytes
  let s := s.modPort p (fun x => { x with agree := some { priv := priv, offer := offer, partner := [] } })
  (s.setPstate p 2).sendAgree p offer

/-- The agreement of a port fails: the port stays down, and AUTH_REJECTED names it (R310, R385). -/
def State.failAgree (s : State) (p : Nat) : State :=
  let s := s.dropPort p
  (s.modPort p (fun x => { x with keyBlocked := true })).raise 59 (p + 1) 2

/-- A certificate is an identity certificate that the root has signed (R358). -/
def certOk (c : List Byte) : Bool :=
  ofLe (slice c 0 4) == 0x54524543 && ofLe (slice c 6 2) == 1
    && Config.ecVerify (fitBytes 96 Config.rootPublic) (slice c 0 160) (slice c 160 96)

/-- Agreement is refused in the error state of R383; the keyless error state allows it, since it uses only the identity key (R384). -/
def State.mayAgree (s : State) : Bool := s.vt.identity && (s.vaultState == vtOperational || s.vaultState == vtKeyless)

/-- A hello: the member takes the head's mode; the link agrees its keys in authenticated mode, or is up (R309, R318). -/
def State.takeHello (s : State) (p : Nat) (c : LinkCtlIn) : State :=
  let s := if !s.pw.headSel && (c.auth || c.headSel) then s.setFlag Reg.LN_CTL Fld.LN_CTL_auth c.auth else s
  let s := s.setFlag Reg.LN_STAT Fld.LN_STAT_auth_on (s.flag Reg.LN_CTL Fld.LN_CTL_auth)
  let s := (s.modPort p (fun x => { x with hello := true })).syncNumbers p c.ack
  if s.authOn then (if s.mayAgree then s.beginAgree p else s.failAgree p) else s.portComesUp p

/-- The lanes that the partner asks to have looped back: those that it has taken out of service (R329). -/
def State.noteLoops (s : State) (p : Nat) (c : LinkCtlIn) : State :=
  s.modPort p (fun x => { x with loops := if c.loopback then BitVec.ofNat 2 (s.lanesEn p) &&& ~~~ c.lanes else 0 })

/-- Lanes that the partner reported and no longer reports have failed in the other direction (R313). -/
def State.partnerLanes (s : State) (p : Nat) (lanes : BitVec 2) : State :=
  let was := (s.port p).partnerLanes
  let s := s.modPort p (fun x => { x with partnerLanes := lanes })
  if p < 2 && s.portUp p && s.pstate p != 4 then
    [0, 1].foldl (fun s i => if lanes.getLsbD i || !was.getLsbD i then s else s.laneOut (laneOf p i) 2 true) s
  else s

/-- LINK_CONTROL_CELL: hello, acknowledgement, nak, hold and release, lanes, loopback (R308, R313, R316 to R318, R329). One with a
source that no hub has is discarded without effect (R303). -/
def linkControlCell (port : BitVec 2) (c : LinkCtlIn) (chk : CellCheck) (s : State) : State :=
  let p := port.toNat
  if 2 < p || !s.alive || !(s.port p).delineated || (p < 2 && s.inService p = 0) then s
  else if !chk.line then s.badCell p
  else
    let s := s.modPort p (fun x => { x with badRun := 0 })
    if s.authOn && s.portUp p && !((s.port p).keys.isSome && chk.tag) then s.tagError p
    else if 48 ≤ c.src.toNat && c.src != 0x3E then s
    else
      let s := if p < 2 then s.fput (Reg.LN_PSTAT p) Fld.LN_PSTAT_partner c.src.toNat
        else { s with sv := { s.sv with twin := { s.sv.twin with partnerAddr := c.src.toNat } } }
      if !s.portUp p then (if (s.port p).hello || (s.port p).keyBlocked then s else s.takeHello p c)
      else
        let s := (s.modPort p (fun x => { x with authRun := 0 })).noteLoops p c
        let s := s.takeAck p c.ack
        let s := if c.release then s.modPort p (fun x => { x with heldByPartner := false }) else s
        let s := if c.hold then s.modPort p (fun x => { x with heldByPartner := true }) else s
        let s := if c.nak then s.replayOrDown p else s
        let s := (s.partnerLanes p c.lanes).serve p
        if c.release && !s.inRun then s.deliverAll else s

def execLinkControlCell (port : BitVec 2) (c : LinkCtlIn) (chk : CellCheck) (s : State) : Host.Outcome State Fault Refusal :=
  fin (linkControlCell port c chk s)

/-- A time cell arrives (R193, R194): the exchange, the hop delay, and on a member's time port the measurement, the head's
holdover and an announced step. A cell that fails its CRC or its tag counts as any cell does (R304, R310). -/
def timeCell (p : BitVec 2) (rx : Stamp) (c : TimeCellIn) (s : State) : State :=
  let p := p.toNat
  if !(s.alive && s.portUp p) then s
  else if !c.chk.line then s.badCell p
  else if s.authOn && !((s.port p).keys.isSome && c.chk.tag) then s.tagError p
  else
    let s := s.modPort p (fun x => { x with badRun := 0, authRun := 0 })
    let now := s.stampTime rx - s.stampTrim (2 * p + 2)
    let l := s.stamps p
    let mine := !s.pw.headSel && p < 2 && s.timePort == p + 1
    let s := s.setStamps p { l with rcvd := some now }
    let s := if mine then
        let s := s.setFlag Reg.TB_STAT Fld.TB_STAT_ring_hold c.holdover
        let s := if c.holdover then s.setFlag Reg.TB_SUM_HI Fld.TB_SUM_HI_ring_hold true else s
        if c.stepFlag && s.inRun && s.tb.step.isNone && decide (s.fr.nextTick ≤ c.stepTick.toNat) then
          { s with tb := { s.tb with step := some { tick := c.stepTick.toNat, delta := c.stepDelta.toInt, cause := 2 } } }
        else s
      else s
    match l.rcvd with
    | none => s
    | some t2 =>
      match linkTrip (PtpTime.val c.prevTx) t2 (PtpTime.val c.lastRx) l.sent with
      | none => s
      | some m2 =>
        let means := (m2 :: l.means).take 64
        let s := s.setStamps p { l with rcvd := some now, means := means }
        let s := if p < 2 then
          s.wr (Reg.TB_HOPDLY p) (wordI (openDiv (means.foldl (· + ·) 0) (512 * means.length))) else s
        if mine then
          let theta := openDiv ((2 * (t2 - (PtpTime.val c.prevTx)) - m2) * 1000 - (s.rd (Reg.TB_LINKASYM (p + 1))).toInt * 65536) 2000
          (s.portMeasured (p + 1) theta).measure theta (1000000 * 65536)
        else s

def execTimeCell (port : BitVec 2) (rx : Stamp) (c : TimeCellIn) (s : State) : Host.Outcome State Fault Refusal :=
  fin (timeCell port rx c s)

/-- A port is in its agreement. -/
def State.agreeing (s : State) (p : Nat) : Bool := (s.port p).agree.isSome && (s.port p).keys.isNone

/-- KEY_AGREEMENT_OFFER (R385, step 2). -/
def keyAgreementOffer (port : BitVec 2) (msg : List Byte) (s : State) : State :=
  let p := port.toNat
  let m := fitBytes 384 msg
  if 2 < p || !s.agreeing p then s
  else match (s.port p).agree with
    | none => s
    | some a =>
      let sameOwner := !s.flag Reg.VT_SECCFG Fld.VT_SECCFG_same_owner || slice m 8 8 == s.ownerId
      if !s.mayAgree || a.priv.isEmpty || slice m 0 1 != [1#8] || !certOk (slice m 0x80 256) || !sameOwner then s.failAgree p
      else
        let s := s.modPort p (fun x => { x with agree := some { a with partner := m } })
        let sig := fitBytes 96 (Config.ecSign Config.factoryIdentityKey (offersInOrder a.offer m) s.freeCtr)
        let s := { s with freeCtr := s.freeCtr + 1 }
        s.sendAgree p ([2#8, portByte p] ++ zeros 6 ++ s.ownerId ++ zeros 16 ++ sig ++ zeros 256)

def execKeyAgreementOffer (port : BitVec 2) (msg : List Byte) (s : State) : Host.Outcome State Fault Refusal :=
  fin (keyAgreementOffer port msg s)

/-- The known-answer test of a lane engine fails with the installation of keys: SELFTEST_FAIL names it, the vault stays operational,
and only this link stays down (R383). -/
def State.engineFailed (s : State) (p code : Nat) : State :=
  let s := (s.raiseF 0 56 0 code 0 s.frameData).wr Reg.VT_STFAIL (word code)
  (s.dropPort p).modPort p (fun x => { x with keyBlocked := true })

/-- KEY_AGREEMENT_CONFIRM: the signature verifies, the keys are installed and their engine is tested, and the port is up (R385, step
3). -/
def keyAgreementConfirm (port : BitVec 2) (c : ConfirmIn) (s : State) : State :=
  let p := port.toNat
  let m := fitBytes 384 c.msg
  if 2 < p || !s.agreeing p then s
  else match (s.port p).agree with
    | none => s
    | some a =>
      if !s.mayAgree || a.priv.isEmpty || a.partner.isEmpty || slice m 0 1 != [2#8]
          || !Config.ecVerify (offerPublic a.partner) (offersInOrder a.offer a.partner) (slice m 0x20 96) then s.failAgree p
      else if c.engine != 0 then s.engineFailed p c.engine.toNat
      else (s.modPort p (fun x => { x with keys := some (laneKeys a 0), rekey := 0, txSlots := 0, rxSlots := 0 })).portComesUp p

def execKeyAgreementConfirm (port : BitVec 2) (confirm : ConfirmIn) (s : State) : Host.Outcome State Fault Refusal :=
  fin (keyAgreementConfirm port confirm s)

/-- KEY_AGREEMENT_TIMEOUT (R385). -/
def keyAgreementTimeout (port : BitVec 2) (s : State) : State :=
  if port.toNat < 3 && s.agreeing port.toNat then s.failAgree port.toNat else s

def execKeyAgreementTimeout (port : BitVec 2) (s : State) : Host.Outcome State Fault Refusal := fin (keyAgreementTimeout port s)

end Sys2Proof.Machine
end

