-- ==== Sys2Proof/Machine/FrontEnd.lean ====
section
/-! DEFINITION. The front ends and the modulators between two ticks (chapters 3 and 4): die links, input configuration,
blanking, leads, broken wires, overload, the modulator-clock PLL and the threshold trims.  What a tick makes of it stands
in Machine/Frame.lean.  A word is counted from the last tick (R91). -/

namespace Sys2Proof.Machine

def InSt.init : InSt :=
  { hist := [], setEnd := 0, ovl := [], ovlPrev := [], sense := [], discPrev := [], blkEp := false, window := none, tripRun := 0
    compl := false, complEp := false, ovrEp := false, ovlEp := false, value := 0
    status := 0 }

/-- What outlives a change of enable (R94, R106, R119, R133): the settle counts, the overload and sense words that go on, those of
the interval before, and the slot of the frame whose tick it is. -/
def InSt.restart (x : InSt) : InSt :=
  { InSt.init with setEnd := x.setEnd, ovl := x.ovl, ovlPrev := x.ovlPrev, sense := x.sense, discPrev := x.discPrev, value := x.value, status := x.status }

def State.inSt (s : State) (n : Nat) : InSt := kgetD s.fe.ins n InSt.init
def State.setIn (s : State) (n : Nat) (x : InSt) : State := { s with fe := { s.fe with ins := kset s.fe.ins n x } }
def State.modIn (s : State) (n : Nat) (f : InSt → InSt) : State := s.setIn n (f (s.inSt n))

def BlankSt.init : BlankSt :=
  { pin := false, asserted := false, active := false, first := 0, last := none, spans := [], frames := 0
    longRaised := false }

def State.blank (s : State) (b : Nat) : BlankSt := kgetD s.fe.blanks b BlankSt.init
def State.setBlank (s : State) (b : Nat) (x : BlankSt) : State :=
  let s := { s with fe := { s.fe with blanks := kset s.fe.blanks b x } }
  s.fput Reg.FE_BLANKSTAT ⟨b, b⟩ (b2n x.active)

def dieNo : Die → Nat
  | .a => 0
  | .b => 1

/-- One modulator word in units of 2^-16 ns. -/
def wordU : Int := 16000000

/-- The tick that opened the present measurement interval. -/
def State.lastTickTime (s : State) : Int := s.tickTime (s.fr.nextTick - 1)

/-- The word of the present interval in which a time falls (R91); 0 where no frame runs. -/
def State.adcWordAt (s : State) (t : Int) : Nat := if s.running then ((t - s.lastTickTime) / wordU).toNat else 0

/-- The 240 µs of a conversion of the gleaner (R104). -/
def convU : Int := 240000 * nsU

def isLead (t : Nat) : Bool := decide (t < 0x20)
def isSense (t : Nat) : Bool := t == 0x5B || t == 0x5C
/-- The headland input of a sense target. -/
def senseInput (t sub : Nat) : Nat := if t = 0x5C then 128 + sub else sub

/-- The running conversion is a headland sense of input `n` (R106). -/
def State.sensing (s : State) (n : Nat) : Bool := s.gl.running.any (fun c => isSense c.target && senseInput c.target c.sub == n)

/-- The words that a running headland sense takes from the interval that opens at time `t`, for an input that takes part from
there on (R106). -/
def State.senseFrom (s : State) (n : Nat) (t : Int) : List WordSpan :=
  match s.gl.running with
  | some c =>
    if s.sensing n && decide (t < c.start + convU) then
      [{ first := 0, last := ((c.start + convU - t + wordU - 1) / wordU).toNat - 1, upper := false }]
    else []
  | none => []

/-! ## Die links (R14, R15) -/

def State.dieLink (s : State) (d : Nat) : Bool :=
  if d = 0 then s.flag Reg.FE_STAT Fld.FE_STAT_a_link else s.flag Reg.FE_STAT Fld.FE_STAT_b_link

/-- A link failure falls into the present interval. -/
def State.dieFailed (s : State) (d : Nat) : State :=
  if d = 0 then { s with fe := { s.fe with failA := true } } else { s with fe := { s.fe with failB := true } }

/-- CV_STAT.trim_busy: a trim that is due runs once its die's link has passed its check (R97, R100). -/
def State.noteTrim (s : State) : State :=
  s.setFlag Reg.CV_STAT Fld.CV_STAT_trim_busy ((s.fe.trimA && s.dieLink 0) || (s.fe.trimB && s.dieLink 1))

/-- A check of a die link: the link bit follows it; a failure is latched and raised; a pass ends the die's reset (R14,
R427). -/
def State.linkChecked (s : State) (d : Nat) (pass : Bool) : State :=
  let s := (if d = 0 then s.setFlag Reg.FE_STAT Fld.FE_STAT_a_link pass else s.setFlag Reg.FE_STAT Fld.FE_STAT_b_link pass).noteTrim
  if pass then
    (if d = 0 then { s with fe := { s.fe with resetA := false } } else { s with fe := { s.fe with resetB := false } })
  else
    let s := if d = 0 then s.setFlag Reg.FE_STAT Fld.FE_STAT_a_fail true else s.setFlag Reg.FE_STAT Fld.FE_STAT_b_fail true
    (s.dieFailed d).raise (13 + d) 0 0

def dieLinkCheck (die : Die) (pass : Bool) (s : State) : State :=
  if !s.alive || s.pw.inReset then s else s.linkChecked (dieNo die) pass

def execDieLinkCheck (die : Die) (pass : Bool) (s : State) : Host.Outcome State Fault Refusal :=
  fin (dieLinkCheck die pass s)

/-! ## Input configuration (R88) -/

/-- The writable bits of the five checked registers; the pull fields exist on headland inputs only (R72). -/
def inMask (n reg : Nat) : Word :=
  match reg with
  | 0 => if headland n then 0x0073B731 else 0x00703731
  | 1 => 0xFFFFFFFF
  | 2 => 0x007F007F
  | 3 => 0x01FF000F
  | _ => 0x003FFFFF

/-- The input is in the mask of a SAMPLE furrow, so its enable may not be cleared (R272). -/
def State.sampled (s : State) (n : Nat) : Bool := s.hi.furrows.any (fun e => e.2.kind == .sample && e.2.mask.getLsbD n)

/-- The input is a source of a frame-rate unit in use, so in Run its enable may not be cleared (R235). -/
def State.captured (s : State) (n : Nat) : Bool :=
  (List.range 8).any (fun u => s.unitEn u && !s.unitFast u && (s.unitSources u).contains n)

/-- A write to IN_CFG, IN_EXC, IN_REV, IN_FILT or IN_LEAD.  Outside Run it stands at once; in Run it is checked whole and
waits for the next tick, or is discarded (R61, R88, R127, R142). -/
def inConfigWrite (n : BitVec 8) (reg : BitVec 3) (val : Word) (s : State) : State :=
  let off := Reg.IN_CFG n.toNat + 4 * reg.toNat
  let v := val &&& inMask n.toNat reg.toNat
  let b := s.pended
  let c := b.wr off v
  if b.inEn n.toNat && !c.inEn n.toNat && s.sampled n.toNat then s.accErr true off
  else if !s.inRun then s.wr off v
  else if b.inEn n.toNat && !c.inEn n.toNat && s.captured n.toNat then s.accErr true off
  else if codesOk c n.toNat reg.toNat && State.inputOk b c n.toNat then
    ({ s with fe := { s.fe with pend := s.fe.pend ++ [(off, v)] } }).wr Reg.FR_BUDGET (word c.windowCost)
  else s.accErr true off

def execInConfigWrite (n : BitVec 8) (reg : BitVec 3) (val : Word) (s : State) : Host.Outcome State Fault Refusal :=
  fin (inConfigWrite n reg val s)

/-- A write to FE_CTL (R61, R85): in Run a re-enabled die must fit its budget, and the change takes effect at the next
tick, from which R132 counts. -/
def feCtlWrite (val : Word) (s : State) : State :=
  let v := val &&& 3
  if !s.inRun then s.wr Reg.FE_CTL v
  else
    let c := s.pended.wr Reg.FE_CTL v
    if c.dieOver.isEmpty then { s with fe := { s.fe with pend := s.fe.pend ++ [(Reg.FE_CTL, v)] } }
    else s.accErr true Reg.FE_CTL

def execFeCtlWrite (val : Word) (s : State) : Host.Outcome State Fault Refusal := fin (feCtlWrite val s)

/-! ## Blanking (R69 to R71) -/

def State.blankEn (s : State) (b : Nat) : Bool := s.alive && s.flag (Reg.FE_BLANKCFG b) Fld.FE_BLANKCFG_en

/-- The end of a blanked stretch whose last word is `l`. -/
def BlankSt.close (x : BlankSt) (l : Nat) : BlankSt :=
  { x with active := false, last := none, frames := 0, longRaised := false
           spans := if x.first ≤ l then x.spans ++ [{ first := x.first, last := l, upper := false }] else x.spans }

/-- A watched pin becomes active in word `w`: blanking starts two clocks later; a running extension that reaches to that word or
beyond goes on. -/
def State.blankOn (s : State) (b w : Nat) : State :=
  let x := s.blank b
  if !s.blankEn b || x.asserted then s
  else if !x.active then
    s.setBlank b { x with asserted := true, active := true, first := w + 2, last := none, frames := 0, longRaised := false }
  else match x.last with
    | none => s.setBlank b { x with asserted := true }
    | some l =>
      if w + 2 ≤ l + 1 then s.setBlank b { x with asserted := true, last := none }
      else s.setBlank b { x with asserted := true, last := none, first := w + 2, frames := 0, longRaised := false
                                 spans := x.spans ++ [{ first := x.first, last := l, upper := false }] }

/-- A watched pin leaves its active level in word `w`: the last word blanked is `ext` clocks on. -/
def State.blankOff (s : State) (b w : Nat) : State :=
  let x := s.blank b
  if !x.asserted then s
  else
    let ext := s.fget (Reg.FE_BLANKCFG b) Fld.FE_BLANKCFG_ext
    let x := { x with asserted := false }
    if w + ext ≤ x.first then s.setBlank b { x with active := false, last := none, frames := 0, longRaised := false }
    else if ext = 0 then s.setBlank b (x.close (w - 1))
    else s.setBlank b { x with last := some (w + ext - 1) }

/-- The pin's level, which FE_BLANKCFG[b].pol makes active or not (R69). -/
def State.pinActive (s : State) (b : Nat) : Bool := (s.blank b).pin != s.flag (Reg.FE_BLANKCFG b) Fld.FE_BLANKCFG_pol
def State.pinTo (s : State) (b : Nat) (active : Bool) : State :=
  s.setBlank b { s.blank b with pin := active != s.flag (Reg.FE_BLANKCFG b) Fld.FE_BLANKCFG_pol }

def blankAssert (b : BitVec 2) (w : Nat) (s : State) : State := if s.alive then (s.pinTo b.toNat true).blankOn b.toNat w else s

def execBlankAssert (b : BitVec 2) (word : Nat) (s : State) : Host.Outcome State Fault Refusal :=
  fin (blankAssert b word s)

def blankRelease (b : BitVec 2) (w : Nat) (s : State) : State := if s.alive then (s.pinTo b.toNat false).blankOff b.toNat w else s

def execBlankRelease (b : BitVec 2) (word : Nat) (s : State) : Host.Outcome State Fault Refusal :=
  fin (blankRelease b word s)

/-- A write to FE_BLANKCFG[b] has been taken: a pin that is no longer watched stops blanking with the present word, and a change
of polarity acts as the edge it makes (R69). -/
def State.blankJudge (s : State) (b : Nat) : State :=
  let w := s.adcWordAt s.now
  let x := s.blank b
  if !s.blankEn b then (if x.active || x.asserted then s.setBlank b (({ x with asserted := false }).close (w - 1)) else s)
  else if s.pinActive b then s.blankOn b w
  else s.blankOff b w

def blankExtensionExpire (b : BitVec 2) (s : State) : State :=
  let x := s.blank b.toNat
  match x.active, x.last with
  | true, some l => s.setBlank b.toNat (x.close l)
  | _, _ => s

def execBlankExtensionExpire (b : BitVec 2) (s : State) : Host.Outcome State Fault Refusal :=
  fin (blankExtensionExpire b s)

def State.blankLongLimit (s : State) : Nat := s.fget Reg.FE_BLANKLONG Fld.FE_BLANKLONG_long

/-- BLANK_LONG, once per blanked interval (R71): the group is in its frame after the `long`th whole one. -/
def blankLong (b : BitVec 2) (s : State) : State :=
  let x := s.blank b.toNat
  if x.active && !x.longRaised && s.blankLongLimit != 0 && decide (s.blankLongLimit ≤ x.frames + 1) then
    (s.setBlank b.toNat { x with longRaised := true }).raise 12 b.toNat 0
  else s

def execBlankLong (b : BitVec 2) (s : State) : Host.Outcome State Fault Refusal := fin (blankLong b s)

/-! ## Leads (R66) -/

def State.leadAge (s : State) (g : Nat) : Nat := s.fget (Reg.FE_LDSTAT g) Fld.FE_LDSTAT_age

/-- The stale bit of a group follows its age. -/
def State.judgeStale (s : State) (g : Nat) : State :=
  s.setFlag (Reg.FE_LDSTAT g) Fld.FE_LDSTAT_stale
    (decide (s.fget Reg.FE_LEADCTL Fld.FE_LEADCTL_max_age < s.leadAge g))

def leadStale (g : BitVec 5) (s : State) : State := if s.alive then s.judgeStale g.toNat else s

def execLeadStale (g : BitVec 5) (s : State) : Host.Outcome State Fault Refusal := fin (leadStale g s)

/-! ## Broken wires (R73 to R79) -/

/-- The input takes part in the frames that run, on a die that is enabled. -/
def State.acquiring (s : State) (n : Nat) : Bool := s.running && s.inEn n && s.dieEn (n / 128)

/-- Compliance of an excited driver: the frame is marked, the event comes once per episode (R76). -/
def excCompliance (n : BitVec 8) (s : State) : State :=
  let i := n.toNat
  if !(s.acquiring i && s.inMode i == 0) then s
  else
    let x := s.inSt i
    let s := (s.setIn i { x with compl := true, complEp := true }).setFlag (Reg.IN_STAT i) Fld.IN_STAT_compl_lat true
    if x.complEp then s else s.raise 9 i 0

def execExcCompliance (n : BitVec 8) (s : State) : Host.Outcome State Fault Refusal := fin (excCompliance n s)

/-- The diagnostic window closes; `peak` is the largest |V(EXCn) − V(SNSn)| in it, in µV (R73, R75). -/
def headlandWindow (n : BitVec 8) (peak : Nat) (s : State) : State :=
  let i := n.toNat
  if s.acquiring i && (s.inPull i == 1 || s.inPull i == 2) && (s.inMode i == 0 || s.inMode i == 1) then
    s.modIn i (fun x => { x with window := some (decide (s.fget (Reg.IN_LIM i) Fld.IN_LIM_ow_thr * 10000 < peak)) })
  else s

def execHeadlandWindow (n : BitVec 8) (peak : Nat) (s : State) : Host.Outcome State Fault Refusal :=
  fin (headlandWindow n peak s)

/-- The floor run of an input, and whether it declares an open wire (R77). -/
def State.floorRun (s : State) (n : Nat) : Nat := s.fget (Reg.IN_STAT n) Fld.IN_STAT_floor_run
def State.floorDeclares (s : State) (n : Nat) : Bool :=
  let c := s.fget (Reg.IN_LIM n) Fld.IN_LIM_floor_cnt
  s.inMode n == 0 && c != 0 && decide (c ≤ s.floorRun n)

/-- The declaration of R79, by the floor (cause 1) or by the window (cause 2), once until the condition clears. -/
def State.judgeOpen (s : State) (n : Nat) : State :=
  if s.flag (Reg.IN_STAT n) Fld.IN_STAT_open then s
  else
    let set := fun (s : State) (cause : Nat) =>
      ((s.setFlag (Reg.IN_STAT n) Fld.IN_STAT_open true).setFlag (Reg.IN_STAT n) Fld.IN_STAT_open_lat true).raise 8 n cause
    if s.floorDeclares n then set s 1 else if 2 ≤ (s.inSt n).tripRun then set s 2 else s

def openWire (n : BitVec 8) (s : State) : State := if s.acquiring n.toNat then s.judgeOpen n.toNat else s

def execOpenWire (n : BitVec 8) (s : State) : Host.Outcome State Fault Refusal := fin (openWire n s)

/-! ## Overload (R93 to R95) -/

/-- Overload detected in word `w`; the integrators are reset `resetAfter` clocks later, and the words up to 32 clocks after
that are overload words (R93, R94). An input that takes part in no frame yet keeps the words that may reach into its first one,
and opens no episode, which R95 counts in frames (log 82); one of a disabled die takes part, for its modulators stay powered (R98). -/
def modOverload (n : BitVec 8) (w : Nat) (resetAfter : BitVec 2) (upper : Bool) (s : State) : State :=
  let i := n.toNat
  let x := s.inSt i
  let span : WordSpan := { first := w, last := w + resetAfter.toNat + 32, upper := upper }
  if !s.inRun then s
  else if !(s.running && s.inEn i) then s.setIn i { x with ovl := x.ovl ++ [span] }
  else
    let s := s.setIn i { x with ovlEp := true, ovl := x.ovl ++ [span] }
    if x.ovlEp then s
    else
      let a := Reg.CV_OVL (i / 32)
      ((s.wr a (s.rd a ||| (1#32 <<< (i % 32)))).incSat Reg.CV_OVLCNT 1).raise 16 i 0

def execModOverload (n : BitVec 8) (word : Nat) (resetAfter : BitVec 2) (upper : Bool) (s : State) :
    Host.Outcome State Fault Refusal := fin (modOverload n word resetAfter upper s)

/-- CV_STAT.clr_ovl (R100). -/
def clrOvl (s : State) : State := s.wr Reg.CV_OVLCNT 0
def execClrOvl (s : State) : Host.Outcome State Fault Refusal := fin (clrOvl s)

/-! ## The modulator clock (R96, R195) -/

def State.pllLocked (s : State) : Bool := s.flag Reg.CV_STAT Fld.CV_STAT_lock

/-- The PLL is unlocked: every input carries FLT from this interval on. -/
def State.pllUnlock (s : State) : State :=
  let s := (s.setFlag Reg.CV_STAT Fld.CV_STAT_lock false).setFlag Reg.CV_STAT Fld.CV_STAT_lock_lost true
  { s with fe := { s.fe with pllFlt := true } }

def modPllLockLoss (s : State) : State :=
  if s.pllLocked then (s.pllUnlock.raise 13 0 1).raise 14 0 1 else s

def execModPllLockLoss (s : State) : Host.Outcome State Fault Refusal := fin (modPllLockLoss s)

/-! ## Threshold trims (R97 to R99) -/

/-- Both dies are to be trimmed. -/
def State.startTrims (s : State) : State :=
  let s := (s.setFlag Reg.CV_STAT Fld.CV_STAT_trim_a_done false).setFlag Reg.CV_STAT Fld.CV_STAT_trim_b_done false
  State.noteTrim { s with fe := { s.fe with trimA := true, trimB := true } }

/-- CV_CTL.retrim = 1: accepted in Idle, else discarded by R3 unless it reads 1 already. -/
def retrim (s : State) : State :=
  if s.flag Reg.CV_CTL Fld.CV_CTL_retrim then s
  else if s.idleOpen then (s.setFlag Reg.CV_CTL Fld.CV_CTL_retrim true).startTrims
  else s.accErr true Reg.CV_CTL

/-- A write to CV_CTL: a 1 asks for the trim; a 0 while the bit reads 1 changes nothing in Idle, and elsewhere it is a differing
value of an RWL field (R3, R98). -/
def State.cvCtlWrite (s : State) (v : Word) : State :=
  if v.getLsbD 0 then retrim s
  else if s.flag Reg.CV_CTL Fld.CV_CTL_retrim && !s.idleOpen then s.accErr true Reg.CV_CTL
  else s

def execRetrim (s : State) : Host.Outcome State Fault Refusal := fin (retrim s)

/-- The limit of the idle-tone figure (R167). -/
def idleLimit : Nat := 1400

/-- One modulator's figure after its trim (R99, R167, R168). -/
def State.idleFigure (s : State) (n : Nat) (fig : BitVec 16) : State :=
  let s := s.wr (Reg.CAL_IDLE n) (fig.setWidth 32)
  if fig.toNat < idleLimit then
    (s.setFlag Reg.CV_STAT Fld.CV_STAT_trim_low true).raiseD 23 n 0 0 (fig.setWidth 64)
  else s

/-- Whether some modulator's last figure is below the limit; die `d` has just been trimmed, and a figure of 0 on the other
die says that it has not been. -/
def State.anyIdleLow (s : State) (d : Nat) : Bool :=
  (List.range 256).any (fun n =>
    (n / 128 == d || s.rdN (Reg.CAL_IDLE n) != 0) && decide (s.rdN (Reg.CAL_IDLE n) < idleLimit))

/-- The trim of a die completes, with the figures of its 128 modulators; a die whose link has not passed its check is not trimmed
(R97). -/
def trimComplete (die : Die) (figures : List (BitVec 16)) (s : State) : State :=
  let d := dieNo die
  if !(if d = 0 then s.fe.trimA else s.fe.trimB) || !s.dieLink d then s
  else
    let s := if d = 0 then { s with fe := { s.fe with trimA := false } } else { s with fe := { s.fe with trimB := false } }
    let s := if d = 0 then s.setFlag Reg.CV_STAT Fld.CV_STAT_trim_a_done true
      else s.setFlag Reg.CV_STAT Fld.CV_STAT_trim_b_done true
    let s := ((figures.take 128).zipIdx).foldl (fun s p => s.idleFigure (128 * d + p.2) p.1) s
    let s := (s.setFlag Reg.CV_STAT Fld.CV_STAT_trim_low (s.anyIdleLow d)).noteTrim
    if s.fe.trimA || s.fe.trimB then s else s.setFlag Reg.CV_CTL Fld.CV_CTL_retrim false

def execTrimComplete (die : Die) (figures : List (BitVec 16)) (s : State) : Host.Outcome State Fault Refusal :=
  fin (trimComplete die figures s)

/-! ## Settle counts (R130 to R134) -/

/-- A count of N frames from frame `f` on, inclusive; counts never shorten one another (R133). -/
def State.settleFrom (s : State) (n f count : Nat) : State :=
  if count = 0 then s else s.modIn n (fun x => { x with setEnd := max x.setEnd (f + count - 1) })

/-- A settle count has run out: its last frame's window has opened, and the count is no longer held. -/
def settleCountExpire (n : BitVec 8) (s : State) : State :=
  if (s.inSt n.toNat).setEnd ≤ s.frameNo then s.modIn n.toNat (fun x => { x with setEnd := 0 }) else s

def execSettleCountExpire (n : BitVec 8) (s : State) : Host.Outcome State Fault Refusal := fin (settleCountExpire n s)

end Sys2Proof.Machine
end

