-- ==== Sys2Proof/Machine/Operands.lean ====
section
/-! DEFINITION. What a tick takes from the closed interval (the acquire step): which modulator words are discarded, the
frame mean, the floor test, the diagnostic window, and the causes that mark the frame (R73 to R79, R91 to R96, R121 to
R124, R131). -/

namespace Sys2Proof.Machine

/-- What the acquire step knows of one input in one frame. -/
structure InFrame where
  /-- The frame mean in units of 2^-46. -/
  x : Int
  blk : Bool
  /-- The frame holds an overload word; the direction of its first overload. -/
  ovl : Option Bool
  /-- The current exceeded range full scale (R53); a pin was beyond the rails (R84). -/
  ovr : Bool
  rail : Bool
  opn : Bool
  flt : Bool
  deriving DecidableEq, Repr

def inSpan (l : List WordSpan) (i : Nat) : Bool := l.any (fun w => decide (w.first ≤ i) && decide (i ≤ w.last))

/-- A span has a word of an interval of `w` words; it goes on into the next interval. -/
def WordSpan.within (p : WordSpan) (w : Nat) : Bool := decide (p.first < w) && decide (p.first ≤ p.last)
def WordSpan.goesOn (p : WordSpan) (w : Nat) : Bool := decide (p.first < w) && decide (w ≤ p.last)

/-- The part of spans that lies in the next interval. -/
def carrySpans (l : List WordSpan) (w : Nat) : List WordSpan :=
  (l.filter (fun p => decide (w ≤ p.last))).map (fun p => { p with first := p.first - w, last := p.last - w })

/-- Words of an interval. -/
def State.wordsPerFrame (s : State) : Nat := s.m * 256

/-- Words of the present interval: more where a time step has stretched it (R189). -/
def State.intervalWords (s : State) : Nat := s.wordsPerFrame + s.fr.stretch

/-- The reversal guard (R56, R57): the first g − 2 words after an edge and the last 2 before the next. -/
def State.guardCut (s : State) (n i : Nat) : Bool :=
  let w := s.inK n * 256
  s.reverses n && (i % w < s.inGuard n - 2 || w ≤ i % w + 2)

/-- The guard words among the last 256 of an interval of `w` words. -/
def State.guardTail (s : State) (n w : Nat) : List WordSpan :=
  let e := (w - 1) / (s.inK n * 256) * (s.inK n * 256)
  if !s.reverses n then []
  else (if 2 < s.inGuard n then [{ first := e, last := e + s.inGuard n - 3, upper := false }] else [])
    ++ [{ first := w - 2, last := w - 1, upper := false }]

/-- The polarity interval of a word is negative (R45, R121). -/
def State.negative (s : State) (n i : Nat) : Bool := s.reverses n && i / (s.inK n * 256) % 2 == 1

/-- A pull current is on: headland, pull-up or pull-down, not in self-test, on an enabled die (R72, R85). -/
def State.pullOn (s : State) (n : Nat) : Bool :=
  (s.inPull n == 1 || s.inPull n == 2) && (s.inMode n == 0 || s.inMode n == 1) && s.dieEn (n / 128)

/-- The diagnostic window (R73). -/
def State.windowSpan (s : State) (n : Nat) : WordSpan :=
  let w := s.intervalWords
  if s.inMode n = 0 then { first := w - 34, last := w - 3, upper := false } else { first := w - 32, last := w - 1, upper := false }

/-- The words that the window takes: in excited mode with the mirror words before the last negative-going edge (R74). -/
def State.windowSpans (s : State) (n : Nat) : List WordSpan :=
  if !s.pullOn n then []
  else if s.inMode n = 0 then
    let e := (s.m / s.inK n - 1) * (s.inK n * 256)
    [s.windowSpan n, { first := e - 34, last := e - 3, upper := false }]
  else [s.windowSpan n]

/-- The blanked stretches of a group in the closing interval (R69). -/
def State.blankSpans (s : State) (b : Nat) : List WordSpan :=
  let x := s.blank b
  if x.active then x.spans ++ [{ first := x.first, last := x.last.getD s.intervalWords, upper := false }] else x.spans

/-- The blanked stretches of an input (R70). -/
def State.inBlanks (s : State) (n : Nat) : List WordSpan :=
  if s.flag (Reg.IN_CFG n) Fld.IN_CFG_blank_en then s.blankSpans (s.fget (Reg.IN_CFG n) Fld.IN_CFG_blank_grp) else []

/-- A word is retained unless a cause of R121 discards it. -/
def State.retained (s : State) (n : Nat) (cuts : List WordSpan) (i : Nat) : Bool := !(s.guardCut n i) && !(inSpan cuts i)

/-- Σ s (2w − 15) and the count over the retained words. -/
def wordSums (keep neg : Nat → Bool) (ws : List (BitVec 4 × Nat)) : Int × Nat :=
  ws.foldl (fun acc p =>
    if keep p.2 then
      let v : Int := 2 * (p.1.toNat : Int) - 15
      (acc.1 + (if neg p.2 then -v else v), acc.2 + 1)
    else acc) (0, 0)

/-- The frame mean (R122, R123): 4 N ÷ 45 C, with N = Σ s (2w − 15), in units of 2^-46. -/
def frameMean (sums : Int × Nat) : Int := if sums.2 = 0 then 0 else roundDiv (4 * sums.1 * 2 ^ 46) (45 * sums.2)

/-- The current floor (R77): whether any pair was compared, and whether a compared pair fell below. -/
def State.floorTest (s : State) (n : Nat) (keep : Nat → Bool) (ws : List (BitVec 4 × Nat)) : Bool × Bool :=
  if s.inMode n = 0 && s.fget (Reg.IN_LIM n) Fld.IN_LIM_floor_cnt != 0 && s.inK n != 0 then
    let w := s.inK n * 256
    let floor : Int := s.fget (Reg.IN_LIM n) Fld.IN_LIM_floor
    (List.range (s.m / (2 * s.inK n))).foldl (fun acc p =>
      let part := (ws.drop (2 * w * p)).take (2 * w)
      let pos := wordSums keep (fun _ => false) (part.take w)
      let ng := wordSums keep (fun _ => true) (part.drop w)
      if pos.2 = 0 || ng.2 = 0 then acc
      else (true, acc.2 || decide (4 * (pos.1 + ng.1) * 65536 < floor * 45 * ((pos.2 + ng.2 : Nat) : Int)))) (false, false)
  else (false, false)

/-- A fault marks the inputs of a die in the closing interval (R14, R15, R85, R96, R427), and whether it lasts. -/
def State.dieFlt (s : State) (d : Nat) : Bool :=
  (if d = 0 then s.fe.failA || s.fe.resetSeenA else s.fe.failB || s.fe.resetSeenB) || !s.dieLink d || !s.dieEn d || s.fe.pllFlt
    || !s.pllLocked
def State.dieFltLasts (s : State) (d : Nat) : Bool :=
  (if d = 0 then s.fe.resetA else s.fe.resetB) || !s.dieLink d || !s.dieEn d || !s.pllLocked

/-- An episode's settle count starts in its last frame `f` (R131); one that turns out to have ended at the tick counts from
the frame before (log 36). -/
def State.settleEpisode (s : State) (n f : Nat) (present lasts : Bool) : State :=
  if present && !lasts then s.settleFrom n f (s.settle n) else s

/-- The open-wire tests of a frame (R76 to R79): whether the frame carries OPN, and the state after it. -/
def State.openTests (s : State) (n f : Nat) (keep : Nat → Bool) (ws : List (BitVec 4 × Nat)) : Bool × State :=
  let x := s.inSt n
  let (compared, below) := s.floorTest n keep ws
  let testOn := s.inMode n == 0 && s.fget (Reg.IN_LIM n) Fld.IN_LIM_floor_cnt != 0
  let run := if !testOn then 0 else if !compared then s.floorRun n else if below then min 255 (s.floorRun n + 1) else 0
  let win := s.windowSpan n
  let ignored := (s.inBlanks n).any (fun b => decide (b.first ≤ win.last) && decide (win.first ≤ b.last) && decide (b.first ≤ b.last))
  let result := if s.pullOn n && !ignored then x.window else none
  let trip := result == some true
  let tripRun := if !s.pullOn n then 0 else match result with
    | some true => x.tripRun + 1
    | some false => 0
    | none => x.tripRun
  let compl := x.compl && s.inMode n == 0
  let marked := compl || below || trip
  let s := s.setIn n { x with window := none, tripRun := tripRun, compl := false, complEp := compl }
  let s := s.fput (Reg.IN_STAT n) Fld.IN_STAT_floor_run run
  let s := s.setFlag (Reg.IN_STAT n) Fld.IN_STAT_compl compl
  let wasOpen := s.flag (Reg.IN_STAT n) Fld.IN_STAT_open
  let s := if wasOpen && !marked then
      (s.setFlag (Reg.IN_STAT n) Fld.IN_STAT_open false).settleFrom n (f - 1) (s.settle n)
    else if below || trip then s.judgeOpen n else s
  (marked, s)

/-- The acquire step of one enabled input in frame `f`.  The direction of an overload (R511) takes the sign of the block that holds
the frame's first overload word, which of a tail that runs over a tick is word 0 (DESIGN CHOICE, log 82).  IN_STAT.active shows an
enabled input of a disabled die too (DESIGN CHOICE, log 88). -/
def State.acquireInput (s : State) (n f : Nat) (w : Option InWords) : InFrame × State :=
  let words := s.intervalWords
  let x := s.inSt n
  let blanks := s.inBlanks n
  let cuts := s.windowSpans n ++ blanks ++ x.sense ++ x.ovl
  let keep := s.retained n cuts
  let ws := (((w.map InWords.words).getD []).take words).zipIdx
  let mean := frameMean (wordSums keep (s.negative n) ws)
  let blanked := blanks.any (fun p => p.within words)
  let blk := blanked || x.sense.any (fun p => p.within words)
  let ended := (blanks ++ x.sense).any (fun p => p.within words && !p.goesOn words)
  let overs := x.ovl.filter (fun p => p.within words)
  let ovl := overs.head?.map (fun p => p.upper != s.negative n p.first)
  let d := n / 128
  let flt := s.dieFlt d
  let (opn, s) := s.openTests n f keep ws
  let s := s.modIn n (fun x => { x with
    hist := (mean :: x.hist).take (s.settle n), ovlEp := !overs.isEmpty
    ovlPrev := x.ovl, ovl := carrySpans x.ovl words
    discPrev := s.windowSpans n ++ blanks ++ x.sense ++ s.guardTail n words, sense := carrySpans x.sense words
    blkEp := blanks.any (fun p => p.goesOn words) })
  let s := s.settleEpisode n f ended false
  let s := s.settleEpisode n (f - 1) (x.blkEp && !blanked) false
  let s := s.settleEpisode n f (!overs.isEmpty) (overs.any (fun p => p.goesOn words))
  let s := s.settleEpisode n f flt (s.dieFltLasts d)
  let s := s.setFlag (Reg.IN_STAT n) Fld.IN_STAT_blanked blanked
  let s := s.setFlag (Reg.IN_STAT n) Fld.IN_STAT_active true
  let s := s.setFlag (Reg.IN_STAT n) Fld.IN_STAT_selftest (s.inMode n == 2)
  ({ x := mean, blk := blk, ovl := ovl, ovr := decide (2 ^ 46 < mean.natAbs), rail := (w.map InWords.beyondRail).getD false
     opn := opn, flt := flt }, s)

/-- A blanking group passes a tick: stretches that go on are carried over; whole frames count (R71). -/
def State.blankTick (s : State) (b : Nat) : State :=
  match kget? s.fe.blanks b with
  | none => s
  | some x =>
    let words := s.intervalWords
    let whole := x.active && x.first = 0 && (match x.last with | none => true | some l => decide (words ≤ l + 1))
    let ends := match x.active, x.last with
      | true, some l => decide (l < words)
      | _, _ => false
    let x := { x with spans := carrySpans x.spans words, first := x.first - words
                      last := x.last.map (· - words), frames := if whole then x.frames + 1 else x.frames }
    let x := if ends then { x with active := false, last := none, frames := 0, longRaised := false } else x
    let s := s.setBlank b x
    if x.active && !x.longRaised && s.blankLongLimit != 0 && decide (s.blankLongLimit < x.frames) then
      (s.setBlank b { x with longRaised := true }).raise 12 b 0
    else s

/-- A lead-loop result is judged at the acquire step (R64, R66, R67).  LEAD_DRIFT compares the values as stored, a negative one as
0 (DESIGN CHOICE, log 82). -/
def State.judgeLead (s : State) (g : Nat) (v : Int) (sat : Bool) : State :=
  if sat || decide (2000 * 65536 ≤ v) then s.setFlag (Reg.FE_LDSTAT g) Fld.FE_LDSTAT_open true
  else
    let old : Int := s.rdN (Reg.FE_LDRES g)
    let new := if v < 0 then 0 else v
    let thr : Int := s.fget Reg.FE_LEADCTL Fld.FE_LEADCTL_drift_thr
    let drift := s.fe.leadEver.getLsbD g && thr != 0 && decide (thr * 65536 < ((new - old).natAbs : Int) * 100)
    let bit := 1#32 <<< g
    let s := { s with fe := { s.fe with leadSeen := s.fe.leadSeen ||| bit, leadEver := s.fe.leadEver ||| bit } }
    let s := s.wr (Reg.FE_LDRES g) (wordI new)
    let s := (s.setFlag (Reg.FE_LDSTAT g) Fld.FE_LDSTAT_open false).fput (Reg.FE_LDSTAT g) Fld.FE_LDSTAT_age 0
    if drift then s.raiseD 11 g 0 0 (BitVec.ofInt 64 (new - old)) else s

/-- Every lead group is one frame older (R66). -/
def State.ageLeads (s : State) : State :=
  (List.range 32).foldl (fun s g => s.fput (Reg.FE_LDSTAT g) Fld.FE_LDSTAT_age (min 65535 (s.leadAge g + 1))) s
def State.staleLeads (s : State) : State := (List.range 32).foldl (fun s g => s.judgeStale g) s

/-- The lead groups in a frame: ages, the interval's results, staleness. -/
def State.acquireLeads (s : State) : State :=
  let s := s.ageLeads
  let res := s.fe.leadRes
  let s := { s with fe := { s.fe with leadRes := [] } }
  (res.foldl (fun s r => s.judgeLead r.1 r.2.1 r.2.2) s).staleLeads

/-- Overload and sense words of an input that takes part in no frame go on into the next interval (R94, R106, R119). -/
def State.carryIdle (s : State) : State :=
  let w := s.intervalWords
  { s with fe := { s.fe with ins := s.fe.ins.map (fun (e : Nat × InSt) =>
    if s.inEn e.1 then e
    else (e.1, { e.2 with ovlPrev := e.2.ovl, ovl := carrySpans e.2.ovl w
                          discPrev := s.inBlanks e.1 ++ e.2.sense, sense := carrySpans e.2.sense w })) } }

/-- The whole acquire step of frame `f`: leads, every enabled input, then the interval's marks start anew. -/
def State.acquire (s : State) (f : Nat) (inp : List InWords) : List (Nat × InFrame) × State :=
  let s := s.acquireLeads
  let r := s.enabledInputs.foldl (fun (acc : List (Nat × InFrame) × State) n =>
    let (fr, s) := acc.2.acquireInput n f (inp.find? (fun w => w.input.toNat == n))
    (acc.1 ++ [(n, fr)], s)) ([], s)
  let s := (List.range 4).foldl State.blankTick r.2.carryIdle
  let s := { s with fe := { s.fe with failA := !s.dieLink 0, failB := !s.dieLink 1, pllFlt := !s.pllLocked
                                      resetSeenA := s.fe.resetA, resetSeenB := s.fe.resetB }
                    fr := { s.fr with stretch := 0 } }
  (r.1, s)

end Sys2Proof.Machine
end

