-- ==== Sys2Proof/Machine/Flags.lean ====
section
/-! DEFINITION. The sample status byte (R135, R136). -/

namespace Sys2Proof.Machine

def stVAL : Nat := 1
def stSET : Nat := 2
def stBLK : Nat := 4
def stOVR : Nat := 8
def stOPN : Nat := 16
def stLEAD : Nat := 32
def stREFX : Nat := 64
def stFLT : Nat := 128

/-- A status byte carries VAL. -/
def hasVal (st : Byte) : Bool := st.getLsbD 0

/-- Lead compensation of an input is stale: its group is, or has no accepted measurement since enable (R65, R66). -/
def State.leadBad (s : State) (n : Nat) : Bool :=
  let g := s.inGroup n
  s.inMode n == 0 && s.inWeight n != 0 && g < 32
    && (s.flag (Reg.FE_LDSTAT g) Fld.FE_LDSTAT_stale || !s.fe.leadSeen.getLsbD g)

/-- The bits that front end and settle counts report for frame `f`, before ratio and saturation. -/
def State.frontBits (s : State) (n f : Nat) (fr : InFrame) : Nat :=
  (if f ≤ (s.inSt n).setEnd then stSET else 0) + (if fr.blk then stBLK else 0)
    + (if fr.ovl.isSome || fr.ovr || fr.rail then stOVR else 0) + (if fr.opn then stOPN else 0)
    + (if s.leadBad n then stLEAD else 0) + (if fr.flt then stFLT else 0)

/-- Bits that clear VAL (R136). -/
def clearsVal (st : Nat) : Bool := st &&& (stSET + stBLK + stOVR + stOPN + stREFX + stFLT) != 0

end Sys2Proof.Machine
end

