-- ==== Sys2Proof/Machine/Reduce.lean ====
section
/-! DEFINITION. The reduce step: response, calibration, resistance, lead subtraction, ratio, user offset, and the slot each
enabled input yields (R140 to R149, R137, R511).  Where the pseudocode of R146 and R147 leaves the order of binary64
operations open, the order is that of the text, left to right (log 14). -/

namespace Sys2Proof.Machine

/-- A value slot: the code, the status byte, and R' of an input that may serve as a reference. -/
structure Slot where
  n : Nat
  value : Int
  st : Nat
  rprim : Word64
  deriving DecidableEq, Repr

/-- Nominal amplitude at 4.096 V, in volts (R54). -/
def vexcNom (amp : Nat) : Word64 := fadd (fofRat 5 100) (fdiv (fmul (fofInt amp) (fofRat 245 100)) (fofInt 65535))

/-- Full scale of a range, in amperes. -/
def ifsAmp (r : Nat) : Word64 := fofRat (fsUA r) 1000000

/-- One Lagrange term of R147: the correction times the product over the other points. -/
def linTerm (v c : Word64) (others : List Word64) (den : Word64) : Word64 :=
  if fabs c = 0 then f0 else fdiv (fmul c (others.foldl (fun a q => fmul a (fsub v q)) f1)) den

/-- The linearity correction (R147): the polynomial of degree 4 through the five points. -/
def lin (c : List Word64) (v : Word64) : Word64 :=
  let m1 := fm1
  let mh := fneg f05
  let term := fun (i : Nat) (o : List Word64) (d : Word64) => linTerm v (c.getD i f0) o d
  fadd (fadd (fadd (fadd (term 0 [mh, f0, f05, f1] (fofRat 3 2)) (term 1 [m1, f0, f05, f1] (fneg (fofRat 3 8))))
    (term 2 [m1, mh, f05, f1] (fofRat 1 4))) (term 3 [m1, mh, f0, f1] (fneg (fofRat 3 8))))
    (term 4 [m1, mh, f0, f05] (fofRat 3 2))

/-- Steps 1 and 2 of R146: offset, gain and linearity of the present range. -/
def State.calibrated (s : State) (n : Nat) (y : Word64) : Word64 :=
  let w := fun (k : Nat) => s.calEntry n (s.inRange n) k
  let q31 := fun (x : Word) => fofScaled x.toInt (-31)
  let v := fmul (fofScaled ((w 1).toNat : Int) (-30)) (fsub y (q31 (w 0)))
  let cs := (List.range 5).map (fun i => w (2 + i))
  if cs.all (fun c => c == 0#32) then v else fadd v (lin (cs.map q31) v)

/-- The lead resistance in ohms (R65); 0 before the first accepted measurement (R66). -/
def State.rlead (s : State) (n : Nat) : Word64 :=
  let g := s.inGroup n
  if g < 32 && s.fe.leadSeen.getLsbD g then fofScaled ((s.rdN (Reg.FE_LDRES g) * s.inWeight n : Nat) : Int) (-31) else f0

def maxCode : Int := 2147483647
def minCode : Int := -2147483648

/-- Quantisation with saturation (R148, R149): at or above `lim`, or where rounding passes the top code; below −`lim`. -/
def quant (x lim : Word64) (bits : Nat) : Int × Bool :=
  if fle lim x then (maxCode, true)
  else if flt x (fneg lim) then (minCode, true)
  else match froundI x (2 ^ bits) with
    | none => (maxCode, true)
    | some v => if maxCode < v then (maxCode, true) else if v < minCode then (minCode, true) else (v, false)

/-- sat_add of R148. -/
def satAdd (q : Int) (user : Word) : Int × Bool :=
  let v := q + user.toInt
  if maxCode < v then (maxCode, true) else if v < minCode then (minCode, true) else (v, false)

/-- The value of an input (R146): the code, whether it saturated, and R'.  `refd` says that ref_en is 1; `ref` is then R' of the
reference, where it is positive: without it no ratio is formed.  A self-test value beyond ±1.0, of which R149 does not speak,
saturates like the value of a current (DESIGN CHOICE, log 88). -/
def State.sampleValue (s : State) (n : Nat) (refd : Bool) (ref : Option Word64) : Int × Bool × Word64 :=
  let u := s.calibrated n (response (s.inResp n) s.m (s.inSt n).hist)
  let user := s.rd (Reg.IN_USER n)
  match s.inMode n with
  | 2 => let (q, t) := quant u f1 31; (q, t, f0)
  | 0 =>
    if !flt f0 u then (maxCode, true, f0)
    else
      let ifs := ifsAmp (s.inRange n)
      let v := vexcNom (s.inAmp n)
      let rp := fsub (fdiv v (fmul u ifs)) (s.rlead n)
      match if refd then ref else some (fdiv v ifs) with
      | none => (0, false, rp)
      | some div =>
        let (q, t) := quant (fdiv rp div) f4 29
        if t then (q, true, rp) else let (a, t) := satAdd q user; (a, t, rp)
  | _ =>
    let (q, t) := quant u f1 31
    if t then (q, true, f0) else let (a, t) := satAdd q user; (a, t, f0)

/-- The code limit of a slot whose only bits other than LEAD are OVR: by overload, by current, or that of the saturated value
(R511); a pin beyond the rails alone names no direction, and `free` stands for it (log 2). -/
def State.limitCode (s : State) (n : Nat) (fr : InFrame) (sat : Option Int) (free : Bool) : Int :=
  let limit := fun (pos : Bool) => if (s.inMode n == 0) == pos then minCode else maxCode
  match fr.ovl, sat with
  | some d, _ => limit d
  | none, some v => if fr.ovr then limit (decide (0 ≤ fr.x)) else v
  | none, none => limit (if fr.ovr then decide (0 ≤ fr.x) else free)

/-- The state after an input's OVERRANGE episode is judged (R53, R149). -/
def State.overEpisode (s : State) (n : Nat) (present : Bool) (cause : Nat) : State :=
  let was := (s.inSt n).ovrEp
  let s := s.modIn n (fun x => { x with ovrEp := present })
  if present && !was then s.raise 10 n cause else s

/-- One slot (R136, R137, R143, R82): its value is formed in each frame, whatever the slot then holds (R146, R149); `cut` where the reduce step of its group did not complete; it then holds 0 as R41 states, also
where its only bit is OVR or its input is in self-test, of which R137 says otherwise (DESIGN CHOICE, log 82). -/
def State.reduceInput (s : State) (n f : Nat) (fr : InFrame) (done : List Slot) (cut : Bool) : Slot × State :=
  let refd := s.inMode n == 0 && s.inRefEn n
  let r := done.find? (fun x => x.n == s.inRef n)
  let refOk := match r with
    | some x => x.st % 2 == 1 && flt f0 x.rprim
    | none => false
  let refLead := match r with
    | some x => x.st % 2 == 1 && x.st &&& stLEAD != 0
    | none => false
  let st := s.frontBits n f fr
  let st := if refd && !refOk then st + stREFX else st
  let st := if refd && refLead then st ||| stLEAD else st
  if cut then ({ n := n, value := 0, st := st, rprim := f0 }, s.overEpisode n fr.ovr 0)
  else
    let (v, sat, rp) := s.sampleValue n refd ((r.map Slot.rprim).filter (flt f0))
    let st := if sat then st ||| stOVR else st
    let (free, s) := if fr.rail then s.drawBit else (false, s)
    let value := if st &&& (255 - stLEAD) == stOVR then s.limitCode n fr (if sat then some v else none) free
      else if clearsVal st then 0
      else v
    let st := if clearsVal st || s.inMode n == 2 then st else st + stVAL
    ({ n := n, value := value, st := st, rprim := rp }, s.overEpisode n (fr.ovr || sat) (b2n (!fr.ovr)))

/-- REF_CHANNEL_INVALID (R144): a reference in use loses VAL after a frame in which it had VAL. -/
def State.refEvents (s : State) (slots : List Slot) : State :=
  let ins := s.enabledInputs.filter (fun n => s.inMode n == 0 && s.inRefEn n)
  (List.range 256).foldl (fun s r =>
    if ins.any (fun n => s.inRef n == r) && hasVal (s.inSt r).status
        && !((slots.find? (fun x => x.n == r)).map (fun x => x.st % 2 == 1)).getD false then
      s.raise 15 r 0
    else s) s

/-- The reduce step of frame `f`: references first (R145); then the slots stand in the inputs, in ascending order. -/
def State.reduce (s : State) (f : Nat) (frs : List (Nat × InFrame)) (groupDone : Nat → Bool) : List Slot × State :=
  let isRef := fun (n : Nat) => !(s.inMode n == 0 && s.inRefEn n)
  let order := frs.filter (fun p => isRef p.1) ++ frs.filter (fun p => !isRef p.1)
  let r := order.foldl (fun (acc : List Slot × State) p =>
    let (sl, s) := acc.2.reduceInput p.1 f p.2 acc.1 (!groupDone (p.1 / 8))
    (acc.1 ++ [sl], s)) ([], s)
  let slots := sortBy (fun a b => decide (a.n ≤ b.n)) r.1
  let s := r.2.refEvents slots
  let s := slots.foldl (fun s x =>
    s.modIn x.n (fun i => { i with value := wordI x.value, status := BitVec.ofNat 8 x.st })) s
  (slots, { s with fe := { s.fe with slotted := slots.map Slot.n } })

/-- DF_STAT.settling and DF_SETMAP of a completed window (R139). -/
def State.noteSettling (s : State) : State :=
  let set := s.fe.slotted.filter (fun n => (s.inSt n).status &&& BitVec.ofNat 8 stSET != 0)
  let s := s.fput Reg.DF_STAT Fld.DF_STAT_settling set.length
  (List.range 8).foldl (fun s w =>
    s.wr (Reg.DF_SETMAP w) (word ((set.filter (fun n => n / 32 == w)).foldl (fun a n => a + 2 ^ (n % 32)) 0))) s

end Sys2Proof.Machine
end

