-- ==== Sys2Proof/Machine/Control.lean ====
section
/-! DEFINITION. The control engine (R238 to R263): loop descriptors with their staging, the laws, setpoints, outputs, shared
values and readback. -/

namespace Sys2Proof.Machine

/-! ## Conditions of R253, R258 and R261 (class 0x08 of R477) -/

def State.enabledLoops (s : State) : List Nat := (List.range 32).filter s.loopEn

def State.lumin (s : State) (l : Nat) : Word64 := s.rd64 (Reg.CE_LUMIN_LO l)
def State.lumax (s : State) (l : Nat) : Word64 := s.rd64 (Reg.CE_LUMAX_LO l)
def State.lsafe (s : State) (l : Nat) : Word64 := s.rd64 (Reg.CE_LSAFE_LO l)

/-- A law code of 4 to 7, or a cascade pair that breaks R245. -/
def State.lawBad (s : State) (l : Nat) : Bool :=
  match s.loopLaw l with
  | 0 => false
  | 1 => l % 2 == 1 || !s.loopEn (l + 1) || s.loopLaw (l + 1) != 2 || s.loopKind l != 0
  | 2 => l % 2 == 0 || !s.loopEn (l - 1) || s.loopLaw (l - 1) != 1
  | 3 => false
  | _ => true

/-- A section is stable: |a2| ≤ 1 and |a1| ≤ 1 + a2 (R246). -/
def sectionOk (a1 a2 : Word64) : Bool := fle (fabs a2) f1 && fle (fabs a1) (fadd f1 a2)

/-- A coefficient that is not finite, a negative tf, or a section that breaks R246. -/
def State.coefBad (s : State) (l : Nat) : Bool :=
  let b := s.loopBase l
  (List.range (s.coefCount l)).any (fun i => !fFinite (s.coef (b + i)))
    || (if s.loopLaw l = 3 then
          (List.range (s.loopSections l)).any (fun i => !sectionOk (s.coef (b + 3 + 5 * i + 3)) (s.coef (b + 3 + 5 * i + 4)))
        else flt (s.coef (b + 3)) f0)

/-- umin ≥ umax, or a limit outside 0 to 1 on a bound loop. -/
def State.limitsBad (s : State) (l : Nat) : Bool :=
  let inUnit := fun x => fle f0 x && fle x f1
  !flt (s.lumin l) (s.lumax l) || (s.loopKind l != 0 && !(inUnit (s.lumin l) && inUnit (s.lumax l)))

/-- The enabled loop that drives an output. -/
def State.driver? (s : State) (kind idx : Nat) : Option Nat :=
  s.enabledLoops.find? (fun l => s.loopKind l == kind && s.loopIdx l == idx)

/-- Cycles of a PWM period, and whether its d keeps R44. -/
def State.pwmD (s : State) (j : Nat) : Nat := s.fget (Reg.CE_PWMCFG j) Fld.CE_PWMCFG_d
def State.pwmCycles (s : State) (j : Nat) : Nat := s.m * 25000 / s.pwmD j
def State.pwmDOk (s : State) (j : Nat) : Bool :=
  decide (1 ≤ s.pwmD j) && decide (s.pwmD j ≤ 1024) && s.m * 25000 % s.pwmD j == 0 && decide (4000 ≤ s.pwmCycles j)
def State.pwmEn (s : State) (j : Nat) : Bool := s.flag (Reg.CE_PWMCFG j) Fld.CE_PWMCFG_en

/-- A gleaner target that no valid entry and no enabled GL_EDGE converts. -/
def State.targetUsed (s : State) (t : Nat) : Bool :=
  s.scheduled t || (List.range 4).any (fun j => s.flag (Reg.GL_EDGE j) Fld.GL_EDGE_en && s.fget (Reg.GL_EDGE j) Fld.GL_EDGE_target == t)

/-- The details whose index is a loop, on this hub alone. -/
def State.condsLoop (s : State) : List Cond :=
  let ls := s.enabledLoops
  [ { cls := 8, det := 1, bad := ls.filter s.lawBad },
    { cls := 8, det := 2, bad := ls.filter (fun l => s.loopType l == 3) },
    { cls := 8, det := 3, bad := ls.filter (fun l => decide (512 < s.loopBase l + s.coefCount l)) },
    { cls := 8, det := 4, bad := ls.filter s.coefBad },
    { cls := 8, det := 5, bad := ls.filter s.limitsBad },
    { cls := 8, det := 6, bad := ls.filter (fun l => s.loopKind l != 0 && ls.any (fun k => k < l
        && s.loopKind k == s.loopKind l && s.loopIdx k == s.loopIdx l)) },
    { cls := 8, det := 7, bad := ls.filter (fun l => s.loopType l == 0 && !s.inEn (s.loopSrc l)) },
    { cls := 8, det := 8, bad := ls.filter (fun l => s.loopType l == 2 && !s.targetUsed (s.loopSrc l)) } ]

/-- The details whose index is an output. -/
def State.condsOutput (s : State) : List Cond :=
  [ { cls := 8, det := 9, bad := (List.range 16).filter (fun j => s.fget (Reg.CE_AOCFG j) Fld.CE_AOCFG_rb_tol == 0) },
    { cls := 8, det := 10, bad := (List.range 8).filter (fun j => (s.pwmEn j || (s.driver? 2 j).isSome) && !s.pwmDOk j) } ]

/-- Identifiers that this hub publishes and consumes. -/
def State.publishes (s : State) : List Nat :=
  (s.enabledLoops.filter s.loopShares).map (fun l => s.fget (Reg.CE_LOUT l) Fld.CE_LOUT_share_id)
def State.consumes (s : State) : List Nat := (s.enabledLoops.filter (fun l => s.loopType l == 1)).map s.loopSrc

/-- Identifiers that occur more than once. -/
def twice (ids : List Nat) : List Nat := sortNat ((ids.filter (fun i => decide (1 < ids.count i))).eraseDups)

/-- R258 over the loops that publish elsewhere in the ring, with their identifiers, and the identifiers consumed there. -/
def State.condsShared (s : State) (pubs : List (Nat × Nat)) (cons : List Nat) : List Cond :=
  let all := s.publishes ++ pubs.map Prod.snd
  let slow := decide (s.m < 2) || decide (s.m * 62500 < 4 * s.rdN Reg.TB_RINGRTT)
  [ { cls := 8, det := 11, bad := twice all },
    { cls := 8, det := 12, bad := sortNat ((s.consumes ++ cons).filter (fun i => !all.contains i)).eraseDups },
    { cls := 8, det := 13, bad := if slow then s.enabledLoops.filter s.loopShares ++ pubs.map Prod.fst else [] } ]

/-- What a run-time change is judged by: a hub judges its own identifiers, and alone in its ring its consumers too (log 20). -/
def State.condsRunLoops (s : State) : List Cond :=
  s.condsLoop ++ s.condsOutput ++ (s.condsShared [] []).filter (fun c => c.det != 12 || decide (s.hubs ≤ 1))

/-- The configuration `c`, reached from `b`, keeps the rules: nothing is broken that was whole, nothing at loop `l` is broken,
and the window fits (R239, R262, R38). -/
def State.loopsOk (b c : State) (l : Option Nat) : Bool :=
  (c.condsRunLoops.zip b.condsRunLoops).all (fun p => p.1.bad.all (fun i =>
    p.2.bad.contains i && !(some i == l && (decide (p.1.det ≤ 8) || p.1.det == 13)))) && c.costOk

/-! ## Loop state -/

/-- A loop that has run in no frame: none has yet lain inside its limits (R247). -/
def LoopSt.init (u0 : Word64) : LoopSt :=
  { started := false, integ := 0, dfilt := 0, pvPrev := 0, sections := [], u0 := u0, setpoint := none, restart := false
    outside := true, numericStop := false, holdRun := 0, failed := false }
def State.loop (s : State) (l : Nat) : LoopSt := kgetD s.ce.loops l (LoopSt.init (s.lsafe l))
def State.setLoop (s : State) (l : Nat) (x : LoopSt) : State := { s with ce := { s.ce with loops := kset s.ce.loops l x } }
def State.modLoop (s : State) (l : Nat) (f : LoopSt → LoopSt) : State := s.setLoop l (f (s.loop l))

/-- The output u in force (CE_LOUTV). -/
def State.loopU (s : State) (l : Nat) : Word64 := s.rd64 (Reg.CE_LOUTV_LO l)
def State.setLoopU (s : State) (l : Nat) (u : Word64) : State := s.wr64 (Reg.CE_LOUTV_LO l) u

def State.lset (s : State) (l : Nat) (f : BitField) (b : Bool) : State := s.setFlag (Reg.CE_LSTAT l) f b

/-- The setpoint of the furrow that a loop keeps: with sp_src = 0 it has none (R249). -/
def State.furrowSetpoint (s : State) (l : Nat) : Option Word64 :=
  if s.lctl l Fld.CE_LCTL_sp_src = 1 then (s.loop l).setpoint else none

/-- A loop begins as after enable, its setpoint of the furrow kept (R243, R470). -/
def State.freshLoop (s : State) (l : Nat) : State :=
  let s := s.setLoop l { LoopSt.init (s.lsafe l) with setpoint := s.furrowSetpoint l }
  let s := s.wr (Reg.CE_LSTAT l) (s.rd (Reg.CE_LSTAT l) &&& 0xE0#32)
  let s := s.wr64 (Reg.CE_LINTEG_LO l) 0
  s.setLoopU l (s.lsafe l)

/-! ## Staging (R239, R240, R262) -/

/-- The words of a loop block that a write reaches, but for CE_LSP and the status: control, source, output, coefficients,
and the four 64-bit values. -/
def loopWritable (off : Nat) : Bool := [0, 4, 8, 12, 0x20, 0x24, 0x28, 0x2C, 0x30, 0x34, 0x38, 0x3C].contains off

/-- The bits of a loop word that a write carries. -/
def loopMask (off : Nat) : Word :=
  match off with
  | 0 => 0x00FFFFFF
  | 4 => 0xC00000FF
  | 8 => 0x00FF831F
  | 12 => 0x000001FF
  | _ => 0xFFFFFFFF

/-- Whether an address lies in loop block `l`. -/
def inLoopBlock (l a : Nat) : Bool := decide (Reg.CE_LCTL l ≤ a) && decide (a < Reg.CE_LCTL l + 0x80)
def State.stagedOf (s : State) (l : Nat) : KMap Word := s.ce.staged.filter (fun (e : Nat × Word) => inLoopBlock l e.1)

/-- CE_LSTAT.pend (staged changes that are not yet applied). -/
def State.notePend (s : State) (l : Nat) : State :=
  s.lset l Fld.CE_LSTAT_pend (!(s.stagedOf l).isEmpty || s.ce.applied.any (fun (e : Nat × Word) => inLoopBlock l e.1))

/-- CE_STAT.coef_pend. -/
def State.noteCoef (s : State) : State := s.setFlag Reg.CE_STAT Fld.CE_STAT_coef_pend (!s.ce.shadow.isEmpty)

/-- What a read of a loop word or of the bank returns in Run: the staged word (R239; for the bank log 21). -/
def State.ceRead (s : State) (a : Nat) : Word :=
  if s.inRun then ((kget? s.ce.staged a).orElse (fun _ => kget? s.ce.shadow a)).getD (s.rd a) else s.rd a

/-- Writing 1 to the W1C bits of CE_LSTAT. -/
def State.clearLstat (s : State) (l : Nat) (val : Word) : State :=
  s.wr (Reg.CE_LSTAT l) (s.rd (Reg.CE_LSTAT l) &&& ~~~ (val &&& 0x60#32))

/-- A write to a loop block. In Run it reaches the staging copy, elsewhere the block itself (R239); a 64-bit value goes as a
whole with its low word (R9). -/
def loopStageWrite (l : BitVec 5) (off : BitVec 7) (val : Word) (s : State) : State :=
  let o := off.toNat
  let a := Reg.CE_LCTL l.toNat + o
  if o = 0x10 then s.clearLstat l.toNat val
  else if !loopWritable o then s
  else if 0x20 ≤ o && o % 8 == 4 then { s with staged := kset s.staged a val }
  else
    let put := fun (s : State) (a : Nat) (w : Word) =>
      if s.inRun then { s with ce := { s.ce with staged := kset s.ce.staged a w } } else s.wr a w
    let s :=
      if 0x20 ≤ o then
        let hi := (kget? s.staged (a + 4)).getD (s.ceRead (a + 4))
        (put (put s a val) (a + 4) hi)
      else put s a (val &&& loopMask o)
    let s := if 0x20 ≤ o then { s with staged := kerase s.staged (a + 4) } else s
    if s.inRun then s.notePend l.toNat else s

def execLoopStageWrite (l : BitVec 5) (off : BitVec 7) (val : Word) (s : State) : Host.Outcome State Fault Refusal :=
  fin (loopStageWrite l off val s)

/-- The staged copy is dropped: the staging copy follows the values in force again. -/
def State.dropStaged (s : State) (l : Nat) : State :=
  { s with ce := { s.ce with staged := s.ce.staged.filter (fun (e : Nat × Word) => !inLoopBlock l e.1) } }

/-- CE_LCTL.apply: the staged copy is accepted for the next tick entry, or dropped with acc_err (R239). -/
def loopApply (l : BitVec 5) (s : State) : State :=
  let i := l.toNat
  if !s.inRun then s
  else
    let copy := s.stagedOf i
    let b := s.pended
    let c := copy.foldl (fun (s : State) e => s.wr e.1 e.2) b
    if State.loopsOk b c (some i) then
      let base := if copy.isEmpty then kset s.ce.applied (Reg.CE_LCTL i) (b.rd (Reg.CE_LCTL i)) else s.ce.applied
      let next : KMap Word := copy.foldl (fun m e => kset m e.1 e.2) base
      let s := { s with ce := { s.ce with applied := next } }
      (s.wr Reg.FR_BUDGET (word c.windowCost)).notePend i
    else ((s.dropStaged i).notePend i).accErr true (Reg.CE_LCTL i)

def execLoopApply (l : BitVec 5) (s : State) : Host.Outcome State Fault Refusal := fin (loopApply l s)

/-- A committed write to CE_LSP (R249): the register holds it, and the control steps from the next tick entry on use it. -/
def ceLspWrite (l : BitVec 5) (val : Word64) (s : State) : State :=
  if s.lctl l.toNat Fld.CE_LCTL_sp_src = 1 then s.accErr true (Reg.CE_LSP_LO l.toNat)
  else s.wr64 (Reg.CE_LSP_LO l.toNat) val

def execCeLspWrite (l : BitVec 5) (val : Word64) (s : State) : Host.Outcome State Fault Refusal := fin (ceLspWrite l val s)

/-- A write to an entry of the bank: in Run to the shadow bank (R262). -/
def coefWrite (i : BitVec 9) (val : Word64) (s : State) : State :=
  let a := Reg.CE_COEF_LO i.toNat
  if s.inRun then
    ({ s with ce := { s.ce with shadow := kset (kset s.ce.shadow a (lo32 val)) (a + 4) (hi32 val) } }).noteCoef
  else s.wr64 a val

def execCoefWrite (i : BitVec 9) (val : Word64) (s : State) : Host.Outcome State Fault Refusal := fin (coefWrite i val s)

/-- CE_CMD.coef_apply (R262). -/
def coefApply (s : State) : State :=
  if !s.inRun then s
  else
    let b := s.pended
    let c := s.ce.shadow.foldl (fun (s : State) e => s.wr e.1 e.2) b
    if State.loopsOk b c none then
      let base : KMap Word := s.ce.coefNext.getD []
      let next : KMap Word := s.ce.shadow.foldl (fun m e => kset m e.1 e.2) base
      let s := { s with ce := { s.ce with coefNext := some next } }
      s.wr Reg.FR_BUDGET (word c.windowCost)
    else ({ s with ce := { s.ce with shadow := [] } }).noteCoef.accErr true Reg.CE_CMD

def execCoefApply (s : State) : Host.Outcome State Fault Refusal := fin (coefApply s)

/-- What an applied copy does to the states of its loop (R240, R243, R248): `old` is the state before it. -/
def State.applied (s : State) (old : State) (l : Nat) : State :=
  let s := s.modLoop l (fun x => { x with setpoint := s.furrowSetpoint l })
  let x := s.loop l
  if !s.loopEn l || !old.loopEn l || x.numericStop then s.freshLoop l
  else if s.rd (Reg.CE_LIN l) != old.rd (Reg.CE_LIN l) then
    let s := s.setLoop l { LoopSt.init (s.loopU l) with setpoint := x.setpoint }
    s.wr (Reg.CE_LSTAT l) (s.rd (Reg.CE_LSTAT l) &&& 0xE0#32)
  else if s.loopLaw l != old.loopLaw l || s.loopKind l != old.loopKind l || s.loopIdx l != old.loopIdx l then
    s.setLoop l { x with restart := true, sections := [] }
  else s

/-- Accepted copies and an accepted bank take effect: at a tick entry, or when Run ends (R239, R262, R476). -/
def State.applyPending (s : State) : State :=
  let old := s
  let ls := (List.range 32).filter (fun l => s.ce.applied.any (fun (e : Nat × Word) => inLoopBlock l e.1))
  let s := (s.ce.applied ++ s.ce.coefNext.getD []).foldl (fun (s : State) (e : Nat × Word) => s.wr e.1 e.2) s
  let kept : KMap Word := s.ce.staged.filter (fun (e : Nat × Word) => !(ls.any (fun l => inLoopBlock l e.1) && s.rd e.1 == e.2))
  let left : KMap Word := if old.ce.coefNext.isSome then s.ce.shadow.filter (fun e => s.rd e.1 != e.2) else s.ce.shadow
  let s := { s with ce := { s.ce with applied := [], coefNext := none, staged := kept, shadow := left } }
  (ls.foldl (fun s l => (s.applied old l).notePend l) s).noteCoef

/-! ## Setpoints (R249 to R252, R46, R413) -/

/-- CE_STAT.spq. -/
def State.noteQueueSp (s : State) : State := s.fput Reg.CE_STAT Fld.CE_STAT_spq s.ce.queue.length

/-- A setpoint on furrow `f` cannot be one for loop `l` (R249, R250). -/
def State.setpointBad (s : State) (f l : Nat) : Bool :=
  !s.loopEn l || s.loopLaw l == 2 || s.lctl l Fld.CE_LCTL_sp_src == 0 || s.lctl l Fld.CE_LCTL_sp_furrow != f % 256

/-- SETPOINT_LATE (R46). -/
def State.setpointLate (s : State) (f : Nat) (seq : Word) (l frame : Nat) : State :=
  let flags := match s.furrow? f with | some fu => if fu.twin then 4 else 0 | none => 0
  s.raiseF flags 33 (f % 256) 0 l (BitVec.ofNat 64 (frame % 2 ^ 32 * 2 ^ 32 + seq.toNat))

/-- A setpoint's outcome stands; its completion waits for the deliver step (R251). -/
def State.endSetpoint (s : State) (q : QSet) (st : CStatus) : State :=
  { s with ce := { s.ce with ended := s.ce.ended ++ [(q.furrow, q.seq, st, word q.frame)] } }

/-- One due setpoint at the tick entry of frame `n`. -/
def State.dueSetpoint (n : Nat) (s : State) (q : QSet) : State :=
  let relayed := s.role == 1 && s.flag Reg.SV_TWSTAT Fld.SV_TWSTAT_p_ready
  if q.frame < n || (relayed && !q.acked) then
    (s.setpointLate q.furrow q.seq q.loop q.frame).endSetpoint q .failedLate
  else if s.sv.safe then s.endSetpoint q .failedSafe
  else if s.setpointBad q.furrow q.loop then s.endSetpoint q .failedParam
  else ((s.modLoop q.loop (fun x => { x with setpoint := some q.value })).wr64 (Reg.CE_LSP_LO q.loop) q.value).endSetpoint q .done

/-- The setpoints due at the tick entry of frame `n`, in the order of submission. -/
def State.dueSetpoints (s : State) (n : Nat) : State :=
  let due := s.ce.queue.filter (fun q => decide (q.frame ≤ n))
  let s := { s with ce := { s.ce with queue := s.ce.queue.filter (fun q => decide (n < q.frame)) } }
  (due.foldl (State.dueSetpoint n) s).noteQueueSp

/-- The deliver step posts what the setpoints have become (R251); the outcome of a relayed one is kept until its item is fetched
(R414). -/
def State.postSetpoints (s : State) : State :=
  let l := s.ce.ended
  let s := { s with ce := { s.ce with ended := [] } }
  let kept := l.filter (fun e => decide (256 ≤ e.1) && !(s.furrow? e.1).any (fun fu => fu.items.any (fun it => it.seq == e.2.1)))
  let s := { s with sv := { s.sv with twin := { s.sv.twin with applied := s.sv.twin.applied ++ kept } } }
  l.foldl (fun s e => s.endItem e.1 e.2.1 e.2.2.1 0 e.2.2.2) s

/-! ## The laws (R244 to R248) -/

/-- The period P in seconds. -/
def State.pSec (s : State) : Word64 := fofRat s.m 16000

/-- Direct form II transposed, one section: input, coefficients b0 b1 b2 a1 a2, states. -/
def biquad (x : Word64) (c : Nat → Word64) (st : Word64 × Word64) : Word64 × (Word64 × Word64) :=
  let y := fadd (fmul (c 0) x) st.1
  (y, (fadd (fsub (fmul (c 1) x) (fmul (c 3) y)) st.2, fsub (fmul (c 2) x) (fmul (c 4) y)))

def chain (c : Nat → Word64) (sts : List (Word64 × Word64)) : Nat → Nat → Word64 → Word64 × List (Word64 × Word64)
  | _, 0, x => (x, [])
  | i, k + 1, x =>
    let (y, st) := biquad x (fun j => c (5 * i + j)) (sts.getD i (0, 0))
    let (z, rest) := chain c sts (i + 1) k y
    (z, st :: rest)

/-- uraw and the new states. `start` holds the value that the first output must equal (R240, R243). -/
def State.law (s : State) (l : Nat) (sp pv : Word64) (start : Option Word64) (x : LoopSt) : Word64 × LoopSt :=
  let c := fun i => s.coef (s.loopBase l + i)
  let e := fsub sp pv
  let umin := s.lumin l
  let umax := s.lumax l
  if s.loopLaw l = 3 then
    match start with
    | some u0 => (u0, { x with sections := List.replicate (s.loopSections l) (0, 0), pvPrev := pv })
    | none =>
      let (y, sts) := chain (fun i => c (3 + i)) x.sections 0 (s.loopSections l) e
      let uraw := fadd y (fmul (c 2) sp)
      let keep := (flt umax uraw && flt f0 e) || (flt uraw umin && flt e f0)
      (uraw, { x with sections := if keep then x.sections else sts, pvPrev := pv })
  else
    let kp := c 0
    let ki := c 1
    let kd := c 2
    let tf := c 3
    let kff := c 4
    match start with
    | some u0 =>
      (u0, { x with dfilt := 0, pvPrev := pv, integ := fsub (fsub u0 (fmul kp e)) (fmul kff sp) })
    | none =>
      let p := s.pSec
      let a := fdiv p (fadd p tf)
      let dfilt := fadd x.dfilt (fmul a (fsub (fdiv (fmul (fneg kd) (fsub pv x.pvPrev)) p) x.dfilt))
      let itry := fadd x.integ (fmul (fmul ki p) e)
      let out := fun i => fadd (fadd (fadd (fmul kp e) i) dfilt) (fmul kff sp)
      let u1 := out itry
      let ke := fmul ki e
      let integ := if (flt umax u1 && flt f0 ke) || (flt u1 umin && flt ke f0) then x.integ else itry
      (out integ, { x with dfilt := dfilt, pvPrev := pv, integ := integ })

/-- The slew limit of R247. -/
def slewed (slew p prev u : Word64) : Word64 :=
  if fle slew f0 then u
  else
    let d := fmul slew p
    fclamp (fsub prev d) (fadd prev d) u

/-- Every result is finite. -/
def LoopSt.finite (x : LoopSt) : Bool :=
  fFinite x.integ && fFinite x.dfilt && fFinite x.pvPrev && x.sections.all (fun p => fFinite p.1 && fFinite p.2)

/-! ## One loop in the control step (R242, R243, R247, R248, R252) -/

/-- The exponent of a gleaner result's last bit in its unit: lead loops hold Q16.16, BCN_NTC Q24.8, the rest integers (R102). -/
def targetScale (t : Nat) : Int := if t < 0x20 then -16 else if t = 0x5A then -8 else 0

/-- The process value of a loop in frame `n`, if valid; a shared value that has not arrived is counted (R242, R257). -/
def State.processValue (s : State) (n : Nat) (slots : List Slot) (l : Nat) : Option Word64 × State :=
  let i := s.loopSrc l
  let base := s.loopBase l
  let (sc, bi) := if s.loopLaw l = 3 then (s.coef base, s.coef (base + 1)) else (s.coef (base + 5), s.coef (base + 6))
  let pv := fun x => some (fadd (fmul sc x) bi)
  match s.loopType l with
  | 0 =>
    (match slots.find? (fun c => c.n == i) with
     | some c => if c.st % 2 = 1 then pv (fofScaled c.value (if s.inMode i = 0 then -29 else -31)) else none
     | none => none, s)
  | 1 =>
    (match kget? s.ce.shared i with
     | some v => if v.frame + 1 = n then (if v.valid then pv v.value else none, s) else (none, s.incSat Reg.CE_SHMISS 1)
     | none => (none, s.incSat Reg.CE_SHMISS 1))
  | 2 =>
    let info := s.rd (Reg.GL_TGT_INFO i)
    (if BitField.get Fld.GL_TGT_INFO_valid info = 1 && BitField.get Fld.GL_TGT_INFO_sat info = 0
        && (kget? s.gl.resFrame i).any (fun f => decide (f ≤ n) && decide (n < f + s.schedG)) then
        pv (fofScaled (s.rd (Reg.GL_TGT_VAL i)).toInt (targetScale i)) else none, s)
  | _ => (none, s)

/-- The hold count of a loop has passed its limit: LOOP_LIMIT once, the safe value, and, with fail_safe, the request for safe
state (R243). -/
def State.holdExpire (s : State) (l : Nat) : State :=
  let x := s.loop l
  let s := if x.failed then s else (s.setLoop l { x with failed := true }).raise 32 l 1
  let s := (s.lset l Fld.CE_LSTAT_failed true).lset l Fld.CE_LSTAT_holding false
  let s := s.setLoopU l (s.lsafe l)
  if s.lctl l Fld.CE_LCTL_fail_safe = 1 then s.latchCause 8 else s

/-- A frame with an invalid process value, after the start. -/
def State.holdLoop (s : State) (l : Nat) : State :=
  let x := s.loop l
  let r := x.holdRun + 1
  let s := (s.setLoop l { x with holdRun := r }).fput (Reg.CE_LSTAT l) Fld.CE_LSTAT_hold_run (min r 255)
  if r ≤ s.lctl l Fld.CE_LCTL_hold then s.lset l Fld.CE_LSTAT_holding true else s.holdExpire l

/-- A valid process value ends a hold. -/
def State.unhold (s : State) (l : Nat) : State :=
  let s := s.modLoop l (fun x => { x with holdRun := 0, failed := false })
  ((s.fput (Reg.CE_LSTAT l) Fld.CE_LSTAT_hold_run 0).lset l Fld.CE_LSTAT_holding false).lset l Fld.CE_LSTAT_failed false

/-- A result is not finite (R248). -/
def State.numericLoop (s : State) (l : Nat) : State :=
  let s := s.modLoop l (fun x => { x with numericStop := true })
  let s := ((s.lset l Fld.CE_LSTAT_numeric true).lset l Fld.CE_LSTAT_failed true).raise 32 l 3
  let s := s.setLoopU l (s.lsafe l)
  if s.lctl l Fld.CE_LCTL_fail_safe = 1 then s.latchCause 8 else s

/-- The law runs, then the clamp and the slew limit (R244 to R248). -/
def State.lawLoop (s : State) (l : Nat) (sp pv : Word64) (start : Option Word64) : State :=
  let prev := s.loopU l
  let (uraw, x) := s.law l sp pv start (s.loop l)
  let u := slewed (s.rd64 (Reg.CE_LSLEW_LO l)) s.pSec prev (fclamp (s.lumin l) (s.lumax l) uraw)
  if !(fFinite pv && fFinite sp && fFinite uraw && fFinite u && LoopSt.finite x) then s.numericLoop l
  else
    let out := flt (s.lumax l) uraw || flt uraw (s.lumin l)
    let s := if out && !x.outside then (s.lset l Fld.CE_LSTAT_limit true).raise 32 l 2 else s
    let s := s.setLoop l { x with started := true, restart := false, outside := out }
    let s := (s.lset l Fld.CE_LSTAT_started true).lset l Fld.CE_LSTAT_sat out
    (s.wr64 (Reg.CE_LINTEG_LO l) x.integ).setLoopU l u

/-- The setpoint of a loop: the outer loop's output, CE_LSP, or the furrow's (R245, R249, R470). -/
def State.loopSetpoint (s : State) (l : Nat) : Option Word64 :=
  if s.loopLaw l = 2 then some (s.loopU (l - 1))
  else if s.lctl l Fld.CE_LCTL_sp_src = 0 then some (s.rd64 (Reg.CE_LSP_LO l))
  else (s.loop l).setpoint

/-- The loops are frozen: in safe state (R252); on a joining hub while its active is (R416). -/
def State.frozen (s : State) : Bool := if s.role == 4 then s.sv.twin.activeSafe else s.sv.safe

/-- One enabled loop in the control step of frame `n`. -/
def State.runLoop (n : Nat) (slots : List Slot) (s : State) (l : Nat) : State :=
  let (pv?, s) := s.processValue n slots l
  let s := match pv? with | some pv => s.wr64 (Reg.CE_LPV_LO l) pv | none => s
  let s := s.lset l Fld.CE_LSTAT_active true
  let x := s.loop l
  if x.numericStop then
    let s := s.setLoopU l (s.lsafe l)
    if s.lctl l Fld.CE_LCTL_fail_safe = 1 then s.latchCause 8 else s
  else if s.frozen then
    let s := if !x.started then s else match pv? with | some _ => s.unhold l | none => s.holdLoop l
    s.setLoopU l (s.lsafe l)
  else match s.loopSetpoint l with
    | none => ((s.setLoop l { x with started := false, u0 := s.lsafe l }).lset l Fld.CE_LSTAT_started false).setLoopU l (s.lsafe l)
    | some sp =>
      match pv? with
      | none => if x.started then s.holdLoop l else s.setLoopU l x.u0
      | some pv =>
        let start := if !x.started then some x.u0 else if x.restart then some (s.loopU l) else none
        (s.unhold l).lawLoop l sp pv start

/-! ## Outputs (R253 to R257) -/

/-- A rounded value clamped to a span; of a value that is not finite an infinity clamps, and a NaN has no stated result (log 2). -/
def State.clampRound (s : State) (u : Word64) (k hi : Nat) : Nat × State :=
  match froundI u k with
  | some c => ((clampI 0 hi c).toNat, s)
  | none =>
    match fval u with
    | .inf neg => (if neg then 0 else hi, s)
    | _ => let (w, s) := s.draw64; (w.toNat % (hi + 1), s)

/-- The converter code of a value (R254). -/
def State.aoutCode (s : State) (j : Nat) (u : Word64) : Nat × State :=
  let (g, o) := s.aoutCal j
  s.clampRound (fadd (fmul (fofScaled g (-30)) u) (fofScaled o (-32))) 1048576 0xFFFFF

/-- Width of a side-port slot in bits. -/
def State.slotWidth (s : State) (j : Nat) : Nat := s.fget (Reg.SP_SLOT j) Fld.SP_SLOT_wm1 + 1

/-- A loop's output staged for the next tick. -/
def State.stageOutput (s : State) (l : Nat) : State :=
  let u := s.loopU l
  let i := s.loopIdx l
  match s.loopKind l with
  | 1 => let (c, s) := s.aoutCode i u; { s with ce := { s.ce with aoNext := kset s.ce.aoNext i c } }
  | 2 => let (c, s) := s.clampRound u 65535 65535; { s with ce := { s.ce with pwmNext := kset s.ce.pwmNext i c } }
  | 3 =>
    let top := 2 ^ s.slotWidth i - 1
    let (c, s) := s.clampRound u top top
    { s with ce := { s.ce with slotNext := kset s.ce.slotNext i c } }
  | _ => s

/-- A loop publishes with its valid flag set. -/
def State.shareValid (s : State) (l : Nat) : Bool :=
  let st := s.rd (Reg.CE_LSTAT l)
  BitField.get Fld.CE_LSTAT_started st = 1 && BitField.get Fld.CE_LSTAT_holding st = 0
    && BitField.get Fld.CE_LSTAT_failed st = 0 && !s.sv.safe

/-- The publications of frame `n`: here, and in a shared-values message both ways round the ring (R257). -/
def State.publish (s : State) (n : Nat) : State :=
  let ls := s.enabledLoops.filter s.loopShares
  let entry := fun l => (s.fget (Reg.CE_LOUT l) Fld.CE_LOUT_share_id,
    ({ frame := n, valid := s.shareValid l, value := s.loopU l } : Shared))
  let es := ls.map entry
  let s := { s with ce := { s.ce with shared := es.foldl (fun m e => kset m e.1 e.2) s.ce.shared } }
  if es.isEmpty then s
  else
    let bs := leBytes 8 n ++ [BitVec.ofNat 8 es.length] ++ zeros 7
      ++ es.flatMap (fun e => [BitVec.ofNat 8 e.1, BitVec.ofNat 8 (b2n e.2.valid)] ++ zeros 6 ++ leBytes 8 e.2.value.toNat)
    (cellsOf 0xC s.hubAddr 0x3F s.payloadLen (bs.length / s.payloadLen + 1) bs true).foldl State.sendAll s

/-- The control step of frame `n` (R238): every enabled loop in ascending order, then the staging of outputs, the
publications and the heartbeat. -/
def State.controlStep (s : State) (n : Nat) (slots : List Slot) : State :=
  let ls := s.enabledLoops
  let undo := (List.range 32).map (fun l => (l, ({ st := s.loop l, u := s.loopU l, integ := s.rd64 (Reg.CE_LINTEG_LO l)
                                                   lstat := s.rd (Reg.CE_LSTAT l) } : LoopUndo)))
  let s := { s with ce := { s.ce with undo := undo, aoNext := [], pwmNext := [], slotNext := [], ran := true } }
  let s := ls.foldl (State.runLoop n slots) s
  let s := ls.foldl State.stageOutput s
  s.publish n

/-- The updates of one loop are discarded; what CE_LSTAT latched and its pend bit stay. -/
def State.undoLoop (s : State) (l : Nat) (x : LoopUndo) : State :=
  let s := ((s.setLoop l x.st).setLoopU l x.u).wr64 (Reg.CE_LINTEG_LO l) x.integ
  s.wr (Reg.CE_LSTAT l) ((s.rd (Reg.CE_LSTAT l) &&& 0xE0#32) ||| (x.lstat &&& ~~~ 0xE0#32))

/-- The state updates of the last control step are discarded, once (R241, R403, R407). -/
def State.undoLoops (s : State) : State :=
  let s := s.ce.undo.foldl (fun (s : State) e => s.undoLoop e.1 e.2) s
  { s with ce := { s.ce with undo := [] } }

/-- A cut control step: nothing is staged and no heartbeat is posted (R43, R241). -/
def State.cutControl (s : State) : State :=
  { s with ce := { s.ce with aoNext := [], pwmNext := [], slotNext := [], ran := false, undo := [] } }

/-- The host's value of an analog output, u = CE_AOSET ÷ 2^20. -/
def State.hostCode (s : State) (j : Nat) : Nat × State :=
  s.aoutCode j (fofScaled (s.fget (Reg.CE_AOSET j) Fld.CE_AOSET_value) (-20))

/-- The outputs of a tick (R17, R43, R253): safe values in safe state; else what the last control step staged, the host's
values where no loop drives, and where a control step was cut the values of the previous frame. -/
def State.outputTick (s : State) : State :=
  let s :=
    if s.sv.safe then
      let s := (List.range 16).foldl (fun s j => s.wr (Reg.CE_AOCUR j) (word (s.fget (Reg.CE_AOCFG j) Fld.CE_AOCFG_safe))) s
      (List.range 8).foldl (fun s j => s.wr (Reg.CE_PWMCUR j) (word (s.fget (Reg.CE_PWMCFG j) Fld.CE_PWMCFG_safe))) s
    else
      let s := (List.range 16).foldl (fun s j =>
        match kget? s.ce.aoNext j with
        | some c => s.wr (Reg.CE_AOCUR j) (word c)
        | none => if (s.driver? 1 j).isSome then s else let (c, s) := s.hostCode j; s.wr (Reg.CE_AOCUR j) (word c)) s
      (List.range 8).foldl (fun s j =>
        match kget? s.ce.pwmNext j with
        | some c => s.wr (Reg.CE_PWMCUR j) (word c)
        | none => if (s.driver? 2 j).isSome then s
                  else s.wr (Reg.CE_PWMCUR j) (word (s.fget (Reg.CE_PWMSET j) Fld.CE_PWMSET_duty))) s
  { s with ce := { s.ce with aoNext := [], pwmNext := [] } }

/-- Every enabled loop restarts from its output in force (R240, R409). -/
def State.restartLoops (s : State) : State :=
  s.enabledLoops.foldl (fun s l => s.modLoop l (fun x => { x with restart := true, u0 := s.loopU l, sections := [] })) s

/-- On leaving safe state every loop restarts from its safe value (R252), which its setpoint slot carries until a control step
stages another (R448, log 46). -/
def State.restartFromSafe (s : State) : State :=
  let s := (s.enabledLoops.foldl (fun s l => s.setLoopU l (s.lsafe l)) s).restartLoops
  (s.enabledLoops.filter (fun l => s.loopKind l == 3)).foldl State.stageOutput s

/-- Run begins: every loop is fresh (R243). -/
def State.startLoops (s : State) : State :=
  let s := (List.range 32).foldl (fun s l => s.freshLoop l) s
  { s with ce := { s.ce with shared := [], aoNext := [], pwmNext := [], slotNext := [], ran := false, undo := [], rbFail := [] } }

/-- Run ends (R476, step 5): accepted changes take effect, unsubmitted ones are dropped, no loop is active. -/
def State.endLoops (s : State) : State :=
  let s := s.applyPending
  let s := { s with ce := { s.ce with staged := [], shadow := [], shared := [], aoNext := [], pwmNext := [], slotNext := []
                                      ran := false, undo := [] } }
  ((List.range 32).foldl (fun s l => (s.freshLoop l).notePend l) s).noteCoef

/-- Every converter at code 0 and every PWM output off (R476, step 4; R253). -/
def State.outputsOff (s : State) : State :=
  let s := (List.range 16).foldl (fun s j => s.wr (Reg.CE_AOCUR j) 0) s
  (List.range 8).foldl (fun s j => s.pwmSteady j 0) s

/-- The setpoints in force and queued and the loop states are cleared (R470). -/
def State.clearSetpoints (s : State) : State :=
  ({ s with ce := { s.ce with queue := [], ended := [], loops := [], shared := [], undo := [] } }).noteQueueSp

/-! ## Events of the engine and its outputs -/

/-- LOOP_HOLD_EXPIRE: a started loop whose count has passed hold. -/
def loopHoldExpire (l : BitVec 5) (s : State) : State :=
  let i := l.toNat
  let x := s.loop i
  if s.running && s.loopEn i && x.started && !x.numericStop && decide (s.lctl i Fld.CE_LCTL_hold < x.holdRun) then s.holdExpire i
  else s

def execLoopHoldExpire (l : BitVec 5) (s : State) : Host.Outcome State Fault Refusal := fin (loopHoldExpire l s)

/-- A compared input or an output has failed in frame `n` (R408). -/
def State.noteBad (s : State) (n : Nat) : State := { s with sv := { s.sv with twin := { s.sv.twin with lastBad := some n } } }

/-- OUTPUT_READBACK_CHECK (R259): the voltages of an AOUT pin and of its reference, VREFA for AOUT0 to 7 and VREFB for the others,
in µV; the level of a PWM pin. -/
def outputReadbackCheck (o : BitVec 5) (pin : PinVolts) (level : Bool) (s : State) : State :=
  let i := o.toNat
  let judged := s.running && (decide (i < 16) || (decide (i < 24) && s.pwmEn (i - 16)))
  if !judged then s
  else
    let fails :=
      if i < 16 then
        decide (s.fget (Reg.CE_AOCFG i) Fld.CE_AOCFG_rb_tol * 1000 * 1048576
          < (pin.uv * 1048576 - (s.fget (Reg.CE_AOCUR i) Fld.CE_AOCUR_code : Int) * pin.vref).natAbs)
      else
        let on := ((kget? s.ce.pwm (i - 16)).map PwmSt.isOn).getD false
        level != (on != s.flag (Reg.CE_PWMCFG (i - 16)) Fld.CE_PWMCFG_pol)
    let c := if fails then kgetD s.ce.rbFail i 0 + 1 else 0
    let s := { s with ce := { s.ce with rbFail := kset s.ce.rbFail i c } }
    let s := if fails then s.noteBad s.frameNo else s
    if c < 2 then s
    else
      let s := s.wr Reg.CE_RBSTAT (s.rd Reg.CE_RBSTAT ||| (1#32 <<< i))
      let s := if c = 2 then s.raise 34 i 0 else s
      s.latchCause 7

def execOutputReadbackCheck (o : BitVec 5) (pin : PinVolts) (level : Bool) (s : State) : Host.Outcome State Fault Refusal :=
  fin (outputReadbackCheck o pin level s)

/-- On-time of a duty in cycles (R255). -/
def onCycles (duty c : Nat) : Nat := (duty * c * 2 + 65535) / (2 * 65535)

/-- A period starts: the output turns on under the duty in force (R255). -/
def pwmPeriodStart (j : BitVec 3) (s : State) : State :=
  let i := j.toNat
  if !(s.running && s.pwmEn i) then s
  else
    let duty := s.fget (Reg.CE_PWMCUR i) Fld.CE_PWMCUR_duty
    let st : PwmSt := { isOn := decide (0 < onCycles duty (s.pwmCycles i)), duty := duty }
    { s with ce := { s.ce with pwm := kset s.ce.pwm i st } }

def execPwmPeriodStart (j : BitVec 3) (s : State) : Host.Outcome State Fault Refusal := fin (pwmPeriodStart j s)

/-- The on-time ends; of a duty that fills the period it does not (R255). -/
def pwmOnTimeEnd (j : BitVec 3) (s : State) : State :=
  let i := j.toNat
  match kget? s.ce.pwm i with
  | some x =>
    if s.running && s.pwmEn i && x.isOn && decide (onCycles x.duty (s.pwmCycles i) < s.pwmCycles i) then
      { s with ce := { s.ce with pwm := kset s.ce.pwm i { x with isOn := false } } }
    else s
  | none => s

def execPwmOnTimeEnd (j : BitVec 3) (s : State) : Host.Outcome State Fault Refusal := fin (pwmOnTimeEnd j s)

/-- Shared values of a frame arrive (R257); what is older than a value held is of no use. -/
def sharedValues (frame : Word64) (entries : List SharedIn) (s : State) : State :=
  if !s.alive then s
  else
    { s with ce := { s.ce with shared := entries.foldl (fun m e =>
        match kget? m e.id.toNat with
        | some v => if v.frame ≤ frame.toNat then
            kset m e.id.toNat { frame := frame.toNat, valid := e.valid, value := e.value } else m
        | none => kset m e.id.toNat { frame := frame.toNat, valid := e.valid, value := e.value }) s.ce.shared } }

def execSharedValues (frame : Word64) (entries : List SharedIn) (s : State) : Host.Outcome State Fault Refusal :=
  fin (sharedValues frame entries s)

end Sys2Proof.Machine
end

