-- ==== Sys2Proof/Machine/Gleaner.lean ====
section
/-! DEFINITION. The gleaner converter (R101 to R116): its targets, the start rules for scheduled, edge and host requests,
and the results. -/

namespace Sys2Proof.Machine

/-- Where a target lies: 0 die A, 1 die B, 2 the hub die (*Gleaner targets*). -/
def targetDie (t : Nat) : Nat :=
  if t < 0x10 then 0 else if t < 0x20 then 1
  else if t < 0x28 then 0 else if t < 0x30 then 1
  else if t < 0x38 then 0 else if t < 0x40 then 1
  else if [0x40, 0x42, 0x44, 0x47, 0x51, 0x52, 0x53, 0x54, 0x5A, 0x5B, 0x5D, 0x5E, 0x5F].contains t then 0
  else if [0x41, 0x43, 0x45, 0x48, 0x55, 0x56, 0x57, 0x58, 0x5C].contains t then 1
  else 2

/-- Whether a target is available at a start (R101, R107). A disabled input is in no mode, so its sense is available whatever
IN_CFG.mode holds (DESIGN CHOICE, log 82). -/
def State.targetOk (s : State) (t sub : Nat) : Bool :=
  let d := targetDie t
  s.dieLink 0 && (d == 2 || s.dieLink d)
    && !((isLead t || isSense t) && !s.dieEn d)
    && !(isSense t && s.inEn (senseInput t sub) && s.inMode (senseInput t sub) == 2)

/-- The frame whose measurement interval contains a time (R91, R113); 0 where no frame is acquired. -/
def State.frameAt (s : State) (t : Int) : Nat :=
  let n := ((t - (s.fr.epoch : Int) * secU) / s.periodU).toNat + 1
  if s.running && decide (s.fr.tickS < n) then n else 0

/-- GL_STAT.pend. -/
def State.glPend (s : State) : State :=
  s.setFlag Reg.GL_STAT Fld.GL_STAT_pend (!s.gl.timers.isEmpty || s.gl.reqDue.isSome)

/-- A drop or a skip (R112): counted, latched, and raised at most once per frame while frames run. -/
def State.glDrop (s : State) (target cause : Nat) (skipped : Bool) : State :=
  let s := s.incSat Reg.GL_DROPCNT 1
  let s := s.setFlag Reg.GL_STAT (if skipped then Fld.GL_STAT_skip else Fld.GL_STAT_drop) true
  if s.running then
    if s.gl.dropFrame = some s.fr.nextTick then s
    else ({ s with gl := { s.gl with dropFrame := some s.fr.nextTick } }).raiseF 0 17 target cause (b2n skipped) s.frameData
  else s.raiseF 0 17 target cause (b2n skipped) s.frameData

/-- A conversion starts at `t` (R104 to R106). A sense discards the words of an enabled input. -/
def State.glStart (s : State) (target sub source edge : Nat) (t : Int) : State :=
  let c : Conv := { target := target, sub := sub, source := source, edge := edge, start := t }
  let s := { s with gl := { s.gl with running := some c } }
  let s := (s.setFlag Reg.GL_STAT Fld.GL_STAT_busy true).fput Reg.GL_STAT Fld.GL_STAT_cur_tgt target
  let n := senseInput target sub
  if isSense target && s.acquiring n then
    let w := fun (x : Int) => ((x - s.lastTickTime + wordU - 1) / wordU).toNat
    s.modIn n (fun x => { x with sense := x.sense ++ [({ first := w t, last := w (t + convU) - 1, upper := false } : WordSpan)] })
  else s

/-- The first start of schedule entry `e` after `t` (R108). -/
def State.entryAfter (s : State) (e : Nat) (t : Int) : Int :=
  let off := (s.schedSlot e : Int) * slotU
  let k := max s.fr.tickS (((t - off - (s.fr.epoch : Int) * secU) / s.periodU + 1).toNat)
  let k := k + (s.schedF e + s.schedG - k % s.schedG) % s.schedG
  s.tickTime k + off

/-- The start of the next schedule entry from `t` on, once the schedule runs or is about to: one due at `t` itself counts where it
starts, since the schedule comes before every request (R108, R112). -/
def State.nextEntry (s : State) (t : Int) : Option Int :=
  if !s.inRun || s.pw.waiting || s.m = 0 || s.schedG = 0 then none
  else
    s.schedEntries.foldl (fun best e =>
      let at0 := s.entryAfter e (t - 1)
      let x := if at0 = t && !s.targetOk (s.schedTarget e) (s.fget (Reg.GL_SCHEDB e) Fld.GL_SCHEDB_sub) then s.entryAfter e t else at0
      match best with
      | none => some x
      | some b => some (min b x)) none

def State.edgeField (s : State) (j : Nat) (f : BitField) : Nat := s.fget (Reg.GL_EDGE j) f

/-- An edge request of lower index is due at the same instant and can start: it comes first (R112). The host comes last, as
request 4. -/
def State.outranked (s : State) (rank : Nat) (t : Int) : Bool :=
  s.gl.timers.any (fun e => decide (e.1 < rank) && e.2 == t
    && s.targetOk (s.edgeField e.1 Fld.GL_EDGE_target) (s.edgeField e.1 Fld.GL_EDGE_sub))

/-- A request due at `t` starts, is dropped, or is skipped (R107, R112). -/
def State.glDue (s : State) (target sub source edge cause : Nat) (t : Int) : State :=
  let blocked := s.gl.running.isSome || s.outranked (cause - 1) t || (match s.nextEntry t with
    | some x => decide (x < t + convU)
    | none => false)
  if blocked then s.glDrop target cause false
  else if !s.targetOk target sub then s.glDrop target cause true
  else s.glStart target sub source edge t

/-- The converter is powered: not off and not in Hold (R463). -/
def State.glOn (s : State) : Bool := s.alive && !s.pw.inReset && s.pw.power != .hold

/-- A schedule entry's start arrives (R108): the tick that opened the present frame is one of the entry's. -/
def gleanerScheduleStart (i : BitVec 5) (s : State) : State :=
  let e := i.toNat
  let k := s.fr.nextTick - 1
  if s.inRun && s.running && s.schedValid e && s.schedG != 0 && k % s.schedG == s.schedF e && decide (s.fr.tickS ≤ k)
      && s.gl.running.isNone then
    let t := s.schedTarget e
    let sub := s.fget (Reg.GL_SCHEDB e) Fld.GL_SCHEDB_sub
    if s.targetOk t sub then s.glStart t sub 0 0 (s.tickTime k + (s.schedSlot e : Int) * slotU)
    else s.glDrop t 0 true
  else s

def execGleanerScheduleStart (i : BitVec 5) (s : State) : Host.Outcome State Fault Refusal :=
  fin (gleanerScheduleStart i s)

/-- The output that entry `j` watches stands as after the edge it watches: on after a rising, off after a falling one (R110). -/
def State.edgeSeen (s : State) (j : Nat) : Bool :=
  (kget? s.ce.pwm (s.edgeField j Fld.GL_EDGE_pwm)).any (fun x => x.isOn == (s.edgeField j Fld.GL_EDGE_edge == 0))

/-- The watched edge of an enabled entry at time `t` (R110): its output has just switched as the entry's edge code says. -/
def glEdgeTrigger (j : BitVec 2) (t : Int) (s : State) : State :=
  let n := j.toNat
  if !(s.glOn && s.flag (Reg.GL_EDGE n) Fld.GL_EDGE_en && s.edgeSeen n) then s
  else if (kget? s.gl.timers n).isSome then s.glDrop (s.edgeField n Fld.GL_EDGE_target) (n + 1) false
  else
    let due := t + (s.edgeField n Fld.GL_EDGE_delay : Int) * 1000 * nsU
    ({ s with gl := { s.gl with timers := kset s.gl.timers n due } }).glPend

def execGlEdgeTrigger (j : BitVec 2) (t : Int) (s : State) : Host.Outcome State Fault Refusal := fin (glEdgeTrigger j t s)

def glEdgeTimerExpire (j : BitVec 2) (s : State) : State :=
  let n := j.toNat
  match kget? s.gl.timers n with
  | none => s
  | some t =>
    let s := ({ s with gl := { s.gl with timers := kerase s.gl.timers n } }).glPend
    s.glDue (s.edgeField n Fld.GL_EDGE_target) (s.edgeField n Fld.GL_EDGE_sub) 1 n (n + 1) t

def execGlEdgeTimerExpire (j : BitVec 2) (s : State) : Host.Outcome State Fault Refusal := fin (glEdgeTimerExpire j s)

/-- A write to GL_EDGE[j] cancels its timer; a refused target discards it (R110). -/
def glEdgeWrite (j : BitVec 2) (val : Word) (s : State) : State :=
  if 0x5F < BitField.get Fld.GL_EDGE_target val then s.accErr true (Reg.GL_EDGE j.toNat)
  else (({ s with gl := { s.gl with timers := kerase s.gl.timers j.toNat } }).wr (Reg.GL_EDGE j.toNat) val).glPend

def execGlEdgeWrite (j : BitVec 2) (val : Word) (s : State) : Host.Outcome State Fault Refusal := fin (glEdgeWrite j val s)

/-- A host request is due at the first base-slot boundary at least 1 µs away (R111). -/
def State.glRequest (s : State) : State :=
  let due := (s.now + 1000 * nsU + slotU - 1) / slotU * slotU
  ({ s with gl := { s.gl with reqDue := some due } }).glPend

/-- A conversion of the reference check of GLB_REQ op 1 has its outcome, of which the first failure stands; the next one is
requested (R485). -/
def State.refNext (s : State) (result : Nat) : State :=
  let s := { s with pw := { s.pw with reqTargets := s.pw.reqTargets.drop 1
                                      reqResult := if s.pw.reqResult = 0 then result else s.pw.reqResult } }
  if s.pw.reqTargets.isEmpty then s else s.glRequest

/-- The judgement of a check target's value, in µV (R485). -/
def refResult (target : Nat) (v : Int) (sat : Bool) : Nat :=
  if target = 0x5D then (if sat || decide (20 < v.natAbs) then 4 else 0)
  else
    let nom : Int := if target = 0x5E then 2000000 else -2000000
    if sat || decide (400 < (v - nom).natAbs) then 5 else 0

/-- A write to GL_REQ (R111): a request is due at the first base-slot boundary at least 1 µs away. A write with go = 0 replaces
target and sub also while a request waits, which then converts the new target (DESIGN CHOICE, log 82). -/
def glReq (val : Word) (s : State) : State :=
  let v := val &&& 0x80000F7F
  let go := BitField.get Fld.GL_REQ_go v != 0
  if 0x5F < BitField.get Fld.GL_REQ_target v then s.accErr true Reg.GL_REQ
  else if !go then s.wr Reg.GL_REQ (v ||| (s.rd Reg.GL_REQ &&& 0x80000000))
  else if s.flag Reg.GL_REQ Fld.GL_REQ_go || !(s.inIdle || s.inRun) || s.pw.reqGlean then s.accErr true Reg.GL_REQ
  else (s.wr Reg.GL_REQ v).glRequest

def execGlReq (val : Word) (s : State) : Host.Outcome State Fault Refusal := fin (glReq val s)

def glReqDue (s : State) : State :=
  match s.gl.reqDue with
  | none => s
  | some t =>
    match s.pw.reqTargets with
    | target :: _ =>
      let s := ({ s with gl := { s.gl with reqDue := none } }).glPend
      let was := s.gl.running
      let s := if s.glOn then s.glDue target 0 2 0 5 t else s.glDrop target 5 false
      if was.isNone && s.gl.running.isSome then s else s.refNext 6
    | [] =>
    let target := s.fget Reg.GL_REQ Fld.GL_REQ_target
    let sub := s.fget Reg.GL_REQ Fld.GL_REQ_sub
    let s := ((({ s with gl := { s.gl with reqDue := none } }).setFlag Reg.GL_REQ Fld.GL_REQ_go false)).glPend
    if s.glOn then s.glDue target sub 2 0 5 t else s.glDrop target 5 false

def execGlReqDue (s : State) : Host.Outcome State Fault Refusal := fin (glReqDue s)

/-- The value a conversion stores: the span's end where it saturates (R103), and for a lead loop gain × (raw − offset)
(R155), whose last bit's rounding is open (log 6). -/
def State.glValue (s : State) (t : Nat) (raw : Int) (sat : Bool) : Int :=
  if sat then (if raw < 0 then -2147483648 else 2147483647)
  else if isLead t then
    let (off, gain) := s.leadCal t
    clampI (-2147483648) 2147483647 (openDiv ((raw - off) * (gain : Int)) (2 ^ 30))
  else raw

/-- No conversion runs; GL_STAT.cur_tgt then reads 0 (DESIGN CHOICE, log 82). -/
def State.glIdle (s : State) : State :=
  (({ s with gl := { s.gl with running := none } }).setFlag Reg.GL_STAT Fld.GL_STAT_busy false).fput Reg.GL_STAT Fld.GL_STAT_cur_tgt 0

/-- The gleaner powers down (R463): a running conversion is lost and counts as a skip; a request that waits stays due, and is
dropped then. -/
def State.gleanerOff (s : State) : State :=
  match s.gl.running with
  | none => s
  | some c =>
    let s := (s.glDrop c.target (if c.source = 0 then 0 else if c.source = 1 then c.edge + 1 else 5) true).glIdle
    if c.source = 2 && s.gl.reqDue.isNone && s.pw.reqTargets.head? == some c.target then s.refNext 6 else s

/-- A conversion completes (R113 to R115, R420). -/
def gleanerConversionDone (raw : BitVec 32) (sat : Bool) (s : State) : State :=
  match s.gl.running with
  | none => s
  | some c =>
    let t := c.target
    let s := s.glIdle
    let v := s.glValue t raw.toInt sat
    let f := s.frameAt (c.start + convU)
    let low := decide (v < (s.rd (Reg.GL_LIMLO t)).toInt)
    let high := decide ((s.rd (Reg.GL_LIMHI t)).toInt < v)
    let lim := low || high
    let old := s.rd (Reg.GL_TGT_INFO t)
    let news := lim && !(BitField.get Fld.GL_TGT_INFO_valid old != 0 && BitField.get Fld.GL_TGT_INFO_lim old != 0)
    let sub := if isSense t then c.sub else 0
    let seq := (BitField.get Fld.GL_TGT_INFO_seq old + 1) % 256
    let s := { s with gl := { s.gl with resFrame := if f = 0 then kerase s.gl.resFrame t else kset s.gl.resFrame t f } }
    let s := s.wr (Reg.GL_TGT_VAL t) (wordI v)
    let s := s.wr (Reg.GL_TGT_INFO t) (word (f % 65536 * 65536 + seq * 256 + sub * 16 + 4 + b2n sat * 2 + b2n lim))
    let rseq := (s.fget Reg.GL_RES_INFO Fld.GL_RES_INFO_seq + 1) % 256
    let s := s.wr Reg.GL_RES_VAL (wordI v)
    let s := s.wr Reg.GL_RES_INFO (word (2 ^ 24 * rseq + 2 ^ 16 * t + 2 ^ 12 * sub + 2 ^ 10 * c.source + 2 ^ 8 * c.edge
      + b2n sat * 2 + b2n lim))
    let s := s.wr64 Reg.GL_RES_FRM_LO (BitVec.ofNat 64 f)
    let s := if news then s.raiseD 18 t (b2n high) 0 (BitVec.ofInt 64 v) else s
    let s := if isLead t && f != 0 then { s with fe := { s.fe with leadRes := s.fe.leadRes ++ [(t, v, sat)] } } else s
    let s := if c.source = 2 && s.gl.reqDue.isNone && s.pw.reqTargets.head? == some t then s.refNext (refResult t v sat) else s
    if t = 0x5A then s.ntcResult v f else s

def execGleanerConversionDone (raw : BitVec 32) (sat : Bool) (s : State) : Host.Outcome State Fault Refusal :=
  fin (gleanerConversionDone raw sat s)

/-- GL_CTL.clr_drop (R116). -/
def glClrDrop (s : State) : State := s.wr Reg.GL_DROPCNT 0
def execGlClrDrop (s : State) : Host.Outcome State Fault Refusal := fin (glClrDrop s)

end Sys2Proof.Machine
end

