-- ==== Sys2Proof/Machine/Plots.lean ====
section
/-! DEFINITION. Capture units and plot records (R200 to R220, R228 to R236): histories, firings, collisions, mask tests,
streaming, and the parts a record is delivered in. -/

namespace Sys2Proof.Machine

/-- AQ_USTAT.state. -/
def uDisarmed : Nat := 0
def uArmed : Nat := 1
def uCapturing : Nat := 2
def uByCount : Nat := 3
def uByViol : Nat := 4
def uByOverrun : Nat := 5

/-- A unit as a disarmed unit stands. -/
def UnitSt.init : UnitSt :=
  { hist := [], newest := none, first := none, gap := none, slipWait := false, conds := [], plot := none, held := [], count := 0, armedAt := 0, autoNews := false
    collRaised := false, noSlotRun := false, memLow := false, ready := [], usedSlots := 0, fifo := 0 }

def State.unit (s : State) (u : Nat) : UnitSt := (kget? s.aq.units u).getD UnitSt.init
def State.setUnit (s : State) (u : Nat) (x : UnitSt) : State := { s with aq := { s.aq with units := kset s.aq.units u x } }
def State.modUnit (s : State) (u : Nat) (f : UnitSt → UnitSt) : State := s.setUnit u (f (s.unit u))
def State.ustate (s : State) (u : Nat) : Nat := s.fget (Reg.AQ_USTAT u) Fld.AQ_USTAT_state
def State.setUstate (s : State) (u v : Nat) : State := s.fput (Reg.AQ_USTAT u) Fld.AQ_USTAT_state v

def State.upre (s : State) (u : Nat) : Nat := s.rdN (Reg.AQ_UPRE u)
def State.upost (s : State) (u : Nat) : Nat := s.rdN (Reg.AQ_UPOST u)
/-- A streaming unit whose post is unbounded (R207). -/
def unbounded : Nat := 0xFFFFFFFF
def State.rowLen (s : State) (u : Nat) : Nat := rowBytes (s.unitSources u).length

/-- Rows the history keeps (R208). -/
def State.histLimit (s : State) (u : Nat) : Nat := s.upre u + (if s.unitStream u then 64 else s.upost u)

/-! ## Rows (R203) -/

/-- The bytes of a row. -/
def Row.bytes (r : Row) : List Byte :=
  padTo 4 (r.values.flatMap (fun v => leBytes 4 v.toNat) ++ r.flags)

/-- One modulator word in units of 2^-16 ns. -/
def wordT : Int := 16000000

/-- The next row of a unit: the one after its newest; before the first row of a Run, that of the first frame, or of the first
fast-tap sample to complete, which none does before tick s. -/
def State.nextRow (s : State) (u : Nat) : Nat :=
  match (s.unit u).newest with
  | some k => k + 1
  | none =>
    if s.unitFast u then
      (((if s.running then s.now else max s.now (s.tickTime s.fr.tickS)) - (s.fr.epoch : Int) * secU) / (64 * wordT)).toNat
    else if s.running then s.fr.nextTick else s.fr.tickS + 1

/-- The frame in whose measurement interval a row completes (R229). -/
def State.rowFrame (s : State) (u : Nat) (r : Row) : Nat := if s.unitFast u then r.idx / 4 / s.m + 1 else r.idx

/-- A value is clean (R212). -/
def cleanFlag (fast : Bool) (b : Byte) : Bool := if fast then b &&& 14#8 == 0 else b.getLsbD 0

/-! ## Records (R229, R236) -/

def pfFinal : BitVec 16 := 1
def pfAuto : BitVec 16 := 2
def pfHost : BitVec 16 := 4
def pfDrill : BitVec 16 := 8
def pfLate : BitVec 16 := 16
def pfPreShort : BitVec 16 := 32
def pfViol : BitVec 16 := 64
def pfOverrun : BitVec 16 := 128
def pfStopped : BitVec 16 := 256
def pfEcc : BitVec 16 := 512
def pfLost : BitVec 16 := 1024
def pfSlipped : BitVec 16 := 2048

/-- The header of a record. -/
def State.plotHeader (s : State) (u : Nat) (p : Plot) (final : Bool) : List Byte :=
  leBytes 4 0x544F4C50 ++ [BitVec.ofNat 8 s.hubAddr, BitVec.ofNat 8 u, BitVec.ofNat 8 (b2n (s.unitFast u)), BitVec.ofNat 8 p.source]
    ++ leBytes 4 p.seq.toNat ++ leBytes 2 (s.unitSources u).length ++ leBytes 2 (s.rowLen u) ++ leBytes 4 p.pre ++ leBytes 4 p.post
    ++ leBytes 4 (if final then p.written else 0) ++ leBytes 4 (p.viol.getD 0xFFFFFFFF) ++ timeBytes p.tp
    ++ leBytes 4 (BitVec.ofInt 32 p.drillOff).toNat ++ leBytes 8 p.j ++ [p.coin, BitVec.ofNat 8 p.drillCh]
    ++ leBytes 2 (if final then p.flags ||| pfFinal else p.flags).toNat ++ leBytes 4 (p.eccRow.getD 0xFFFFFFFF)

/-- A segment (R290): its header, its rows, padding. -/
def State.segmentBytes (s : State) (u : Nat) (seq : Word) (first frame : Nat) (rows : List Row) : List Byte :=
  padTo 64 (leBytes 4 0x47455350 ++ [BitVec.ofNat 8 s.hubAddr, BitVec.ofNat 8 u] ++ zeros 2 ++ leBytes 4 seq.toNat
    ++ leBytes 4 first ++ leBytes 4 rows.length ++ zeros 4 ++ leBytes 8 frame ++ zeros 32 ++ rows.flatMap Row.bytes)

/-- A part of a streaming record, for the plot mover. -/
def mkPart (u : Nat) (seq : Word) (bytes : List Byte) (fifo : Nat) (last : Bool) : Part :=
  { unit := u, plotSeq := seq, bytes := bytes, sent := 0, last := last, eccAt := none, fifo := fifo, slot := false, entry := none }

/-- The rows of a streaming record that wait for a segment become segments, one for each frame up to `upto` (R229). -/
def State.cutSegments (s : State) (u : Nat) (upto : Option Nat) : List Part × State :=
  let x := s.unit u
  match x.plot with
  | none => ([], s)
  | some p =>
    let frame := s.rowFrame u
    let due := p.pendRows.filter (fun r => upto.all (fun n => decide (frame r ≤ n)))
    let parts := (due.map frame).eraseDups.map (fun n =>
      let rows := due.filter (fun r => frame r == n)
      let first := p.pendFirst + (due.filter (fun r => decide (frame r < n))).length
      mkPart u p.seq (s.segmentBytes u p.seq first n rows) (rows.length * s.rowLen u) false)
    (parts, s.setUnit u { x with plot := some { p with pendRows := p.pendRows.drop due.length, pendFirst := p.pendFirst + due.length } })

/-- Parts join those that wait for the plot mover. -/
def State.pushParts (s : State) (u : Nat) (ps : List Part) : State := s.modUnit u (fun x => { x with ready := x.ready ++ ps })

/-- The record in capture is settled: its last part waits for the plot mover, and the unit has no plot. -/
def State.finishPlot (s : State) (u : Nat) (extra : BitVec 16) : State :=
  match (s.unit u).plot with
  | none => s
  | some p =>
    let p := { p with flags := p.flags ||| extra }
    let s := s.modUnit u (fun x => { x with plot := some p })
    if s.unitStream u then
      let (segs, s) := s.cutSegments u none
      let s := s.pushParts u (segs ++ [mkPart u p.seq (s.plotHeader u p true) 0 true])
      s.modUnit u (fun x => { x with plot := none, count := x.count + 1 })
    else
      let bytes := padTo 64 (s.plotHeader u p true ++ p.rows.flatMap Row.bytes)
      let s := s.pushParts u [{ mkPart u p.seq bytes 0 true with slot := true }]
      s.modUnit u (fun x => { x with plot := none, count := x.count + 1 })

/-! ## Mask tests (R219, R220) -/

/-- A row violates one of the unit's segments. -/
def State.violates (s : State) (u : Nat) (p : Plot) (r : Row) : Bool :=
  let off : Int := (r.idx : Int) - (p.j : Int)
  (List.range 4).any (fun k =>
    let src := s.fget (Reg.AQ_UMASK_A u k) Fld.AQ_UMASK_A_src
    let v := r.values.getD src 0
    s.flag (Reg.AQ_UMASK_A u k) Fld.AQ_UMASK_A_en
      && decide ((s.rd (Reg.AQ_UMASK_B u k)).toInt ≤ off) && decide (off ≤ (s.rd (Reg.AQ_UMASK_C u k)).toInt)
      && (if cleanFlag (s.unitFast u) (r.flags.getD src 0) then
            decide (v.toInt < (s.rd (Reg.AQ_UMASK_D u k)).toInt) || decide ((s.rd (Reg.AQ_UMASK_E u k)).toInt < v.toInt)
          else s.ucfg u Fld.AQ_UCFG_inv_viol))

/-- The first violation of a plot. -/
def State.testMask (s : State) (u : Nat) (p : Plot) (r : Row) : State :=
  if p.viol.isSome || !s.violates u p r then s
  else
    let idx := r.idx + p.pre - p.j
    let s := s.modUnit u (fun x => { x with plot := some { p with viol := some idx, flags := p.flags ||| pfViol } })
    let s := (s.incSat (Reg.AQ_UVIOLCNT u) 1).setFlag (Reg.AQ_USTAT u) Fld.AQ_USTAT_viol true
    s.raiseD 26 u 0 0 (p.seq.setWidth 64)

/-- MEMORY_LOW (R231). -/
def State.memoryLow (s : State) (u cause : Nat) : State :=
  if (s.unit u).memLow then s
  else (s.modUnit u (fun x => { x with memLow := true })).raise 31 u cause

/-- A row is written into the record in capture; a full FIFO ends it (R230). -/
def State.writeRow (s : State) (u : Nat) (r : Row) : State :=
  let x := s.unit u
  match x.plot with
  | none => s
  | some p =>
    let len := s.rowLen u
    let size := s.rdN (Reg.AQ_UFIFO u) * 1024
    if s.unitStream u then
      if size < x.fifo + len then
        let last := p.written + 0xFFFFFFFF
        let s := s.finishPlot u pfOverrun
        let s := s.modUnit u (fun x => { x with held := [] })
        let s := (s.wr (Reg.AQ_ULASTVALID u) (word last)).setFlag (Reg.AQ_USTAT u) Fld.AQ_USTAT_overrun true
        (s.setUstate u uByOverrun).raiseD 25 u 0 0 (join64 p.seq (word last))
      else
        let p := { p with written := p.written + 1, pendRows := p.pendRows ++ [r] }
        let s := (s.setUnit u { x with plot := some p, fifo := x.fifo + len }).testMask u p r
        if 3 * size < 4 * (x.fifo + len) then s.memoryLow u 1 else s
    else
      let p := { p with written := p.written + 1, rows := p.rows ++ [r] }
      (s.setUnit u { x with plot := some p }).testMask u p r

/-! ## Firing (R208, R213, R214) -/

/-- TRIG_OUT pulses of a drill channel (1) or of a unit's firing (2) start (R227). -/
def State.trigOut (s : State) (src sel : Nat) : State :=
  [0, 1].foldl (fun s o =>
    if s.fget (Reg.AQ_TOUT o) Fld.AQ_TOUT_src == src && s.fget (Reg.AQ_TOUT o) Fld.AQ_TOUT_sel == sel then
      { s with aq := { s.aq with tout := s.aq.tout ||| (1#2 <<< o) } }
    else s) s

/-- L of R222: a member's is the head's, which ignores its own setting (R223); before the head has distributed one, the default
(DESIGN CHOICE, log 82). -/
def State.drillLatency (s : State) : Int :=
  (if s.pw.headSel then s.fget Reg.AQ_DRILL Fld.AQ_DRILL_latency
   else match s.pw.headParams with
     | some p => p.latency.toNat
     | none => 40 : Nat) * 1000 * nsU

/-- A drill message of this hub on a channel: it leaves both ports, and the hub itself acts on it at t_act (R221, R222). -/
def State.sendDrill (s : State) (ch : Nat) (tp tdet : Int) : State :=
  let seq := s.aq.drillSeq
  let tact := tdet + s.drillLatency
  let msg : DrillMsg := { origin := s.hubAddr, ch := ch, seq := seq, tp := tp, tact := tact }
  let s := { s with aq := { s.aq with drillSeq := seq + 1, drills := s.aq.drills ++ [msg], seen := (s.hubAddr, seq) :: s.aq.seen } }
  s.sendAll (s.ownCell 0xB 0x3F ([BitVec.ofNat 8 ch] ++ zeros 3 ++ leBytes 4 seq.toNat ++ timeBytes tp ++ timeBytes tdet))

/-- A condition that fires or joins a plot sends its drill message (R221). -/
def State.condDrill (s : State) (u : Nat) (fi : Firing) : State :=
  if fi.cond < 8 && s.flag (Reg.AQ_UCOND_A u fi.cond) Fld.AQ_UCOND_A_tx_en
      && s.fget (Reg.AQ_UCOND_A u fi.cond) Fld.AQ_UCOND_A_type != 5 then
    s.sendDrill (s.fget (Reg.AQ_UCOND_A u fi.cond) Fld.AQ_UCOND_A_tx_ch) fi.tp fi.tdet
  else s

/-- A collision (R214): `once` says whether its event has been raised already. -/
def State.collide (s : State) (u cause : Nat) (once : Bool) : State :=
  let s := (s.incSat (Reg.AQ_UCOLL u) 1).setFlag (Reg.AQ_USTAT u) Fld.AQ_USTAT_coll true
  if once then s else s.raise 28 u cause

/-- What the source of a plot adds to its flags. -/
def Firing.flags (fi : Firing) : BitVec 16 :=
  (if fi.cond = 0xFF then pfAuto else if fi.cond = 0xFE then pfHost else 0) ||| (if fi.drillCh = 0xFF then 0 else pfDrill)
    ||| (if fi.isLate then pfLate else 0)

/-- Rows of the record: all written, or none to come. -/
def Plot.complete (p : Plot) : Bool :=
  p.flags &&& pfLost != 0 || (p.post != unbounded && decide (p.pre + p.post ≤ p.written))

/-- A plot starts (R206, R208, R213, R216). -/
def State.startPlot (s : State) (u : Nat) (fi : Firing) : State :=
  let x := s.unit u
  let pre := s.upre u
  let post := s.upost u
  let j := fi.j
  let next := s.nextRow u
  let bare := pre == 0 && post == 0
  let lost := !bare && decide (j < next) && !x.hist.any (fun r => r.idx == j)
  let before := x.hist.filter (fun r => decide (r.idx < j))
  let coming := j - next
  let kept := if lost then 0 else min pre (before.length + coming)
  let flags := Firing.flags fi ||| (if lost then pfLost else 0) ||| (if kept < pre then pfPreShort else 0)
  let p : Plot := { seq := s.rd (Reg.AQ_USEQ u), source := fi.cond, tp := fi.tp, j := j
                    coin := if fi.cond < 8 then 1#8 <<< fi.cond else 0, drillCh := fi.drillCh, drillOff := fi.late, flags := flags
                    pre := kept, post := post, rows := [], written := 0, viol := none, eccRow := none, pendRows := [], pendFirst := 0 }
  let preRows := (before.take (kept - coming)).reverse
  let postRows := if lost then []
    else x.hist.reverse.filter (fun r => decide (j ≤ r.idx) && (post == unbounded || decide (r.idx < j + post)))
  let s := s.wr (Reg.AQ_USEQ u) (p.seq + 1)
  let s := s.setUnit u { x with plot := some p, noSlotRun := false, collRaised := false, autoNews := x.autoNews || decide (fi.cond < 8)
                                usedSlots := if s.unitStream u then x.usedSlots else x.usedSlots + 1 }
  let s := s.setUstate u uCapturing
  let s := if !s.unitStream u && s.rdN (Reg.AQ_USLOTS u) ≤ x.usedSlots + 1 then s.memoryLow u 0 else s
  let s := if fi.cond = 0xFF && x.autoNews then
      (s.modUnit u (fun x => { x with autoNews := false })).raiseD 27 u 0 0 (p.seq.setWidth 64)
    else s
  let s := (s.trigOut 2 u).condDrill u fi
  if s.unitStream u then
    let fit := (s.rdN (Reg.AQ_UFIFO u) * 1024 - x.fifo) / s.rowLen u
    let s := (preRows.take fit).foldl (fun s r => s.writeRow u r) s
    let s := match (s.unit u).plot with
      | none => s
      | some q =>
        let part := mkPart u q.seq (padTo 64 (s.plotHeader u q false ++ q.pendRows.flatMap Row.bytes)) (q.pendRows.length * s.rowLen u) false
        (s.modUnit u (fun x => { x with plot := some { q with pendRows := [], pendFirst := q.pendRows.length } })).pushParts u [part]
    (preRows.drop fit ++ postRows).foldl (fun s r => s.writeRow u r) s
  else (preRows ++ postRows).foldl (fun s r => s.writeRow u r) s

/-- A condition joins the plot of its trigger sample (R213, R226): the lowest-numbered condition is the source, and of two
drill messages the earlier trigger point stands. -/
def State.joinPlot (s : State) (u : Nat) (p : Plot) (fi : Firing) : State :=
  if 8 ≤ fi.cond then s
  else
    let old := if p.source < 8 && p.drillCh != 0xFF && fi.drillCh != 0xFF then min p.tp fi.tp else fi.tp
    let auto := p.flags &&& (0xFFFF#16 ^^^ (pfDrill ||| pfLate))
    let q := { p with coin := p.coin ||| (1#8 <<< fi.cond) }
    let q := if fi.cond < p.source then
        { q with source := fi.cond, tp := old, drillCh := fi.drillCh, drillOff := fi.late, flags := auto ||| Firing.flags fi }
      else if p.drillCh != 0xFF && fi.drillCh != 0xFF then { q with tp := min p.tp fi.tp } else q
    (s.modUnit u (fun x => { x with plot := some q, autoNews := true })).condDrill u fi

/-- A firing is held until re-arm; each condition holds only its earliest, and of two drill messages with one trigger sample the
earlier trigger point (R215, R226). -/
def State.holdFiring (s : State) (u : Nat) (fi : Firing) : State :=
  s.modUnit u (fun x =>
    match x.held.find? (fun h => h.cond == fi.cond) with
    | some h => if fi.j < h.j || (fi.j == h.j && fi.drillCh != 0xFF && decide (fi.tp < h.tp)) then { x with held := x.held.map (fun g => if g.cond = fi.cond then fi else g) } else x
    | none => { x with held := x.held ++ [fi] })

/-- A unit meets a firing: it starts a plot, joins one, collides, or is held. -/
def State.meet (s : State) (u : Nat) (fi : Firing) : State :=
  let x := s.unit u
  if s.ustate u = uArmed then
    if !s.unitStream u && s.rdN (Reg.AQ_USLOTS u) ≤ x.usedSlots then
      (s.modUnit u (fun x => { x with noSlotRun := true })).collide u 1 x.noSlotRun
    else s.startPlot u fi
  else if s.ustate u = uCapturing then
    match x.plot with
    | none => s
    | some p =>
      if fi.j = p.j && fi.cond != 0xFE then s.joinPlot u p fi
      else if p.post = unbounded || fi.j < p.j + p.post || fi.j < p.j || fi.cond = 0xFE then
        (s.modUnit u (fun x => { x with collRaised := true })).collide u 0 x.collRaised
      else s.holdFiring u fi
  else s

/-! ## Ends -/

/-- Arming (R232), and re-arming: watches, history and holds start anew at an arming by the host. -/
def State.rearm (s : State) (u : Nat) (fresh : Bool) : State :=
  let s := s.setUstate u uArmed
  s.modUnit u (fun x =>
    if fresh then { x with hist := [], conds := [], plot := none, held := [], count := 0, armedAt := s.now, autoNews := true
                           collRaised := false, noSlotRun := false, slipWait := false }
    else { x with armedAt := s.now, held := [], collRaised := false })

/-- The end of a plot by a stop: its record is flagged, the unit disarmed (R234). -/
def State.stopUnit (s : State) (u : Nat) : State :=
  let s := s.finishPlot u pfStopped
  let s := s.modUnit u (fun x => { x with held := [], slipWait := false })
  s.setUstate u uDisarmed

/-- Leaving Run stops and disarms every unit (R234). -/
def State.stopUnits (s : State) : State := (List.range 8).foldl State.stopUnit s

/-- How a unit stands after a plot: stopped by its violation, or by its count; none where it goes on (R216, R220). -/
def State.stopsAfter (s : State) (u : Nat) (viol : Bool) : Option Nat :=
  let n := s.rdN (Reg.AQ_UCOUNT u)
  if viol && s.ucfg u Fld.AQ_UCFG_stop_viol then some uByViol
  else if n != 0 && decide (n ≤ (s.unit u).count) then some uByCount
  else none

/-- A time step ends every plot in capture; an armed unit starts anew at the first row after the modulator clock has relocked (R234). -/
def State.slipUnits (s : State) : State :=
  (List.range 8).foldl (fun s u =>
    if s.ustate u = uCapturing || s.ustate u = uArmed then
      let viol := (s.unit u).plot.any (fun p => p.viol.isSome)
      let s := (s.finishPlot u pfSlipped).modUnit u (fun x => { x with hist := [], conds := [], held := [] })
      match s.stopsAfter u viol with
      | some st => s.setUstate u st
      | none => (s.modUnit u (fun x => { x with slipWait := true })).setUstate u uDisarmed
    else s) s

/-- The first row after the modulator clock has relocked has come: a unit that waited for it re-arms (R234). -/
def State.relockUnit (s : State) (u : Nat) : State :=
  if (s.unit u).slipWait && !s.fe.pllStep then
    (s.rearm u false).modUnit u (fun x => { x with hist := [], conds := [], slipWait := false })
  else s

/-- PLOT_CAPTURE_COMPLETE: the record is settled; the unit stops by violation or count, or re-arms and takes what is held, in
the order of the trigger samples (R215, R216, R220). -/
def plotCaptureComplete (u : BitVec 3) (s : State) : State :=
  let u := u.toNat
  match (s.unit u).plot with
  | none => s
  | some p =>
    if !(s.ustate u = uCapturing && Plot.complete p) then s
    else
      let held := sortBy (fun a b => decide (a.j < b.j) || (a.j == b.j && decide (a.cond ≤ b.cond))) (s.unit u).held
      let s := s.finishPlot u 0
      let s := s.modUnit u (fun x => { x with held := [] })
      match s.stopsAfter u p.viol.isSome with
      | some st => s.setUstate u st
      | none => held.foldl (fun s fi => s.meet u fi) (s.rearm u false)

def execPlotCaptureComplete (u : BitVec 3) (s : State) : Host.Outcome State Fault Refusal := fin (plotCaptureComplete u s)

/-! ## Delivery (R201, R229, R232, R233) -/

/-- The bytes of a header with its ecc flag and the row set, unless an earlier error stands. -/
def eccHeader (h : List Byte) (row : Nat) : List Byte :=
  if (h.getD 0x3B 0).getLsbD 1 then h
  else h.take 0x3B ++ [h.getD 0x3B 0 ||| 2#8] ++ leBytes 4 row ++ h.drop 0x40

/-- Whether a part opens with a record header. -/
def Part.isHeader (p : Part) : Bool := p.bytes.take 4 == leBytes 4 0x544F4C50

/-- The error is marked in the record: in the part itself, or in the final header that follows (R201, R236). -/
def State.markEcc (s : State) (u : Nat) (p : Part) (hit : EccHit) : Part × State :=
  let s := s.eccError hit
  if p.last then ({ p with bytes := eccHeader p.bytes hit.row, eccAt := some (min (64 + hit.row * s.rowLen u) (p.bytes.length - 1)) }, s)
  else
    let s := s.modUnit u (fun x => { x with
      ready := x.ready.map (fun q => if q.last && q.plotSeq == p.plotSeq then { q with bytes := eccHeader q.bytes hit.row } else q)
      plot := x.plot.map (fun q => if q.seq = p.plotSeq && q.eccRow.isNone then
        { q with eccRow := some hit.row, flags := q.flags ||| pfEcc } else q) })
    ({ p with eccAt := some 64 }, s)

/-- The errors met while a part is read are counted, and those that stand are marked in it (R201). -/
def State.markPart (s : State) (u : Nat) (p : Part) (hits : List EccHit) : Part × State :=
  hits.foldl (fun (x : Part × State) hit => if hit.fixed then (x.1, x.2.eccCorrected) else x.2.markEcc u x.1 hit) (p, s)

/-- A part goes to its furrow, behind what waits there, and into posted buffers. -/
def State.handPart (s : State) (u : Nat) (p : Part) : State :=
  let f := s.fget (Reg.AQ_UFURROW u) Fld.AQ_UFURROW_index
  let (e, s) := s.absorb 2 f p.bytes
  (s.modFurrow f (fun fu => { fu with parts := fu.parts ++ [{ p with entry := e }] })).deliver f false

/-- PLOT_PART_HANDOFF: the oldest part of a unit enters the chain and goes to delivery, unless the manifest is full (R372); `ecc` are
the errors met in it (R201). -/
def plotPartHandoff (u : BitVec 3) (ecc : List EccHit) (s : State) : State :=
  let u := u.toNat
  match (s.unit u).ready with
  | [] => s
  | p :: rest =>
    if s.moverHeld then s
    else
      let s := s.modUnit u (fun x => { x with ready := rest })
      let (p, s) := s.markPart u p ecc
      s.handPart u p

def execPlotPartHandoff (u : BitVec 3) (ecc : List EccHit) (s : State) : Host.Outcome State Fault Refusal :=
  fin (plotPartHandoff u ecc s)

/-- The oldest part of a unit that waits goes to its furrow, unless the manifest is full (R372). -/
def State.handReady (s : State) (u : Nat) : State :=
  match (s.unit u).ready with
  | [] => s
  | p :: rest => if s.moverHeld then s else (s.modUnit u (fun x => { x with ready := rest })).handPart u p

/-- The errors that the window meets in the segments of a unit are marked in the first of them (R201). -/
def State.markParts (s : State) (u : Nat) (hits : List EccHit) (ps : List Part) : List Part × State :=
  match ps with
  | [] => ([], s)
  | p :: rest =>
    let (p, s) := s.markPart u p hits
    (p :: rest, s)

/-- The segments that a window cuts (R229): those of streaming kind 0 units enter the chain in the seal step, in ascending
unit number (R233, R369), behind what still waits of their records (log 84); those of kind 1 wait for the plot mover. -/
def State.sealSegments (s : State) (n : Nat) (ecc : List WindowEcc) : State :=
  (List.range 8).foldl (fun s u =>
    if s.unitEn u && s.unitStream u then
      let (ps, s) := s.cutSegments u (some n)
      let (ps, s) := if s.unitFast u then (ps, s) else s.markParts u (unitHits ecc u) ps
      let s := s.pushParts u ps
      if s.unitFast u then s else (List.range (s.unit u).ready.length).foldl (fun s _ => s.handReady u) s
    else s) s

end Sys2Proof.Machine
end

