-- ==== Sys2Proof/Machine/SidePort.lean ====
section
/-! DEFINITION. The side port (R443 to R457): host transfers, setpoint frames, and the observer. -/

namespace Sys2Proof.Machine

def State.spMode (s : State) : Nat := s.fget Reg.SP_CFG Fld.SP_CFG_mode
def State.spDiv (s : State) : Nat := s.fget Reg.SP_CFG Fld.SP_CFG_div
def State.spEn (s : State) : Bool := s.flag Reg.SP_SPCFG Fld.SP_SPCFG_sp_en
def State.spLen (s : State) : Nat := s.fget Reg.SP_SPCFG Fld.SP_SPCFG_len
def State.spWidth (s : State) : Nat := s.fget Reg.SP_SPCFG Fld.SP_SPCFG_width

/-- Bits a clock carries at a width code (R445); none for a refused code. -/
def lanesOf (code : Nat) : Nat := [1, 2, 4, 8].getD code 0

/-- Shifting time of the setpoint frame in ns (R449). -/
def State.spShiftNs (s : State) : Nat := s.spLen / lanesOf s.spWidth * s.spDiv * 5

/-! ## Host transfers (R445 to R447) -/

/-- One phase of a transfer: bits, width code, and whether the lanes of half duplex turn in. -/
structure XPhase where
  bits : Nat
  width : Nat
  dirIn : Bool
  deriving DecidableEq, Repr

/-- The phases of a transfer (*XFER phase format*), and the clocks between them. -/
def xferPhases (d : Desc) : List XPhase × Nat :=
  let w := d.w6.toNat
  let bits := d.w1.toNat
  let split := w / 2 ^ 20
  let p0 := fun b => ({ bits := b, width := w % 8, dirIn := w / 8 % 2 == 1 } : XPhase)
  if split = 0 then ([p0 bits], 0)
  else ([p0 split, { bits := bits - split, width := w / 2 ^ 8 % 8, dirIn := w / 2 ^ 11 % 2 == 1 }], w / 2 ^ 16 % 16)

/-- Bits that go out and that come in. -/
def XPhase.outBits (p : XPhase) : Nat := if p.width = 0 || !p.dirIn then p.bits else 0
def XPhase.inBits (p : XPhase) : Nat := if p.width = 0 || p.dirIn then p.bits else 0
def xferIn (d : Desc) : Nat := ((xferPhases d).1.map XPhase.inBits).foldl (· + ·) 0
def xferOut (d : Desc) : Nat := ((xferPhases d).1.map XPhase.outBits).foldl (· + ·) 0

/-- A reserved field of an XFER is not 0 (R278). -/
def xferReserved (d : Desc) : Bool :=
  d.flags &&& 0xFE#8 != 0 || d.param &&& 0xFF00#16 != 0 || d.w6 &&& 0x0000F0F0#32 != 0 || d.w7 != 0

/-- A parameter failure of R446. -/
def State.xferBad (s : State) (d : Desc) : Bool :=
  let bits := d.w1.toNat
  let w := d.w6.toNat
  let mask := d.param.toNat % 256
  let ps := (xferPhases d).1
  s.spMode != 1 || mask == 0 || decide (4096 < bits) || decide (bits ≤ w / 2 ^ 20)
    || 3 < w % 8 || 3 < w / 2 ^ 8 % 8 || ps.any (fun p => p.bits % lanesOf p.width != 0)
    || (join64 d.w2 d.w3 == 0 && 0 < xferOut d) || (join64 d.w4 d.w5 == 0 && 0 < xferIn d)
    || (s.inRun && s.spEn && mask &&& s.fget Reg.SP_SPCFG Fld.SP_SPCFG_sel != 0)

/-- Length of a transfer in ns, its minimum select-high time included (R444). -/
def State.xferNs (s : State) (d : Desc) : Nat :=
  let (ps, turn) := xferPhases d
  ((ps.map (fun p => p.bits / lanesOf p.width)).foldl (· + ·) turn) * s.spDiv * 5 + 1200

/-- It fits into no gap between two setpoint windows (R447). -/
def State.xferTooLong (s : State) (d : Desc) : Bool :=
  s.inRun && s.spEn && decide (s.m * 62500 < s.xferNs d + s.spShiftNs + 1200)

/-- It can start now: its end, the minimum select-high time included, comes before the next setpoint window opens; a window
runs to 100 ns after its tick (R447). -/
def State.xferFits (s : State) (d : Desc) : Bool :=
  let from_ := max s.now (s.tickTime (s.fr.nextTick - 1) + 100 * nsU)
  let opens := s.tickTime s.fr.nextTick - ((s.spShiftNs + 1100 : Nat) : Int) * nsU
  !(s.inRun && s.running && s.spEn) || !s.sp.shifting && decide (from_ + (s.xferNs d : Int) * nsU ≤ opens)

/-- The next transfer of the SIDE furrow is taken: it ends at once, or runs. False when there is none, or when it
waits for a gap between two setpoint windows (R447). -/
def State.sideTake (s : State) : Bool × State :=
  let resetting := match s.hi.subreset with | some r => r.code == 2 | none => false
  if s.sp.xfer.isSome || resetting then (false, s)
  else
    match s.furrowOf? .side with
    | none => (false, s)
    | some f => match s.furrow? f with
      | none => (false, s)
      | some fu =>
        match fu.items.find? (fun it => Item.isHeld it && it.op == 0x40#8) with
        | none => (false, s)
        | some it =>
          if fu.failed || Furrow.fenced fu it.seq then (false, s)
          else if xferReserved it.desc then (true, s.endItem f it.seq .failedParam 0 0)
          else if it.desc.w1 = 0 then (true, s.endItem f it.seq .doneEmpty 0 0)
          else if s.xferBad it.desc then (true, s.endItem f it.seq .failedParam 0 0)
          else if s.xferTooLong it.desc then (true, s.endItem f it.seq .failedLimit 0 0)
          else if s.sp.shifting || !s.xferFits it.desc then (false, s)
          else
            let s := s.activate f it.seq
            let s := if 0 < xferOut it.desc then s.readHost .transfer (join64 it.desc.w2 it.desc.w3) (ceilDiv (xferOut it.desc) 8) else s
            (true, ({ s with sp := { s.sp with xfer := some it.seq } }).setFlag Reg.SP_STAT Fld.SP_STAT_xfer_busy true)

def State.sideN : Nat → State → State
  | 0, s => s
  | n + 1, s => match s.sideTake with
    | (true, s') => State.sideN n s'
    | (false, s') => s'

/-- The side port takes what it can run. -/
def State.sidePump (s : State) : State :=
  match s.furrowOf? .side with
  | none => s
  | some f => match s.furrow? f with
    | none => s
    | some fu => s.sideN (fu.items.length + 1)

/-- The running transfer ends: its selects are released. -/
def State.freeSide (s : State) : State :=
  ({ s.dropReads .transfer with sp := { s.sp with xfer := none } }).setFlag Reg.SP_STAT Fld.SP_STAT_xfer_busy false

/-- Bits of a value, most significant first, and the value of such bits. -/
def msbBits (w v : Nat) : List Bool := (List.range w).map (fun i => v.testBit (w - 1 - i))
def bitsValue (bs : List Bool) : Nat := bs.foldl (fun n b => 2 * n + b2n b) 0

/-- The bits of a transfer that go out, in buffer order, the most significant of each byte first (R445). -/
def xferBits (n : Nat) (tx : List Byte) : List Bool :=
  ((fitBytes (ceilDiv n 8) tx).flatMap (fun b => msbBits 8 b.toNat)).take n

/-- Bits on their clocks, `w` on each. -/
def clocksOf (w : Nat) (bs : List Bool) : List (List Bool) := (List.range (ceilDiv bs.length w)).map (fun i => (bs.drop (w * i)).take w)

/-- The clocks of one phase: it drives its share of the outgoing bits, or nothing while bits come in. -/
def XPhase.clocks (p : XPhase) (bs : List Bool) : List (List Bool) :=
  if p.outBits = 0 then List.replicate (p.bits / lanesOf p.width) [] else clocksOf (lanesOf p.width) (bs.take p.bits)

/-- The clocks of a transfer: its phases, and between two the clocks in which the lanes turn. -/
def xferClocks (d : Desc) (tx : List Byte) : List (List Bool) :=
  let bs := xferBits (xferOut d) tx
  match xferPhases d with
  | ([p, q], turn) => p.clocks bs ++ List.replicate turn [] ++ q.clocks (bs.drop p.outBits)
  | (ps, _) => ps.flatMap (fun p => p.clocks bs)

/-- What a transfer drives: its select mask and its clocks. -/
def State.sideOut (s : State) (d : Desc) (tx : List Byte) : State :=
  s.emit (.sideShift (d.param.toNat % 256) (xferClocks d tx))

/-- Input bits packed as bits go out, the last byte filled up with zeros (R445). -/
def packRx (n : Nat) (clocks : List (List Bool)) : List Byte :=
  let bs := clocks.flatten
  (List.range (ceilDiv n 8)).map (fun i => BitVec.ofNat 8 (bitsValue ((List.range 8).map (fun k =>
    decide (8 * i + k < n) && bs.getD (8 * i + k) false))))

/-- XFER_COMPLETE: the bits of tx went out, the input bits, packed by R445, are written to rx, and the item is DONE. -/
def xferComplete (x : XferBytes) (s : State) : State :=
  if !s.readsCame .transfer then s
  else match s.sp.xfer, s.furrowOf? .side with
  | some seq, some f =>
    let s := (s.readsDone .transfer).freeSide
    match (s.furrow? f).bind (fun fu => Furrow.item? fu seq) with
    | none => s
    | some it =>
      let n := xferIn it.desc
      let s := s.sideOut it.desc x.tx
      let s := if n = 0 then s else s.toHost (.dmaWrite (join64 it.desc.w4 it.desc.w5) (packRx n x.rx))
      (s.endItem f seq .done (ceilDiv n 8) 0).sidePump
  | _, _ => s

def execXferComplete (x : XferBytes) (s : State) : Host.Outcome State Fault Refusal := fin (xferComplete x s)

/-! ## Setpoint frames (R448 to R451) -/

def State.slotEn (s : State) (j : Nat) : Bool := s.flag (Reg.SP_SLOT j) Fld.SP_SLOT_en
def State.slotPos (s : State) (j : Nat) : Nat := s.fget (Reg.SP_SLOT j) Fld.SP_SLOT_pos

/-- The frame's template. -/
def State.template (s : State) : List Bool :=
  (List.range s.spLen).map (fun i => (s.rd (Reg.SP_TMPL (i / 32))).getLsbD (31 - i % 32))

/-- A slot written over the frame. -/
def overwrite (pos : Nat) (bs frame : List Bool) : List Bool :=
  (frame.take pos ++ bs ++ frame.drop (pos + bs.length)).take frame.length

/-- The setpoint frame, or in safe state the safe frame. -/
def State.spFrame (s : State) (safe : Bool) : List Bool :=
  ((List.range 32).filter s.slotEn).foldl (fun fr j =>
    let v := if safe || (s.driver? 3 j).isNone then s.rdN (Reg.SP_SLOTSAFE j) else kgetD s.ce.slotNext j 0
    overwrite (s.slotPos j) (msbBits (s.slotWidth j) v) fr) s.template

/-- A setpoint frame goes out for the next tick: every frame from tick s on sends one (R448), the safe frame in safe state, and none
where the control step was cut (R451). Between tick s and the next no control step is due: slots carry the loops' start values. -/
def State.spSends (s : State) : Bool := s.sv.safe || s.ce.ran || decide (s.fr.nextTick = s.fr.tickS + 1)

/-- The selects fall and the frame for the next tick is shifted; `rx` are the bits that come back on SP_D1. -/
def setpointFrameShift (rx : List Bool) (s : State) : State :=
  if s.spMode == 1 && s.spEn && s.running && !s.sp.shifting && !s.sp.inhibit && s.spSends then
    let fr := s.spFrame s.sv.safe
    let s := { s with sp := { s.sp with shifting := true, frame := fr, rx := rx.take fr.length } }
    let s := s.setFlag Reg.SP_STAT Fld.SP_STAT_sp_busy true
    s.emit (.sideShift (s.fget Reg.SP_SPCFG Fld.SP_SPCFG_sel) (clocksOf (lanesOf s.spWidth) fr))
  else s

def execSetpointFrameShift (rx : List Bool) (s : State) : Host.Outcome State Fault Refusal := fin (setpointFrameShift rx s)

/-- The selects rise at the tick: the converters latch, and in full duplex SP_SPRX takes the returned bits (R449); a
transfer that waited starts. -/
def State.spTick (s : State) : State :=
  if !s.sp.shifting then s.sidePump
  else
    let rx := s.sp.rx
    let s := if s.spWidth = 0 then
        (rx.zipIdx).foldl (fun s p =>
          let a := Reg.SP_SPRX (p.2 / 32)
          let bit : Word := 1#32 <<< (31 - p.2 % 32)
          s.wr a (if p.1 then s.rd a ||| bit else s.rd a &&& ~~~bit)) s
      else s
    (({ s with sp := { s.sp with shifting := false } }).setFlag Reg.SP_STAT Fld.SP_STAT_sp_busy false).sidePump

/-! ## Observer mode (R452 to R456) -/

/-- A word of the observer window; none beyond it (R455). -/
def State.obsWord (s : State) (a : Nat) : Option Word :=
  if a < 0x80 then some (s.svWord (0x48000 + 4 * a))
  else if a < 0x88 then some (s.rd (Reg.EV_FF (a - 0x80)))
  else if a < 0x98 then some (s.rd (Reg.CE_AOCUR (a - 0x88)))
  else if a < 0xA0 then some (s.rd (Reg.CE_PWMCUR (a - 0x98)))
  else if a = 0xA0 then some (s.rd Reg.CE_RBSTAT)
  else if a = 0xA1 then some (s.rd Reg.FR_FRAME_LO)
  else if a = 0xA2 then some (s.rd Reg.FR_FRAME_HI)
  else none

/-- Eight words, the last the CRC-32C over the others, most significant byte of each first (R453). -/
def obsCrc (ws : List Word) : Word := crc32c (ws.flatMap (fun w => beBytes 4 w.toNat))

/-- The status frame. -/
def State.obsStatus (s : State) : List Word :=
  let a := s.fget Reg.SP_OBSPTR Fld.SP_OBSPTR_ptr
  let win := (List.range 3).map (fun i => s.obsWord (a + i))
  let w0 := word (0x5A * 2 ^ 24 + 2 ^ 16 * s.hubAddr + s.frameNo % 65536)
  let w1 := word (2 ^ 31 * b2n s.sv.safe + 2 ^ 30 * b2n s.faultLow + 2 ^ 27 * s.role + 2 ^ 22 * (s.svPerm.toNat % 32)
    + s.rdN Reg.SV_CAUSE % 2 ^ 17)
  let w2 := word (2 ^ 24 * s.sp.obsSeq.toNat + 2 ^ 16 * (s.rdN Reg.SP_OBSERR % 256) + 2 ^ 15 * b2n s.sp.obsErr
    + 2 ^ 14 * b2n (win.any Option.isNone) + 2 ^ 13 * b2n s.inRun)
  let ws := [w0, w1, w2, word a] ++ win.map (fun w => w.getD 0)
  ws ++ [obsCrc ws]

/-- SP_SEL0 falls: the register takes the status frame, and the pointer advances by 3, saturating (R452, R455). -/
def observerSelectFall (s : State) : State :=
  if s.alive && s.spMode == 2 then
    let reg := s.obsStatus.flatMap (fun w => msbBits 32 w.toNat)
    let s := { s with sp := { s.sp with obsSel := true, obsReg := reg } }
    s.fput Reg.SP_OBSPTR Fld.SP_OBSPTR_ptr (min 0xFFFF (s.fget Reg.SP_OBSPTR Fld.SP_OBSPTR_ptr + 3))
  else s

def execObserverSelectFall (s : State) : Host.Outcome State Fault Refusal := fin (observerSelectFall s)

/-- SP_STAT.permit. -/
def State.setPermit (s : State) (b : Bool) : State :=
  ({ s with sp := { s.sp with permit := b } }).setFlag Reg.SP_STAT Fld.SP_STAT_permit b

/-- A frame is discarded (R453). -/
def State.obsDiscard (s : State) : State :=
  let s := (s.incSat Reg.SP_OBSERR 1).setFlag Reg.SP_STAT Fld.SP_STAT_frm_err true
  { s with sp := { s.sp with obsErr := true } }

/-- The stage count C (R456). -/
def State.obsStages (s : State) : Nat :=
  let c := s.fget Reg.SP_OBSCFG Fld.SP_OBSCFG_chain
  if c = 0 then 64 else c

/-- The words of 256 bits, most significant bit first. -/
def wordsOfBits : Nat → List Bool → List Word
  | 0, _ => []
  | n + 1, bs => word (bitsValue (bs.take 32)) :: wordsOfBits n (bs.drop 32)

/-- SP_SEL0 rises after the clocks that shifted `bits` in (R453, R454). -/
def observerSelectRise (bits : List Bool) (s : State) : State :=
  if !s.sp.obsSel then s
  else
    let all := s.sp.obsReg ++ bits
    let went := all.take bits.length
    let s := s.emit (.sideShift 0 (clocksOf 1 went))
    let s := { s with sp := { s.sp with obsSel := false, obsReg := all.drop bits.length } }
    let want := 256 * s.obsStages
    if bits.length != want then
      let s := s.obsDiscard
      s.raiseD 61 0 (if bits.length < want then 1 else 2) 0 (BitVec.ofNat 64 (s.rdN Reg.SP_OBSERR))
    else
      let ws := wordsOfBits 8 s.sp.obsReg
      let w0 := (ws.getD 0 0).toNat
      let w1 := (ws.getD 1 0).toNat
      if w0 / 2 ^ 24 != 0xC3 || obsCrc (ws.take 7) != ws.getD 7 0 then s.obsDiscard
      else
        let s := { s with sp := { s.sp with obsErr := false, obsSeq := BitVec.ofNat 8 (w0 / 2 ^ 16) } }
        let s := s.setPermit (w1 / 2 ^ 31 == 1)
        match w0 / 2 ^ 8 % 256 with
        | 1 => s.fput Reg.SP_OBSPTR Fld.SP_OBSPTR_ptr (w1 % 65536)
        | 2 => s.latchCause 11
        | 3 => s.wr Reg.SP_OBSERR 0
        | _ => s

def execObserverSelectRise (bits : List Bool) (s : State) : Host.Outcome State Fault Refusal := fin (observerSelectRise bits s)

/-- OBSERVER_PERMIT_LAPSE (R454). -/
def observerPermitLapse (s : State) : State := s.setPermit false

def execObserverPermitLapse (s : State) : Host.Outcome State Fault Refusal := fin (observerPermitLapse s)

end Sys2Proof.Machine
end

