-- ==== Sys2Proof/Machine/Furrows.lean ====
section
/-! DEFINITION. The host engine (R264 to R297): descriptors fetched and started, the operations on furrow 0, subsystem
resets (R427 to R429), and failed accesses.  Furrows of this hub stand at their index, adopted ones (R414) at 256 more. -/

namespace Sys2Proof.Machine

/-! ## Descriptors (R278, R279) -/

/-- The kinds that allow an op. -/
def opAllowed (k : FurrowKind) (op : Byte) : Bool :=
  match op.toNat with
  | 0x00 => true
  | 0x01 => k != .mgmt
  | 0x10 => k == .sample || k == .plot || k == .seal || k == .event
  | 0x20 => k == .setpoint
  | 0x30 | 0x31 | 0x32 => k == .job
  | 0x40 => k == .side
  | 0x80 | 0x81 | 0x82 | 0x83 | 0x84 | 0x85 => k == .mgmt
  | _ => false

/-- Flag bits, param and bytes that an op does not use are 0; job and transfer descriptors are checked where they run. -/
def reservedZero (op : Byte) (d : Desc) : Bool :=
  let tail := d.w4 == 0 && d.w5 == 0 && d.w6 == 0 && d.w7 == 0
  let p := d.param == 0
  (d.flags &&& 0xFE#8 == 0 || (decide (0x30 ≤ op.toNat) && decide (op.toNat ≤ 0x32))) &&
  match op.toNat with
  | 0x00 => p && d.w1 == 0 && d.w2 == 0 && d.w3 == 0 && tail
  | 0x01 => p && d.w3 == 0 && tail
  | 0x10 | 0x84 => p && tail
  | 0x20 => d.w1 == 0 && d.w6 == 0 && d.w7 == 0
  | 0x80 => p && d.w1 == 0 && tail
  | 0x81 | 0x82 | 0x83 => p && d.w2 == 0 && d.w3 == 0 && tail
  | 0x85 => d.w1 == 0 && d.w2 == 0 && d.w3 == 0 && tail
  | _ => true

/-- Address and length of a BUF or LEDGER are multiples of 64. -/
def bufAligned (d : Desc) : Bool := (Desc.len d) % 64 == 0 && (Desc.addr d).toNat % 64 == 0

/-- Setpoints in the queue or fetched and not yet queued (R250). -/
def State.setpointLoad (s : State) : Nat :=
  s.ce.queue.length + (s.hi.furrows.map (fun e => (e.2.items.filter (fun it => Item.isHeld it && it.op == 0x20#8)).length)).foldl (· + ·) 0

/-- A descriptor of a furrow can be fetched now: one is posted, nothing stops the furrow, and a SETPOINT furrow finds room
in the queue (R250, R265, R268, R294, R296), and its read can go out (R327). -/
def State.mayFetch (s : State) (fu : Furrow) : Bool :=
  s.hostOpen && s.readRoom && !fu.failed && !fu.stalled && (fu.items.any Item.isBack || fu.nextFetch != fu.prod) && (fu.kind != .setpoint || decide (s.setpointLoad < 512))

/-- The sequence number of the descriptor to fetch next: the first that a stall gave back, or the first not yet fetched. -/
def Furrow.fetchSeq (fu : Furrow) : Word :=
  match fu.items.find? Item.isBack with
  | some it => it.seq
  | none => fu.nextFetch

/-- The next descriptor is fetched. -/
def Furrow.fetch (fu : Furrow) (op : Byte) (d : Desc) (block : Option (List Byte)) : Furrow :=
  let it : Item := { seq := fu.fetchSeq, op := op, desc := d, block := block, st := .held, wrote := 0, recs := 0, refused := none }
  if fu.items.any Item.isBack then { fu with items := fu.items.map (fun x => if x.seq = it.seq then it else x) }
  else { fu with nextFetch := fu.nextFetch + 1, items := fu.items ++ [it] }

def Desc.zero : Desc := { flags := 0, param := 0, w1 := 0, w2 := 0, w3 := 0, w4 := 0, w5 := 0, w6 := 0, w7 := 0 }

/-! ## Handles (R270) -/

/-- The furrow of a handle; this hub's own before an adopted one. -/
def State.target? (s : State) (h : Word) : Option Nat :=
  [h.toNat % 256, 256 + h.toNat % 256].find? (fun f => match s.furrow? f with
    | some fu => fu.handle == h
    | none => false)

/-- HANDLE_STALE (R270). -/
def State.stale (s : State) (h : Word) : State := s.raiseD 54 0 0 0 (h.setWidth 64)

/-- The completion of an item has been posted, sequence numbers compared as signed differences (R284). -/
def Furrow.posted (fu : Furrow) (seq : Word) : Bool := decide (0 < (fu.nextPost - seq).toInt)

/-! ## Starting an item of a furrow other than furrow 0 -/

/-- A FENCE starts (R284). -/
def State.startFence (s : State) (f : Nat) (it : Item) : State :=
  match s.target? it.desc.w2 with
  | none => (s.stale it.desc.w2).endItem f it.seq .failedParam 0 0
  | some t =>
    if t = f then s.endItem f it.seq .failedParam 0 0
    else if (s.furrow? t).any (fun fu => Furrow.posted fu it.desc.w1) then s.endItem f it.seq .done 0 0
    else s.activate f it.seq

/-- The active hub relays a setpoint to a ready standby (R413). -/
def State.relays (s : State) : Bool := s.role == 1 && s.flag Reg.SV_TWSTAT Fld.SV_TWSTAT_p_ready

/-- A twin message, a ring control message on the twin lane. -/
def State.sendTwin (s : State) (sub : Nat) (values : List Nat) : State := s.sendValues 2 sub s.sv.twin.partnerAddr values

/-- A SETPOINT starts (R46, R250). One of an adopted furrow that had been acknowledged is in the queue, or has its outcome
(R414). -/
def State.startSetpoint (s : State) (f : Nat) (it : Item) : State :=
  let d := it.desc
  let l := d.param.toNat
  let frame := (join64 d.w2 d.w3).toNat
  let value := join64 d.w4 d.w5
  let aux := d.w2
  let now := if s.running then s.frameNo else 0
  if s.ce.queue.any (fun q => q.furrow == f && q.seq == it.seq) then s.activate f it.seq
  else match s.sv.twin.applied.find? (fun e => e.1 == f && e.2.1 == it.seq) with
  | some e => s.endItem f it.seq e.2.2.1 0 e.2.2.2
  | none =>
  if 31 < l || s.setpointBad f l || !fFinite value || decide (now + 65536 < frame) then s.endItem f it.seq .failedParam 0 aux
  else if s.running && decide (frame ≤ now) then (s.setpointLate f it.seq l frame).endItem f it.seq .failedLate 0 aux
  else
    let relay := s.relays
    let q : QSet := { furrow := f, seq := it.seq, loop := l, frame := frame, value := value, acked := !relay }
    let s := ({ s with ce := { s.ce with queue := s.ce.queue ++ [q] } }).noteQueueSp
    let s := s.activate f it.seq
    if relay then s.sendTwin 0x11 [f % 256, it.seq.toNat, l, frame, value.toNat] else s

/-- A BUF starts: it waits for data, or takes what waits (R279, R286, R290 to R292). -/
def State.startBuf (s : State) (f : Nat) (it : Item) (ecc : Bool) : State :=
  if Desc.len it.desc = 0 then s.endItem f it.seq .doneEmpty 0 0
  else if !bufAligned it.desc then s.endItem f it.seq .failedParam 0 0
  else
    let s := s.activate f it.seq
    let s := s.deliver f ecc
    match s.furrow? f with
    | some fu => if fu.kind == .event && !s.inRun then s.evFill else s
    | none => s

/-- The items of a kind wait for a subsystem reset (R428, step 1). -/
def State.resets (s : State) (k : FurrowKind) : Bool :=
  s.hi.subreset.any (fun r => (r.code == 1 && k == .job) || (r.code == 2 && k == .side))

/-- A held item starts; jobs and transfers wait for their unit (R336, R446), and during a subsystem reset every item of its furrows
waits (R428). -/
def State.startItem (s : State) (f : Nat) (it : Item) (ecc : Bool) : State :=
  match s.furrow? f with
  | none => s
  | some fu =>
    if fu.failed || Furrow.fenced fu it.seq || s.resets fu.kind then s
    else if !opAllowed fu.kind it.op || !reservedZero it.op it.desc then s.endItem f it.seq .failedParam 0 (Item.plainAux it)
    else match it.op.toNat with
      | 0x00 => s.endItem f it.seq .done 0 0
      | 0x01 => s.startFence f it
      | 0x10 => s.startBuf f it ecc
      | 0x20 => s.startSetpoint f it
      | _ => s

/-- The held items of a furrow start, in order, up to the next open fence. -/
def State.startHeld (s : State) (f : Nat) (ecc : Bool) : State :=
  match s.furrow? f with
  | none => s
  | some fu =>
    let s := (fu.items.filter Item.isHeld).foldl (fun s it => s.startItem f it ecc) s
    s.balerPump.sidePump

/-! ## Furrow 0: CREATE (R271, R272) -/

/-- The ledger entry of an index (R280, R431). -/
def State.ledger (s : State) (f gen st : Nat) : State := s.wr (Reg.GLB_LEDGER_HI f) (word (2 ^ 24 * st + gen % 2 ^ 24))
def State.ledgerGen (s : State) (f : Nat) : Nat := s.fget (Reg.GLB_LEDGER_HI f) Fld.GLB_LEDGER_HI_gen

def kindOf (n : Nat) : Option FurrowKind :=
  [(1, FurrowKind.sample), (2, .plot), (3, .setpoint), (4, .job), (5, .seal), (6, .side), (7, .event)].lookup n

/-- The furrow a parameter block describes; none where a field breaks the table. -/
def blockFurrow (s : State) (b : List Byte) : Option Furrow :=
  let g := fun (o n : Nat) => ofLe (slice b o n)
  let vec := g 2 1
  let mask := BitVec.ofNat 256 (g 0x20 32)
  let fixed := 4 ≤ g 1 1 && g 1 1 ≤ 15 && (vec < 64 || vec == 255) && g 3 1 < 2 && g 4 4 == 0 && g 8 8 % 64 == 0 && g 0x10 8 % 64 == 0
    && g 0x19 7 == 0
  match kindOf (g 0 1) with
  | none => none
  | some k =>
    let sampleOk := if k == .sample then 1 ≤ g 0x18 1 && g 0x18 1 ≤ 16 && mask != 0 && (maskInputs mask).all s.inEn
      else g 0x18 1 == 0 && mask == 0
    if fixed && sampleOk then
      some { kind := k, handle := 0, lsize := g 1 1, vector := vec, irqAll := g 3 1 == 1, descRing := BitVec.ofNat 64 (g 8 8)
             cplRing := BitVec.ofNat 64 (g 0x10 8), frames := g 0x18 1, mask := mask, prod := 0, nextFetch := 0, nextPost := 0
             items := [], stalled := false, failed := false, emptyEp := false, from? := none, openFrames := [], blocks := []
             gapRun := false, parts := [], twin := false }
    else none

/-- The limit of *Furrow kinds* is reached. -/
def State.kindFull (s : State) (k : FurrowKind) : Bool :=
  let n := (s.hi.furrows.filter (fun e => e.1 < 256 && e.2.kind == k)).length
  match k with
  | .seal | .side | .event => decide (1 ≤ n)
  | _ => false

/-- CREATE (R271): the first failure in the order DMA, PARAM, LIMIT decides. -/
def State.startCreate (s : State) (it : Item) : State :=
  match it.block with
  | none => ((s.readNow .block (Desc.addr it.desc) 64).dmaErr (Desc.addr it.desc)).endItem 0 it.seq .failedDma 0 0
  | some b =>
    let s := s.readNow .block (Desc.addr it.desc) 64
    match blockFurrow s (fitBytes 64 b) with
    | none => s.endItem 0 it.seq .failedParam 0 0
    | some fu =>
      match (List.range 256).find? (fun i => i != 0 && (s.furrow? i).isNone) with
      | none => s.endItem 0 it.seq .failedLimit 0 0
      | some i =>
        let c := s.pended.setFurrow i fu
        if s.kindFull fu.kind || (fu.kind == .sample && s.inRun && !c.costOk) then s.endItem 0 it.seq .failedLimit 0 0
        else
          let gen := if s.ledgerGen i = 0xFFFFFF then 1 else s.ledgerGen i + 1
          let h := word (gen * 256 + i)
          let s := if fu.kind == .sample && s.inRun then s.wr Reg.FR_BUDGET (word c.windowCost) else s
          let s := (s.setFurrow i { fu with handle := h }).ledger i gen 1
          let s := s.wr (Reg.GLB_LEDGER_LO i) 0xFFFFFFFF#32
          let s := { s with hi := { s.hi with noFurrow := kerase s.hi.noFurrow i } }
          s.endItem 0 it.seq .done 0 h

/-! ## DESTROY (R273, R284, R296) -/

/-- How many items are posted and not fetched. -/
def Furrow.unfetched (fu : Furrow) : Nat := (fu.items.filter Item.isBack).length + (fu.prod - fu.nextFetch).toNat

/-- Items posted and not fetched, as items that end with a status. -/
def Furrow.fetchAll (fu : Furrow) (st : CStatus) : Furrow :=
  let more : List Item := (List.range (fu.prod - fu.nextFetch).toNat).map (fun k =>
    { seq := fu.nextFetch + BitVec.ofNat 32 k, op := 0, desc := Desc.zero, block := none, st := .back, wrote := 0, recs := 0
      refused := none })
  { fu with items := (fu.items ++ more).map (fun it =>
              if it.isBack then { it with st := .finished st 0 0 false false false } else it)
            nextFetch := fu.prod }

/-- The setpoints of a furrow leave the queue; those already decided complete as decided. -/
def State.dropSetpoints (s : State) (f : Nat) : State :=
  let done := s.ce.ended.filter (fun e => e.1 == f)
  let s := { s with ce := { s.ce with queue := s.ce.queue.filter (fun q : QSet => q.furrow != f)
                                      ended := s.ce.ended.filter (fun e => e.1 != f) } }
  (done.foldl (fun s e => s.endItem e.1 e.2.1 e.2.2.1 0 e.2.2.2) s).noteQueueSp

/-- The unit of a furrow's item in work is freed (R339, R446). -/
def State.freeUnit (s : State) (f : Nat) : State :=
  let s := match s.bl.comp with | some (g, _) => if g = f then s.freePipe true else s | none => s
  let s := match s.bl.exp with | some (g, _) => if g = f then s.freePipe false else s | none => s
  let s := s.abandon f
  if s.furrowOf? .side = some f && s.sp.xfer.isSome then s.freeSide else s

/-- The unit bound to a PLOT furrow is stopped, and its waiting parts go; the records they were of (R273). -/
def State.unbindPlot (s : State) (f : Nat) : List (Nat × Word) × State :=
  (List.range 8).foldl (fun (p : List (Nat × Word) × State) u =>
    if (s.furrow? f).any (fun fu => fu.kind == .plot) && s.fget (Reg.AQ_UFURROW u) Fld.AQ_UFURROW_index == f then
      let t := p.2
      let t := if t.ustate u = uArmed || t.ustate u = uCapturing || (t.unit u).slipWait then t.stopUnit u else t
      let n := (t.unit u).ready.map Part.record
      let t := (t.unit u).ready.foldl State.freePart t
      (p.1 ++ n, t.modUnit u (fun x => { x with ready := [] }))
    else p) ([], s)

/-- Fences that wait for a furrow that is gone, `fu` as it was at its end: DONE where it has posted the item, else FAILED_PARAM;
what they held starts (R284). -/
def State.failFences (s : State) (fu : Furrow) : State :=
  s.hi.furrows.foldl (fun s e =>
    let hit := e.2.items.filter (fun it => it.op == 0x01#8 && Item.isActive it && it.desc.w2 == fu.handle)
    if hit.isEmpty then s
    else (hit.foldl (fun s it => s.endItem e.1 it.seq (if fu.posted it.desc.w1 then .done else .failedParam) 0 0) s).startHeld e.1 false) s

/-- DESTROY of a furrow: what it completes with in aux.  In Run the count of R37 falls with a SAMPLE furrow (R38). -/
def State.destroyFurrow (s : State) (f : Nat) (fu : Furrow) : Nat × State :=
  let lost := (fu.prod - fu.nextPost).toNat
  let s := if fu.kind == .event && !fu.failed then
      (match Furrow.buffer? fu with
        | some it => if it.recs = 0 then s else s.evEnd f it
        | none => s)
    else s
  let s := s.dropSetpoints f
  let s := (s.modFurrow f (fun fu => Furrow.fetchAll fu .abortedDestroy)).endAll f .abortedDestroy
  let s := if fu.kind == .event then s.evBack else s
  let s := s.freeUnit f
  let last := (s.furrow? f).getD fu
  let (ready, s) := s.unbindPlot f
  let (blocks, parts, s) := s.discard f
  let s := { s with hi := { s.hi with furrows := kerase s.hi.furrows f, noFurrow := kset s.hi.noFurrow f fu.prod } }
  let s := if f < 256 then s.ledger f (s.ledgerGen f) 0 else s
  let s := if fu.kind == .sample && s.inRun then s.wr Reg.FR_BUDGET (word s.pended.windowCost) else s
  let aux := if fu.failed then lost else if fu.kind == .sample || fu.kind == .plot then blocks + (ready ++ parts).eraseDups.length else 0
  (aux, (s.failFences last).noteStalled.balerPump)

/-! ## The other operations of furrow 0 -/

/-- The stream of a furrow that leaves its stall ends: at once, or with the item of it that still runs (R339). -/
def State.dropStream (s : State) (f : Nat) : State :=
  if s.bl.comp.any (fun e => e.1 == f) then { s with bl := { s.bl with compDrop := true } } else s.abandon f

/-- RESUME of a stalled furrow (R295); a stream that was open is not continued (R339). One that has failed is only destroyed (R296). -/
def State.resumeFurrow (s : State) (f : Nat) : State :=
  if (s.furrow? f).any (fun fu => fu.stalled && !fu.failed) then
    (((s.dropStream f).modFurrow f (fun fu => { fu with stalled := false })).noteStalled).startHeld f false
  else s

/-- Items of a furrow that have been fetched, or given back to the ring, and have not ended. -/
def Furrow.unended (fu : Furrow) : Nat := (fu.items.filter (fun it => !Item.ended it)).length

/-- FLUSH of a stalled furrow (R295): the number of items skipped. Every posted item that has not ended ends SKIPPED_STALL, one that
runs already included (log 85), and an open stream ends (R339). -/
def State.flushFurrow (s : State) (f : Nat) (fu : Furrow) : Nat × State :=
  if fu.stalled && !fu.failed then
    let s := s.dropSetpoints f
    let n := ((s.furrow? f).map (fun fu => Furrow.unended fu + (fu.prod - fu.nextFetch).toNat)).getD 0
    let s := (s.modFurrow f (fun fu => { Furrow.fetchAll fu .skippedStall with stalled := false })).endAll f .skippedStall
    (n, ((s.freeUnit f).noteStalled).balerPump.sidePump)
  else (0, s)

/-- The bytes of the drain ledger (R280). -/
def State.ledgerBytes (s : State) : List Byte :=
  (List.range 256).flatMap (fun i => leBytes 4 (s.rdN (Reg.GLB_LEDGER_LO i)) ++ leBytes 4 (s.rdN (Reg.GLB_LEDGER_HI i)))

/-- An item on a handle: a stale one fails. -/
def State.onHandle (s : State) (it : Item) (act : Nat → Furrow → State → State) : State :=
  match s.target? it.desc.w1 with
  | none => (s.stale it.desc.w1).endItem 0 it.seq .failedParam 0 0
  | some f => match s.furrow? f with
    | none => s
    | some fu => act f fu s

/-! ## Subsystem reset (R427 to R429) -/

/-- Items of a furrow that a recovery would settle: fetched and not ended; those given back behind a stall are not in flight (R426). -/
def Furrow.inFlight (fu : Furrow) : Nat := (fu.items.filter (fun it => !Item.ended it && !Item.isBack it)).length

/-- Every item in flight on the furrows of a kind ends ABORTED_RECOVERY; their number. -/
def State.abortKind (s : State) (k : FurrowKind) : Nat × State :=
  let fs := s.hi.furrows.filter (fun e => e.2.kind == k)
  ((fs.map (fun e => Furrow.inFlight e.2)).foldl (· + ·) 0, fs.foldl (fun s e => s.endAll e.1 .abortedRecovery) s)

/-- The gleaner's reset (R427): a running conversion counts as a skip; the host request and the edge timers go, and a
reference check has failed (R485). -/
def State.resetGleaner (s : State) : State :=
  let s := match s.gl.running with
    | some c => s.glDrop c.target (if c.source = 0 then 0 else if c.source = 1 then c.edge + 1 else 5) true
    | none => s
  let pw := if s.pw.reqTargets.isEmpty then s.pw else { s.pw with reqTargets := [], reqResult := if s.pw.reqResult = 0 then 6 else s.pw.reqResult }
  let s := { s with gl := { s.gl with running := none, timers := [], reqDue := none }, pw := pw }
  let s := (s.setFlag Reg.GL_STAT Fld.GL_STAT_busy false).fput Reg.GL_STAT Fld.GL_STAT_cur_tgt 0
  (s.setFlag Reg.GL_REQ Fld.GL_REQ_go false).glPend

/-- A port's reset: its link goes down, and where lanes are enabled it trains again (R427, R313). -/
def State.retrainPort (s : State) (p : Nat) : State :=
  let s := s.portGoesDown p
  if s.lanesEn p = 0 then s else s.trainPort p

/-- A subsystem is reset; the number of items aborted. -/
def State.resetPart (s : State) (code index : Nat) : Nat × State :=
  match code with
  | 1 =>
    let (n, s) := s.abortKind .job
    (n, s.balerClear)
  | 2 =>
    let (n, s) := s.abortKind .side
    let s := s.freeSide
    (n, { s with sp := { s.sp with inhibit := true } })
  | 3 => (0, s.resetGleaner)
  | 4 => (0, (List.range 8).foldl (fun s u =>
      if index.testBit u then (s.stopUnit u).modUnit u (fun x => { x with hist := [], conds := [] }) else s) s)
  | 5 => (0, s.retrainPort 0)
  | 6 => (0, s.retrainPort 1)
  | 7 => (0, { s with fe := { s.fe with resetSeenA := true, resetA := true } })
  | 8 => (0, { s with fe := { s.fe with resetSeenB := true, resetB := true } })
  | _ => (0, s)

/-- The code and index are listed (R427); the side port may be reset (R429). -/
def State.subresetOk (s : State) (code index : Nat) : Bool :=
  1 ≤ code && code ≤ 8 && (code == 4 || index == 0)
    && !(code == 2 && s.inRun && !s.sv.safe && s.enabledLoops.any (fun l => s.loopKind l == 3))

/-- SUBRESET starts: items in flight end, the subsystem is reset; the item itself ends with its reset (R428). -/
def State.startSubreset (s : State) (it : Item) : State :=
  let code := it.desc.param.toNat % 256
  let index := it.desc.param.toNat / 256
  if !s.subresetOk code index || !(s.inIdle || s.inRun) then s.endItem 0 it.seq .failedParam 0 0
  else
    let s := (s.activate 0 it.seq).dropStaging
    let s := { s with hi := { s.hi with subreset := some { code := code, index := index, aborted := 0 } } }
    let (n, s) := s.resetPart code index
    { s with hi := { s.hi with subreset := some { code := code, index := index, aborted := n } } }

/-! ## Furrow 0 runs its items one at a time (R269) -/

/-- LEDGER writes the drain ledger, or fails where the host refuses a write to its buffer (R280, R294). -/
def State.startLedger (s : State) (it : Item) : State :=
  let a := Desc.addr it.desc
  match s.hi.refuseAt with
  | some x =>
    if (x - a).toNat < 2048 then
      (({ s with hi := { s.hi with refuseAt := none } }).dmaErr x).endItem 0 it.seq .failedDma 0 0
    else (s.toHost (.dmaWrite a s.ledgerBytes)).endItem 0 it.seq .done 2048 0
  | none => (s.toHost (.dmaWrite a s.ledgerBytes)).endItem 0 it.seq .done 2048 0

/-- One item of furrow 0 starts. -/
def State.startMgmt (s : State) (it : Item) : State :=
  let d := it.desc
  if !opAllowed .mgmt it.op || !reservedZero it.op d then s.endItem 0 it.seq .failedParam 0 0
  else match it.op.toNat with
    | 0x00 => s.endItem 0 it.seq .done 0 0
    | 0x80 => s.startCreate it
    | 0x81 =>
      if d.w1 = 0x100#32 then s.endItem 0 it.seq .failedParam 0 0
      else s.onHandle it (fun f fu s => let (n, s) := s.destroyFurrow f fu; s.endItem 0 it.seq .done 0 (word n))
    | 0x82 => s.onHandle it (fun f _ s => (s.resumeFurrow f).endItem 0 it.seq .done 0 0)
    | 0x83 => s.onHandle it (fun f fu s => let (n, s) := s.flushFurrow f fu; s.endItem 0 it.seq .done 0 (word n))
    | 0x84 =>
      if Desc.len d = 0 then s.endItem 0 it.seq .doneEmpty 0 0
      else if !bufAligned d then s.endItem 0 it.seq .failedParam 0 0
      else if Desc.len d < 2048 then s.endItem 0 it.seq .failedSpace 0 0
      else s.startLedger it
    | 0x85 => s.startSubreset it
    | _ => s

/-- The front item of furrow 0 starts if it is held and DMA may flow (R265); a CREATE also waits until its parameter block can be
read (R327). False when nothing starts. -/
def State.mgmtOne (s : State) : Bool × State :=
  match s.furrow? 0 with
  | none => (false, s)
  | some fu =>
    match fu.items with
    | it :: _ => if Item.isHeld it && !fu.failed && s.pw.d0 && (it.op != 0x80#8 || s.readRoom) then (true, s.startMgmt it) else (false, s)
    | [] => (false, s)

def State.mgmtN : Nat → State → State
  | 0, s => s
  | n + 1, s => match s.mgmtOne with
    | (true, s') => State.mgmtN n s'
    | (false, s') => s'

/-- Furrow 0 runs on. -/
def State.mgmtRun (s : State) : State :=
  match s.furrow? 0 with
  | none => s
  | some fu => State.mgmtN fu.items.length s

/-- A descriptor is fetched and starts as soon as it may. -/
def State.post (s : State) (f : Nat) (op : Byte) (d : Desc) (block : Option (List Byte)) (ecc : Bool) : State :=
  match s.furrow? f with
  | none => s
  | some fu =>
    if !s.mayFetch fu then s
    else
      let s := (s.readNow (.descriptor f) (fu.descAddr fu.fetchSeq) 32).setFurrow f (Furrow.fetch fu op d block)
      if f = 0 then s.mgmtRun else s.startHeld f ecc

/-! ## The descriptor commands -/

def nop (f : BitVec 9) (op : Byte) (d : Desc) (s : State) : State := s.post f.toNat op d none false
def execNop (f : BitVec 9) (op : Byte) (d : Desc) (s : State) : Host.Outcome State Fault Refusal := fin (nop f op d s)

def fence (f : BitVec 9) (d : Desc) (s : State) : State := s.post f.toNat 0x01 d none false
def execFence (f : BitVec 9) (d : Desc) (s : State) : Host.Outcome State Fault Refusal := fin (fence f d s)

/-- FENCE_RELEASE: the fence that holds a furrow completes once its target's item has been posted (R284). -/
def fenceRelease (f : BitVec 9) (s : State) : State :=
  match s.furrow? f.toNat with
  | none => s
  | some fu =>
    match fu.items.find? (fun it => it.op == 0x01#8 && Item.isActive it) with
    | none => s
    | some it =>
      if (s.target? it.desc.w2).any (fun t => (s.furrow? t).any (fun g => Furrow.posted g it.desc.w1)) then
        (s.endItem f.toNat it.seq .done 0 0).startHeld f.toNat false
      else s

def execFenceRelease (f : BitVec 9) (s : State) : Host.Outcome State Fault Refusal := fin (fenceRelease f s)

/-- BUF; `ecc` are the errors met while the block that goes into it is read (R201). -/
def buf (f : BitVec 9) (d : Desc) (ecc : List EccHit) (s : State) : State :=
  let waits := (s.furrow? f.toNat).any (fun fu => s.mayFetch fu && !fu.blocks.isEmpty)
  let s := if waits then ecc.foldl State.eccHit s else s
  s.post f.toNat 0x10 d none (ecc.any (fun hit => !hit.fixed))
def execBuf (f : BitVec 9) (d : Desc) (ecc : List EccHit) (s : State) : Host.Outcome State Fault Refusal := fin (buf f d ecc s)

def setpoint (f : BitVec 9) (d : Desc) (s : State) : State := s.post f.toNat 0x20 d none false
def execSetpoint (f : BitVec 9) (d : Desc) (s : State) : Host.Outcome State Fault Refusal := fin (setpoint f d s)

def compress (f : Byte) (d : Desc) (s : State) : State := s.post f.toNat 0x30 d none false
def execCompress (f : Byte) (d : Desc) (s : State) : Host.Outcome State Fault Refusal := fin (compress f d s)

def expand (f : Byte) (d : Desc) (s : State) : State := s.post f.toNat 0x31 d none false
def execExpand (f : Byte) (d : Desc) (s : State) : Host.Outcome State Fault Refusal := fin (expand f d s)

def verify (f : Byte) (d : Desc) (s : State) : State := s.post f.toNat 0x32 d none false
def execVerify (f : Byte) (d : Desc) (s : State) : Host.Outcome State Fault Refusal := fin (verify f d s)

def xfer (f : Byte) (d : Desc) (s : State) : State := s.post f.toNat 0x40 d none false
def execXfer (f : Byte) (d : Desc) (s : State) : Host.Outcome State Fault Refusal := fin (xfer f d s)

def create (d : Desc) (block : Option (List Byte)) (s : State) : State := s.post 0 0x80 d block false
def execCreate (d : Desc) (block : Option (List Byte)) (s : State) : Host.Outcome State Fault Refusal := fin (create d block s)

def destroy (d : Desc) (s : State) : State := s.post 0 0x81 d none false
def execDestroy (d : Desc) (s : State) : Host.Outcome State Fault Refusal := fin (destroy d s)

def resume (d : Desc) (s : State) : State := s.post 0 0x82 d none false
def execResume (d : Desc) (s : State) : Host.Outcome State Fault Refusal := fin (resume d s)

def flush (d : Desc) (s : State) : State := s.post 0 0x83 d none false
def execFlush (d : Desc) (s : State) : Host.Outcome State Fault Refusal := fin (flush d s)

def ledger (d : Desc) (s : State) : State := s.post 0 0x84 d none false
def execLedger (d : Desc) (s : State) : Host.Outcome State Fault Refusal := fin (ledger d s)

def subreset (d : Desc) (s : State) : State := s.post 0 0x85 d none false
def execSubreset (d : Desc) (s : State) : Host.Outcome State Fault Refusal := fin (subreset d s)

/-- SUBRESET_COMPLETE: the item is DONE and what waited for the reset starts; aux counts the aborted items, or tells of a port still down (R428). -/
def subresetComplete (s : State) : State :=
  match s.hi.subreset with
  | none => s
  | some r =>
    let aux := if r.code = 5 then b2n !s.portUp 0 else if r.code = 6 then b2n !s.portUp 1 else r.aborted
    let s := { s with hi := { s.hi with subreset := none }, sp := { s.sp with inhibit := s.sp.inhibit && r.code != 2 } }
    match (s.furrow? 0).bind (fun fu => fu.items.find? (fun it => it.op == 0x85#8 && Item.isActive it)) with
    | none => s
    | some it =>
      let kind := if r.code = 1 then FurrowKind.job else FurrowKind.side
      let waits := if r.code ≤ 2 then (s.hi.furrows.filter (fun e => e.2.kind == kind)).map Prod.fst else []
      let s := waits.foldl (fun s f => s.startHeld f false) (s.endItem 0 it.seq .done 0 (word aux))
      (s.balerPump.sidePump).mgmtRun

def execSubresetComplete (s : State) : Host.Outcome State Fault Refusal := fin (subresetComplete s)

/-- EVENT_BUF_TIMEOUT: 1 ms after a buffer's first record, outside Run (R292). -/
def eventBufTimeout (s : State) : State := if s.inRun then s else s.evFlush
def execEventBufTimeout (s : State) : Host.Outcome State Fault Refusal := fin (eventBufTimeout s)

/-! ## Failed accesses (R287, R294, R296) -/

/-- The next posted descriptor could not be fetched: its item fails; the part that a PLOT buffer was to go on with is rewritten from
its start (R290, R294). -/
def State.failFetch (s : State) (f : Nat) (fu : Furrow) : State :=
  if s.mayFetch fu then
    let s := (s.readNow (.descriptor f) (fu.descAddr fu.fetchSeq) 32).setFurrow f (Furrow.fetch fu.rewind 0 Desc.zero none)
    s.failDma f fu.fetchSeq 0
  else s

/-- A job or transfer reads or writes an address. -/
def Item.touches (it : Item) (addr : Word64) : Bool :=
  let d := it.desc
  let inside := fun (a : Word64) (n : Nat) => decide ((addr - a).toNat < n)
  if it.op = 0x40#8 then inside (join64 d.w2 d.w3) (ceilDiv (xferOut d) 8) || inside (Desc.dstAddr d) (ceilDiv (xferIn d) 8)
  else inside (join64 d.w2 d.w3) (Desc.srcLen d) || inside (Desc.dstAddr d) (Desc.dstLen d)

/-- The item in work whose access was refused: one that uses the address, else the oldest. -/
def Furrow.refusedItem? (fu : Furrow) (addr : Word64) : Option Item :=
  let works := fu.items.filter (fun it => Item.isActive it && it.op != 0x01#8)
  (works.find? (fun it => Item.touches it addr)).orElse fun _ => works.head?

/-- A job or transfer fails with its access; it has written `len` bytes. -/
def State.failWork (s : State) (f : Nat) (fu : Furrow) (it : Item) (addr : Word64) : State :=
  let (w, s) := s.draw64
  let most := if it.op = 0x32#8 then 0 else if it.op = 0x40#8 then ceilDiv (xferIn it.desc) 8 else Desc.dstLen it.desc
  let s := s.dmaErr addr
  let len := w.toNat % (most + 1)
  let s := if fu.kind == .job then
      let (n, s) := s.partOf (Desc.srcLen it.desc)
      ((s.jobDmaFailed f it.seq).incSat Reg.BL_JOBS 1).countBytes n len
    else s.freeSide
  ((s.failDma f it.seq len).balerPump).sidePump

/-- DMA_FAILURE: the host refuses an access of a furrow: the fetch at the next descriptor's address, else the data of an item in work.
A buffer that waits for data fails when the data goes out to it (R287, log 85); outside Run, an EVENT buffer that holds records fails
at once, and its records move on (R436). At furrow 0 an access elsewhere is that of the next LEDGER. -/
def dmaFailure (f : BitVec 9) (addr : Word64) (s : State) : State :=
  let i := f.toNat
  match s.furrow? i with
  | none => s
  | some fu =>
    if fu.failed || !s.hostOpen then s
    else if addr == fu.descAddr fu.fetchSeq && s.mayFetch fu then
      let s := (s.dmaErr addr).failFetch i fu
      if i = 0 then s.mgmtRun else s
    else
      match fu.kind with
      | .sample | .plot | .seal | .event =>
        (match Furrow.buffer? fu with
          | some it =>
            if fu.kind == .event && !s.inRun then
              (if it.recs = 0 then (s.dmaErr addr).failFetch i fu else (s.failBuffer i it addr).evFill)
            else s.modFurrow i (fun fu => Furrow.modItem fu it.seq (fun x => { x with refused := some addr }))
          | none => (s.dmaErr addr).failFetch i fu)
      | .job | .side =>
        (match fu.refusedItem? addr with
          | some it => s.failWork i fu it addr
          | none => (s.dmaErr addr).failFetch i fu)
      | .mgmt => { s with hi := { s.hi with refuseAt := some addr } }
      | .setpoint => (s.dmaErr addr).failFetch i fu

def execDmaFailure (f : BitVec 9) (addr : Word64) (s : State) : Host.Outcome State Fault Refusal := fin (dmaFailure f addr s)

/-- COMPLETION_WRITE_FAILURE: the furrow stops for good (R296).  The completion that failed is the last one sent out, so its item
was never completed, and the one before it stands in the ledger and the event; where none has been sent, nothing has failed. -/
def completionWriteFailure (f : BitVec 9) (addr : Word64) (s : State) : State :=
  let i := f.toNat
  match s.furrow? i with
  | none => s
  | some fu =>
    if fu.failed || fu.nextPost == 0 then s
    else
      let s := s.setFurrow i { fu with failed := true, nextPost := fu.nextPost - 1 }
      let s := if i < 256 then s.wr (Reg.GLB_LEDGER_LO i) (fu.nextPost - 2) else s
      let s := (s.dmaErr addr).raiseF (Furrow.evFlags fu) 53 (i % 256) 0 0 addr
      s.raiseF (Furrow.evFlags fu) 48 (i % 256) 0 0 (join64 fu.handle (fu.nextPost - 2))

def execCompletionWriteFailure (f : BitVec 9) (addr : Word64) (s : State) : Host.Outcome State Fault Refusal :=
  fin (completionWriteFailure f addr s)

end Sys2Proof.Machine
end

