-- ==== Sys2Proof/Machine/HostEngine.lean ====
section
/-! DEFINITION. Start and stop of the host engine, the doorbell, the state of the PCI Express function, and the tunnel of the
members' DMA (R48, R265 to R268, R275, R276, R326, R327). -/

namespace Sys2Proof.Machine

/-! ## Start and stop (R267, R268) -/

/-- Reads of this hub's own that nothing waits for any more. -/
def State.ownReadsGone (s : State) : State :=
  ((s.dropReads (.doorbell false)).dropReads (.doorbell true))

def DbArea.init : DbArea := { poll := false, idx := false, count := 0, next := 0, failRun := false }

/-- HI_ENABLE: furrow 0 starts afresh at sequence number 0; while a stop is in progress the write is discarded. -/
def hiEnable (s : State) : State :=
  if s.flag Reg.HI_CTL Fld.HI_CTL_en then s
  else if s.hi.stopping then s.accErr true Reg.HI_CTL
  else
    let s := s.ownReadsGone
    let fu : Furrow := { kind := .mgmt, handle := 0x100, lsize := s.fget Reg.HI_MGCFG Fld.HI_MGCFG_lsize
                         vector := s.fget Reg.HI_MGCFG Fld.HI_MGCFG_vector, irqAll := s.flag Reg.HI_MGCFG Fld.HI_MGCFG_irq_all
                         descRing := s.rd64 Reg.HI_MGD_LO, cplRing := s.rd64 Reg.HI_MGC_LO, frames := 0, mask := 0, prod := 0
                         nextFetch := 0, nextPost := 0, items := [], stalled := false, failed := false, emptyEp := false
                         from? := none, openFrames := [], blocks := [], gapRun := false, parts := [], twin := false }
    let s := (s.setFlag Reg.HI_CTL Fld.HI_CTL_en true).setFlag Reg.HI_STAT Fld.HI_STAT_up true
    let s := { s with hi := { s.hi with db := DbArea.init, dbTwin := DbArea.init, ignored := [], noFurrow := [], refuseAt := none } }
    ((s.setFurrow 0 fu).ledger 0 1 1).wr (Reg.GLB_LEDGER_LO 0) 0xFFFFFFFF#32

def execHiEnable (s : State) : Host.Outcome State Fault Refusal := fin (hiEnable s)

/-- The units of the furrows lose their work. -/
def State.clearUnits (s : State) : State := s.balerClear.freeSide

/-- HI_DISABLE: outside Run every fetched item ends ABORTED_RECOVERY (R268, steps 1 and 2). -/
def hiDisable (s : State) : State :=
  if s.inRun then s.accErr true Reg.HI_CTL
  else if !s.flag Reg.HI_CTL Fld.HI_CTL_en then s
  else
    let s := s.setFlag Reg.HI_CTL Fld.HI_CTL_en false
    let fs := kkeys s.hi.furrows
    let s := fs.foldl State.dropSetpoints s
    let s := fs.foldl (fun s f => s.endAll f .abortedRecovery) s
    let s := s.evBack.clearUnits
    { s with hi := { s.hi with stopping := true, subreset := none }, sp := { s.sp with inhibit := false } }

def execHiDisable (s : State) : Host.Outcome State Fault Refusal := fin (hiDisable s)

/-- Every furrow ends (R268, step 3; R430): undelivered data is discarded, bound units are stopped. -/
def State.endFurrows (s : State) : State :=
  let fs := kkeys s.hi.furrows
  fs.foldl (fun s f => ((s.unbindPlot f).2.discard f).2.2) s

/-- The ledger entries of the furrows that end pass to state 2 (R268, step 4; R431). -/
def State.abandonLedger (s : State) : State :=
  (kkeys s.hi.furrows).foldl (fun s f => if f < 256 then s.ledger f (s.ledgerGen f) 2 else s) s

/-- The furrows are gone. -/
def State.noFurrows (s : State) : State :=
  (({ s with hi := { s.hi with furrows := [], subreset := none } }).noteStalled).setFlag Reg.HI_STAT Fld.HI_STAT_up false

/-- HI_STOP_COMPLETE (R268, steps 3 and 4). -/
def hiStopComplete (s : State) : State :=
  if !s.hi.stopping then s
  else
    let s := s.endFurrows.abandonLedger.noFurrows
    { s with hi := { s.hi with stopping := false } }

def execHiStopComplete (s : State) : Host.Outcome State Fault Refusal := fin (hiStopComplete s)

/-- What the configuration space of the function shows (R264, R481). -/
structure PciConfig where
  vendor : BitVec 16
  device : BitVec 16
  subVendor : BitVec 16
  subDevice : BitVec 16
  revision : BitVec 8
  classCode : BitVec 24
  maxPayload : Nat
  /-- What the function implements: MSI-X with this many vectors, Advanced Error Reporting, the function-level reset. -/
  msixVectors : Nat
  aer : Bool
  flr : Bool
  deriving DecidableEq, Repr

def State.pciConfig (s : State) : PciConfig :=
  { vendor := (s.rd Reg.GLB_ID).setWidth 16, device := ((s.rd Reg.GLB_ID) >>> 16).setWidth 16
    subVendor := (s.rd Reg.GLB_SUBID).setWidth 16, subDevice := ((s.rd Reg.GLB_SUBID) >>> 16).setWidth 16
    revision := BitVec.ofNat 8 (s.fget Reg.GLB_REV Fld.GLB_REV_rev), classCode := 0x118000, maxPayload := s.hi.maxPayload
    msixVectors := 64, aer := true, flr := true }

/-- What the endpoint answers a configuration request with: nothing while PERST# or RESET_N is low or power is off; until Idle,
Configuration Request Retry Status; then its values (R466, R469). -/
inductive ConfigAnswer where
  | silent
  | retry
  | values (c : PciConfig)
  deriving DecidableEq, Repr

def State.configAnswer (s : State) : ConfigAnswer :=
  if !s.pw.headSel || !s.alive || s.pw.inReset || s.pw.perst then .silent
  else if s.pw.power == .startUp then .retry
  else .values s.pciConfig

/-- PCIE_FUNCTION_STATE: on its return what waited goes on: tunnelled requests, completions, messages and data (R265,
R327). A member has no function of its own, and shows the head's state (R297). -/
def pcieFunctionState (fn : FunctionState) (s : State) : State :=
  if !s.alive then s
  else
    let s := s.setFlag Reg.HI_STAT Fld.HI_STAT_d0 fn.d0
    if !s.pw.headSel then { s with pw := { s.pw with headD0 := fn.d0 } }
    else
    let was := s.pw.d0
    let s := { s with pw := { s.pw with d0 := fn.d0 }, hi := { s.hi with maxPayload := 128 * 2 ^ min 2 fn.payload.toNat } }
    if fn.d0 && !was then
      let s := s.ln.tunnel.foldl State.emit s
      let s := ({ s with ln := { s.ln with tunnel := [] } }).pumpReads
      let s := (kkeys s.hi.furrows).foldl State.postFinished s
      ((s.flushMsix).deliverAll).mgmtRun
    else s

def execPcieFunctionState (fn : FunctionState) (s : State) : Host.Outcome State Fault Refusal := fin (pcieFunctionState fn s)

/-! ## The doorbell (R48, R275, R276) -/

def State.area (s : State) (partner : Bool) : DbArea := if partner then s.hi.dbTwin else s.hi.db
def State.setArea (s : State) (partner : Bool) (a : DbArea) : State :=
  if partner then { s with hi := { s.hi with dbTwin := a } } else { s with hi := { s.hi with db := a } }

/-- The address of a doorbell area. -/
def State.areaAddr (s : State) (partner : Bool) : Word64 := if partner then s.sv.twin.partnerDb else s.rd64 Reg.HI_DB_LO

/-- One area is polled unless a read of it is outstanding. -/
def State.pollArea (s : State) (partner : Bool) : State :=
  let a := s.area partner
  if a.poll || a.idx then s
  else (s.setArea partner { a with poll := true }).readHost (.doorbell partner) (s.areaAddr partner + 0x400) 8

/-- DOORBELL_POLL: the own area, and that of a retired partner whose furrows have been adopted (R48, R414). -/
def doorbellPoll (s : State) : State :=
  if !s.hostOpen then s
  else
    let s := s.pollArea false
    if s.hi.furrows.any (fun e => decide (256 ≤ e.1)) then s.pollArea true else s

def execDoorbellPoll (s : State) : Host.Outcome State Fault Refusal := fin (doorbellPoll s)

/-- A refused read of an area (R48). -/
def State.failPoll (s : State) (partner : Bool) (a : DbArea) (addr : Word64) : State :=
  let s := (s.dmaErr addr).setArea partner { a with poll := false, idx := false, failRun := true }
  if a.failRun then s else s.raiseD 53 0xFFFF 0 0 addr

/-- DOORBELL_COUNTER_READ_DONE: a changed counter starts the read of the producer indices. -/
def doorbellCounterReadDone (partner : Bool) (count : Option Word64) (s : State) : State :=
  let a := s.area partner
  if !a.poll || !s.readsCame (.doorbell partner) then s
  else
    let s := s.readsDone (.doorbell partner)
    match count with
    | none => s.failPoll partner a (s.areaAddr partner + 0x400)
    | some c =>
      let a := { a with poll := false }
      if c = a.count then s.setArea partner { a with failRun := false }
      else (s.setArea partner { a with idx := true, next := c }).readHost (.doorbell partner) (s.areaAddr partner) 1024

def execDoorbellCounterReadDone (partner : Bool) (count : Option Word64) (s : State) : Host.Outcome State Fault Refusal :=
  fin (doorbellCounterReadDone partner count s)

/-- A producer index that R276 ignores: counted and reported once. -/
def State.malformed (s : State) (f : Nat) (v : Word) : State :=
  if kget? s.hi.ignored f = some v then s
  else
    let s := { s with hi := { s.hi with ignored := kset s.hi.ignored f v } }
    let s := (s.incSat Reg.HI_DBMAL 1).setFlag Reg.HI_STAT Fld.HI_STAT_db_mal true
    s.raiseD 55 (f % 256) 0 0 (v.setWidth 64)

/-- One producer index. -/
def State.takeIndex (s : State) (f : Nat) (v : Word) : State :=
  match s.furrow? f with
  | none =>
    if v = kgetD s.hi.noFurrow f 0 then { s with hi := { s.hi with ignored := kerase s.hi.ignored f } } else s.malformed f v
  | some fu =>
    if (v - fu.prod).toInt < 0 || decide (2 ^ fu.lsize < (v - fu.nextPost).toNat) then s.malformed f v
    else
      let s := { s with hi := { s.hi with ignored := kerase s.hi.ignored f } }
      s.setFurrow f { fu with prod := v }

/-- PRODUCER_INDEX_READ_DONE (R276). -/
def producerIndexReadDone (partner : Bool) (indices : Option (List Word)) (s : State) : State :=
  let a := s.area partner
  if !a.idx || !s.readsCame (.doorbell partner) then s
  else
    let s := s.readsDone (.doorbell partner)
    match indices with
    | none => s.failPoll partner a (s.areaAddr partner)
    | some l =>
      let s := s.setArea partner { a with idx := false, count := a.next, failRun := false }
      let base := if partner then 256 else 0
      (l.take 256).zipIdx.foldl (fun s p => s.takeIndex (base + p.2) p.1) s

def execProducerIndexReadDone (partner : Bool) (indices : Option (List Word)) (s : State) : Host.Outcome State Fault Refusal :=
  fin (producerIndexReadDone partner indices s)

/-! ## The tunnel (R266, R326, R327) -/

/-- What a member has sent and whose turn has come is issued: its writes in the order of their numbers, each message once every
write before it has been. -/
def State.drainN (m : Nat) : Nat → State → State
  | 0, s => s
  | n + 1, s =>
    match s.ln.early.find? (fun e => e.1 == m && e.2.1 == kgetD s.ln.orders m 0) with
    | none => s
    | some e =>
      let s := { s with ln := { s.ln with early := s.ln.early.erase e } }
      match e.2.2 with
      | .dmaWrite a bs =>
        State.drainN m n (({ s with ln := { s.ln with orders := kset s.ln.orders m (e.2.1 + 1) } }).memWrite a bs)
      | .msix v => State.drainN m n (s.sendMsix v)
      | _ => State.drainN m n s

/-- A request of a member takes its place and what can be issued is. -/
def State.memberSent (s : State) (m : Nat) (order : Word) (o : Output) : State :=
  State.drainN m (s.ln.early.length + 1) { s with ln := { s.ln with early := s.ln.early ++ [(m, order, o)] } }

/-- DMA_WRITE_HEADER at the head: the write is issued in the order of the member's numbers; one whose number has been issued is
dropped. -/
def dmaWriteHeader (member : BitVec 6) (addr : Word64) (order : Word) (data : List Byte) (s : State) : State :=
  let m := member.toNat
  if !s.pw.headSel || !s.alive || decide ((order - kgetD s.ln.orders m 0).toInt < 0) then s
  else s.memberSent m order (.dmaWrite addr data)

def execDmaWriteHeader (member : BitVec 6) (addr : Word64) (order : Word) (data : List Byte) (s : State) :
    Host.Outcome State Fault Refusal := fin (dmaWriteHeader member addr order data s)

/-- DMA_READ_REQUEST at the head: the member's read takes its turn among the head's requests. -/
def dmaReadRequest (member : BitVec 6) (addr : Word64) (len : BitVec 13) (tag : BitVec 4) (s : State) : State :=
  if !s.pw.headSel || !s.alive then s else s.readHost (.member member.toNat tag.toNat) addr len.toNat

def execDmaReadRequest (member : BitVec 6) (addr : Word64) (len : BitVec 13) (tag : BitVec 4) (s : State) :
    Host.Outcome State Fault Refusal := fin (dmaReadRequest member addr len tag s)

/-- DMA_READ_DATA: at the head, `f` is the member and the data or the failure goes back to it; at the member, `f` is the
furrow, whose item fails where the read failed, and the tag is free again (R327). -/
def dmaReadData (f : Byte) (tag : BitVec 4) (data : ReadResult) (s : State) : State :=
  if !s.alive then s
  else if s.pw.headSel then
    let who := ReadBy.member f.toNat tag.toNat
    if !s.ln.reads.any (fun r => r.who == who) then s
    else
      let s := s.dropReads who
      match data with
      | .data bs => s.sendMessage 6 f.toNat ([tag.setWidth 8] ++ zeros 3 ++ leBytes 4 bs.length ++ bs)
      | .failed status => s.sendMessage 7 f.toNat [tag.setWidth 8, status.setWidth 8]
  else
    match s.ln.reads.find? (fun r => r.tag == tag.toNat) with
    | none => s
    | some r =>
      let s := ({ s with ln := { s.ln with reads := s.ln.reads.erase r } }).pumpReads
      match data with
      | .data _ => s
      | .failed _ => dmaFailure (f.setWidth 9) r.addr s

def execDmaReadData (f : Byte) (tag : BitVec 4) (data : ReadResult) (s : State) : Host.Outcome State Fault Refusal :=
  fin (dmaReadData f tag data s)

/-- INTERRUPT_REQUEST at the head: the message is sent once every earlier write of the member has been issued. -/
def interruptRequest (member : BitVec 6) (vector : Byte) (s : State) : State :=
  let m := member.toNat
  if !s.pw.headSel || !s.alive || !decide (m < 48) then s
  else match (s.ln.early.filter (fun e => e.1 == m)).getLast? with
    | none => s.sendMsix vector.toNat
    | some e => s.memberSent m (match e.2.2 with | .dmaWrite .. => e.2.1 + 1 | _ => e.2.1) (.msix vector.toNat)

def execInterruptRequest (member : BitVec 6) (vector : Byte) (s : State) : Host.Outcome State Fault Refusal :=
  fin (interruptRequest member vector s)

end Sys2Proof.Machine
end

