-- ==== Sys2Proof/Machine/TraceRead.lean ====
section
/-! DEFINITION. Coalesced runs, and reading the fault trace and the first-fault record (R437, R439, R440). -/

namespace Sys2Proof.Machine

/-- The two records of a run (R293). -/
def EvRun.records (r : EvRun) : List EvRec :=
  let f := r.first
  [{ f with rflags := f.rflags ||| 1 },
   { src := r.src, hub := f.hub, rflags := (f.rflags &&& 4) ||| 2, occ := r.lastOcc, time := r.lastTime, obj := r.count.toNat % 65536
     cause := r.count.toNat / 65536 % 256, aux8 := r.count.toNat / 2 ^ 24, data := f.occ.setWidth 64 }]

/-- A run takes its place among those before it, by the time of their first occurrences; of equal times, the first opened first. -/
def EvRun.insert (r : EvRun) : List EvRun → List EvRun
  | [] => [r]
  | x :: t => if r.first.time ≤ x.first.time then r :: x :: t else x :: EvRun.insert r t

/-- EVENT_RUN_CLOSE: with 256 places free, every run closes, in the order of their first occurrences. -/
def eventRunClose (s : State) : State :=
  if s.evFree < 256 || !s.alive then s
  else
    let runs := s.ev.runs.foldr EvRun.insert []
    let s := { s with ev := { s.ev with runs := [], queue := s.ev.queue ++ runs.flatMap EvRun.records } }
    let s := runs.foldl (fun s r => (s.wr (Reg.EV_RUN r.src) 0).wr (Reg.EV_RUNOCC r.src) 0) s
    if s.inRun then s else if s.hostOpen then s.evFill else s

def execEventRunClose (s : State) : Host.Outcome State Fault Refusal := fin (eventRunClose s)

/-- The entry of a number, while it is held (R439). -/
def State.traceEntry (s : State) (j : Word) : Option EvRec :=
  let n := s.ev.trace.length
  let back := (s.rd Reg.EV_TRCNT - j).toNat
  if 1 ≤ back && back ≤ n then s.ev.trace[n - back]? else none

/-- EV_TRPTR_WRITE: an entry is selected and tr_miss clears. -/
def evTrptrWrite (val : Word) (s : State) : State :=
  let s := { s with ev := { s.ev with trWord := 0 } }
  (s.wr Reg.EV_TRPTR val).setFlag Reg.EV_STAT Fld.EV_STAT_tr_miss false

def execEvTrptrWrite (val : Word) (s : State) : Host.Outcome State Fault Refusal := fin (evTrptrWrite val s)

/-- EV_TRDATA_READ: the next word of the selected entry; an entry that is not held reads 0. -/
def evTrdataRead (s : State) : State :=
  let j := s.rd Reg.EV_TRPTR
  let w := s.ev.trWord
  let (v, s) := match s.traceEntry j with
    | some e => ((EvRec.words e).getD w 0, s)
    | none => (0#32, s.setFlag Reg.EV_STAT Fld.EV_STAT_tr_miss true)
  let s := { s with rdata := v, ev := { s.ev with trWord := (w + 1) % 8 } }
  if w = 7 then s.wr Reg.EV_TRPTR (j + 1) else s

def execEvTrdataRead (s : State) : Host.Outcome State Fault Refusal := fin (evTrdataRead s)

/-- EV_FF_READ: word 0 latches the others (R8); the first read of word 7 after it clears ff_valid (R440). -/
def evFfRead (w : BitVec 3) (s : State) : State :=
  if w = 0 then
    let sh := (List.range 7).foldl (fun m i => shadowPut m (Reg.EV_FF (i + 1)) (s.rd (Reg.EV_FF (i + 1)))) s.shadow
    { s with rdata := s.rd (Reg.EV_FF 0), shadow := sh, ev := { s.ev with ffArmed := true } }
  else
    let s := { s with rdata := regRead s.shadow (Reg.EV_FF w.toNat) }
    if w = 7 && s.ev.ffArmed then
      ({ s with ev := { s.ev with ffArmed := false } }).setFlag Reg.EV_STAT Fld.EV_STAT_ff_valid false
    else s

def execEvFfRead (w : BitVec 3) (s : State) : Host.Outcome State Fault Refusal := fin (evFfRead w s)

end Sys2Proof.Machine
end

