-- ==== Sys2Proof/Machine/Vault.lean ====
section
/-! DEFINITION. The vault's services, its mailbox, tokens and sessions, the self-tests and the tamper monitor (R356 to R368,
R382 to R384, R386 to R388). -/

namespace Sys2Proof.Machine

/-! ## The mailbox (R367) -/

/-- A service completes: the response stays readable until the next go, and goes to the head that has forwarded the request
(R368). -/
def State.mbDone (s : State) (status : Nat) (resp : List Byte) : State :=
  let tag := s.vt.mailTag
  let s := { s with vt := { s.vt with resp := resp, memberReq := none, mailTag := none } }
  let s := (s.wr Reg.MB_STAT (word status)).wr Reg.MB_RSPLEN (word resp.length)
  match tag with
  | some t => s.sendMessage 10 0 (leBytes 2 t ++ zeros 2 ++ leBytes 4 status ++ resp)
  | none => s.emit (.mailbox status resp)

/-- The first bytes of the request buffer. -/
def State.mbReq (s : State) (n : Nat) : List Byte :=
  (List.range (ceilDiv n 4)).flatMap (fun i => leBytes 4 (kgetD s.vt.req i 0).toNat) |>.take n

def State.mbLen (s : State) : Nat := s.rdN Reg.MB_REQLEN

/-- The vault serves the request under way: this hub's own, of the service's code, once its self-tests are over. -/
def State.serving (s : State) (code : Nat) : Bool :=
  s.alive && !s.pw.inReset && s.flag Reg.MB_STAT Fld.MB_STAT_busy && s.vt.memberReq.isNone && s.vaultState != 0
    && s.fget Reg.MB_CMD Fld.MB_CMD_service == code

/-- A microcode session ends (R366). -/
def State.endUcode (s : State) : State := { s with vt := { s.vt with ucode := none } }

/-- A service runs: a request other than STATUS and MICROCODE ends a microcode session; services the error states refuse
complete with status 5 (R383, R384); then the length of the request. -/
def State.service (s : State) (code len : Nat) (inKeyless inError : Bool) (act : State → State) : State :=
  if !s.serving code then s
  else
    let s := if code = 0x01 || code = 0x26 then s else s.endUcode
    if (s.vaultState == vtKeyless && !inKeyless) || (s.vaultState == vtError && !inError) then s.mbDone 5 []
    else if s.mbLen != len then s.mbDone 4 []
    else act s

/-- The same, for the user alone (R360). -/
def State.userService (s : State) (code : Nat) (inError : Bool) (act : State → State) : State :=
  if !s.serving code then s
  else if (s.vaultState == vtKeyless) || (s.vaultState == vtError && !inError) then s.endUcode.mbDone 5 []
  else if !s.vt.session then s.endUcode.mbDone 2 []
  else s.service code 0 false inError act

/-! ## Nonce, tokens and sessions (R360 to R363) -/

/-- A fresh device nonce. -/
def State.newNonce (s : State) : State :=
  let (n, s) := s.drawBytes 16
  { s with vt := { s.vt with nonce := n } }

/-- A token or LOGIN is refused: AUTH_REJECTED names the service, the nonce is replaced, and 1 s of refusals begins. -/
def State.refuseAuth (s : State) (code : Nat) : State :=
  let s := ({ s with vt := { s.vt with lockout := true } }).newNonce
  s.raiseF 0 59 0 1 code s.frameData

def serialBytes (s : State) : List Byte := leBytes 8 s.pw.serial.toNat

/-- The owner token of a request is acceptable for an op (R362); the lock-out of R363 refuses every one. -/
def State.tokenOk (s : State) (t : List Byte) (op : Nat) : Bool :=
  !s.vt.lockout && ofLe (slice t 0 4) == 0x4E4B4F54 && ofLe (slice t 4 2) == op && ofLe (slice t 6 2) == 0
    && slice t 8 8 == serialBytes s && slice t 0x10 16 == s.vt.nonce
    && (match s.vt.owner with
        | some k => Config.ecVerify k (slice t 0 0x50) (slice t 0x50 96)
        | none => false)

def tokenDigest (t : List Byte) : List Byte := slice t 0x20 48

/-- A service under an owner token with its operation digest. -/
def State.withToken (s : State) (code op : Nat) (t digest : List Byte) (act : State → State) : State :=
  if s.tokenOk t op && tokenDigest t == digest then act s.newNonce
  else (s.refuseAuth code).mbDone 3 []

/-! ## Self-tests and the error state (R382 to R384) -/

/-- CONTINUOUS_TEST_FAIL. -/
def continuousTestFail (code : Byte) (s : State) : State := if s.alive then s.selftestFail code.toNat else s
def execContinuousTestFail (code : Byte) (s : State) : Host.Outcome State Fault Refusal := fin (continuousTestFail code s)

/-! ## Services for any role -/

/-- STATUS: 64 bytes; the places of its four parts are the order in which R364 names them (log 23). -/
def status (s : State) : State :=
  s.service 0x01 0 true true (fun s =>
    let id := fun (k : Option (List Byte)) => match k with | some k => keyId k | none => zeros 8
    s.mbDone 0 (fitBytes 64 (leBytes 4 (s.rdN Reg.VT_STAT) ++ leBytes 4 (s.rdN Reg.VT_STFAIL) ++ id s.vt.owner ++ id s.vt.user)))
def execStatus (s : State) : Host.Outcome State Fault Refusal := fin (status s)

def getNonce (s : State) : State := s.service 0x02 0 true true (fun s => s.mbDone 0 (fitBytes 16 s.vt.nonce))
def execGetNonce (s : State) : Host.Outcome State Fault Refusal := fin (getNonce s)

def getCerts (s : State) : State :=
  s.service 0x03 0 true true (fun s => s.mbDone 0 (fitBytes 256 s.identityCertBytes ++ fitBytes 256 s.sealCertBytes))
def execGetCerts (s : State) : Host.Outcome State Fault Refusal := fin (getCerts s)

/-- ENROL, while no owner is enrolled (R364). -/
def enrol (s : State) : State :=
  s.service 0x10 192 false true (fun s =>
    let r := s.mbReq 192
    if s.vt.owner.isSome then s.mbDone 2 []
    else if Config.ecVerify (r.take 96) (serialBytes s ++ s.vt.nonce) (slice r 96 96) then
      (({ s with vt := { s.vt with owner := some (r.take 96) } }).setFlag Reg.VT_STAT Fld.VT_STAT_owner true).mbDone 0 []
    else s.mbDone 3 [])
def execEnrol (s : State) : Host.Outcome State Fault Refusal := fin (enrol s)

/-- LOGIN on a signature of the registered user key. -/
def login (s : State) : State :=
  s.service 0x11 96 false false (fun s =>
    let ok := !s.vt.lockout && (match s.vt.user with
      | some k => Config.ecVerify k (serialBytes s ++ s.vt.nonce ++ [0x4C, 0x4F, 0x47, 0x4E]) (s.mbReq 96)
      | none => false)
    if ok then
      ((({ s with vt := { s.vt with session := true } }).newNonce).setFlag Reg.VT_STAT Fld.VT_STAT_user true).mbDone 0 []
    else (s.refuseAuth 0x11).mbDone 3 [])
def execLogin (s : State) : Host.Outcome State Fault Refusal := fin (login s)

/-- The user session ends. -/
def State.endSession (s : State) : State :=
  ({ s with vt := { s.vt with session := false } }).setFlag Reg.VT_STAT Fld.VT_STAT_user false

def logout (s : State) : State := s.userService 0x12 true (fun s => s.endSession.mbDone 0 [])
def execLogout (s : State) : Host.Outcome State Fault Refusal := fin (logout s)

/-! ## Services of the crypto officer -/

/-- AUTHORISE arms one authorisation (R363). -/
def authorise (s : State) : State :=
  s.service 0x20 176 false false (fun s =>
    let t := s.mbReq 176
    let op := ofLe (slice t 4 2)
    if 1 ≤ op && op ≤ 8 && s.tokenOk t op then
      let s := ({ s with vt := { s.vt with armed := some (op, tokenDigest t) } }).newNonce
      (s.setFlag Reg.VT_STAT Fld.VT_STAT_armed true).mbDone 0 []
    else (s.refuseAuth 0x20).mbDone 3 [])
def execAuthorise (s : State) : Host.Outcome State Fault Refusal := fin (authorise s)

def setUserKey (s : State) : State :=
  s.service 0x21 272 false false (fun s =>
    let k := slice (s.mbReq 272) 176 96
    s.withToken 0x21 5 (s.mbReq 176) (sha384 k) (fun s => ({ s with vt := { s.vt with user := some k } }).mbDone 0 []))
def execSetUserKey (s : State) : Host.Outcome State Fault Refusal := fin (setUserKey s)

def replaceOwner (s : State) : State :=
  s.service 0x22 272 false false (fun s =>
    let k := slice (s.mbReq 272) 176 96
    s.withToken 0x22 6 (s.mbReq 176) (sha384 k) (fun s => ({ s with vt := { s.vt with owner := some k } }).mbDone 0 []))
def execReplaceOwner (s : State) : Host.Outcome State Fault Refusal := fin (replaceOwner s)

/-- The pairwise consistency test of a key pair: a signature of the private key verifies under the public one (R359). -/
def State.pairwise (s : State) (k : List Byte) : Bool :=
  Config.ecVerify (publicKey k) (publicKey k) (fitBytes 96 (Config.ecSign k (publicKey k) s.freeCtr))

/-- A new seal key with its certificate (R358, R359). -/
def State.newSealKey (s : State) (k : List Byte) : State :=
  let issued := (s.now / secU).toNat
  let body := certBody 2 s.pw.serial issued (publicKey k) (publicKey Config.factoryIdentityKey)
  let sig := fitBytes 96 (Config.ecSign Config.factoryIdentityKey body (s.freeCtr + 1))
  { s with vt := { s.vt with sealKey := some k, sealCert := { issued := issued, sig := sig } } }

/-- ROTATE_SEAL_KEY: the interval in progress closes under the old key in the next seal step; out of the keyless error
state the vault becomes operational with a new chain (R359, R384). A new key whose test fails is not taken: that is a failed self-test
(R383; its code is free, log 23). -/
def rotateSealKey (s : State) : State :=
  s.service 0x23 176 true false (fun s =>
    s.withToken 0x23 4 (s.mbReq 176) (zeros 48) (fun s =>
      let old := s.vt.sealKey
      let keyless := s.vaultState == vtKeyless
      let (k, s) := s.drawBytes 48
      if !s.pairwise k then
        let (w, s) := s.draw64
        (s.selftestFail (w.toNat % 255 + 1)).mbDone 5 []
      else
        let s := { s.newSealKey k with freeCtr := s.freeCtr + 2 }
        let s := if keyless then
            let s := (s.fput Reg.VT_STAT Fld.VT_STAT_state vtOperational).startChain
            { s with vt := { s.vt with keyNew := true } }
          else { s with vt := { s.vt with openKey := s.vt.openKey.orElse (fun _ => old), rotate := true } }
        s.mbDone 0 (fitBytes 256 s.sealCertBytes)))
def execRotateSealKey (s : State) : Host.Outcome State Fault Refusal := fin (rotateSealKey s)

/-- Every lane secret and key is erased; an agreement under way can no longer finish (R364, R387). -/
def State.eraseLanes (s : State) : State :=
  let erased := fun (a : Agree) => { a with priv := [], partner := [] }
  let ports : KMap PortSt := s.ln.ports.map (fun (e : Nat × PortSt) =>
    (e.1, { e.2 with keys := none, agree := if e.2.keys.isNone then e.2.agree.map erased else none }))
  { s with ln := { s.ln with ports := ports } }

/-- What a ZEROISE of a scope erases (R364, R370). -/
def State.zeroiseScope (s : State) (scope : Nat) : State :=
  let s := s.endSession.eraseLanes
  let s := ({ s with vt := { s.vt with user := none, armed := none } }).setFlag Reg.VT_STAT Fld.VT_STAT_armed false
  if scope = 0 then s.startChain
  else
    let gone := s.notices
    let s := { s with vt := { s.vt with sealKey := none, openKey := none, chainOpen := false, chain := [], link := [], unsigned := []
                                        waiting := [], taken := [], parts := [], ents := none } }
    let s := s.freeNotices gone
    if scope = 1 then (s.fput Reg.VT_STAT Fld.VT_STAT_state vtKeyless).serveSeals
    else
      ((({ s with vt := { s.vt with identity := false, owner := none } }).setFlag Reg.VT_STAT Fld.VT_STAT_owner false).fput
        Reg.VT_STAT Fld.VT_STAT_state vtError).serveSeals

def zeroise (s : State) : State :=
  s.service 0x24 177 true false (fun s =>
    let scope := (s.mbReq 177).getD 176 0
    if 2 < scope.toNat then s.mbDone 4 []
    else s.withToken 0x24 7 (s.mbReq 176) (sha384 [scope]) (fun s => (s.zeroiseScope scope.toNat).mbDone 0 []))
def execZeroise (s : State) : Host.Outcome State Fault Refusal := fin (zeroise s)

/-- TAMPER_CLEAR empties the log; its total count stays (R388). -/
def tamperClear (s : State) : State :=
  s.service 0x25 176 false false (fun s =>
    s.withToken 0x25 8 (s.mbReq 176) (zeros 48) (fun s => ({ s with vt := { s.vt with log := [] } }).mbDone 0 []))
def execTamperClear (s : State) : Host.Outcome State Fault Refusal := fin (tamperClear s)

/-! ## Microcode (R365, R366) -/

/-- A microcode request runs in Idle only, with reserved bytes 0 and the length of its step. -/
def State.ucodeRequest (s : State) (step : Nat) (act : State → State) : State :=
  if !s.serving 0x26 then s
  else if s.vaultInError then s.endUcode.mbDone 5 []
  else if !s.inIdle then s.endUcode.mbDone 6 []
  else
    let r := s.mbReq 16
    let dataLen := ofLe (slice r 8 4)
    let len := if step = 1 then 192 else if step = 2 then 16 + dataLen else 16
    let fixed := ofLe (slice r 1 3) == 0 && ofLe (slice r 12 4) == 0 && (step == 2 || dataLen == 0) && (step != 3 || ofLe (slice r 4 4) == 0)
    if (r.getD 0 0).toNat != step || !fixed || s.mbLen != len then s.endUcode.mbDone 4 []
    else act s

/-- MICROCODE_START. -/
def microcodeStart (s : State) : State :=
  s.ucodeRequest 1 (fun s =>
    let r := s.mbReq 192
    let len := ofLe (slice r 4 4)
    let t := r.drop 16
    if s.vt.ucode.isSome || len < 4096 || 524288 < len || len % 16 != 0 then s.endUcode.mbDone 4 []
    else if s.tokenOk t 3 then
      ({ s.newNonce with vt := { s.newNonce.vt with ucode := some { length := len, digest := tokenDigest t, image := [] } } }).mbDone 0 []
    else (s.endUcode.refuseAuth 0x26).mbDone 3 [])
def execMicrocodeStart (s : State) : Host.Outcome State Fault Refusal := fin (microcodeStart s)

/-- MICROCODE_DATA. -/
def microcodeData (s : State) : State :=
  s.ucodeRequest 2 (fun s =>
    let r := s.mbReq s.mbLen
    let off := ofLe (slice r 4 4)
    let n := ofLe (slice r 8 4)
    match s.vt.ucode with
    | none => s.mbDone 4 []
    | some u =>
      if off != u.image.length || n < 16 || 28656 < n || n % 16 != 0 || u.length < off + n then s.endUcode.mbDone 4 []
      else ({ s with vt := { s.vt with ucode := some { u with image := u.image ++ slice r 16 n } } }).mbDone 0 [])
def execMicrocodeData (s : State) : Host.Outcome State Fault Refusal := fin (microcodeData s)

/-- MICROCODE_FINISH; `load` is the failed firmware load test, 0 for none. -/
def microcodeFinish (load : Byte) (s : State) : State :=
  s.ucodeRequest 3 (fun s =>
    match s.vt.ucode with
    | none => s.mbDone 4 []
    | some u =>
      let s := s.endUcode
      let n := u.image.length
      if n != u.length then s.mbDone 4 []
      else if sha384 u.image != u.digest
          || !Config.ecVerify (fitBytes 96 Config.codePublic) (u.image.take (n - 96)) (u.image.drop (n - 96)) then s.mbDone 3 []
      else if load != 0 then (s.selftestFail load.toNat).mbDone 5 []
      else
        let v := BitVec.ofNat 16 (ofLe (slice u.image 4 2))
        (({ s with vt := { s.vt with ucodeStored := v } }).fput Reg.GLB_UCODE Fld.GLB_UCODE_stored v.toNat).mbDone 0 [])
def execMicrocodeFinish (load : Byte) (s : State) : Host.Outcome State Fault Refusal := fin (microcodeFinish load s)

def microcodeSessionTimeout (s : State) : State := s.endUcode
def execMicrocodeSessionTimeout (s : State) : Host.Outcome State Fault Refusal := fin (microcodeSessionTimeout s)

/-! ## Services of the user -/

/-- EXPORT_CAL: header, image of the set in force, seal-key signature (R386); without a set in force it ends with status 6 (DESIGN
CHOICE, log 88). -/
def exportCal (s : State) : State :=
  s.userService 0x30 true (fun s =>
    match s.cal.inForce, s.vt.sealKey with
    | some b, some k =>
      let img := b.bytes s.pw.serial
      let head := leBytes 4 0x58504543 ++ leBytes 2 1 ++ zeros 2 ++ serialBytes s ++ leBytes 4 b.epoch.toNat
        ++ [BitVec.ofNat 8 (b2n b.origin)] ++ zeros 3 ++ leBytes 8 b.time.toNat ++ sha384 img ++ keyId (publicKey k)
      let body := fitBytes 128 head ++ fitBytes 63488 img
      let sig := fitBytes 96 (Config.ecSign k body s.freeCtr)
      ({ s with freeCtr := s.freeCtr + 1 }).mbDone 0 (body ++ sig)
    | _, _ => s.mbDone 6 [])
def execExportCal (s : State) : Host.Outcome State Fault Refusal := fin (exportCal s)

/-- CONFIG_IMAGE: the image in force (R380). -/
def configImage (s : State) : State :=
  s.userService 0x31 true (fun s => s.mbDone 0 (if s.running then s.vt.config else s.configImage))
def execConfigImage (s : State) : Host.Outcome State Fault Refusal := fin (configImage s)

/-- SELFTEST; `fail` is the failed test, 0 for none, which is also its result word. -/
def selftest (fail : Byte) (s : State) : State :=
  s.userService 0x32 true (fun s =>
    if !(s.inIdle || s.inRun) then s.mbDone 6 []
    else (if fail = 0 then s else s.selftestFail fail.toNat).mbDone 0 (leBytes 4 fail.toNat))
def execSelftest (fail : Byte) (s : State) : Host.Outcome State Fault Refusal := fin (selftest fail s)

/-- TAMPER_LOG: the spec names what an entry holds and no layout, so the bytes of the entries are free (log 2). -/
def tamperLog (s : State) : State :=
  s.userService 0x33 true (fun s =>
    let (bs, s) := s.drawBytes (16 * s.vt.log.length)
    s.mbDone 0 (fitBytes 256 bs ++ leBytes 4 s.vt.logCount.toNat))
def execTamperLog (s : State) : Host.Outcome State Fault Refusal := fin (tamperLog s)

/-! ## Timeouts -/

/-- MAILBOX_MEMBER_TIMEOUT (R368). -/
def mailboxMemberTimeout (s : State) : State := if s.vt.memberReq.isSome then s.mbDone 7 [] else s
def execMailboxMemberTimeout (s : State) : Host.Outcome State Fault Refusal := fin (mailboxMemberTimeout s)

def nonceExpire (s : State) : State := if s.alive then s.newNonce else s
def execNonceExpire (s : State) : Host.Outcome State Fault Refusal := fin (nonceExpire s)

def authorisationLapse (s : State) : State :=
  ({ s with vt := { s.vt with armed := none } }).setFlag Reg.VT_STAT Fld.VT_STAT_armed false
def execAuthorisationLapse (s : State) : Host.Outcome State Fault Refusal := fin (authorisationLapse s)

def authLockoutEnd (s : State) : State := { s with vt := { s.vt with lockout := false } }
def execAuthLockoutEnd (s : State) : Host.Outcome State Fault Refusal := fin (authLockoutEnd s)

/-! ## Tamper (R370, R387, R388) -/

/-- A detection writes an entry to the log, which keeps the newest 16. -/
def State.logTamper (s : State) (bits : BitVec 4) (t : Int) : State :=
  let e : TamperEntry := { bits := bits, second := s.vt.second, time := t }
  let l := s.vt.log ++ [e]
  { s with vt := { s.vt with log := l.drop (l.length - 16), logCount := s.vt.logCount + 1 } }

/-- Key memory, lane keys, session and authorisation are zeroised. -/
def State.tamperErase (s : State) : State :=
  let s := s.eraseLanes
  { s with vt := { s.vt with chain := [], link := [], chainOpen := false, session := false, armed := none } }

/-- Seconds in Fallow pass (R388). -/
def State.fallowSeconds (s : State) (n : Word) : State := { s with vt := { s.vt with second := s.vt.second + n } }

/-- TAMPER_DETECT: powered, the event and a new chain follow at once; in Fallow, at the next start. -/
def tamperDetect (x : TamperIn) (s : State) : State :=
  if x.bits = 0 || s.pw.power == .off then s
  else if s.pw.power == .fallow then
    let s := ((s.fallowSeconds x.seconds).tamperErase).logTamper x.bits 0
    { s with vt := { s.vt with fallowTamper := s.vt.fallowTamper ||| x.bits } }
  else
    let s := (s.tamperErase).logTamper x.bits s.now
    let s := (s.setFlag Reg.VT_STAT Fld.VT_STAT_user false).setFlag Reg.VT_STAT Fld.VT_STAT_armed false
    let s := s.wr Reg.VT_TAMPER (s.rd Reg.VT_TAMPER ||| x.bits.setWidth 32)
    let s := (s.setFlag Reg.VT_STAT Fld.VT_STAT_tampered true).raise 57 0 x.bits.toNat
    let s := if s.vaultOk then s.startChain else s
    { s with vt := { s.vt with tampered := true } }
def execTamperDetect (found : TamperIn) (s : State) : Host.Outcome State Fault Refusal := fin (tamperDetect found s)

/-- WAKE is pulled low: from a tamper detection in Fallow until main power is good (R505). -/
def State.wakeLow (s : State) : Bool := s.pw.power == .fallow && s.vt.fallowTamper != 0

end Sys2Proof.Machine
end

