-- ==== Sys2Proof/Machine/Triggers.lean ====
section
/-! DEFINITION. Trigger conditions, fast-tap samples and rows, trigger pins and the drill bus (R117 to R120, R203 to R227,
R232, R234). -/

namespace Sys2Proof.Machine

/-! ## Row times and trigger samples (R118, R129, R204, R205) -/

/-- Row time of a fast-tap sample (R118). -/
def State.fastTime (s : State) (k : Nat) : Int := (s.fr.epoch : Int) * secU + (64 * (k : Int) - 63) * wordT

/-- Sample centre time of a frame for an input (R129). -/
def State.centreTime (s : State) (input n : Nat) : Int := s.tickTime n - (s.settle input : Int) * (s.periodU / 2)

/-- The time of a row for one source position (R204). -/
def State.rowTime (s : State) (u src idx : Nat) : Int :=
  if s.unitFast u then s.fastTime idx else s.centreTime ((s.unitSources u).getD src 0) idx

/-- The place in the grid of the first row at or after a trigger point. -/
def State.gridAt (s : State) (u : Nat) (tp : Int) : Nat :=
  let e := tp - (s.fr.epoch : Int) * secU
  if s.unitFast u then
    let d := 64 * wordT
    ((e + 63 * wordT + d - 1) / d).toNat
  else
    let p := s.periodU
    let l := (s.settle ((s.unitSources u).getD 0 0) : Int) * (p / 2)
    if p = 0 then 0 else ((e + l + p - 1) / p).toNat

/-- The first row at or after a trigger point (R205): not before the first row of the Run, and never within a gap. -/
def State.sampleAt (s : State) (u : Nat) (tp : Int) : Nat :=
  let j := max (s.gridAt u tp) ((s.unit u).first.getD (s.nextRow u))
  match (s.unit u).gap with
  | some (lo, hi) => if lo < j ∧ j < hi then hi else j
  | none => j

/-! ## Conditions (R210, R212) -/

def State.condType (s : State) (u c : Nat) : Nat := s.fget (Reg.AQ_UCOND_A u c) Fld.AQ_UCOND_A_type
def State.condSrc (s : State) (u c : Nat) : Nat := s.fget (Reg.AQ_UCOND_A u c) Fld.AQ_UCOND_A_src
def State.condSlope (s : State) (u c : Nat) : Nat := s.fget (Reg.AQ_UCOND_A u c) Fld.AQ_UCOND_A_slope

/-- The watch of a condition before its first row. -/
def CondSt.init : CondSt := { up := false, down := false, last := none, lastIdx := 0, lastT := 0, lastBits := 0 }

/-- A firing of a condition on this hub. -/
def State.firing (s : State) (c : Nat) (tp : Int) (j : Nat) : Firing :=
  { cond := c, tp := tp, j := j, drillCh := 0xFF, late := 0, isLate := false, tdet := s.now }

/-- The boundary of a window that a pair passes on its way in or out. -/
def windowCross (lo hi x0 x1 : Int) (leave : Bool) : Option Int :=
  let inside := fun (x : Int) => decide (lo ≤ x) && decide (x ≤ hi)
  if leave then (if inside x0 && !inside x1 then some (if x1 < lo then lo else hi) else none)
  else (if !inside x0 && inside x1 then some (if x0 < lo then lo else hi) else none)

/-- The interpolated crossing, in binary64, rounded to 2^-16 ns (R212, log 14). -/
def crossing (t0 : Int) (x0 x1 b delta : Int) : Int :=
  let q := fmul (fdiv (fsub (fofInt b) (fofInt x0)) (fsub (fofInt x1) (fofInt x0))) (fofScaled delta (-16))
  t0 + (froundI q 65536).getD 0

/-- A row meets a condition of type 2, 3 or 4: the trigger point, and the watch after it. -/
def State.watch (s : State) (u c : Nat) (w : CondSt) (r : Row) : Option Int × CondSt :=
  let fast := s.unitFast u
  let src := s.condSrc u c
  let raw := r.values.getD src 0
  let flag := r.flags.getD src 0
  let t := s.rowTime u src r.idx
  let delta := if fast then 64 * wordT else s.periodU
  match s.condType u c with
  | 4 =>
    let b := flag &&& BitVec.ofNat 8 (s.fget (Reg.AQ_UCOND_A u c) Fld.AQ_UCOND_A_stmask)
    (if w.last.isSome && w.lastBits == 0 && b != 0 then some t else none, { w with last := some raw, lastBits := b, lastIdx := r.idx, lastT := t })
  | 0 => (none, w)
  | ty =>
    if ty = 2 || ty = 3 then
      if !cleanFlag fast flag then (none, CondSt.init)
      else
        let fold := s.flag (Reg.AQ_UCOND_A u c) Fld.AQ_UCOND_A_fold && fast && flag.getLsbD 0
        let x : Int := if fold then - raw.toInt else raw.toInt
        let kept := wordI (clampI (-2147483648) 2147483647 x)
        let b : Int := (s.rd (Reg.AQ_UCOND_B u c)).toInt
        let x0 := if w.lastIdx + 1 = r.idx then w.last.map BitVec.toInt else none
        if ty = 3 then
          let hit := match x0 with
            | some x0 => windowCross b (s.rd (Reg.AQ_UCOND_C u c)).toInt x0 x (s.condSlope u c == 1)
            | none => none
          (hit.map (fun e => crossing w.lastT (x0.getD 0) x e delta), { w with last := some kept, lastIdx := r.idx, lastT := t })
        else
          let hyst : Int := s.rdN (Reg.AQ_UCOND_C u c)
          let slope := s.condSlope u c
          let rise := match x0 with | some x0 => w.up && slope != 1 && decide (x0 < b) && decide (b ≤ x) | none => false
          let fall := match x0 with | some x0 => w.down && slope != 0 && decide (b < x0) && decide (x ≤ b) | none => false
          let up := (w.up && !rise) || decide (x ≤ b - hyst)
          let down := (w.down && !fall) || decide (b + hyst ≤ x)
          (if rise || fall then some (crossing w.lastT (x0.getD 0) x b delta) else none,
            { w with up := up, down := down, last := some kept, lastIdx := r.idx, lastT := t })
    else (none, w)

/-- Every row condition of a unit looks at a new row. -/
def State.watchRow (s : State) (u : Nat) (r : Row) : State :=
  (List.range 8).foldl (fun s c =>
    let w := (kget? (s.unit u).conds c).getD CondSt.init
    let (tp, w) := s.watch u c w r
    let s := s.modUnit u (fun x => { x with conds := kset x.conds c w })
    match tp with
    | some tp => s.meet u (s.firing c tp r.idx)
    | none => s) s

/-- A plot whose trigger sample is still to come, when row `idx` comes in place of the row expected: a trigger sample that never comes
gives way to it (R205), and only the rows that do come count as pre rows (R208). -/
def Plot.passGap (p : Plot) (idx : Nat) : Plot :=
  let j := max p.j idx
  let pre := min p.pre (p.written + (j - idx))
  { p with j := j, pre := pre, flags := p.flags ||| (if pre < p.pre then pfPreShort else 0) }

/-- Row `idx` comes where row `next` was to come: what was to start with a row that never comes starts with it (R205). -/
def UnitSt.passGap (x : UnitSt) (next idx : Nat) : UnitSt :=
  if idx ≤ next then x
  else
    { x with gap := x.newest.map (fun k => (k, idx))
             plot := x.plot.map (fun p => if next ≤ p.j && p.flags &&& pfLost == 0 then p.passGap idx else p)
             held := x.held.map (fun f => if next ≤ f.j then { f with j := max f.j idx } else f) }

/-- A new row of a unit: the history and the record in capture take it, then the conditions look at it. -/
def State.pushRow (s : State) (u : Nat) (r : Row) : State :=
  let s := s.relockUnit u
  let next := s.nextRow u
  let s := s.modUnit u (fun x => { x.passGap next r.idx with first := x.first.orElse fun _ => some r.idx })
  let live := s.ustate u = uArmed || s.ustate u = uCapturing
  let lim := s.histLimit u
  let s := s.modUnit u (fun x => { x with newest := some r.idx, hist := if live then (r :: x.hist).take (lim + 1) else x.hist })
  if !live then s
  else
    let s := match (s.unit u).plot with
      | some p =>
        if !Plot.complete p && decide (p.j ≤ r.idx + p.pre) && (p.post == unbounded || decide (r.idx < p.j + p.post)) then s.writeRow u r else s
      | none => s
    let s := s.watchRow u r
    s.modUnit u (fun x => { x with hist := x.hist.take lim })

/-! ## Fast-tap samples (R117 to R119) -/

/-- The sinc4 response: the binomial form of four boxes of 64. -/
def sincTap (j : Nat) : Int :=
  let c3 := fun (n : Int) => if n < 3 then 0 else n * (n - 1) * (n - 2) / 6
  let j := (j : Int) + 3
  c3 j - 4 * c3 (j - 64) + 6 * c3 (j - 128) - 4 * c3 (j - 192)

/-- The value of a fast-tap sample from its 253 words, oldest first; the last bit's rounding is open (log 6). -/
def State.fastValue (s : State) (input : Nat) (ws : List (BitVec 4)) : Word :=
  let n := (ws.zipIdx).foldl (fun (a : Int) p => a + sincTap p.2 * (2 * (p.1.toNat : Int) - 15)) 0
  let off := (s.calEntry input (s.inRange input) 0).toInt
  let gain : Int := (s.calEntry input (s.inRange input) 1).toNat
  satWord (openDiv (gain * (512 * n - 45 * off)) (45 * 2 ^ 30))

/-- Spans seen from the present tick: those of the interval before it lie at negative words. -/
def spansAt (now prev : List WordSpan) (w : Nat) (i : Int) : Bool :=
  now.any (fun p => decide ((p.first : Int) ≤ i) && decide (i ≤ (p.last : Int)))
    || prev.any (fun p => decide ((p.first : Int) - w ≤ i) && decide (i ≤ (p.last : Int) - w))

/-- Flag byte of a fast-tap sample whose last word is `last`, counted from the present tick (R119, R203); words before the tick were
discarded by the configuration of their own interval. -/
def State.fastFlags (s : State) (n : Nat) (last : Int) : Byte :=
  let w := s.wordsPerFrame
  let x := s.inSt n
  let win : List Int := (List.range 253).map (fun (i : Nat) => last - (i : Int))
  let inFrame := fun (i : Int) => (i % (w : Int)).toNat
  let slotW : Int := s.inK n * 256
  let pol := s.negative n (inFrame last)
  let edge := s.reverses n && slotW != 0 && decide (last / slotW ≠ (last - 252) / slotW)
  let disc := win.any (fun i => (decide (0 ≤ i) && (s.guardCut n (inFrame i) || inSpan (s.windowSpans n) (inFrame i)))
    || spansAt (s.inBlanks n ++ x.sense) x.discPrev w i)
  let ovl := win.any (fun i => spansAt x.ovl x.ovlPrev w i)
  BitVec.ofNat 8 (b2n pol + 2 * b2n edge + 4 * b2n disc + 8 * b2n ovl)

/-- A kind 1 unit takes a row once every source has its sample `k`. -/
def State.fastRow (s : State) (u k : Nat) : State :=
  let src := s.unitSources u
  let get := fun (i : Nat) => (kget? s.aq.ftRow i).getD (k + 1, 0, 0)
  if src.all (fun i => (get i).1 == k) && (s.unit u).newest != some k then
    s.pushRow u { idx := k, t := s.fastTime k, values := src.map (fun i => (get i).2.1), flags := src.map (fun i => (get i).2.2) }
  else s

/-- FAST_TAP_SAMPLE: `k` is 4 × base slots since the epoch + q. Units that wait for the modulator clock take no row (R234). -/
def fastTapSample (slot : BitVec 5) (k : Nat) (words : List (BitVec 4)) (s : State) : State :=
  let i := slot.toNat
  let n := s.ftInput i
  if !(s.running && s.ftEn i && s.inEn n) || s.fe.pllStep then s
  else
    let last : Int := 64 * (k : Int) + 63 - (s.frameNo * s.wordsPerFrame : Nat)
    let s := { s with aq := { s.aq with ftRow := kset s.aq.ftRow i (k, s.fastValue n words, s.fastFlags n last) } }
    (List.range 8).foldl (fun s u =>
      if s.unitEn u && s.unitFast u && (s.unitSources u).contains i then s.fastRow u k else s) s

def execFastTapSample (slot : BitVec 5) (k : Nat) (words : List (BitVec 4)) (s : State) : Host.Outcome State Fault Refusal :=
  fin (fastTapSample slot k words s)

/-- The rows of frame `n` (R202, R203): value and status byte of each source as the blocks carry them. -/
def State.frameRows (s : State) (n : Nat) (slots : List Slot) : State :=
  (List.range 8).foldl (fun s u =>
    if s.unitEn u && !s.unitFast u then
      let src := s.unitSources u
      let get := fun (i : Nat) => slots.find? (fun x => x.n == i)
      s.pushRow u { idx := n, t := s.tickTime n, values := src.map (fun i => match get i with | some x => wordI x.value | none => 0)
                    flags := src.map (fun i => match get i with | some x => BitVec.ofNat 8 x.st | none => 0) }
    else s) s

/-- Frame conditions whose tick arrives (R210). -/
def State.frameConds (s : State) (n : Nat) : State :=
  (List.range 8).foldl (fun s u => (List.range 8).foldl (fun s c =>
    if s.unitEn u && s.condType u c == 6 && s.rd64 (Reg.AQ_UCOND_B u c) == BitVec.ofNat 64 n then
      s.meet u (s.firing c (s.tickTime n) (s.sampleAt u (s.tickTime n)))
    else s) s) s

/-! ## Commands of a unit -/

/-- The furrow a unit names may carry its records (R232). -/
def State.furrowFree (s : State) (u : Nat) : Bool :=
  let f := s.fget (Reg.AQ_UFURROW u) Fld.AQ_UFURROW_index
  (s.furrow? f).any (fun fu => fu.kind == .plot)
  && (List.range 8).all (fun v => v == u || s.fget (Reg.AQ_UFURROW v) Fld.AQ_UFURROW_index != f
      || (s.ustate v == uDisarmed && !(s.unit v).slipWait && (s.unit v).ready.isEmpty))

/-- AQ_UCMD.arm (R232). -/
def aqArm (u : BitVec 3) (s : State) : State :=
  let u := u.toNat
  if !(s.inRun && s.unitEn u && s.furrowFree u) then s.accErr true (Reg.AQ_UCMD u)
  else if s.ustate u = uArmed || s.ustate u = uCapturing || (s.unit u).slipWait then s
  else s.rearm u true

def execAqArm (u : BitVec 3) (s : State) : Host.Outcome State Fault Refusal := fin (aqArm u s)

/-- AQ_UCMD.stop (R234). -/
def aqStop (u : BitVec 3) (s : State) : State := s.stopUnit u.toNat

def execAqStop (u : BitVec 3) (s : State) : Host.Outcome State Fault Refusal := fin (aqStop u s)

/-- AQ_UCMD.force (R218). -/
def aqForce (u : BitVec 3) (s : State) : State :=
  let u := u.toNat
  if s.ustate u = uArmed || s.ustate u = uCapturing then s.meet u (s.firing 0xFE s.now (s.sampleAt u s.now))
  else s.accErr true (Reg.AQ_UCMD u)

def execAqForce (u : BitVec 3) (s : State) : Host.Outcome State Fault Refusal := fin (aqForce u s)

/-- AUTO_TRIGGER: the timeout after arming or re-arming expires (R217). -/
def autoTrigger (u : BitVec 3) (s : State) : State :=
  let u := u.toNat
  if s.ustate u = uArmed && s.unitEn u && s.ucfg u Fld.AQ_UCFG_auto then
    let tp := (s.unit u).armedAt + (s.fget (Reg.AQ_UAUTO u) Fld.AQ_UAUTO_timeout : Int) * 1000000 * nsU
    let s := s.modUnit u (fun x => { x with armedAt := tp })
    s.meet u (s.firing 0xFF tp (s.sampleAt u tp))
  else s

def execAutoTrigger (u : BitVec 3) (s : State) : Host.Outcome State Fault Refusal := fin (autoTrigger u s)

/-! ## Trigger pins and the drill bus (R211, R221 to R227) -/

/-- The trigger point of a pin edge: the stamp less the on-chip trim and the board delay. -/
def State.pinTime (s : State) (p : Nat) (t : Stamp) : Int :=
  let dly : Int := (BitVec.ofNat 16 (s.fget (Reg.AQ_PINCFG p) Fld.AQ_PINCFG_board_dly)).toInt
  s.stampTime t - s.pinTrim p - openDiv (dly * 16 * 65536) 1000

/-- The pin conditions that an edge meets. -/
def State.pinConds (s : State) (p : Nat) (rising : Bool) (tp : Int) : State :=
  (List.range 8).foldl (fun s u => (List.range 8).foldl (fun s c =>
    if s.unitEn u && s.condType u c == 1 && s.condSrc u c == p
        && (s.condSlope u c == 2 || s.condSlope u c == (if rising then 0 else 1)) then
      s.meet u (s.firing c tp (s.sampleAt u tp))
    else s) s) s

def trigInEdge (p : BitVec 2) (rising : Bool) (t : Stamp) (s : State) : State :=
  let p := p.toNat
  if !(s.alive && s.flag (Reg.AQ_PINCFG p) Fld.AQ_PINCFG_en) then s
  else
    let r := rawOf t.count.toNat t.frac.toNat
    let early := match kget? s.aq.lastEdge p with
      | some l => decide (r - l < 20 * nsU)
      | none => false
    if early then s
    else ({ s with aq := { s.aq with lastEdge := kset s.aq.lastEdge p r } }).pinConds p rising (s.pinTime p t)

def execTrigInEdge (p : BitVec 2) (rising : Bool) (t : Stamp) (s : State) : Host.Outcome State Fault Refusal :=
  fin (trigInEdge p rising t s)

/-- AQ_DRILLCMD.go (R221). -/
def drillSend (ch : BitVec 4) (s : State) : State := s.sendDrill ch.toNat s.now s.now

def execDrillSend (ch : BitVec 4) (s : State) : Host.Outcome State Fault Refusal := fin (drillSend ch s)

/-- The hub acts on a drill message (R222, R225); `late` is the lateness in ns, where it is late. -/
def State.drillConds (s : State) (ch : Nat) (tp : Int) (late : Option Int) : State :=
  let s := s.trigOut 1 ch
  (List.range 8).foldl (fun s u => (List.range 8).foldl (fun s c =>
    if s.unitEn u && s.condType u c == 5 && s.condSrc u c == ch then
      s.meet u { s.firing c tp (s.sampleAt u tp) with drillCh := ch, late := late.getD 0, isLate := late.isSome }
    else s) s) s

/-- DRILL_MESSAGE: the first copy waits for its t_act, or is acted on at once and late (R224, R225). -/
def drillMessage (origin : BitVec 6) (ch : BitVec 4) (seq : Word) (tp tdet : PtpTime) (s : State) : State :=
  let key := (origin.toNat, seq)
  if !s.alive || s.aq.seen.contains key then s
  else
    let tact := PtpTime.val tdet + s.drillLatency
    let s := { s with aq := { s.aq with seen := key :: s.aq.seen } }
    if tact < s.now then
      let late := (s.now - tact) / nsU
      let s := (s.incSat Reg.AQ_DRILLLATE 1).raiseD 29 origin.toNat 0 ch.toNat (BitVec.ofInt 64 late)
      s.drillConds ch.toNat (PtpTime.val tp) (some late)
    else
      { s with aq := { s.aq with drills := s.aq.drills ++ [({ origin := origin.toNat, ch := ch.toNat, seq := seq
                                                              tp := PtpTime.val tp, tact := tact } : DrillMsg)] } }

def execDrillMessage (origin : BitVec 6) (ch : BitVec 4) (seq : Word) (tp tdet : PtpTime) (s : State) :
    Host.Outcome State Fault Refusal := fin (drillMessage origin ch seq tp tdet s)

/-- The message whose turn is next: ascending t_act, then origin (R226). -/
def nextDrill (l : List DrillMsg) : Option DrillMsg :=
  (sortBy (fun a b => decide (a.tact < b.tact) || (a.tact == b.tact && decide (a.origin ≤ b.origin))) l).head?

/-- DRILL_ACT: the t_act of the next waiting message has come. -/
def drillAct (s : State) : State :=
  match nextDrill s.aq.drills with
  | none => s
  | some m => ({ s with aq := { s.aq with drills := s.aq.drills.erase m } }).drillConds m.ch m.tp none

def execDrillAct (s : State) : Host.Outcome State Fault Refusal := fin (drillAct s)

/-- TRIG_OUT_PULSE_END (R227). -/
def trigOutPulseEnd (o : BitVec 1) (s : State) : State :=
  { s with aq := { s.aq with tout := s.aq.tout &&& ~~~ (1#2 <<< o.toNat) } }

/-- What a pin shows. -/
inductive PinLevel where
  | low
  | high
  | highZ
  deriving DecidableEq, Repr

/-- TRIG_OUTo: a pulse is high, or with AQ_TOUT[o].pol low (R227); from a power-fail until power good it is in high impedance
(R460). -/
def State.trigOutPin (s : State) (o : Nat) : PinLevel :=
  if !s.alive then .highZ
  else if s.aq.tout.getLsbD o != s.flag (Reg.AQ_TOUT o) Fld.AQ_TOUT_pol then .high
  else .low

def execTrigOutPulseEnd (o : BitVec 1) (s : State) : Host.Outcome State Fault Refusal := fin (trigOutPulseEnd o s)

/-! ## The modulator clock locks (R96, R195, R234) -/

/-- MOD_PLL_LOCK; the units that wait for it re-arm at their next row (R234). -/
def modPllLock (s : State) : State :=
  if s.alive && !s.pw.inReset && s.pw.power != .hold then
    let s := s.setFlag Reg.CV_STAT Fld.CV_STAT_lock true
    { s with fe := { s.fe with pllStep := false } }
  else s

def execModPllLock (s : State) : Host.Outcome State Fault Refusal := fin (modPllLock s)

end Sys2Proof.Machine
end

