-- ==== Sys2Proof/Machine/Supervisor.lean ====
section
/-! DEFINITION. The supervisor's commands and checks: safe state, release, the proof test, and the causes it detects
(R391 to R404). -/

namespace Sys2Proof.Machine

/-- SV_SAFE_CMD: cause host. -/
def svSafeCmd (s : State) : State := if s.alive then s.latchCause 0 else s
def execSvSafeCmd (s : State) : Host.Outcome State Fault Refusal := fin (svSafeCmd s)

/-- A release is acceptable (R398). -/
def State.releaseOk (s : State) : Bool :=
  s.inRun && s.sv.safe && s.rd Reg.SV_CAUSE == 0 && s.permsHold && (!s.isTwin || s.role == 1)

/-- SV_RELEASE: accepted, it takes effect at the next tick; the active of a pair relays it. -/
def svRelease (s : State) : State :=
  if !s.releaseOk then s.accErr true Reg.SV_CMD
  else
    let s := { s with sv := { s.sv with releasePend := true } }
    if s.isTwin && s.role == 1 then s.sendTwin 0x15 [s.frameNo + 1] else s
def execSvRelease (s : State) : Host.Outcome State Fault Refusal := fin (svRelease s)

/-- RELEASE_SAFE_N_CHECK: 10 µs after the release tick SAFE_N reads high, or the hub stays in safe state with cause
external, which is no new entry. -/
def releaseSafeNCheck (high : Bool) (s : State) : State :=
  if !s.sv.checkDue then s
  else if high then { s with sv := { s.sv with checkDue := false, safeN := true } }
  else ({ s with sv := { s.sv with checkDue := false, raiseDue := false, safe := true, safeN := false } }).latchCause 10
def execReleaseSafeNCheck (high : Bool) (s : State) : Host.Outcome State Fault Refusal := fin (releaseSafeNCheck high s)

/-- The supplies that the supervisor compares, by their gleaner targets (R401), and the nine die sensors (R402). -/
def supplyTargets : List Nat := (List.range 16).map (0x40 + ·)
def sensorTargets : List Nat := (List.range 9).map (0x51 + ·)

/-- The window of a supply in mV (R401); of a VDDIO bank 10 % about its strapped class (R459). -/
def State.supplyWindow (s : State) (t : Nat) : Option (Nat × Nat) :=
  if t = 0x40 || t = 0x41 then some (4014, 4178)
  else if t = 0x42 || t = 0x43 then some (4600, 5400)
  else if 0x44 ≤ t && t ≤ 0x46 then some (3036, 3564)
  else if t = 0x47 || t = 0x48 then some (1656, 1944)
  else if t = 0x49 then some (736, 864)
  else if t = 0x4A then some (828, 972)
  else if t = 0x4B then some (1104, 1296)
  else if 0x4C ≤ t && t ≤ 0x4F then some (if s.pw.io33.getLsbD (t - 0x4C) then (2970, 3630) else (1620, 1980))
  else none

/-- PROOF_TEST in Idle (R404): SAFE_N is pulled low for 20 µs and each OEN enabled in oen_en rises for 2 µs, every output at its
safe value until the test ends. -/
def proofTest (s : State) : State :=
  if !s.idleOpen then s.accErr true Reg.SV_CMD
  else if s.sv.ptest then s
  else
    let s := ({ s with sv := { s.sv with ptest := true } }).loadSafeOutputs
    (s.emit .safeNPulse).emit (.oenPulse (s.fget Reg.SV_CTL Fld.SV_CTL_oen_en))
def execProofTest (s : State) : Host.Outcome State Fault Refusal := fin (proofTest s)

/-- The proof test passed: every comparator tripped, each OEN read back as it was driven, SAFE_N read low, and no output failed its
readback. -/
def State.proofOk (s : State) (r : ProofTestResult) : Bool :=
  (supplyTargets ++ sensorTargets).all (fun t => r.tripped.any (fun b => b.toNat == t))
    && r.oen.toNat == s.fget Reg.SV_CTL Fld.SV_CTL_oen_en && !r.safeN && r.outputs == 0

/-- PROOF_TEST_DONE: the outputs are again as Idle has them (R253). -/
def proofTestDone (r : ProofTestResult) (s : State) : State :=
  if !s.sv.ptest then s
  else
    let s := ({ s with sv := { s.sv with ptest := false } }).outputsOff
    (s.setFlag Reg.SV_STAT Fld.SV_STAT_ptest_done true).setFlag Reg.SV_STAT Fld.SV_STAT_ptest_ok (s.proofOk r)
def execProofTestDone (r : ProofTestResult) (s : State) : Host.Outcome State Fault Refusal := fin (proofTestDone r s)

/-! ## Causes found outside the frame (R393, R395, R400 to R403) -/

/-- SUPPLY_LIMIT: a supply that has been at this voltage for 10 µs, outside its window. -/
def supplyLimit (target : Byte) (mv : BitVec 16) (s : State) : State :=
  match s.supplyWindow target.toNat with
  | some (low, high) =>
    if s.alive && (decide (mv.toNat < low) || decide (high < mv.toNat)) then
      (s.raise 19 target.toNat (b2n (decide (high < mv.toNat)))).latchCause 5
    else s
  | none => s
def execSupplyLimit (target : Byte) (mv : BitVec 16) (s : State) : Host.Outcome State Fault Refusal := fin (supplyLimit target mv s)

/-- DIE_TEMP_LIMIT: one of the nine sensors has been at this temperature for 5 µs, above SV_TEMPLIM. -/
def dieTempLimit (x : SensorRead) (s : State) : State :=
  if s.alive && sensorTargets.contains x.target.toNat && decide (1000 * (s.rdN Reg.SV_TEMPLIM % 256 : Int) < x.milliC.toInt) then
    (s.raise 20 x.target.toNat 0).latchCause 6
  else s
def execDieTempLimit (x : SensorRead) (s : State) : Host.Outcome State Fault Refusal := fin (dieTempLimit x s)

/-- LOCKSTEP_MISMATCH: the control step is cut, its state updates discarded (R241). -/
def lockstepMismatch (s : State) : State :=
  if !s.alive then s
  else
    let s := if s.running then
        let s := s.undoLoops.cutControl
        { s with fr := { s.fr with hbPosted := false } }
      else s
    s.latchCause 3
def execLockstepMismatch (s : State) : Host.Outcome State Fault Refusal := fin (lockstepMismatch s)

def protectedMemEcc (s : State) : State := if s.alive then s.latchCause 4 else s
def execProtectedMemEcc (s : State) : Host.Outcome State Fault Refusal := fin (protectedMemEcc s)

def clockCheckFail (s : State) : State := if s.alive then s.latchCause 14 else s
def execClockCheckFail (s : State) : Host.Outcome State Fault Refusal := fin (clockCheckFail s)

def driveReadbackFail (s : State) : State := if s.alive then s.latchCause 16 else s
def execDriveReadbackFail (s : State) : Host.Outcome State Fault Refusal := fin (driveReadbackFail s)

/-- SAFE_N_EXTERNAL: the line has read low for 10 µs while this hub does not drive it. -/
def safeNExternal (s : State) : State :=
  if !s.alive || s.sv.pulls then s
  else ({ s with sv := { s.sv with safeN := false } }).latchCause 10
def execSafeNExternal (s : State) : Host.Outcome State Fault Refusal := fin (safeNExternal s)

/-- PERMISSIVE_LOST: a permissive in force does not hold outside safe state (R400). -/
def permissiveLost (p : BitVec 3) (s : State) : State :=
  let i := p.toNat
  if s.inRun && !s.sv.safe && s.permInForce i && !s.permHolds i then (s.raise 39 0 i).latchCause 9 else s
def execPermissiveLost (p : BitVec 3) (s : State) : Host.Outcome State Fault Refusal := fin (permissiveLost p s)

end Sys2Proof.Machine
end

