-- ==== Sys2Proof/Machine/Twin.lean ====
section
/-! DEFINITION. The twin pair: comparison, diagnosis, the interlock, fail-over, takeover of furrows and rejoin (R405 to
R416). -/

namespace Sys2Proof.Machine

def State.modTwin (s : State) (f : TwinSt → TwinSt) : State := { s with sv := { s.sv with twin := f s.sv.twin } }
def State.setPReady (s : State) (b : Bool) : State := s.setFlag Reg.SV_TWSTAT Fld.SV_TWSTAT_p_ready b
def State.pReady (s : State) : Bool := s.flag Reg.SV_TWSTAT Fld.SV_TWSTAT_p_ready

/-- The inputs compared (SV_TWISEL). -/
def State.compared (s : State) : List Nat :=
  (List.range 256).filter (fun n => (s.rd (Reg.SV_TWISEL (n / 32))).getLsbD (n % 32))

/-- The hash of the settings that both hubs must share (R405); registers of a writable type stand for their windows. -/
def State.twinHash (s : State) : List Byte :=
  let ce := imageOffsets rowsCE
  let ins := s.compared.flatMap (fun n => (imageOffsets (rowsIN.map (fun r => { r with n := 1 }))).map (fun o => o + (Reg.IN_CFG n - Reg.IN_CFG 0)))
  let tw := (imageOffsets rowsSV).filter (fun o => decide (Reg.SV_TWCFG ≤ o) && o != Reg.SV_TWEPOCH)
  sha384 ((ce ++ ins ++ tw).flatMap (fun o => leBytes 4 (s.rdN o)))

/-- The two hubs compare frame `n`: a ready pair, or a joining hub from its start tick on, with its active. -/
def State.twinRuns (s : State) (n : Nat) : Bool :=
  let joined := s.sv.twin.joinAt.any (fun j => decide (j ≤ n))
  s.isTwin && ((s.role == 1 && (s.pReady || joined)) || s.role == 2 || (s.role == 4 && joined))

/-! ## Comparison (R406, R407) -/

/-- What a twin frame carries (R406). -/
def twinValues (x : TwinFrameIn) : List Nat :=
  [x.frame.toNat] ++ x.loops.flatMap (fun y => [y.loop.toNat, y.u.toNat, b2n y.started, b2n y.holding, b2n y.failed])
    ++ x.inputs.flatMap (fun y => [y.input.toNat, y.value.toNat, y.status.toNat]) ++ [x.cause.toNat]

/-- The own twin frame after the control step of frame `n`: slots are values and status bytes of the frame's inputs. -/
def State.twinFrameOf (s : State) (n : Nat) : TwinFrameIn :=
  let st := fun l => s.rd (Reg.CE_LSTAT l)
  { frame := BitVec.ofNat 64 n
    loops := s.enabledLoops.map (fun l =>
      ({ loop := BitVec.ofNat 5 l, u := s.loopU l, started := BitField.get Fld.CE_LSTAT_started (st l) == 1
         holding := BitField.get Fld.CE_LSTAT_holding (st l) == 1, failed := BitField.get Fld.CE_LSTAT_failed (st l) == 1 } : TwinLoop))
    inputs := s.compared.map (fun i =>
      let x := (kget? s.fe.ins i)
      ({ input := BitVec.ofNat 8 i, value := (x.map InSt.value).getD 0, status := (x.map InSt.status).getD 0 } : TwinInput))
    cause := s.rd Reg.SV_CAUSE, leaving := false }

/-- A loop of the two frames differs. -/
def State.loopDiffers (s : State) (b : TwinFrameIn) (x : TwinLoop) : Bool :=
  match b.loops.find? (fun y => y.loop == x.loop) with
  | none => true
  | some y =>
    x.started != y.started || x.holding != y.holding || x.failed != y.failed
      || flt (fofScaled (s.rdN (Reg.SV_TWLTOL x.loop.toNat) % 65536) (-16)) (fabs (fsub x.u y.u))

/-- A compared input of the two frames differs. -/
def State.inputDiffers (s : State) (b : TwinFrameIn) (x : TwinInput) : Bool :=
  match b.inputs.find? (fun y => y.input == x.input) with
  | none => true
  | some y =>
    let vx := x.status.getLsbD 0
    let vy := y.status.getLsbD 0
    vx != vy || (vx && vy && decide (s.rdN Reg.SV_TWITOL < (x.value.toInt - y.value.toInt).natAbs))

/-- The first element that differs: its number and the cause code of TWIN_MISMATCH. -/
def State.twinDiff (s : State) (a b : TwinFrameIn) : Option (Nat × Nat) :=
  match a.loops.find? (s.loopDiffers b) with
  | some x => some (x.loop.toNat, 0)
  | none => (a.inputs.find? (s.inputDiffers b)).map (fun x => (x.input.toNat, 1))

/-- The k-th mismatch of a run: the loop updates are discarded, the agreed outputs are staged and are again those in force,
and both are held (R407). -/
def State.holdTwin (s : State) (n : Nat) : State :=
  let s := s.undoLoops
  let tw := s.sv.twin
  let s := tw.agreedU.foldl (fun (s : State) e => s.setLoopU e.1 e.2) s
  let s := { s with ce := { s.ce with aoNext := tw.agreedAo, pwmNext := tw.agreedPwm, slotNext := tw.agreedSlot } }
  s.modTwin (fun t => { t with held := true, mismatchFrame := some n, gap := some n, myReport := none, theirReport := none })

/-- Frame `n` mismatches. -/
def State.twinMismatch (s : State) (n obj cause : Nat) : State :=
  let run := s.fget Reg.SV_TWSTAT Fld.SV_TWSTAT_mis_run
  let s := (s.fput Reg.SV_TWSTAT Fld.SV_TWSTAT_mis_run (min 255 (run + 1))).setFlag Reg.SV_TWSTAT Fld.SV_TWSTAT_mismatch true
  let s := s.incSat Reg.SV_TWMISCNT 1
  let s := s.modTwin (fun t => { t with compared := true, agreeRun := 0 })
  let s := if run = 0 then s.raise 36 obj cause else s
  if s.partnerReady && !s.sv.twin.held && s.fget Reg.SV_TWCFG Fld.SV_TWCFG_k == run + 1 then s.holdTwin n else s

/-- Frame `n` matches: its staged outputs are the agreed ones. -/
def State.twinMatch (s : State) : State :=
  let s := s.fput Reg.SV_TWSTAT Fld.SV_TWSTAT_mis_run 0
  s.modTwin (fun t => { t with compared := true, agreeRun := t.agreeRun + 1, agreedAo := s.ce.aoNext, agreedPwm := s.ce.pwmNext
                               agreedSlot := s.ce.slotNext, agreedU := s.enabledLoops.map (fun l => (l, s.loopU l)) })

/-- Both frames are there and are compared. -/
def State.twinCompare (s : State) : State :=
  match s.sv.twin.mine, s.sv.twin.theirs with
  | some a, some b =>
    if a.frame != b.frame || s.sv.twin.compared || s.sv.twin.held then s
    else match s.twinDiff a b with
      | some (o, c) => s.twinMismatch a.frame.toNat o c
      | none => s.twinMatch
  | _, _ => s

/-- This hub's fault report (R408); `vectors`: the control engine failed its test vectors. -/
def State.twinFault (s : State) (n : Nat) (vectors : Bool) : Bool :=
  let k := s.fget Reg.SV_TWCFG Fld.SV_TWCFG_k
  hubFaults.any s.hasCause || vectors || s.sv.twin.lastBad.any (fun m => decide (n + 1 ≤ m + k))

/-- A frame in which a compared input carried OPN, OVR or FLT is noted, its control step cut or not (R408). -/
def State.twinNotes (s : State) (n : Nat) : State :=
  if s.isTwin && s.compared.any (fun i => (kget? s.fe.ins i).any (fun x => x.status &&& 0x98#8 != 0)) then s.noteBad n else s

/-- In the window after the k-th mismatch the report goes to the partner (R408). -/
def State.twinReport (s : State) (n : Nat) (vectors : Bool) : State :=
  match s.sv.twin.held, s.sv.twin.mismatchFrame, s.sv.twin.myReport with
  | true, some m, none =>
    if m < n then (s.modTwin (fun t => { t with myReport := some (s.twinFault m vectors) })).sendTwin 0x13 [m, b2n (s.twinFault m vectors)]
    else s
  | _, _, _ => s

/-- After the control step of frame `n`: the frame goes to the partner and is compared; while the outputs are held the report goes
instead (R406, R408). -/
def State.twinAfter (s : State) (n : Nat) (vectors : Bool) : State :=
  if !s.isTwin then s
  else if s.sv.twin.held then s.twinReport n vectors
  else if s.twinRuns n then
    let s := s.modTwin (fun t => { t with mine := some (s.twinFrameOf n), compared := false })
    (s.sendTwin 0x10 (twinValues (s.twinFrameOf n))).twinCompare
  else s

/-- TWIN_COMPARE_DEADLINE: a frame that was not compared mismatches. -/
def twinCompareDeadline (s : State) : State :=
  match s.sv.twin.mine with
  | none => s
  | some a =>
    if !s.inRun || s.sv.twin.compared || s.sv.twin.held || !s.twinRuns a.frame.toNat then s
    else s.twinMismatch a.frame.toNat 0 2
def execTwinCompareDeadline (s : State) : Host.Outcome State Fault Refusal := fin (twinCompareDeadline s)

/-! ## Diagnosis (R408, R409) -/

/-- DIAGNOSIS_REPORT of the frame whose mismatch is diagnosed, or of the window after it. -/
def diagnosisReport (frame : Word64) (fault : Bool) (s : State) : State :=
  match s.sv.twin.mismatchFrame with
  | some n =>
    if frame.toNat = n || frame.toNat = n + 1 then s.modTwin (fun t => { t with theirReport := some fault }) else s
  | none => s
def execDiagnosisReport (frame : Word64) (fault : Bool) (s : State) : Host.Outcome State Fault Refusal :=
  fin (diagnosisReport frame fault s)

/-- The hold ends. SV_TWSTAT.mis_run stays: only a matched frame resets it (R407). -/
def State.endHold (s : State) : State :=
  s.modTwin (fun t => { t with held := false, mismatchFrame := none, myReport := none, theirReport := none, mine := none
                               theirs := none })

/-- The partner has left Run: this active goes on as a single hub, a rejoin in progress has ended (R441). -/
def State.partnerLeft (s : State) : State :=
  if s.role != 1 then s
  else
    let held := s.sv.twin.held
    let s := (s.endHold.setPReady false).modTwin (fun t => { t with joinAt := none, snapshotSent := false, gap := if s.sv.ilkO then none else t.gap })
    if held then s.restartLoops else s

/-- TWIN_FRAME: the partner's frame arrives, or its word that it leaves Run. The active's SV_CAUSE tells a joining hub of a safe
state. -/
def twinFrame (tf : TwinFrameIn) (s : State) : State :=
  if !s.isTwin || !s.inRun || s.role = 5 then s
  else if tf.leaving then s.partnerLeft
  else
    let safe := s.sv.twin.activeSafe || tf.cause != 0
    (s.modTwin (fun t => { t with theirs := some tf, activeSafe := safe })).twinCompare
def execTwinFrame (tf : TwinFrameIn) (s : State) : Host.Outcome State Fault Refusal := fin (twinFrame tf s)

/-- What a hub of a pair tells its partner as it leaves Run. DESIGN CHOICE (log 89): the spec names no message for it. -/
def State.twinLeaves (s : State) : State := if s.isTwin && s.role != 0 then s.sendTwin 0x16 [] else s

/-- What the end of Run leaves of the pair. -/
def TwinSt.ended (t : TwinSt) : TwinSt :=
  { t with held := false, mine := none, theirs := none, mismatchFrame := none, gap := none, failing := false, joinAt := none
           myReport := none, theirReport := none, lastBad := none, agreedAo := [], agreedPwm := [], agreedSlot := [], agreedU := []
           tookOver := false, activeSafe := false }

/-- This hub becomes the active; the claim follows by R410. -/
def State.failOver (s : State) : State :=
  ((s.setRole 1).setPReady false).modTwin (fun t => { t with failing := true })

/-- TWIN_DECISION (R408, R409). -/
def twinDecision (s : State) : State :=
  match s.sv.twin.mismatchFrame with
  | none => s
  | some n =>
    if !s.inRun || (s.role != 1 && s.role != 2) then s.endHold
    else
      let mine := s.sv.twin.myReport.getD (s.twinFault n false)
      let theirs := s.sv.twin.theirReport.getD true
      let s := s.endHold
      if mine = theirs then (s.modTwin (fun t => { t with gap := none })).latchCause 15
      else if mine then (s.modTwin (fun t => { t with gap := none })).retire
      else
        let s := if s.role = 1 then (s.setPReady false).modTwin (fun t => { t with gap := if s.sv.ilkO then none else t.gap })
          else s.failOver
        s.restartLoops
def execTwinDecision (s : State) : Host.Outcome State Fault Refusal := fin (twinDecision s)

/-- FAILOVER_GAP_EXPIRE: no hub has resumed by tick n+4 (R409). -/
def failoverGapExpire (s : State) : State :=
  if s.inRun && s.sv.twin.gap.isSome && (s.role == 1 || s.role == 2) then
    ((s.modTwin (fun t => { t with gap := none, failing := false })).endHold).latchCause 15
  else s
def execFailoverGapExpire (s : State) : Host.Outcome State Fault Refusal := fin (failoverGapExpire s)

/-! ## The interlock and fail-over (R410 to R415) -/

/-- ILK_I_EDGE: of two claims within 2 µs the hub whose TWIN_PRI is low gives way; the fall of a ready standby's ILK_I
means that the active has retired (R410, R412). -/
def ilkIEdge (high : Bool) (s : State) : State :=
  if !s.alive then s
  else
    let s := { s with sv := { s.sv with ilkI := high } }
    if high then
      if s.sv.ilkO && !s.pw.twinPri && decide (s.now - s.sv.twin.claimAt ≤ 2000 * nsU) then
        { s with sv := { s.sv with ilkO := false, oen := 0 } }
      else s
    else if s.inRun && s.role == 2 && !s.sv.twin.held then s.failOver
    else s
def execIlkIEdge (high : Bool) (s : State) : Host.Outcome State Fault Refusal := fin (ilkIEdge high s)

/-- A record of a completion ring is a posted completion: it stands in its own slot with its own phase (R281). -/
def posted (lsize slot : Nat) (r : RingRec) : Bool := r.seq.toNat % 2 ^ lsize == slot && r.phase == phaseOf r.seq lsize

/-- The last completion that a ring holds: the posted one with no posted successor; none leaves the furrow at its start (R414,
step 2). -/
def lastPosted (lsize : Nat) (recs : List RingRec) : Word :=
  let all := ((recs.zipIdx).filter (fun p => posted lsize p.2 p.1)).map (fun p => p.1.seq)
  (all.find? (fun q => !all.contains (q + 1))).getD (-1)

/-- A furrow with the last completion that its ring holds. -/
def RingRead.furrow (r : RingRead) : SnapFurrow :=
  { index := r.index, handle := r.handle, desc := r.desc, cpl := r.cpl, lsize := r.lsize, vector := r.vector
    lastSeq := lastPosted r.lsize.toNat r.records }

/-- A furrow of the retired hub under its own handle, ring addresses and vector (R414); items after `lastSeq` are fetched
again. -/
def adopted (k : FurrowKind) (x : SnapFurrow) : Furrow :=
  { kind := k, handle := x.handle, lsize := x.lsize.toNat, vector := x.vector.toNat, irqAll := false, descRing := x.desc
    cplRing := x.cpl, frames := 0, mask := 0, prod := x.lastSeq + 1, nextFetch := x.lastSeq + 1, nextPost := x.lastSeq + 1
    items := [], stalled := false, failed := false, emptyEp := false, from? := none, openFrames := [], blocks := []
    gapRun := false, parts := [], twin := true }

/-- Empty frames of an input set, marked as gap frames. -/
def gapFrame (n : Nat) (slots : Nat) : FrameSlots := { frame := n, nibble := 5, values := List.replicate slots 0, status := List.replicate slots 0 }

/-- The frames for which the new active holds no block become gap blocks (R415): frame by frame, a block closing at each
multiple of b; the first of a run raises BACKLOG_GAP (R289). -/
def State.gapFrames (s : State) (f : Nat) : Nat → Nat → State
  | 0, _ => s
  | k + 1, n =>
    match s.furrow? f with
    | none => s
    | some fu =>
      let fu := { fu with openFrames := fu.openFrames ++ [gapFrame n (s.furrowSlots fu)] }
      let s := s.setFurrow f fu
      let s := if fu.frames != 0 && n % fu.frames == 0 then
          let cnt := fu.openFrames.length
          let b : Block := { furrow := f, first := (fu.openFrames.head?.map FrameSlots.frame).getD n, frames := fu.openFrames
                             slots := s.furrowSlots fu, gap := true, twin := true
                             tick := s.tickTime ((fu.openFrames.head?.map FrameSlots.frame).getD n)
                             groups := ((maskInputs fu.mask).filter s.inEn).foldl (fun (w : Word) i => w ||| (1#32 <<< (i / 8))) 0
                             epoch := (s.cal.inForce.map Bank.epoch).getD 0
                             sealNo := if s.vaultOk then s.sealNo else 0xFFFFFFFF#32
                             pos := if s.vaultOk then s.rd Reg.VT_SEALPOS else 0xFFFFFFFF#32, entry := none }
          let (e, s) := s.absorb 1 (f % 256) (Block.bytes s.hubAddr b)
          let s := s.modFurrow f (fun fu => { fu with openFrames := [], gapRun := true, blocks := fu.blocks ++ [{ b with entry := e }] })
          let s := ({ s with vt := { s.vt with gaps := s.vt.gaps + cnt } }).incSat Reg.HI_GAPCNT cnt
          let s := s.setFlag Reg.HI_STAT Fld.HI_STAT_gap true
          if fu.gapRun then s else s.raiseF 4 52 (f % 256) 0 0 (BitVec.ofNat 64 b.first)
        else s
      State.gapFrames s f k (n + 1)

/-- A SAMPLE furrow of the retired hub is adopted (R415), if the window still holds its blocks (R38). DESIGN CHOICE (log 89): one
that it does not hold is not adopted. -/
def State.adoptSample (s : State) (x : SampleTake) : State :=
  let f := 256 + x.furrow.index.toNat
  let last := x.lastFrame.toNat
  let fu : Furrow := { adopted .sample (RingRead.furrow x.furrow) with frames := x.frames.toNat, mask := x.mask
                                                                       from? := some (max last s.frameNo) }
  let c := s.setFurrow f fu
  if !c.pended.costOk then s
  else State.gapFrames (c.wr Reg.FR_BUDGET (word c.pended.windowCost)) f (s.frameNo - last) (last + 1)

/-- The SAMPLE furrows of a partner that is absent from the ring, if SV_TWCFG.take_smp asks for them. -/
def State.adoptSamples (s : State) (samples : List SampleTake) : State :=
  if s.flag Reg.SV_TWCFG Fld.SV_TWCFG_take_smp && s.sv.twin.partnerGone then samples.foldl State.adoptSample s else s

/-- The SETPOINT furrows of the retired hub, as their completion rings stand; those the snapshot named beside (R414). -/
def State.adoptSetpoints (s : State) (reads : List RingRead) : State :=
  let rings := reads.map RingRead.furrow
  let others := s.sv.twin.partnerFurrows.filter (fun x => !rings.any (fun y => y.index == x.index))
  (rings ++ others).foldl (fun s x => s.setFurrow (256 + x.index.toNat) (adopted .setpoint x)) s

/-- ILK_CLAIM: ILK_I has been low for 2 µs; the active claims, and a hub that takes over completes its fail-over (R410, R414). -/
def ilkClaim (rings : List RingRead) (samples : List SampleTake) (db : Word64) (s : State) : State :=
  if !s.isTwin || !s.inRun || s.role != 1 || s.sv.ilkI || s.sv.ilkO then s
  else
    let s := { s with sv := { s.sv with ilkO := true } }
    let s := s.modTwin (fun t => { t with claimAt := s.now, gap := none })
    let s := { s with sv := { s.sv with oen := s.oenAllowed } }
    if !s.sv.twin.failing then s
    else
      let s := s.modTwin (fun t => { t with failing := false, tookOver := true, partnerDb := db })
      let s := (s.adoptSetpoints rings).adoptSamples samples
      let s := s.setFlag Reg.SV_TWSTAT Fld.SV_TWSTAT_failover true
      s.raise 37 s.sv.twin.partnerAddr 0
def execIlkClaim (rings : List RingRead) (samples : List SampleTake) (db : Word64) (s : State) : Host.Outcome State Fault Refusal :=
  fin (ilkClaim rings samples db s)

/-- HUB_LEFT: at the head, R321; at a hub of a twin pair whose partner has gone, R415. -/
def hubLeft (addr : BitVec 6) (samples : List SampleTake) (s : State) : State :=
  let s := s.hubLeaves addr
  if s.isTwin && addr.toNat = s.sv.twin.partnerAddr then
    let s := s.modTwin (fun t => { t with partnerGone := true })
    if s.inRun && s.role = 1 && !s.pReady && s.sv.twin.tookOver then s.adoptSamples samples else s
  else s
def execHubLeft (addr : BitVec 6) (samples : List SampleTake) (s : State) : Host.Outcome State Fault Refusal :=
  fin (hubLeft addr samples s)

/-! ## Relayed setpoints and release (R398, R413) -/

/-- SETPOINT_RELAY: the standby queues the setpoint and acknowledges it. -/
def setpointRelay (f : Byte) (seq : Word) (loop : BitVec 5) (frame val : Word64) (s : State) : State :=
  if !s.inRun || (s.role != 2 && s.role != 4) then s
  else
    let q : QSet := { furrow := 256 + f.toNat, seq := seq, loop := loop.toNat, frame := frame.toNat, value := val, acked := true }
    let s := ({ s with ce := { s.ce with queue := s.ce.queue ++ [q] } }).noteQueueSp
    s.sendTwin 0x12 [f.toNat, seq.toNat]
def execSetpointRelay (f : Byte) (seq : Word) (loop : BitVec 5) (frame : Word64) (val : Word64) (s : State) :
    Host.Outcome State Fault Refusal := fin (setpointRelay f seq loop frame val s)

/-- RELAY_ACKNOWLEDGEMENT. -/
def relayAcknowledgement (f : Byte) (seq : Word) (s : State) : State :=
  { s with ce := { s.ce with queue := s.ce.queue.map (fun q : QSet =>
      if q.furrow % 256 = f.toNat && q.seq = seq then { q with acked := true } else q) } }
def execRelayAcknowledgement (f : Byte) (seq : Word) (s : State) : Host.Outcome State Fault Refusal :=
  fin (relayAcknowledgement f seq s)

/-- TWIN_RELEASE: a ready standby releases at the active's tick, and a joining hub's loops restart with the active's (R416). -/
def twinRelease (tick : Word64) (s : State) : State :=
  if s.inRun && ((s.role = 2 && s.sv.safe) || (s.role = 4 && s.sv.twin.activeSafe)) && decide (s.frameNo < tick.toNat) then { s with sv := { s.sv with releasePend := true } } else s
def execTwinRelease (tick : Word64) (s : State) : Host.Outcome State Fault Refusal := fin (twinRelease tick s)

/-! ## Rejoin (R416) -/

/-- What the snapshot of an active carries (R416, step 3): the loop states with their setpoints, the setpoint queue, the SETPOINT
furrows, the doorbell area, SV_TWEPOCH, the configuration hash and the start tick; with the loop states whether safe state freezes
them (DESIGN CHOICE, log 89). -/
def State.snapValues (s : State) : List Nat :=
  s.enabledLoops.flatMap (fun l =>
    let x := s.loop l
    [l, x.integ.toNat, x.dfilt.toNat, x.pvPrev.toNat, (s.loopU l).toNat, b2n x.setpoint.isSome, (x.setpoint.getD 0).toNat, b2n x.started]
      ++ x.sections.flatMap (fun e => [e.1.toNat, e.2.toNat]))
  ++ s.ce.queue.flatMap (fun q => [q.furrow % 256, q.seq.toNat, q.loop, q.frame, q.value.toNat])
  ++ (s.hi.furrows.filter (fun (e : Nat × Furrow) => e.2.kind == .setpoint)).flatMap (fun (e : Nat × Furrow) =>
      [e.1 % 256, e.2.handle.toNat, e.2.descRing.toNat, e.2.cplRing.toNat, e.2.lsize, e.2.vector, (e.2.nextPost - 1).toNat])
  ++ [(s.rd64 Reg.HI_DB_LO).toNat, s.rdN Reg.SV_TWEPOCH] ++ (List.range 6).map (fun i => ofLe (slice s.twinHash (8 * i) 8))
  ++ [s.sv.twin.joinAt.getD 0, b2n s.sv.safe]

/-- REJOIN: the active sends its snapshot; the start tick it names is free (log 2). -/
def rejoin (s : State) : State :=
  if !(s.isTwin && s.inRun && s.role == 1) then s.accErr true Reg.SV_CMD
  else
    let (w, s) := s.draw64
    let s := s.modTwin (fun t => { t with snapshotSent := true, agreeRun := 0, joinAt := some (s.frameNo + 1 + w.toNat % 65536), compared := true })
    s.sendTwin 0x14 s.snapValues
def execRejoin (s : State) : Host.Outcome State Fault Refusal := fin (rejoin s)

/-- One loop of a snapshot. -/
def State.snapLoop (s : State) (x : SnapLoop) : State :=
  let l := x.loop.toNat
  let s := s.modLoop l (fun y => { y with started := x.started, integ := x.integ, dfilt := x.dfilt, pvPrev := x.pvPrev
                                          sections := x.sections, setpoint := x.setpoint, restart := false })
  let s := s.setFlag (Reg.CE_LSTAT l) Fld.CE_LSTAT_started x.started
  let s := match x.setpoint with | some v => s.wr64 (Reg.CE_LSP_LO l) v | none => s
  s.setLoopU l x.out

/-- SNAPSHOT at a joining hub: checked, then taken over. -/
def snapshot (snap : SnapshotIn) (s : State) : State :=
  if !s.inRun || s.role != 4 then s
  else
    let epoch := (s.cal.inForce.map Bank.epoch).getD 0
    if snap.epoch != 0 && epoch != snap.epoch then s.fput Reg.SV_TWSTAT Fld.SV_TWSTAT_abort 1
    else if s.twinHash != snap.config then s.fput Reg.SV_TWSTAT Fld.SV_TWSTAT_abort 2
    else
      let s := (s.fput Reg.SV_TWSTAT Fld.SV_TWSTAT_abort 0).clearSetpoints.dropStaging
      let s := snap.loops.foldl State.snapLoop s
      let q := snap.queue.map (fun x => ({ furrow := 256 + x.furrow.toNat, seq := x.seq, loop := x.loop.toNat, frame := x.frame.toNat
                                           value := x.value, acked := true } : QSet))
      let s := ({ s with ce := { s.ce with queue := q } }).noteQueueSp
      s.modTwin (fun t => { t with joinAt := some snap.start.toNat, agreeRun := 0, compared := true, activeSafe := snap.safe, partnerFurrows := snap.furrows
                                   partnerDb := snap.doorbell })
def execSnapshot (snap : SnapshotIn) (s : State) : Host.Outcome State Fault Refusal := fin (snapshot snap s)

/-- TWIN_RESYNC_DONE: after `agree` matched frames the joining hub is a ready standby. It leaves safe state where no cause
but start stands and the active is not in safe state. -/
def twinResyncDone (s : State) : State :=
  let enough := decide (s.fget Reg.SV_TWCFG Fld.SV_TWCFG_agree ≤ s.sv.twin.agreeRun) && s.sv.twin.joinAt.isSome
  if !s.inRun || !enough then s
  else if s.role = 4 then
    let s := ((s.setRole 2).wr Reg.SV_CAUSE (s.rd Reg.SV_CAUSE &&& ~~~2#32)).dropStaging
    let s := s.modTwin (fun t => { t with joinAt := none })
    let s := if s.rd Reg.SV_CAUSE = 0 && !s.sv.twin.activeSafe then { s with sv := { s.sv with safe := false } } else s
    s.raise 38 s.sv.twin.partnerAddr 0
  else if s.role = 1 && s.sv.twin.snapshotSent then
    let s := (s.setPReady true).modTwin (fun t => { t with joinAt := none, snapshotSent := false })
    s.raise 38 s.sv.twin.partnerAddr 0
  else s
def execTwinResyncDone (s : State) : Host.Outcome State Fault Refusal := fin (twinResyncDone s)

/-- REJOIN_TIMEOUT: no snapshot came in time; the hub stays joining. -/
def rejoinTimeout (s : State) : State :=
  if s.inRun && s.role = 4 && s.sv.twin.joinAt.isNone then s.fput Reg.SV_TWSTAT Fld.SV_TWSTAT_abort 4 else s
def execRejoinTimeout (s : State) : Host.Outcome State Fault Refusal := fin (rejoinTimeout s)

end Sys2Proof.Machine
end

