-- ==== Sys2Proof/Machine/Frame.lean ====
section
/-! DEFINITION. The frame scheduler (chapter 2): ticks, the steps of the processing window, overruns, time steps, the start of
acquisition and the end of Run (R30 to R49, R189, R397, R398, R476).  A window is one command: TICK carries the interval's
modulator words and the cycles of its steps. -/

namespace Sys2Proof.Machine

/-! ## Configuration changes at a tick (R88, R130, R132) -/

/-- The tests of an input start anew: of IN_STAT only the latches stay (R77, R79). -/
def State.restartTests (s : State) (n : Nat) : State := s.wr (Reg.IN_STAT n) (s.rd (Reg.IN_STAT n) &&& 0xC000#32)

/-- The configuration of an input changes from that of `old` at tick `c`: the counts of *Invalid frames after a change*, of which
the latest end stands (R132, R133). -/
def State.inputChanged (s old : State) (n c : Nat) : State :=
  let count := fun (s : State) (k : Nat) => s.settleFrom n (c + 1) k
  let l := s.settle n
  let s := if s.inEn n == old.inEn n then s
    else if s.inEn n then
      let t := s.tickTime c
      count ((s.modIn n (fun x => { x.restart with value := 0, status := 0, sense := s.senseFrom n t })).restartTests n) (l + 2)
    else (s.modIn n InSt.restart).restartTests n
  let s := if s.inRange n != old.inRange n then count s (l + 2) else s
  let s := if s.inMode n != old.inMode n then count (s.modIn n (fun x => { x with window := none, tripRun := 0, compl := false })) (l + 2) else s
  let s := if s.inResp n != old.inResp n then count (s.modIn n (fun x => { x with hist := [] })) l else s
  let s := if s.inAmp n != old.inAmp n then count s (l + 1) else s
  let s := if s.inK n != old.inK n || s.inGuard n != old.inGuard n then count s (l + 1) else s
  let mag := fun (t : State) => t.fget (Reg.IN_CFG n) Fld.IN_CFG_pull_mag
  let s := if headland n && (s.inPull n != old.inPull n || mag s != mag old) then count s (l + 1) else s
  if s.inRefEn n && (!old.inRefEn n || s.inRef n != old.inRef n) then count s (s.settle (s.inRef n)) else s

/-- IN_LEAD, which acts after the response (R149). -/
def isLeadReg (a : Nat) : Bool := decide (Reg.IN_CFG 0 ≤ a) && decide (a < Reg.IN_CFG 0 + 0x2000) && a % 0x20 == 0x10

/-- Accepted writes to IN_LEAD take effect at the tick entry, and so in the frame whose window opens (R88, R149). -/
def State.applyLeads (s : State) : State :=
  let now := s.fe.pend.filter (fun p => isLeadReg p.1)
  let later := s.fe.pend.filter (fun p => !isLeadReg p.1)
  now.foldl (fun (s : State) p => s.wr p.1 p.2) { s with fe := { s.fe with pend := later } }

/-- The accepted writes to inputs and dies take effect at tick `c`: for the interval that it opens, once the frame that it ends has
been reduced (R85, R88). -/
def State.applyInputs (s : State) (c : Nat) : State :=
  let old := s
  let s := s.fe.pend.foldl (fun (s : State) p => s.wr p.1 p.2) { s with fe := { s.fe with pend := [] } }
  let changed := (List.range 256).filter (fun n => old.fe.pend.any (fun p => decide (Reg.IN_CFG n ≤ p.1) && decide (p.1 < Reg.IN_CFG n + 0x20)))
  let s := changed.foldl (fun s n => s.inputChanged old n c) s
  (s.enabledInputs.filter (fun n => s.dieEn (n / 128) && !old.dieEn (n / 128))).foldl
    (fun s n => s.settleFrom n (c + 1) (s.settle n + 2)) s

/-! ## A step of corrected time in Run (R189) -/

/-- Ticks that a step passes over: those within a forward jump. -/
def StepPlan.passed (p : StepPlan) (period : Int) : Nat := if p.delta < 0 then 0 else (p.delta / period).toNat

/-- The announced step takes effect at its tick, which has come: the ticks in the jump are skipped, or the frame after it is
stretched; plots end; the modulator clock must lock anew. -/
def State.applyStep (s : State) : State :=
  match s.tb.step with
  | none => s
  | some p =>
    if !(s.inRun && s.running && decide (p.tick < s.fr.nextTick)) then s
    else
      let s := ({ s with tb := { s.tb with step := none } }).stepNow p.delta p.cause
      let k := p.passed s.periodU
      let s := if p.delta < 0 then s.raiseD 1 0 1 0 (BitVec.ofInt 64 (openDiv (-p.delta) 65536))
        else s.raiseD 1 0 0 0 (BitVec.ofNat 64 k)
      let s := s.slipUnits.pllUnlock
      let next := s.fr.nextTick + k
      { s with fe := { s.fe with pllStep := true }
               fr := { s.fr with stretch := if p.delta < 0 then ((-p.delta + wordU - 1) / wordU).toNat else 0
                                 skipped := s.fr.skipped ++ (List.range k).map (fun i => s.fr.nextTick + i), nextTick := next }
               pw := { s.pw with lastTick := s.pw.lastTick.map (fun l => max l next) } }

def timeStepApply (s : State) : State := s.applyStep
def execTimeStepApply (s : State) : Host.Outcome State Fault Refusal := fin (timeStepApply s)

/-! ## What the supervisor does at a tick (R43, R398) -/

/-- An accepted release takes effect: SAFE_N is let go and the loops restart; the enables follow at the next tick. On a joining hub
only the loops restart, with those of its active (R416). -/
def State.releaseTick (s : State) : State :=
  if !s.sv.releasePend then s
  else
    let s := { s with sv := { s.sv with releasePend := false } }
    if s.role == 4 then (s.modTwin (fun t => { t with activeSafe := false })).restartFromSafe
    else if !(s.inRun && s.sv.safe && s.rd Reg.SV_CAUSE == 0 && s.permsHold && (!s.isTwin || s.role == 1 || s.role == 2)) then s
    else
      let s := { s with sv := { s.sv with safe := false, checkDue := true, raiseDue := true } }
      (s.restartFromSafe.pullSafeN false).setFlag Reg.SV_FIRST Fld.SV_FIRST_valid false

/-- The enables that wait rise at the tick after the release, once SAFE_N has been read high and while Run is not ending. -/
def State.raiseEnables (s : State) : State :=
  if s.sv.raiseDue && !s.sv.checkDue && s.pw.lastTick.isNone then
    { s with sv := { s.sv with raiseDue := false, oen := s.oenAllowed } }
  else s

/-- A heartbeat missing at two consecutive ticks latches cause heartbeat. -/
def State.heartbeatTick (s : State) : State :=
  let c := if s.fr.hbPosted then 0 else s.fr.hbMissing + 1
  let s := { s with fr := { s.fr with hbMissing := c } }
  if 2 ≤ c then s.latchCause 2 else s

def State.supervisorTick (s : State) : State := s.raiseEnables.heartbeatTick.releaseTick

/-! ## Seal and deliver (R34, R47, R163, R285) -/

/-- The sample furrows take frame `n`: the slots of their inputs, with the frame's flag nibble. -/
def State.pushFrames (s : State) (n : Nat) (nibble : BitVec 4) : State :=
  s.hi.furrows.foldl (fun s e =>
    let fu := e.2
    if fu.kind == .sample && fu.from?.any (fun c => decide (c < n)) then
      let ins := (maskInputs fu.mask).filter (fun i => s.fe.slotted.contains i)
      let fs : FrameSlots := { frame := n, nibble := nibble, values := ins.map (fun i => (s.inSt i).value)
                               status := ins.map (fun i => (s.inSt i).status) }
      s.modFurrow e.1 (fun fu => { fu with openFrames := fu.openFrames ++ [fs] })
    else s) s

/-- The seal step of frame `n`. -/
def State.sealStep (s : State) (n : Nat) (nibble : BitVec 4) (last : Bool) (ecc : List WindowEcc) : State :=
  let cal := s.vt.calClose
  let s := s.pushFrames n nibble
  let s := if nibble.getLsbD 0 then { s with vt := { s.vt with overruns := s.vt.overruns + 1 } } else s
  let s := s.sealFrame n
  let s := (s.closeBlocks n (cal || last)).sealSegments n ecc
  let s := s.sealClose n cal last
  if cal || last then ({ s with vt := { s.vt with calClose := false } }).calSwap else s

/-- The deliver step. -/
def State.deliverFrame (s : State) (ecc : List WindowEcc) : State := (s.deliverStep ecc).postSetpoints

/-- Both steps. -/
def State.sealDeliver (s : State) (n : Nat) (nibble : BitVec 4) (last : Bool) (ecc : List WindowEcc) : State :=
  (s.sealStep n nibble last ecc).deliverFrame ecc

/-! ## Overrun (R40 to R42) -/

/-- Cycles of a window of one frame period (FR_AVAIL). -/
def State.available (s : State) : Nat := s.m * 25000

/-- Cycles from tick `n` to the next tick that is issued: a step of corrected time at tick `n` moves it (R40, R189). -/
def State.windowCycles (s : State) (n : Nat) : Nat :=
  match s.tb.step with
  | some p =>
    if p.tick ≤ n then ((p.passed s.periodU * s.periodU + s.periodU - p.delta) * 4 / 655360).toNat else s.available
  | none => s.available

/-- Cycles of step `i` of a window. -/
def stepCycles (t : TickIn) (i : Nat) : Nat := t.cycles.getD i 0

/-- The steps of a window cut short after `left` cycles. -/
def cutCycles : Nat → List Nat → List Nat
  | _, [] => []
  | left, c :: cs => min left c :: cutCycles (left - c) cs

/-- The window of frame `n` is judged: what it overruns, if it does. The last frame of Run has no tick after it. -/
def State.overrunOf (s : State) (n : Nat) (inp : TickIn) (last : Bool) : Option Overrun :=
  let c0 := (s.fr.overrun.map Overrun.carry).getD 0
  let av := s.windowCycles n
  let upTo := c0 + stepCycles inp 0 + stepCycles inp 1 + stepCycles inp 2 + stepCycles inp 3
  let total := upTo + stepCycles inp 4 + stepCycles inp 5
  if last then none
  else if av < upTo then
    some { frame := n, cut := true, carry := (c0 - av) + stepCycles inp 4 + stepCycles inp 5
           cycles := cutCycles (av - c0) (inp.cycles.take 4) ++ [stepCycles inp 4, stepCycles inp 5] }
  else if av < total then some { frame := n, cut := false, carry := total - av, cycles := inp.cycles }
  else none

/-- What a window begins with: the late tail of a cut frame, or what is left of the seal and deliver steps of one that was late. -/
def Overrun.left (o : Overrun) : List (Nat × Nat) :=
  if o.cut then [(7, o.carry)]
  else [(5, o.carry - o.cycles.getD 5 0), (6, min o.carry (o.cycles.getD 5 0))]

/-- The window opens: its work in order, by the phase codes of FR_STAT. -/
def State.openWindow (s : State) (inp : TickIn) : State :=
  let before := (s.fr.overrun.map Overrun.left).getD []
  { s with fr := { s.fr with opened := s.tb.cnt, work := before ++ (List.range 6).map (fun i => (i + 1, stepCycles inp i)) } }

/-- The phase in which so many cycles of work end. -/
def phaseAt : Nat → List (Nat × Nat) → Nat
  | _, [] => 0
  | e, (p, c) :: rest => if e < c then p else phaseAt (e - c) rest

/-- FR_STAT.phase: the step that the present moment of the window falls into; the cycles are of 400 MHz and the counter of 500 MHz
(R34, R49). -/
def State.phase (s : State) : Nat := if s.running then phaseAt ((s.tb.cnt - s.fr.opened).toNat * 4 / 5) s.fr.work else 0

/-- FR_PHASECYC and FR_PEAK of a completed window (R39, R49). -/
def State.noteCycles (s : State) (cs : List Nat) : State :=
  let s := (List.range 6).foldl (fun s i => s.wr (Reg.FR_PHASECYC i) (word (cs.getD i 0))) s
  s.wr Reg.FR_PEAK (word (max (s.rdN Reg.FR_PEAK) (cs.foldl (· + ·) 0)))

/-- The next tick has come upon an overrun: it is counted and raised. -/
def State.noteOverrun (s : State) : State :=
  match s.fr.overrun with
  | none => s
  | some o =>
    let s := if o.cut then s.setFlag Reg.FR_STAT Fld.FR_STAT_cut true else s.setFlag Reg.FR_STAT Fld.FR_STAT_late true
    let s := (s.incSat Reg.FR_OVRCNT 1).wr64 Reg.FR_LASTOVR_LO (BitVec.ofNat 64 o.frame)
    s.raiseD 0 0 (if o.cut then 0 else 1) 0 (BitVec.ofNat 64 o.frame)

/-- The errors that the steps of an earlier frame meet in a window, or those that its own steps meet (R201). -/
def eccOf (ecc : List WindowEcc) (n : Option Nat) : List WindowEcc := ecc.filter (fun e => e.late.map BitVec.toNat == n)

/-- The late tail of a cut frame. -/
def State.lateTail (s : State) (ecc : List WindowEcc) : State :=
  match s.fr.overrun with
  | some o => if o.cut then ((s.sealDeliver o.frame 1#4 false (eccOf ecc (some o.frame))).noteCycles o.cycles).noteSettling else s
  | none => s

/-! ## The window -/

/-- A frame that a time step skipped (R189): no modulator words, FLT, no tick entry and no control step. -/
def State.skippedFrame (ecc : List WindowEcc) (s : State) (n : Nat) : State :=
  let ins := s.enabledInputs
  let s := s.ageLeads.staleLeads
  let s := ins.foldl (fun s i => s.modIn i (fun x => { x with hist := (0 :: x.hist).take (s.settle i) })) s
  let fr : InFrame := { x := 0, blk := false, ovl := none, ovr := false, rail := false, opn := false, flt := true }
  let (slots, s) := s.reduce n (ins.map (fun i => (i, fr))) (fun _ => true)
  (s.frameRows n slots).sealDeliver n 2#4 false (eccOf ecc (some n))

/-- Tick entry of frame `n` (R34, R46, R163, R272, R380): accepted copies, setpoints and a new set's timing trims take effect, the
configuration is taken. -/
def State.tickEntry (s : State) (n : Nat) : State :=
  let s := (((s.applyPending).dueSetpoints n).snapConfig.applyLeads).latchTrims
  let hi := s.hi.furrows.map (fun e =>
    if e.2.kind == .sample && e.2.from?.isNone then (e.1, { e.2 with from? := some n }) else e)
  { s with hi := { s.hi with furrows := hi } }

/-- Safe-state causes of the front end, latched at the tick that ends the first marked frame (R395): a failed link, a die
disabled through FE_CTL (R441), an unlocked modulator clock. -/
def State.feCauses (s : State) : State :=
  let s := if s.flag Reg.SV_CTL Fld.SV_CTL_fe_react && (s.fe.failA || s.fe.failB || !s.dieEn 0 || !s.dieEn 1) then s.latchCause 12 else s
  if s.flag Reg.SV_CTL Fld.SV_CTL_pll_react && s.fe.pllFlt then s.latchCause 13 else s

/-- The control engine computes frame `n`: not while a twin pair holds its outputs (R407), nor on a joining hub before its
start tick (R416). -/
def State.computes (s : State) (n : Nat) : Bool :=
  !s.sv.twin.held && (s.role != 4 || s.sv.twin.joinAt.any (fun j => decide (j ≤ n)))

/-- The control step, with the exchange between twins; a cut one leaves nothing (R43, R241). -/
def State.controlPart (s : State) (n : Nat) (slots : List Slot) (cut vectorsFail : Bool) : State :=
  let s := if cut then (s.cutControl.twinNotes n).twinReport n vectorsFail
    else ((if s.computes n then s.controlStep n slots else s).twinNotes n).twinAfter n vectorsFail
  { s with fr := { s.fr with hbPosted := !cut } }

/-- The groups whose reduce has completed when the window is cut (R41). -/
def State.groupsDone (s : State) (n : Nat) (inp : TickIn) (cut : Bool) (g : Nat) : Bool :=
  let c0 := (s.fr.overrun.map Overrun.carry).getD 0
  let before := c0 + stepCycles inp 0 + stepCycles inp 1
  !cut || decide (before + stepCycles inp 2 ≤ s.windowCycles n) || (decide (before < s.windowCycles n) && inp.reduced.getLsbD g)

/-- The window of frame `n`. -/
def State.window (s : State) (n : Nat) (inp : TickIn) (last : Bool) : State :=
  let ovr := s.overrunOf n inp last
  let cut := ovr.any Overrun.cut
  let done := s.groupsDone n inp cut
  let s := (s.openWindow inp).lateTail inp.ecc
  let s := (s.frameConds n).tickEntry n
  let skipped := s.fr.skipped
  let s := skipped.foldl (State.skippedFrame inp.ecc) { s with fr := { s.fr with skipped := [], overrun := ovr } }
  let (frs, s) := s.acquire n inp.words
  let (slots, s) := s.reduce n frs done
  let s := s.controlPart n slots cut inp.vectorsFail
  let s := (s.frameRows n slots).applyInputs n
  if cut then s
  else
    let s := s.sealDeliver n (if ovr.isSome then 1#4 else 0#4) last (eccOf inp.ecc none)
    (s.noteCycles inp.cycles).noteSettling

/-! ## The end of Run (R476, R469) -/

/-- Queued setpoints end, in the order of submission (R476, step 4). -/
def State.abortSetpoints (s : State) : State :=
  let q := s.ce.queue
  let s := { s with ce := { s.ce with queue := [] } }
  (q.foldl (fun s x => s.endSetpoint x .abortedRecovery) s).noteQueueSp.postSetpoints

/-- A refusal that no write of Run has met is forgotten. -/
def State.forgetRefusals (s : State) : State :=
  match s.furrowOf? .event with
  | some f => s.modFurrow f (fun fu => { fu with items := fu.items.map (fun it => { it with refused := none }) })
  | none => s

/-- Steps 4 and 5 of R476: units stopped, setpoints aborted, outputs off, accepted changes in place, Idle. -/
def State.endRun (s : State) : State :=
  let s := s.stopUnits.abortSetpoints
  let s := s.outputsOff.spTick
  let s := (s.applyLeads.applyInputs 0).endLoops
  let s := s.enabledInputs.foldl (fun s n => s.setFlag (Reg.IN_STAT n) Fld.IN_STAT_active false) s
  let s := ({ s with vt := { s.vt with calClose := false } }).calSwap.latchTrims
  let s := s.wr Reg.FR_STAT (s.rd Reg.FR_STAT &&& 6#32)
  let s := if s.sv.pulls then s.pullSafeN false else s
  let s := ((s.twinLeaves.setRole 0).setPReady false).modTwin TwinSt.ended
  let s := { s with sv := { s.sv with safe := false, oen := 0, ilkO := false, releasePend := false, checkDue := false, raiseDue := false }
                    pw := { s.pw with power := .idle, waiting := false, lastTick := none }
                    fr := { s.fr with overrun := none, skipped := [], stretch := 0, hbMissing := 0, endReset := 0 }
                    gl := { s.gl with timers := [] }
                    tb := { s.tb with step := none } }
  s.glPend.forgetRefusals.deliverAll.sidePump

/-- Run is to end after the first tick at least 62.5 µs from now (R476, steps 1 and 2); where no frame is to come, at once. -/
def State.stopRun (s : State) (reset : Nat) : State :=
  if !s.inRun then s
  else
    let s := { s with sv := { s.sv with oen := 0, releasePend := false, raiseDue := false }
                      fr := { s.fr with endReset := if reset = 0 then s.fr.endReset else reset } }
    if s.pw.lastTick.isSome then s
    else
      let t := s.now + slotU - (s.fr.epoch : Int) * secU
      let n := ((t + s.periodU - 1) / s.periodU).toNat
      if s.pw.waiting || n ≤ s.fr.tickS then s.endRun
      else { s with pw := { s.pw with lastTick := some (if s.running then max n s.fr.nextTick else n) } }

/-! ## TICK and ACQUISITION_START -/

/-- TICK of the next frame. -/
def tick (inp : TickIn) (s : State) : State :=
  if !(s.inRun && s.running) then s
  else
    let s := s.applyStep
    let n := s.fr.nextTick
    let last := s.pw.lastTick.any (fun l => decide (l ≤ n))
    let s := s.advanceTo (s.tickTime n)
    let s := ({ s with fr := { s.fr with nextTick := n + 1 } }).wr64 Reg.FR_FRAME_LO (BitVec.ofNat 64 n)
    let s := s.noteOverrun
    let s := s.outputTick.spTick.supervisorTick.feCauses
    let s := s.window n inp last
    if last then s.endRun else s
def execTick (inp : TickIn) (s : State) : Host.Outcome State Fault Refusal := fin (tick inp s)

/-- The words that a running headland sense has taken before time `t`, of an interval that ends there. -/
def State.senseBefore (s : State) (n : Nat) (t : Int) : List WordSpan :=
  match s.gl.running with
  | some c =>
    if s.sensing n && decide (c.start < t) then
      [{ first := s.wordsPerFrame - ((t - c.start) / wordU).toNat, last := s.wordsPerFrame - 1, upper := false }]
    else []
  | none => []

/-- What tick s begins (R33): the settle counts of every enabled input begin, the sample furrows deliver from the
first frame, the outputs carry their safe values (R397). -/
def State.acquisitionBegin (s : State) : State :=
  let n := s.fr.tickS
  let s := s.advanceTo (s.tickTime n)
  let s := s.setFlag Reg.FR_STAT Fld.FR_STAT_running true
  let s := (s.wr64 Reg.FR_FIRST_LO (BitVec.ofNat 64 (n + 1))).wr64 Reg.FR_FRAME_LO (BitVec.ofNat 64 n)
  let old := s
  let s := { s with fe := { s.fe with ins := s.fe.ins.map (fun (e : Nat × InSt) =>
    (e.1, { InSt.init with ovl := carrySpans e.2.ovl s.wordsPerFrame, ovlPrev := e.2.ovl
                           discPrev := s.inBlanks e.1 ++ s.senseBefore e.1 (s.tickTime n) })) } }
  let s := (s.applyLeads).applyInputs n
  let hi := s.hi.furrows.map (fun (e : Nat × Furrow) =>
    if e.2.kind == .sample then (e.1, { e.2 with from? := some n, openFrames := [] }) else e)
  let s := { s with fr := { s.fr with nextTick := n + 1, overrun := none, skipped := [], stretch := 0, hbMissing := 0, hbPosted := true }
                    fe := { s.fe with pllFlt := !s.pllLocked, failA := !s.dieLink 0, failB := !s.dieLink 1
                                      resetSeenA := s.fe.resetA, resetSeenB := s.fe.resetB }
                    gl := { s.gl with dropFrame := none }
                    hi := { s.hi with furrows := hi } }
  let t := s.tickTime n
  let s := s.enabledInputs.foldl (fun s i =>
    ((s.restartTests i).modIn i (fun x => { x with sense := s.senseFrom i t })).settleFrom i (n + 1) (s.settle i + 2)) s
  let s := { s with fe := { s.fe with blanks := s.fe.blanks.map (fun (e : Nat × BlankSt) =>
    (e.1, { e.2 with first := 0, spans := [], frames := 0 })) } }
  (if old.sv.safe then s.loadSafeOutputs else s).supervisorTick

/-- ACQUISITION_START: tick s has come (R33), and with it the frame conditions that name it (R210). -/
def acquisitionStart (s : State) : State :=
  if !s.inRun || s.running || s.pw.waiting then s else s.acquisitionBegin.frameConds s.fr.tickS
def execAcquisitionStart (s : State) : Host.Outcome State Fault Refusal := fin (acquisitionStart s)

/-! ## Counter clears (R49) -/

def frClrOvr (s : State) : State := (s.wr Reg.FR_OVRCNT 0).wr64 Reg.FR_LASTOVR_LO 0
def execFrClrOvr (s : State) : Host.Outcome State Fault Refusal := fin (frClrOvr s)

def frClrPeak (s : State) : State := s.wr Reg.FR_PEAK 0
def execFrClrPeak (s : State) : Host.Outcome State Fault Refusal := fin (frClrPeak s)

end Sys2Proof.Machine
end

