-- ==== Sys2Proof/Machine/View.lean ====
section
/-! DEFINITION. What a word of the setup space or of the mailbox holds when it is read: the stored word, or one formed from the
rest of the state (the register tables of every chapter; R7, R153, R471, R480, R487).  Multi-word values follow R8, which stands in
HostBus. -/

namespace Sys2Proof.Machine

/-! ## Reservations of the plot area (R209) -/

/-- A record of a unit that is not streaming. -/
def State.recordSize (s : State) (u : Nat) : Nat := ceilDiv (64 + (s.upre u + s.upost u) * s.rowLen u) 64 * 64

/-- What a unit in use reserves. -/
def State.reserves (s : State) (u : Nat) : Nat :=
  if !s.unitEn u then 0
  else if s.unitStream u then s.rdN (Reg.AQ_UFIFO u) * 1024
  else s.rdN (Reg.AQ_USLOTS u) * s.recordSize u

def State.plotRes (s : State) : Nat := ((List.range 8).map s.reserves).foldl (· + ·) 0
def State.slotRes (s : State) : Nat := ((List.range 8).map (fun u => s.rdN (Reg.AQ_USLOTS u))).foldl (· + ·) 0
def State.plotArea (s : State) : Nat := (32 - s.fget Reg.AQ_MEMCFG Fld.AQ_MEMCFG_backlog) * 1048576

/-- AQ_USTAT.free: free slots, or free FIFO space in KiB. -/
def State.unitSpace (s : State) (u : Nat) : Nat :=
  let x := s.unit u
  min 65535 (if s.unitStream u then (s.rdN (Reg.AQ_UFIFO u) * 1024 - x.fifo) / 1024 else s.rdN (Reg.AQ_USLOTS u) - x.usedSlots)

/-! ## The words that are formed -/

/-- Word `i` of a list of bytes. -/
def wordAt (bs : List Byte) (i : Nat) : Word := word (ofLe (slice bs (4 * i) 4))

/-- GLB: power state, straps, identity (R462, R471, R480). -/
def State.glbWord (s : State) (a : Nat) : Word :=
  if a = Reg.GLB_UCODE then word (s.vt.ucodeStored.toNat * 65536 + s.vt.ucodeActive.toNat)
  else if a = Reg.GLB_SERIAL_LO then lo32 s.pw.serial
  else if a = Reg.GLB_SERIAL_HI then hi32 s.pw.serial
  else if a = Reg.GLB_CTL then word (2 * b2n (s.pw.power == .hold) + b2n (s.pw.checking || s.inRun))
  else if a = Reg.GLB_STAT then
    BitField.put Fld.GLB_STAT_pstate (match s.pw.power with | .idle => 1 | .hold => 2 | .run => 3 | _ => 0) (s.rd a)
  else if a = Reg.GLB_STRAP then
    word (s.pw.io33.toNat * 256 + b2n s.pw.twinPri * 128 + b2n s.pw.headSel * 64 + s.pw.hubAddr.toNat)
  else s.rd a

/-- A PPS_IN edge was stamped in the last 1.5 s (R183, TB_STAT.pps_seen). -/
def State.ppsSeen (s : State) : Bool := s.tb.ppsLast.any (fun r => decide (rawOf s.tb.cnt.toNat 0 - r ≤ 3 * secU / 2))

/-- TB: the clocks (R172). -/
def State.tbWord (s : State) (a : Nat) : Word :=
  let now := timeParts s.now
  let off := openDiv s.tb.off (2 ^ 48)
  if a = Reg.TB_NOW_FRAC then now.frac.setWidth 32
  else if a = Reg.TB_NOW_NS then now.ns
  else if a = Reg.TB_NOW_SEC_LO then now.sec.setWidth 32
  else if a = Reg.TB_NOW_SEC_HI then (now.sec >>> 32).setWidth 32
  else if a = Reg.TB_NOW_RAW_FRAC then 0
  else if a = Reg.TB_NOW_RAW_LO then lo32 s.tb.cnt
  else if a = Reg.TB_NOW_RAW_HI then hi32 s.tb.cnt
  else if a = Reg.TB_OFF_FRAC then wordI (off % nsU)
  else if a = Reg.TB_OFF_LO then wordI (off / nsU)
  else if a = Reg.TB_OFF_HI then wordI (off / nsU / 2 ^ 32)
  else if a = Reg.TB_STAT then
    BitField.put Fld.TB_STAT_pps_seen (b2n s.ppsSeen) (BitField.put Fld.TB_STAT_time_port s.timePort (s.rd a))
  else if a = Reg.TB_SUM_HI then BitField.put Fld.TB_SUM_HI_src s.sumSrc (s.rd a)
  else s.rd a

/-- AQ: sizes and free space. -/
def State.aqWord (s : State) (a : Nat) : Word :=
  if a = Reg.AQ_PLOTAREA then word s.plotArea
  else if a = Reg.AQ_PLOTRES then word s.plotRes
  else if a = Reg.AQ_SLOTRES then word s.slotRes
  else match (List.range 8).find? (fun u => a == Reg.AQ_USTAT u) with
    | some u => BitField.put Fld.AQ_USTAT_free (s.unitSpace u) (s.rd a)
    | none => s.rd a

/-- HI: a member has no vectors and no link of its own (R487). -/
def State.hiWord (s : State) (a : Nat) : Word :=
  if a = Reg.HI_OPEN then word (s.hi.furrows.filter (fun e => decide (e.1 < 256))).length
  else if !s.pw.headSel && (decide (Reg.HI_MSIX_ALO 0 ≤ a) || a == Reg.HI_LINK) then 0
  else if a = Reg.HI_PBA_LO then lo32 s.hi.pba
  else if a = Reg.HI_PBA_HI then hi32 s.hi.pba
  else s.rd a

/-- VT: chain number and key_id. -/
def State.vtWord (s : State) (a : Nat) : Word :=
  let id := match s.vt.sealKey with
    | some k => keyId (publicKey k)
    | none => zeros 8
  if a = Reg.VT_CHAINNO then s.vt.chainNo
  else if a = Reg.VT_KEYID_LO then wordAt id 0
  else if a = Reg.VT_KEYID_HI then wordAt id 1
  else s.rd a

/-- CAL: the store's state over the mirror of the set in force (R153). -/
def State.calReg (s : State) (a : Nat) : Word :=
  let c := s.cal
  if a = Reg.CAL_STAT then
    word (2 ^ 31 * b2n c.commit.isSome + 2 ^ 30 * b2n c.staging.isSome + 2 ^ 24 * c.result
      + b2n (c.inForce.any Bank.origin) * 2 ^ 8 + b2n c.inForce.isNone * 4) ||| (s.rd a &&& 3#32)
  else if a = Reg.CAL_WRCNT then c.wrcnt
  else if a < 0x6F800 && (a < 0x60100 || 0x60150 ≤ a) then s.calWord (a - 0x60000)
  else if (regRow? a).isNone then 0
  else s.rd a

/-- EV_STAT: what is queued (R442). -/
def State.evWord (s : State) (a : Nat) : Word :=
  if a = Reg.EV_STAT then
    BitField.put Fld.EV_STAT_queued s.ev.queue.length (BitField.put Fld.EV_STAT_runs s.ev.runs.length (s.rd a))
  else s.rd a

/-- LN_ADDR shows HEAD_SEL; LN_MAP and TB_RINGRTT hold nothing on a member (R487). -/
def State.lnWord (s : State) (a : Nat) : Word :=
  if a = Reg.LN_ADDR then BitField.put Fld.LN_ADDR_head (b2n s.pw.headSel) (s.rd a) else s.rd a

/-- The mailbox: request buffer and response pages (R367). -/
def State.mbWord (s : State) (a : Nat) : Word :=
  let off := a - Reg.MB_CMD
  if off < 0x1000 then s.rd a
  else if off < 0x8000 then kgetD s.vt.req ((off - 0x1000) / 4) 0
  else if off < 0x10000 then
    let p := s.fget Reg.MB_PAGE Fld.MB_PAGE_page
    if p = 3 then 0 else wordAt s.vt.resp (p * 8192 + (off - 0x8000) / 4)
  else 0

/-- What the word at an address holds. -/
def State.hostWord (s : State) (a : Nat) : Word :=
  if 0x200000 ≤ a then s.mbWord a
  else if 0x60000 ≤ a && a < 0x70000 then s.calReg a
  else if (regRow? a).isNone then 0
  else if a < 0x1000 then s.glbWord a
  else if a < 0x2000 then s.tbWord a
  else if a = Reg.FR_AVAIL then word s.available
  else if a = Reg.FR_STAT then BitField.put Fld.FR_STAT_phase s.phase (s.rd a)
  else if a = Reg.DF_STAT then BitField.put Fld.DF_STAT_ft_count ((List.range 32).filter s.ftEn).length (s.rd a)
  else if a = Reg.FE_EXCBUD_A then word (s.pended.budgetSum 0)
  else if a = Reg.FE_EXCBUD_B then word (s.pended.budgetSum 1)
  else if 0x14200 ≤ a && a < 0x14240 then word (respInfo ((a - 0x14200) / 4) s.m)
  else if 0x18000 ≤ a && a < 0x20000 then s.aqWord a
  else if 0x20000 ≤ a && a < 0x28000 then s.ceRead a
  else if 0x28000 ≤ a && a < 0x30000 then s.hiWord a
  else if 0x30000 ≤ a && a < 0x38000 then s.lnWord a
  else if 0x40000 ≤ a && a < 0x48000 then s.vtWord a
  else if 0x48000 ≤ a && a < 0x50000 then s.svWord a
  else if 0x70000 ≤ a then s.evWord a
  else s.rd a

/-- The addresses of the upper words of the multi-word values in a stretch of the setup space. -/
def upperWords (lo hi : Nat) : List Nat :=
  (multiRows.filter (fun r => decide (lo ≤ r.base) && decide (r.base < hi))).flatMap (fun r =>
    (List.range r.n).flatMap (fun i => (List.range (r.words - 1)).map (fun w => r.base + i * r.s + 4 * (w + 1))))

/-- After a start or a reset of a window the shadow copies hold the upper words as they then stand (R8): those that differ from
their reset words are listed. -/
def State.fillShadow (s : State) (lo hi : Nat) : State :=
  let kept : KMap Word := s.shadow.filter (fun e => !(decide (lo ≤ e.1) && decide (e.1 < hi)))
  let sh := (upperWords lo hi).foldl (fun (m : KMap Word) a =>
    shadowPut m a (s.hostWord a)) kept
  { s with shadow := sh }

end Sys2Proof.Machine
end

