-- ==== Sys2Proof/Machine/Power.lean ====
section
/-! DEFINITION. Power states, start-up, resets, Hold and the checks of the measurement chain (R458 to R472, R485; R378, R387,
R430, R431, R438). -/

namespace Sys2Proof.Machine

/-! ## What survives (R472) -/

/-- The words of the registers in a set of addresses. -/
def State.keep (s : State) (p : Nat → Bool) : KMap Word := s.regs.filter (fun (e : Nat × Word) => p e.1)

/-- VT_SECCFG; seal number and position; the drain ledger; the fault trace and the first-fault record. -/
def isSeccfg (a : Nat) : Bool := a == Reg.VT_SECCFG
def isSealPos (a : Nat) : Bool := a == Reg.VT_SEALNO || a == Reg.VT_SEALPOS
def isLedger (a : Nat) : Bool := decide (Reg.GLB_LEDGER_LO 0 ≤ a) && decide (a < 0x1000)
def isTrace (a : Nat) : Bool :=
  a == Reg.EV_TRCNT || a == Reg.EV_TROVW || (decide (Reg.EV_FF 0 ≤ a) && decide (a ≤ Reg.EV_FF 7))

/-- A hub die without power or in reset: every volatile state is that of `State.reset`; straps, serial number, the calibration
store, the vault's stores and what the model itself counts stay.  `regs` are the registers that are kept. -/
def State.cleared (s : State) (regs : KMap Word) : State :=
  let z := State.reset
  { z with regs := regs
           pw := { z.pw with headSel := s.pw.headSel, twinPri := s.pw.twinPri, hubAddr := s.pw.hubAddr, io33 := s.pw.io33
                             serial := s.pw.serial, fallowValid := s.pw.fallowValid, perst := s.pw.perst, headD0 := s.pw.headD0 }
           cal := s.calInterrupt.cal
           vt := { s.vt with session := false, nonce := [], armed := none, lockout := false, ucode := none, req := [], resp := []
                             memberReq := none, mailTag := none, calClose := false }
           sv := { z.sv with ilkI := s.sv.ilkI }
           ev := { z.ev with trace := [] }
           rdata := s.rdata, out := s.out, freeCtr := s.freeCtr, pending := s.pending }

/-- The vault's memory beside the Fallow key memory goes with main power: the seal queue, unsigned records, notices and the
manifest of the open interval (DESIGN CHOICE, log 24). -/
def VtSt.unpowered (v : VtSt) : VtSt :=
  { v with queue := [], unsigned := [], waiting := [], parts := [], taken := [] }

/-- The Fallow key memory and the tamper log are lost (R389). -/
def VtSt.fallowLost (v : VtSt) : VtSt :=
  { v with chain := [], link := [], chainOpen := false, first := none, log := [], logCount := 0, second := 0, fallowTamper := 0
           overruns := 0, gaps := 0, extended := false }

/-! ## Starting (R465, R471) -/

/-- The trace entry of a hard reset (R438): source 0x80 plus the code of the Ferinel record. -/
def State.traceReset (s : State) (code : Nat) : State :=
  s.trace { src := 0x80 + code, hub := s.hubAddr, rflags := 0, occ := 0, time := s.now, obj := 0, cause := 0, aux8 := 0, data := 0 } true

/-- Logic leaves reset, up to the start of the hold-off pump at 0.1 ms, which lets SAFE_N go (R465, R468): stored microcode is activated (R365), GLB_RSTCAUSE names the cause, the restart after a RESET_N is traced
(R438; power-on and Fallow exit are no hard resets, and clear the trace), the die trims are due (R97). `code` is that of R471; a Fallow
exit has 6. -/
def State.leaveReset (s : State) (code pre : Nat) : State :=
  let hard := code == 2
  let code := if s.vt.ucodeStored != s.vt.ucodeActive then 5 else code
  let s := { s with vt := { s.vt with ucodeActive := s.vt.ucodeStored }
                    pw := { s.pw with power := .startUp, inReset := false }
                    fe := { s.fe with trimA := true, trimB := true } }
  let s := (s.wr Reg.GLB_RSTCAUSE (word (pre * 256 + code))).pullSafeN false
  if hard then s.traceReset code else s

/-- The straps and the bank classes are taken at power good (R459). -/
def State.sampleStraps (s : State) (st : Straps) : State :=
  { s with pw := { s.pw with headSel := st.headSel, twinPri := st.twinPri, hubAddr := st.hubAddr, io33 := st.io33, d0 := !st.headSel } }

/-- POWER_ON: power good with an invalid Fallow domain. -/
def powerOn (straps : Straps) (s : State) : State :=
  if !(s.pw.power == .off || s.pw.power == .fallow) then s
  else
    let s := s.cleared (s.keep isSeccfg)
    let s := { s with vt := s.vt.unpowered.fallowLost }
    (s.sampleStraps straps).leaveReset 1 0
def execPowerOn (straps : Straps) (s : State) : Host.Outcome State Fault Refusal := fin (powerOn straps s)

/-- FALLOW_EXIT: power good with a valid Fallow domain. -/
def fallowExit (x : FallowStart) (s : State) : State :=
  if !(s.pw.power == .fallow && s.pw.fallowValid) then s
  else
    let s := s.cleared (s.keep (fun a => isSeccfg a || isSealPos a))
    let s := ({ s with vt := { s.vt.unpowered with fallowFirst := true } }).fallowSeconds x.seconds
    (s.sampleStraps x.straps).leaveReset 6 0
def execFallowExit (start : FallowStart) (s : State) : Host.Outcome State Fault Refusal := fin (fallowExit start s)

/-- POWER_FAIL (R460, R461): every output low or off, a calibration commit interrupted; Fallow with a good VBAT, else Off. -/
def powerFail (vbatOk : Bool) (s : State) : State :=
  if !s.alive then s
  else
    let t := s.cleared (s.keep (fun a => isSeccfg a || isSealPos a))
    if vbatOk then { t with vt := t.vt.unpowered, pw := { t.pw with power := .fallow, fallowValid := true } }
    else { t with regs := s.keep isSeccfg, vt := t.vt.unpowered.fallowLost, pw := { t.pw with power := .off, fallowValid := false } }
def execPowerFail (vbatOk : Bool) (s : State) : Host.Outcome State Fault Refusal := fin (powerFail vbatOk s)

/-- VBAT_LOSS in Fallow destroys the key memory (R389). -/
def vbatLoss (s : State) : State :=
  if s.pw.power == .fallow then
    { s with regs := s.keep isSeccfg, vt := s.vt.fallowLost, pw := { s.pw with power := .off, fallowValid := false } }
  else s
def execVbatLoss (s : State) : Host.Outcome State Fault Refusal := fin (vbatLoss s)

/-- GLB_STAT.pstate at the instant of a reset. -/
def Power.code : Power → Nat
  | .idle => 1
  | .hold => 2
  | .run => 3
  | _ => 0

/-- RESET_N (R468): low, the dies are reset; the ledger, the trace, the first-fault record, the counter, the chain and the tamper
log stay (R472). Its release restarts the hub. -/
def resetN (release : Bool) (s : State) : State :=
  if !s.alive then s
  else if !release then
    if s.pw.inReset then s
    else
      let pre := Power.code s.pw.power
      let l := s.abandonLedger
      let ff := l.flag Reg.EV_STAT Fld.EV_STAT_ff_valid
      let t := l.cleared (l.keep (fun a => isSeccfg a || isSealPos a || isLedger a || isTrace a))
      let t := t.setFlag Reg.EV_STAT Fld.EV_STAT_ff_valid ff
      { t with ev := { t.ev with trace := s.ev.trace }, tb := { t.tb with cnt := s.tb.cnt }
               fr := { t.fr with endReset := pre }, pw := { t.pw with inReset := true, d0 := !s.pw.headSel } }
  else if s.pw.inReset then s.leaveReset 2 s.fr.endReset
  else s
def execResetN (release : Bool) (s : State) : Host.Outcome State Fault Refusal := fin (resetN release s)

/-- The vault at the end of its power-up self-tests, which have passed unless a failure has been reported (R378, R382 to R384): it
becomes operational, keyless where no seal key is stored, or stays in its error state without an identity key (R364); the interval cut short closes in a record that names the reset, or
a new chain starts (R370); a tamper event of the Fallow time is raised (R387). -/
def State.vaultStarts (s : State) : State :=
  let s := (s.newNonce).setFlag Reg.VT_STAT Fld.VT_STAT_owner s.vt.owner.isSome
  let s := s.noteQueue
  let s := if s.vaultState = 0 then
      s.fput Reg.VT_STAT Fld.VT_STAT_state
        (if !s.vt.identity then vtError else if s.vt.sealKey.isSome then vtOperational else vtKeyless)
    else s
  let cause := s.fget Reg.GLB_RSTCAUSE Fld.GLB_RSTCAUSE_cause
  let s := if !s.vaultOk then s
    else if s.vt.chainOpen then s.closeInterval flReset (if cause = 6 then 1 else cause) true
    else s.startChain
  if s.vt.fallowTamper = 0 then s
  else
    let bits := s.vt.fallowTamper
    let s := s.wr Reg.VT_TAMPER (s.rd Reg.VT_TAMPER ||| bits.setWidth 32)
    let s := (s.setFlag Reg.VT_STAT Fld.VT_STAT_tampered true).raise 57 0 bits.toNat
    { s with vt := { s.vt with tampered := true, fallowTamper := 0 } }

/-- START_UP_COMPLETE: each die has been trimmed or its link has not passed; the calibration set is loaded (R153), and the hub
is in Idle. From State.reset, which stands at time 0 of R465, SAFE_N is let go on the way. -/
def startUpComplete (s : State) : State :=
  if !(s.pw.power == .startUp) || s.pw.inReset || (s.fe.trimA && s.dieLink 0) || (s.fe.trimB && s.dieLink 1) then s
  else
    let s := { s with fe := { s.fe with trimA := false, trimB := false } }
    let s := (s.setFlag Reg.CV_STAT Fld.CV_STAT_trim_busy false).vaultStarts.calStart
    let s := { s with pw := { s.pw with power := .idle, fallowValid := true }, fr := { s.fr with endReset := 0 } }
    ((s.setFlag Reg.HI_STAT Fld.HI_STAT_d0 (if s.pw.headSel then s.pw.d0 else s.pw.headD0)).pullSafeN false).fillShadow 0 0x80000
def execStartUpComplete (s : State) : Host.Outcome State Fault Refusal := fin (startUpComplete s)

/-! ## PERST# and the function-level reset (R469) -/

/-- The reset of the host engine and the PCI Express function of a head: furrows end in ledger state 2, the event queue and the
occurrence numbers restart, field memory and setpoints go, Run ends, the HI window is reset, and a MICROCODE
session ends (R366). -/
def State.functionReset (s : State) (code : Nat) : State :=
  let pre := Power.code s.pw.power
  let s := s.abandonLedger
  let s := s.ownReadsGone
  let s := { s with hi := { State.reset.hi with maxPayload := if code = 4 then s.hi.maxPayload else 128 }, ev := { s.ev with queue := [], runs := [], bufRecs := [] } }
  let s := (s.clearUnits.endUcode).resetRange 0x28000 0x30000
  let s := (List.range 64).foldl (fun s i => ((s.wr (Reg.EV_OCC i) 0).wr (Reg.EV_RUN i) 0).wr (Reg.EV_RUNOCC i) 0) s
  let s := s.stopUnits
  let s := ({ s with aq := { s.aq with units := [] } }).calAbandon.clearSetpoints
  let s := { s with pw := { s.pw with d0 := false }, ln := { s.ln with setups := [] }, sp := { s.sp with inhibit := false } }
  let s := s.wr Reg.GLB_RSTCAUSE (word (pre * 256 + code))
  let s := s.traceReset code
  (s.fillShadow 0x28000 0x30000).stopRun code

/-- PERST on a head; a member ignores the pin. In start-up there is nothing to end, but the cause is noted (R483). -/
def perst (s : State) : State :=
  if !s.pw.headSel || !s.alive then s
  else
    let s := { s with pw := { s.pw with perst := true } }
    if s.pw.inReset then s
    else if s.pw.power == .startUp then (s.wr Reg.GLB_RSTCAUSE 3).traceReset 3
    else s.functionReset 3
def execPerst (s : State) : Host.Outcome State Fault Refusal := fin (perst s)

def functionLevelReset (s : State) : State :=
  if !s.pw.headSel || !s.alive || s.pw.inReset || s.pw.power == .startUp || s.pw.perst then s else s.functionReset 4
def execFunctionLevelReset (s : State) : Host.Outcome State Fault Refusal := fin (functionLevelReset s)

/-- PERST_RELEASE: link training starts; configuration requests are served again. -/
def perstRelease (s : State) : State := { s with pw := { s.pw with perst := false } }
def execPerstRelease (s : State) : Host.Outcome State Fault Refusal := fin (perstRelease s)

/-- PCIE_LINK_TRAINED: the negotiated width and speed of a head whose PERST# is released (R264), and the eyes of its lanes (R167). -/
def pcieLinkTrained (width : BitVec 4) (t : PcieTrained) (s : State) : State :=
  if !s.pw.headSel || !s.alive || s.pw.inReset || s.pw.perst then s
  else
    let s := (s.fput Reg.HI_LINK Fld.HI_LINK_width width.toNat).fput Reg.HI_LINK Fld.HI_LINK_speed t.speed.toNat
    (List.range (min 4 t.eyes.length)).foldl (fun s i => s.laneTrimmed i (t.eyes.getD i ⟨0, 0⟩)) s
def execPcieLinkTrained (width : BitVec 4) (t : PcieTrained) (s : State) : Host.Outcome State Fault Refusal :=
  fin (pcieLinkTrained width t s)

/-! ## Hold (R463, R464) -/

/-- HOLD_ENTER: the measurement chain powers down; a running conversion is lost, and a MICROCODE session ends (R366). Outside
Idle, Hold itself included, a write of hold = 1 is refused. -/
def holdEnter (s : State) : State :=
  if s.idleOpen then
    let s := s.gleanerOff.endUcode
    { s with pw := { s.pw with power := .hold } }
  else s.accErr true Reg.GLB_CTL
def execHoldEnter (s : State) : Host.Outcome State Fault Refusal := fin (holdEnter s)

def holdExit (s : State) : State :=
  if s.pw.power == .hold then { s with pw := { s.pw with power := .idle } } else s
def execHoldExit (s : State) : Host.Outcome State Fault Refusal := fin (holdExit s)

/-! ## Checks of the measurement chain (R485) -/

/-- A check may start: none runs, and the hub is in Idle or Run. -/
def State.chainCheckOk (s : State) : Bool := !s.flag Reg.GLB_REQ Fld.GLB_REQ_go && (s.inIdle || s.inRun)

/-- LINK_CHECK_REQ: both links are checked, a disabled die's as well. -/
def linkCheckReq (passA passB : Bool) (s : State) : State :=
  if !s.chainCheckOk then s.accErr true Reg.GLB_REQ
  else
    let s := s.wr Reg.GLB_REQ 0x80000000#32
    let s := (s.linkChecked 0 passA).linkChecked 1 passB
    { s with pw := { s.pw with reqTargets := [], reqResult := b2n (!passA) + 2 * b2n (!passB), reqGlean := false } }
def execLinkCheckReq (passA passB : Bool) (s : State) : Host.Outcome State Fault Refusal := fin (linkCheckReq passA passB s)

/-- GLEANER_REF_CHECK: the first of its three conversions is requested. -/
def gleanerRefCheck (s : State) : State :=
  if !s.chainCheckOk || s.flag Reg.GL_REQ Fld.GL_REQ_go then s.accErr true Reg.GLB_REQ
  else
    let s := s.wr Reg.GLB_REQ 0x80000001#32
    ({ s with pw := { s.pw with reqTargets := [0x5D, 0x5E, 0x5F], reqResult := 0, reqGlean := true } }).glRequest
def execGleanerRefCheck (s : State) : Host.Outcome State Fault Refusal := fin (gleanerRefCheck s)

/-- GLB_REQ_COMPLETE: with every part done, go clears and result holds the outcome. -/
def glbReqComplete (s : State) : State :=
  if !s.flag Reg.GLB_REQ Fld.GLB_REQ_go || !s.pw.reqTargets.isEmpty then s
  else
    let s := { s with pw := { s.pw with reqGlean := false } }
    (s.setFlag Reg.GLB_REQ Fld.GLB_REQ_go false).fput Reg.GLB_REQ Fld.GLB_REQ_result s.pw.reqResult
def execGlbReqComplete (s : State) : Host.Outcome State Fault Refusal := fin (glbReqComplete s)

end Sys2Proof.Machine
end

