-- ==== Sys2Proof/Machine/Check.lean ====
section
/-! DEFINITION. Enabling (R473 to R476): the consistency check with every condition of its table, the entry to Run, the ring
parameters by which the head starts its members, and the end of Run on command (R21 to R33, R192, R200, R235, R258, R267,
R320, R371, R397, R405, R422, R443 to R456, R477). -/

namespace Sys2Proof.Machine

/-! ## Class 0x07: acquisition memory (R200 to R235) -/

def State.unitsInUse (s : State) : List Nat := (List.range 8).filter s.unitEn

/-- A source that is not enabled. -/
def State.sourceOff (s : State) (u i : Nat) : Bool := if s.unitFast u then !s.ftEn i else !s.inEn i

/-- R207. -/
def State.rowsBad (s : State) (u : Nat) : Bool :=
  let n := s.upre u + s.upost u
  if s.unitStream u then decide (1048576 < s.upre u) else n != 0 && (decide (n < 16) || decide (1048576 < n))

/-- R228: rows per frame, and the least FIFO in bytes. -/
def State.rowsPerFrame (s : State) (u : Nat) : Nat := if s.unitFast u then 4 * s.m else 1
def State.fifoBad (s : State) (u : Nat) : Bool :=
  s.unitStream u && decide (s.rdN (Reg.AQ_UFIFO u) * 1024 < s.rowLen u * (s.upre u + 64 + 2 * s.rowsPerFrame u) + 128)

/-- R209. -/
def State.reservesBad (s : State) : Bool := decide (s.plotArea < s.plotRes) || decide (4096 < s.slotRes)

def State.condBit (s : State) (u c : Nat) (f : BitField) : Bool := s.flag (Reg.AQ_UCOND_A u c) f

/-- The conditions on a trigger condition `c` of a unit `u` in use: the detail, and whether it is broken. -/
def triggerRules : List (Nat × (State → Nat → Nat → Bool)) :=
  [ (8, fun s u c => decide (7 ≤ s.condType u c) || s.condSlope u c == 3),
    (9, fun s u c =>
      let t := s.condType u c
      let p := s.condSrc u c
      if t == 1 then decide (3 < p) || !s.flag (Reg.AQ_PINCFG p) Fld.AQ_PINCFG_en
      else [2, 3, 4].contains t && decide ((s.unitSources u).length ≤ p)),
    (10, fun s u c => s.condType u c == 4 && s.fget (Reg.AQ_UCOND_A u c) Fld.AQ_UCOND_A_stmask == 0),
    (11, fun s u c => s.condType u c == 3 && decide ((s.rd (Reg.AQ_UCOND_C u c)).toInt < (s.rd (Reg.AQ_UCOND_B u c)).toInt)),
    (12, fun s u c => s.condBit u c Fld.AQ_UCOND_A_fold && !s.unitFast u),
    (13, fun s u c => s.condType u c == 5 && s.condBit u c Fld.AQ_UCOND_A_tx_en) ]

/-- The conditions on a mask segment. -/
def State.segmentBad (s : State) (u k : Nat) : Bool :=
  s.flag (Reg.AQ_UMASK_A u k) Fld.AQ_UMASK_A_en
    && (decide ((s.rd (Reg.AQ_UMASK_C u k)).toInt < (s.rd (Reg.AQ_UMASK_B u k)).toInt)
      || decide ((s.unitSources u).length ≤ s.fget (Reg.AQ_UMASK_A u k) Fld.AQ_UMASK_A_src))

/-- The details that name a unit, a condition or a segment. -/
def State.condsUnit (s : State) : List Cond :=
  let us := s.unitsInUse
  let each := fun (n : Nat) (p : Nat → Nat → Bool) => us.flatMap (fun u => ((List.range n).filter (p u)).map (fun c => n * u + c))
  [ { cls := 7, det := 2, bad := us.filter (fun u => (s.unitSources u).isEmpty) },
    { cls := 7, det := 3, bad := us.filter (fun u => (s.unitSources u).any (s.sourceOff u)) },
    { cls := 7, det := 4, bad := us.filter (fun u => !s.unitStream u && s.rdN (Reg.AQ_USLOTS u) == 0) },
    { cls := 7, det := 5, bad := us.filter s.rowsBad },
    { cls := 7, det := 6, bad := noIndex s.reservesBad },
    { cls := 7, det := 7, bad := us.filter s.fifoBad } ]
  ++ triggerRules.map (fun r => ({ cls := 7, det := r.1, bad := each 8 (r.2 s) } : Cond))
  ++ [ { cls := 7, det := 14, bad := us.filter (fun u => s.ucfg u Fld.AQ_UCFG_auto && s.fget (Reg.AQ_UAUTO u) Fld.AQ_UAUTO_timeout == 0) },
       { cls := 7, det := 15, bad := each 4 s.segmentBad } ]

def State.ringIntact (s : State) : Bool := s.fget Reg.LN_STAT Fld.LN_STAT_state == 2

def State.condsAcq (s : State) : List Cond :=
  let b := s.fget Reg.AQ_MEMCFG Fld.AQ_MEMCFG_backlog
  let l := s.fget Reg.AQ_DRILL Fld.AQ_DRILL_latency
  [{ cls := 7, det := 1, bad := noIndex (b == 0 || decide (28 < b)) }] ++ s.condsUnit
    ++ [ { cls := 7, det := 16, bad := noIndex (s.pw.headSel && (decide (l < 10) || decide (200 < l))) },
         { cls := 7, det := 17, bad := noIndex (s.pw.headSel && s.ringIntact && decide (l * 1000 < s.rdN Reg.TB_RINGRTT + 5000)) } ]

/-! ## Class 0x08: control loops, with the rest of the ring on the head -/

def State.condsControl (s : State) (v : RingView) : List Cond :=
  s.condsLoop ++ s.condsOutput
    ++ (if s.pw.headSel then
          s.condsShared (v.members.flatMap (fun x => x.publishes.map (fun p => (p.1.toNat, p.2.toNat))))
            (v.members.flatMap (fun x => x.consumes.map BitVec.toNat))
        else [])

/-! ## Class 0x09: time base (R23, R32, R192) -/

/-- Period and epoch agree with the head's (R23, R475). -/
def State.agreesWith (s : State) (p : RingParams) : Bool :=
  p.m.toNat == s.m && (s.epochReg == 0 || s.epochReg == p.epoch.toNat)

/-- The head of this member is in Run. -/
def State.headRuns (s : State) : Option RingParams :=
  if s.pw.headSel then none else s.pw.headParams.filter RingParams.started

def State.condsTime (s : State) : List Cond :=
  let ki := s.fget Reg.TB_SERVO Fld.TB_SERVO_ki
  let lockThr := s.fget Reg.TB_LOCK Fld.TB_LOCK_lock_thr
  let unlockThr := s.fget Reg.TB_LOCK Fld.TB_LOCK_unlock_thr
  let annTo := s.fget Reg.TB_PTPCFG Fld.TB_PTPCFG_ann_to
  [ { cls := 9, det := 1, bad := if s.headRuns.any (fun p => !s.agreesWith p) then [s.hubAddr] else [] },
    { cls := 9, det := 2, bad := noIndex (decide (s.now + 3600 * secU < (s.epochReg : Int) * secU)) },
    { cls := 9, det := 3, bad := noIndex (!s.flag Reg.TB_STAT Fld.TB_STAT_ref_ok) },
    { cls := 9, det := 4, bad := noIndex (s.timeSrc == 3) },
    { cls := 9, det := 5, bad := noIndex (s.flag Reg.TB_CTL Fld.TB_CTL_need_lock && s.fget Reg.TB_STAT Fld.TB_STAT_state != tbLocked) },
    { cls := 9, det := 6, bad := noIndex (s.timeSrc == 2 && !s.tb.ppsSecSet) },
    { cls := 9, det := 7, bad := noIndex (ki == 0 || decide (s.fget Reg.TB_SERVO Fld.TB_SERVO_kp ≤ ki)) },
    { cls := 9, det := 8, bad := noIndex (decide (unlockThr ≤ lockThr) || decide (s.rdN Reg.TB_STEP < unlockThr)) },
    { cls := 9, det := 9, bad := noIndex (decide (127 < s.fget Reg.TB_PTPCFG Fld.TB_PTPCFG_domain)
        || decide (2 ≤ s.fget Reg.TB_PTPCFG Fld.TB_PTPCFG_transport) || annTo == 1 || decide (11 ≤ annTo)) },
    { cls := 9, det := 10, bad := noIndex (!s.pw.headSel && (s.timePort == 0 || (s.stamps (s.timePort - 1)).means.isEmpty)) } ]

/-! ## Delivery (R26 to R28) -/

/-- Frames over which delivery is counted: a multiple of every block length. -/
def loadFrames : Nat := 720720

/-- What this hub delivers: bytes of a block or segment, and how many of them in `loadFrames` frames. -/
def State.deliveries (s : State) : List (Nat × Nat) :=
  let blocks := (s.hi.furrows.filter (fun (e : Nat × Furrow) => e.2.kind == .sample)).map (fun (e : Nat × Furrow) =>
    (blockBytes (s.furrowSlots e.2) e.2.frames, loadFrames / e.2.frames))
  let plots := (s.unitsInUse.filter s.unitStream).map (fun u =>
    (ceilDiv (64 + s.rowsPerFrame u * s.rowLen u) 64 * 64, loadFrames))
  blocks ++ plots

def State.loadBytes (s : State) : Nat := (s.deliveries.map (fun d => d.1 * d.2)).foldl (· + ·) 0
def State.loadCells (s : State) : Nat := (s.deliveries.map (fun d => ceilDiv d.1 s.payloadLen * d.2)).foldl (· + ·) 0

/-- Cells per second that a head port takes (R27): by its lanes in service and their rate. -/
def State.portCells (s : State) (p : Nat) : Nat :=
  let w := s.fget (Reg.LN_PSTAT p) Fld.LN_PSTAT_in_service
  (w % 2 + w / 2) * (if s.fget (Reg.LN_PSTAT p) Fld.LN_PSTAT_rate = 1 then 1479640 else 2959280)

/-- Cells that arrive at a head port after a break behind position `c`, in `loadFrames` frames: positions up to `c` come in by
port D, the others by port U. -/
def arrives (loads : List (Nat × Nat)) (c p : Nat) : Nat :=
  ((loads.filter (fun x => decide (x.1 ≤ c) == (p == 1))).map Prod.snd).foldl (· + ·) 0

/-- The head ports, of the given capacities, that some single break would load above 85 %; of a broken ring, a break there is. -/
def State.portsOver (s : State) (caps : List Nat) (loads : List (Nat × Nat)) : List Nat :=
  let cuts := if s.ln.cuts.isEmpty then List.range s.hubs else s.ln.cuts.map Prod.fst
  [0, 1].filter (fun p => cuts.any (fun c =>
    decide (85 * caps.getD p 0 * loadFrames * s.m < arrives loads c p * 1600000)))

/-- The planning capacity of the host link in bytes per second (R28). -/
def State.planning (s : State) : Nat :=
  s.fget Reg.HI_LINK Fld.HI_LINK_width * ([0, 187500000, 375000000, 750000000].getD (s.fget Reg.HI_LINK Fld.HI_LINK_speed) 0)

/-! ## Class 0x0A: lanes and ring (R21, R22, R27, R319 to R321) -/

/-- The loads of the members by position; a member that joins a head in Run counts itself in (R321). -/
def State.ringLoads (s : State) (v : RingView) : List (Nat × Nat) :=
  let ms := v.members.map (fun x => (x.position.toNat, x.cells))
  if s.pw.headSel then ms else (s.ln.position, s.loadCells) :: ms

def State.condsRing (s : State) (v : RingView) : List Cond :=
  let strap := s.pw.hubAddr.toNat
  [ { cls := 10, det := 1, bad := if !s.pw.headSel && decide (48 ≤ strap) then [strap] else [] },
    { cls := 10, det := 2, bad := noIndex (s.pw.headSel && (v.twoHeads || s.ln.twoHeads)) },
    { cls := 10, det := 3, bad := if !s.pw.headSel && (v.sameStrap.any (fun a => a.toNat == strap) || s.ln.sameAddrs.contains strap) then [strap] else [] },
    { cls := 10, det := 4, bad := noIndex (v.over48 || s.ln.over48) },
    { cls := 10, det := 5, bad := noIndex (decide (s.ringState < 2)) },
    { cls := 10, det := 6, bad := [0, 1].filter (fun p => s.fget (Reg.LN_PCFG p) Fld.LN_PCFG_rate == 3) },
    { cls := 10, det := 7, bad := if s.pw.headSel then s.portsOver ([0, 1].map s.portCells) (s.ringLoads v) else [] } ]

/-! ## Class 0x0B: vault state (R153, R371) -/

def State.condsVault (s : State) : List Cond :=
  let n := s.fget Reg.VT_SEALCFG Fld.VT_SEALCFG_n
  let secs := s.flag Reg.VT_SEALCFG Fld.VT_SEALCFG_mode
  [ { cls := 11, det := 1, bad := noIndex s.cal.inForce.isNone },
    { cls := 11, det := 2, bad := noIndex (n == 0 || (if secs then decide (3600 < n) else decide (3600 * 16000 < n * s.m))) },
    { cls := 11, det := 3, bad := noIndex (!secs && decide (n * s.m < 160)) },
    { cls := 11, det := 4, bad := noIndex (s.flag Reg.VT_SECCFG Fld.VT_SECCFG_need_auth && !s.authOn) } ]

/-! ## Class 0x0C: twin (R405) -/

/-- Budgeted cycles up to the end of the control step. -/
def State.controlEnd (s : State) : Nat :=
  700 + ((List.range 32).map s.groupCost).foldl (· + ·) 0 + ((List.range 32).map s.loopCost).foldl (· + ·) 0

def State.condsTwin (s : State) (v : RingView) : List Cond :=
  if !s.isTwin then []
  else
    let k := s.fget Reg.SV_TWCFG Fld.SV_TWCFG_k
    let e := s.rd Reg.SV_TWEPOCH
    [ { cls := 12, det := 1, bad := noIndex s.pw.headSel },
      { cls := 12, det := 2, bad := noIndex (!s.portUp 2 || !v.partnerInRing) },
      { cls := 12, det := 3, bad := noIndex (s.pw.twinPri == v.partnerPri) },
      { cls := 12, det := 4, bad := noIndex (s.twinHash != v.partnerConfig) },
      { cls := 12, det := 5, bad := noIndex (k == 0 || decide (8 < k) || s.fget Reg.SV_TWCFG Fld.SV_TWCFG_agree == 0) },
      { cls := 12, det := 6, bad := s.enabledLoops.filter (fun l => s.fget (Reg.SV_TWLTOL l) Fld.SV_TWLTOL_tol == 0)
          ++ noIndex (decide (32 < s.compared.length)) },
      { cls := 12, det := 7, bad := noIndex (e != 0 && e != v.partnerEpoch) },
      { cls := 12, det := 8, bad := noIndex (decide (s.m * 25000 < s.controlEnd + 2400)) } ]

/-! ## Class 0x0D: side port (R443 to R456) -/

/-- The enabled slots that overlap a lower one. -/
def State.slotsOverlap (s : State) : List Nat :=
  let js := (List.range 32).filter s.slotEn
  js.filter (fun j => js.any (fun i => decide (i < j) && decide (s.slotPos i < s.slotPos j + s.slotWidth j)
    && decide (s.slotPos j < s.slotPos i + s.slotWidth i)))

def State.condsSide (s : State) : List Cond :=
  let slotLoops := s.enabledLoops.filter (fun l => s.loopKind l == 3)
  let lanes := lanesOf s.spWidth
  [ { cls := 13, det := 1, bad := noIndex (s.spMode == 3) },
    { cls := 13, det := 2, bad := if s.spMode == 1 && s.spEn then [] else slotLoops },
    { cls := 13, det := 3, bad := noIndex (decide (s.spDiv < 4) || decide (200 < s.spDiv)) },
    { cls := 13, det := 4, bad := noIndex (s.spEn && s.spLen == 0) },
    { cls := 13, det := 5, bad := (List.range 32).filter (fun j => s.slotEn j && decide (s.spLen < s.slotPos j + s.slotWidth j)) },
    { cls := 13, det := 6, bad := s.slotsOverlap },
    { cls := 13, det := 7, bad := (slotLoops.map s.loopIdx).filter (fun j => !s.slotEn j) },
    { cls := 13, det := 8, bad := noIndex (decide (4 ≤ s.spWidth)) },
    { cls := 13, det := 9, bad := noIndex (lanes != 0 && s.spLen % lanes != 0) },
    { cls := 13, det := 10, bad := noIndex (s.spEn && decide (2 * (s.m * 62500) < 5 * s.controlEnd + 2 * (s.spShiftNs + 1100 + 1000))) },
    { cls := 13, det := 11, bad := noIndex (s.flag Reg.SV_PERMEN Fld.SV_PERMEN_obs && s.fget Reg.SP_OBSCFG Fld.SP_OBSCFG_timeout == 0) } ]

/-! ## Class 0x0E: beacon (R422) -/

/-- The engines that a group runs. -/
def State.grpEngines (s : State) (g : Nat) : List Nat :=
  let e := s.fget (Reg.BC_GRP g) Fld.BC_GRP_eng
  if s.flag (Reg.BC_GRP g) Fld.BC_GRP_safe_sw then [e, s.fget (Reg.BC_GRP g) Fld.BC_GRP_safe_eng] else [e]

def State.groupUsed (s : State) (g : Nat) : Bool := s.flag (Reg.BC_GRP g) Fld.BC_GRP_en

/-- The steps of an engine in use, and the steps in use of the engines of some groups, as 16e + s. -/
def State.stepsOf (s : State) (groups : List Nat) : List Nat :=
  sortNat (((groups.filter s.groupUsed).flatMap (fun g => (s.grpEngines g).flatMap (fun e =>
    (List.range (s.fget (Reg.BC_ENG e) Fld.BC_ENG_last + 1)).map (fun i => 16 * e + i)))).eraseDups)

def State.stepField (s : State) (x : Nat) (f : BitField) : Nat := s.bstep (x / 16) (x % 16) f

/-- The command in codes that a step gives an output at its end, before derating (R417 to R419). -/
def State.stepCodes (s : State) (x j : Nat) : Int :=
  let level := s.stepField x Fld.BC_STEP_level
  roundDiv ((s.fget (Reg.BC_OUT j) Fld.BC_OUT_imax * (if s.stepField x Fld.BC_STEP_shape = 2 then s.gamma level else level) : Nat) : Int) 1023

def State.condsBeacon (s : State) : List Cond :=
  let on := s.flag Reg.BC_CTL Fld.BC_CTL_en
  let used := s.stepsOf (List.range 4)
  let warn := s.warnGroups
  let warnSteps := used.filter (fun x => warn.any (fun g => (s.grpEngines g).contains (x / 16)))
  let warnOuts := warn.flatMap s.groupOutputs
  let place := fun (j : Nat) => (s.groupOutputs (s.fget (Reg.BC_OUT j) Fld.BC_OUT_grp)).idxOf j
  let derates := s.flag Reg.BC_CTL Fld.BC_CTL_derate
  let ohms := fun (i : Nat) => s.fget (Reg.BC_DERATE i) Fld.BC_DERATE_ohms
  let gam := fun (i : Nat) => s.fget (Reg.BC_GAMMA i) Fld.BC_GAMMA_entry
  let trip := s.fget Reg.BC_TRIP Fld.BC_TRIP_trip
  let sv := s.fget Reg.BC_CTL Fld.BC_CTL_short_v
  (if !on then [] else
  [ { cls := 14, det := 1, bad := warn.drop 1 },
    { cls := 14, det := 2, bad := warnSteps.filter (fun x => s.stepField x Fld.BC_STEP_mask == 0
        || warnOuts.any (fun j => decide (s.stepCodes x j < 35))) },
    { cls := 14, det := 3, bad := sortNat (warnOuts.filter (fun j => !warnSteps.any (fun x => (s.stepField x Fld.BC_STEP_mask).testBit (place j)))) },
    { cls := 14, det := 4, bad := if used.any (fun x => s.stepField x Fld.BC_STEP_shape == 2) then
        (List.range 33).filter (fun i => i != 0 && decide (gam i < gam (i - 1))) else [] },
    { cls := 14, det := 5, bad := used.filter (fun x => s.stepField x Fld.BC_STEP_time == 0 || s.stepField x Fld.BC_STEP_shape == 3) },
    { cls := 14, det := 6, bad := (List.range 8).filter (fun j =>
        let g := s.fget (Reg.BC_OUT j) Fld.BC_OUT_grp
        decide (g < 4) && s.groupUsed g && s.fget (Reg.BC_OUT j) Fld.BC_OUT_imax == 0) },
    { cls := 14, det := 7, bad := if derates then [1, 2, 3].filter (fun i => decide (ohms (i - 1) ≤ ohms i)) else [] },
    { cls := 14, det := 8, bad := noIndex (derates && !s.scheduled 0x5A) },
    { cls := 14, det := 9, bad := noIndex (trip != 0 && decide (s.fget Reg.BC_TRIP Fld.BC_TRIP_rec ≤ trip)) },
    { cls := 14, det := 10, bad := noIndex (sv == 0 || decide (30 < sv)) } ])
  ++ [{ cls := 14, det := 11, bad := (List.range 8).filter (fun j =>
        let g := s.fget (Reg.BC_OUT j) Fld.BC_OUT_grp
        decide (4 ≤ g) && decide (g ≤ 6)) }]

/-! ## Class 0x0F: host interface (R28, R267) -/

def State.condsHost (s : State) (v : RingView) : List Cond :=
  let total := s.loadBytes + (v.members.map MemberLoad.bytes).foldl (· + ·) 0
  [ { cls := 15, det := 1, bad := noIndex (s.pw.headSel && decide (s.planning * loadFrames * s.m < total * 16000)) },
    { cls := 15, det := 2, bad := noIndex (!s.flag Reg.HI_CTL Fld.HI_CTL_en) },
    { cls := 15, det := 3, bad := noIndex (s.rd64 Reg.HI_DB_LO == 0) },
    { cls := 15, det := 4, bad := noIndex (decide (s.fget Reg.HI_MGCFG Fld.HI_MGCFG_lsize < 4)) } ]

/-! ## The outcome (R474) -/

/-- *Consistency check details*, in the order of class and detail. -/
def State.allConds (s : State) (v : RingView) : List Cond :=
  s.condsBudget ++ s.condsRate ++ s.condsInputs ++ s.condsAcq ++ s.condsControl v ++ s.condsTime ++ s.condsRing v ++ s.condsVault
    ++ s.condsTwin v ++ s.condsSide ++ s.condsBeacon ++ s.condsHost v

/-- The lowest offending index. -/
def lowest : List Nat → Nat
  | [] => 0xFFFF
  | a :: t => t.foldl min a

/-- Conditions in the order of class and detail (R474). -/
def orderConds (cs : List Cond) : List Cond :=
  sortBy (fun a b => decide (a.cls * 256 + a.det ≤ b.cls * 256 + b.det)) cs

/-- Class, detail and index of a refusal: the lowest class, then detail, then index of the conditions that fail. -/
def refusalOf (cs : List Cond) : Option (Nat × Nat × Nat) :=
  (cs.find? (fun c => !c.bad.isEmpty)).map (fun c => (c.cls, c.det, lowest c.bad))

def enIdle : Nat := 0
def enChecking : Nat := 1
def enRunning : Nat := 2
def enRefused : Nat := 3

/-- GLB_ENSTAT changes in one step (R482). -/
def State.setEnstat (s : State) (state cls det idx : Nat) : State :=
  (s.wr Reg.GLB_ENSTAT_LO (word state)).wr Reg.GLB_ENSTAT_HI (word (2 ^ 24 * cls + 2 ^ 16 * det + idx % 2 ^ 16))

/-- The first tick at least 10 ms from now, not before the epoch (R33). -/
def State.firstTick (s : State) (epoch : Nat) : Nat :=
  let t := s.now + 160 * slotU - (epoch : Int) * secU
  ((t + s.periodU - 1) / s.periodU).toNat

/-- The epoch of a head: as written, or the first whole second at least 10 ms from now (R32). -/
def State.chooseEpoch (s : State) : Nat :=
  if s.epochReg = 0 then ((s.now + 160 * slotU + secU - 1) / secU).toNat else s.epochReg

/-- The role of a hub of a twin pair at its entry to Run: TWIN_PRI names the active; beside a partner that holds its claim the
hub joins (R405, R410, R416). -/
def State.startRole (s : State) : State :=
  if !s.isTwin then s.setRole 0
  else if s.sv.ilkI then s.setRole 4
  else if s.pw.twinPri then (s.setRole 1).setFlag Reg.SV_TWSTAT Fld.SV_TWSTAT_p_ready true
  else s.setRole 2

/-- Entry to Run in safe state with cause start (R395 to R397): the outputs keep their reset values until tick s. -/
def State.enterRun (s : State) : State :=
  let s := { s with pw := { s.pw with power := .run, checking := false, waiting := true, lastTick := none } }
  let s := (s.setEnstat enRunning 0 0 0).endUcode.startRole
  let s := { s with sv := { s.sv with safe := true, oen := 0, releasePend := false, checkDue := false, raiseDue := false }
                    fe := { s.fe with leadSeen := 0, ins := [] }
                    gl := { s.gl with resFrame := [] }
                    fr := { s.fr with overrun := none, skipped := [], hbMissing := 0, endReset := 0 } }
  let s := ((s.incSat Reg.SV_SAFECNT 1).wr Reg.HI_GAPCNT 0).startLoops
  let s := (List.range 8).foldl (fun s u =>
    (s.wr (Reg.AQ_USEQ u) 0).modUnit u (fun x => { x with hist := [], newest := none, first := none, gap := none, conds := [] })) s
  let s := { s with aq := { s.aq with ftRow := [] } }
  let s := s.latchCause 1
  if s.mayPull then s.pullSafeN true else s

/-- Frames are to start at tick `n` of an epoch.  DESIGN CHOICE (log 82): an epoch that the hub chose itself, or took from the head,
does not show in FR_EPOCH, which keeps what was written. -/
def State.startAt (s : State) (epoch n : Nat) : State :=
  { s with pw := { s.pw with waiting := false }, fr := { s.fr with epoch := epoch, tickS := n, nextTick := n + 1 } }

/-- The head distributes period, epoch, latency and mode (R23, R223, R475). -/
def State.distribute (s : State) : State :=
  s.tellRing 3 s.ringValues

/-- A member starts with its head; its AQ_DRILL.latency then reads the head's (R223). -/
def State.startMember (s : State) (p : RingParams) (n : Nat) : State :=
  (s.fput Reg.AQ_DRILL Fld.AQ_DRILL_latency p.latency.toNat).startAt p.epoch.toNat n

/-- A check that passed: a head starts itself; a member starts with a head in Run, or waits (R475). -/
def State.passed (s : State) : State :=
  if s.pw.headSel then
    let e := s.chooseEpoch
    let n := s.firstTick e
    (s.enterRun.startAt e n).distribute
  else match s.headRuns with
    | some p => s.enterRun.startMember p (s.firstTick p.epoch.toNat)
    | none => s.enterRun

/-- RUN_ENABLE: GLB_CTL.run = 1. -/
def runEnable (s : State) : State :=
  if s.pw.inReset then s
  else match s.pw.power with
    | .idle =>
      if s.pw.checking then s.accErr true Reg.GLB_CTL
      else ({ s with pw := { s.pw with checking := true } }).setEnstat enChecking 0 0 0
    | .hold => s.accErr true Reg.GLB_CTL
    | _ => s
def execRunEnable (s : State) : Host.Outcome State Fault Refusal := fin (runEnable s)

/-- A member's check beside a head in Run is that of R27 on the head's ports with the member included (R321). -/
def State.checkConds (s : State) (v : RingView) : List Cond :=
  s.allConds v ++ (if s.headRuns.isSome then [{ cls := 10, det := 7, bad := s.portsOver v.headPorts (s.ringLoads v) }] else [])

/-- CONSISTENCY_CHECK_DONE (R474). The count of R37 is left in FR_BUDGET. -/
def consistencyCheckDone (view : RingView) (s : State) : State :=
  if !(s.inIdle && s.pw.checking) then s
  else
    let cs := orderConds (s.checkConds view)
    let s := ({ s with pw := { s.pw with checking := false } }).noteBudget
    match refusalOf cs with
    | some r => s.setEnstat enRefused r.1 r.2.1 r.2.2
    | none => s.passed
def execConsistencyCheckDone (view : RingView) (s : State) : Host.Outcome State Fault Refusal := fin (consistencyCheckDone view s)

/-- RUN_DISABLE: GLB_CTL.run = 0 in Run, or while a member waits. -/
def runDisable (s : State) : State := s.stopRun 0
def execRunDisable (s : State) : Host.Outcome State Fault Refusal := fin (runDisable s)

/-- The ring has formed: a member numbers its writes afresh (R326), and steps to the head's time at its next measurement (R187). -/
def State.joinRing (s : State) : State := { s with ln := { s.ln with order := 0 }, tb := { s.tb with formStep := true } }

/-- The head's mode and the form of the ring, as its parameters give them. -/
def State.noteRing (s : State) (p : RingParams) : State :=
  let s := if s.ringState < 2 then s.joinRing else s
  let cuts := (p.cut.map (fun (c : BitVec 6 × BitVec 6) => (c.1.toNat, c.2.toNat))).toList
  let passed := if cuts.isEmpty then [] else if s.ln.cuts = cuts then s.ln.passed else [0, 1]
  let s := { s with pw := { s.pw with headParams := some p }, ln := { s.ln with cuts := cuts, passed := passed } }
  let s := (s.setRingState (if p.cut.isSome then 3 else 2)).setFlag Reg.LN_CTL Fld.LN_CTL_auth p.auth
  (s.setFlag Reg.LN_STAT Fld.LN_STAT_auth_on p.auth).releaseStranded

/-- RING_PARAMETERS at a member, which notes them; a waiting member starts at the head's tick s, or leaves waiting for Idle, refused. -/
def ringParameters (p : RingParams) (s : State) : State :=
  if s.pw.headSel || !s.alive || s.pw.inReset then s
  else
    let s := s.noteRing p
    if !(p.started && s.inRun && s.pw.waiting) then s
    else if s.agreesWith p then s.startMember p p.tickS.toNat
    else s.endRun.setEnstat enRefused 9 1 s.hubAddr
def execRingParameters (p : RingParams) (s : State) : Host.Outcome State Fault Refusal := fin (ringParameters p s)

end Sys2Proof.Machine
end

