-- ==== Sys2Proof/WellFormed.lean ====
section
/-! DEFINITION. The commands that can arrive: what a sender may bring.  The hub's answer to an ill-formed command is defined as
well, since every function is total, but no claim about the hub is meant by it. -/

namespace Sys2Proof

/-- Widths and alignments that a host access may have (R6). -/
def wellAligned (off width : Nat) : Bool := (width == 4 && off % 4 == 0) || (width == 8 && off % 8 == 0)

/-- The width in bytes of an access with or without an upper half. -/
def accWidth (upper : Bool) : Nat := if upper then 8 else 4

/-- Parameter B or C of a trigger condition: words that form one value for a frame condition (R237). -/
def frameParam (off k : Nat) : Bool :=
  decide (0x18880 ≤ off) && decide (off < 0x19880) && decide ((off - 0x18880) % 0x200 < 0x80) && (off - 0x18880) % 16 == k

/-- The lowest word, or an upper word, of a multi-word value (R8). -/
def lowestWord (off : Nat) : Bool := (Machine.multiOf? off).any (fun x => x.1 == off) || frameParam off 4
def upperWord (off : Nat) : Bool :=
  off % 4 == 0 && ((Machine.multiOf? off).any (fun x => x.1 != off) || frameParam off 8)

/-- Ports: 0 U, 1 D, 2 the twin lane; lanes 4 to 9 (4 the Ethernet port, 5 to 8 the ring, 9 the twin lane). -/
def isPort (p : BitVec 2) : Bool := decide (p.toNat < 3)
def isRingPort (p : BitVec 2) : Bool := decide (p.toNat < 2)
def isLane (l : BitVec 4) : Bool := decide (4 ≤ l.toNat) && decide (l.toNat < 10)

/-- Addresses or positions of hubs, and those of members (R20, R303). -/
def isHub (a : BitVec 6) : Bool := decide (a.toNat < 48)
def isMember (a : BitVec 6) : Bool := decide (1 ≤ a.toNat) && decide (a.toNat < 48)

/-- A time names its second and a nanosecond of it. -/
def PtpTime.wf (t : PtpTime) : Bool := decide (t.ns.toNat < 1000000000)

/-- Whether a command is well formed. -/
def Instr.wf : Instr → Bool
  | .registerWrite _ off d => wellAligned off.toNat (accWidth d.upper.isSome)
  | .malformedAccess _ off width => !wellAligned off.toNat width
  | .lowWordReadLatch acc => lowestWord acc.off.toNat && wellAligned acc.off.toNat (accWidth acc.both)
  | .upperWordWriteStage off _ => upperWord off.toNat
  | .lowWordWriteCommit off d => lowestWord off.toNat && wellAligned off.toNat (accWidth d.upper.isSome)
  | .tick inp => inp.cycles.length == 6 && decide (inp.words.map InWords.input).Nodup
  | .producerIndexReadDone _ indices => indices.all (fun l => l.length == 256)
  | .inConfigWrite _ reg _ => decide (reg.toNat < 5)
  | .modOverload _ _ resetAfter _ => decide (resetAfter.toNat ≤ 2)
  | .trimComplete _ figures => figures.length == 128
  | .fastTapSample _ _ words => words.length == 253
  | .ptpSync m => m.origin.wf
  | .ptpDelayResp r _ _ => r.t4.wf
  | .timeCellSend port _ => isPort port
  | .timeCell port _ c => isPort port && c.prevTx.wf && c.lastRx.wf
  | .drillMessage origin _ _ tp tdet => isHub origin && tp.wf && tdet.wf
  | .outputReadbackCheck o _ _ => decide (o.toNat < 24)
  | .create _ block => block.all (fun b => b.length == 64)
  | .laneDown lane cause => isLane lane && decide (cause.toNat ≤ 2)
  | .laneRetrain lane _ => isLane lane
  | .portTraining port => isPort port
  | .portDown port => isPort port
  | .linkControlSend port => isPort port
  | .linkControlCell port _ _ => isPort port
  | .sequencedCell port _ _ => isPort port
  | .replayTimeout port => isPort port
  | .laneRetryHigh port => isPort port
  | .delineationFound d => isPort d.port
  | .delineationLost d => isPort d.port
  | .eyeSweep lane _ _ => isLane lane
  | .census _ port => isRingPort port
  | .addressMap entries => entries.all (fun e => isHub e.addr && e.addr != 0)
  | .ringParameters p => decide (1 ≤ p.m.toNat) && decide (p.m.toNat ≤ 16000)
  | .cutNotice x y _ port => isHub x && isHub y && isRingPort port
  | .ringFlush port => isRingPort port
  | .tail port => isRingPort port
  | .routeMarker m => isHub m.src && isHub m.up && isHub m.down
  | .hubJoined _ _ position => isHub position
  | .hubLeft addr _ => isHub addr
  | .keyAgreementOffer port _ => isPort port
  | .keyAgreementConfirm port _ => isPort port
  | .keyAgreementTimeout port => isPort port
  | .dmaWriteHeader member _ _ data => isMember member && decide (1 ≤ data.length) && decide (data.length ≤ 1048576)
  | .dmaReadRequest member _ len _ => isMember member && decide (1 ≤ len.toNat) && decide (len.toNat ≤ 4096)
  | .interruptRequest member vector => isMember member && decide (vector.toNat < 64)
  | .setupRequest _ off _ _ => off.toNat % 4 == 0
  | .lnTestWrite lane _ => decide (lane.toNat < 10)
  | .lnTestInject lane => isLane lane
  | .prbsError lane _ _ _ => isLane lane
  | .tamperDetect found => found.bits != 0
  | .permissiveLost p => decide (p.toNat < 5)
  | .consistencyCheckDone view => view.members.all (fun x => isMember x.position)
  | .helloTimeout port => isPort port
  | .pcieLinkTrained width t => [1, 2, 4].contains width.toNat && [1, 2, 3].contains t.speed.toNat && t.eyes.length == width.toNat
  | .dieLinkCheck .. | .acquisitionStart | .settleCountExpire .. | .sealSigned | .frClrOvr | .frClrPeak
  | .doorbellPoll | .doorbellCounterReadDone .. | .feCtlWrite .. | .blankAssert .. | .blankRelease ..
  | .blankExtensionExpire .. | .blankLong .. | .leadStale .. | .excCompliance .. | .headlandWindow .. | .openWire ..
  | .modPllLockLoss | .modPllLock | .retrim | .clrOvl | .gleanerScheduleStart .. | .glEdgeTrigger ..
  | .glEdgeTimerExpire .. | .glEdgeWrite .. | .glReq .. | .glReqDue | .gleanerConversionDone .. | .glClrDrop
  | .calOpen | .calClose | .calStgptrWrite .. | .calStgdataWrite .. | .calStgdataRead | .calStghashUpdate
  | .calCommit | .calCommitComplete | .tbStepCmd | .tbRateWrite .. | .refclkLoss | .refclkReturn ..
  | .ptpDelayReqSend .. | .ptpAnnounce .. | .ptpAnnounceTimeout | .ppsInEdge .. | .ppsMissing | .ppsOut
  | .holdoverEnter | .timeStepApply | .ringRttMarker .. | .aqArm .. | .aqStop .. | .aqForce .. | .trigInEdge ..
  | .drillSend .. | .drillAct | .trigOutPulseEnd .. | .autoTrigger .. | .plotCaptureComplete .. | .plotPartHandoff ..
  | .loopStageWrite .. | .loopApply .. | .ceLspWrite .. | .coefWrite .. | .coefApply | .loopHoldExpire ..
  | .pwmPeriodStart .. | .pwmOnTimeEnd .. | .sharedValues .. | .hiEnable | .hiDisable | .hiStopComplete
  | .pcieFunctionState .. | .nop .. | .fence .. | .fenceRelease .. | .buf .. | .eventBufTimeout | .setpoint ..
  | .destroy .. | .resume .. | .flush .. | .ledger .. | .subreset .. | .subresetComplete | .dmaFailure ..
  | .laneTrainingDone .. | .completionWriteFailure .. | .ringReform | .censusTimeout | .dmaReadData .. | .bar4Access .. | .setupResponse ..
  | .setupTimeout .. | .compress .. | .expand .. | .verify .. | .balerItemDone .. | .blClr | .status | .getNonce
  | .getCerts | .enrol | .login | .logout | .authorise | .setUserKey | .replaceOwner | .rotateSealKey | .zeroise
  | .tamperClear | .microcodeStart | .microcodeData | .microcodeFinish .. | .microcodeSessionTimeout | .exportCal
  | .configImage | .selftest .. | .tamperLog | .mailboxMemberTimeout | .nonceExpire | .authorisationLapse
  | .authLockoutEnd | .continuousTestFail .. | .svSafeCmd | .svRelease | .releaseSafeNCheck .. | .proofTest
  | .proofTestDone .. | .rejoin | .supplyLimit .. | .dieTempLimit .. | .lockstepMismatch | .protectedMemEcc
  | .clockCheckFail | .driveReadbackFail | .safeNExternal | .twinFrame .. | .twinCompareDeadline
  | .diagnosisReport .. | .twinDecision | .failoverGapExpire | .ilkIEdge .. | .ilkClaim .. | .setpointRelay ..
  | .relayAcknowledgement .. | .snapshot .. | .twinRelease .. | .twinResyncDone | .beaconUpdate | .beaconStep ..
  | .beaconFault .. | .beaconClear .. | .eventRunClose | .evTrptrWrite .. | .evTrdataRead | .evFfRead .. | .xfer ..
  | .xferComplete .. | .setpointFrameShift .. | .observerSelectFall | .observerSelectRise .. | .observerPermitLapse
  | .powerOn .. | .fallowExit .. | .powerFail .. | .vbatLoss | .startUpComplete | .resetN .. | .perst
  | .functionLevelReset | .holdEnter | .holdExit | .runEnable | .runDisable | .linkCheckReq .. | .gleanerRefCheck
  | .glbReqComplete | .ptpPortFaulty | .ppsOutFall | .rejoinTimeout | .perstRelease => true

end Sys2Proof
end

