-- ==== Sys2Proof/Machine/HostBus.lean ====
section
/-! DEFINITION. The host's accesses to the setup space and the mailbox (R1 to R10, R24, R235, R267, R328, R363, R367, R368,
R466, R484 to R488): an access to a register with a command of its own acts as that command. -/

namespace Sys2Proof.Machine

/-- The setup space is served (R466): the hub has reached Idle since its start, and a head's PERST# is released. -/
def State.served (s : State) : Bool :=
  s.alive && !s.pw.inReset && !(s.pw.power == .startUp) && !(s.pw.headSel && s.pw.perst)

/-- Offsets of a register block: an instance `i` of `n` blocks of `size` bytes from `base`. -/
def inBlock (a base size n : Nat) : Bool := decide (base ≤ a) && decide (a < base + size * n)

/-! ## Writes by access type (R1 to R5) -/

/-- The RWL fields of a word take a write only in Idle: outside it a differing value is refused (R3). -/
def State.rwlRefused (s : State) (r : RegRow) (a : Nat) (v : Word) : Bool := !s.idleOpen && (v ^^^ s.rd a) &&& r.rwl != 0

/-- The fields of one word take a write as their types state: RW at once, RWL in Idle, W1C cleared by a 1. -/
def State.typedStore (s : State) (r : RegRow) (a : Nat) (v : Word) : State :=
  let mask := r.rw ||| (if s.idleOpen then r.rwl else 0)
  let old := s.rd a
  s.wr a (((old &&& ~~~ mask) ||| (v &&& mask)) &&& ~~~ (v &&& r.w1c))

/-- A typed write; a refused field sets acc_err. -/
def State.typedWrite (s : State) (r : RegRow) (a : Nat) (v : Word) : State :=
  let s' := s.typedStore r a v
  if s.rwlRefused r a v then s'.accErr true a else s'

/-- A write of a one-word register without a command of its own. -/
def State.plainWrite (s : State) (a : Nat) (v : Word) : State :=
  match regRow? a with
  | some r => s.typedWrite r a v
  | none => s

/-- The words of a multi-word value take the access that commits them: a refused field in any of them is this access's error
(R9, R484). -/
def State.commitWords (s : State) (a : Nat) (ws : List (Nat × Word)) : State :=
  let t := ws.foldl (fun (s : State) p => match regRow? p.1 with
    | some r => s.typedStore r p.1 p.2
    | none => s) s
  if ws.any (fun p => (regRow? p.1).any (fun r => s.rwlRefused r p.1 p.2)) then t.accErr true a else t

/-- A command bit of a register. -/
def cmdBit (v : Word) (f : BitField) : Bool := BitField.get f v != 0
/-- A command that a written 1 gives. -/
def onBit (v : Word) (f : BitField) (act : State → State) (s : State) : State := if cmdBit v f then act s else s

/-! ## Registers with rules of their own -/

/-- A unit's condition is broken in a configuration (R235). -/
def State.unitBroken (s : State) (u : Nat) : Bool :=
  s.condsUnit.any (fun c => c.bad.any (fun i =>
    if c.det == 6 then s.unitEn u
    else if 8 ≤ c.det && c.det ≤ 13 then i / 8 == u
    else if c.det == 15 then i / 4 == u
    else i == u))

/-- Writes to unit `u`'s configuration by one access, that of the first word: in Run none while it is armed, and none that breaks a rule of R235 or the window (R38). -/
def State.unitWrite (s : State) (u : Nat) (ws : List (Nat × Word)) : State :=
  let c := ws.foldl (fun (s : State) p => s.plainWrite p.1 p.2) s
  if !s.inRun then c
  else
    let st := s.ustate u
    if st == uArmed || st == uCapturing || (s.unit u).slipWait || State.unitBroken c u || !c.pended.costOk then
      s.accErr true ((ws.head?.map Prod.fst).getD 0)
    else c.wr Reg.FR_BUDGET (word c.pended.windowCost)

/-- The causes whose condition only the pins and comparators know: supply, temp, external, clock, drive. -/
def pinCauses : Word := 0x14460#32

/-- A write to SV_CAUSE: a bit is cleared by a 1; a cause whose condition persists is set again at once (R398). Whether a supply, a
sensor, the clocks, a driven pin or a SAFE_N that this hub does not pull is still at fault is a free value (log 89). -/
def State.clearCauses (s : State) (v : Word) : State :=
  let gone := s.rd Reg.SV_CAUSE &&& v
  let s := s.wr Reg.SV_CAUSE (s.rd Reg.SV_CAUSE &&& ~~~ v)
  let (w, s) := if gone &&& pinCauses = 0 then (0, s) else s.draw64
  let s := if gone.getLsbD 10 && !s.sv.pulls then { s with sv := { s.sv with safeN := !w.getLsbD 10 } } else s
  ((List.range 32).filter (fun b => gone.getLsbD b && s.causePersists w b)).foldl State.latchCause s

/-- A write to VT_SECCFG (R4, R363): one that changes a field needs an authorisation for the value. -/
def State.seccfgWrite (s : State) (v : Word) : State :=
  let w := v &&& 3#32
  if w = s.rd Reg.VT_SECCFG then s
  else match s.useAuth 2 (sha384 (leBytes 4 v.toNat)) with
    | (true, s) => s.wr Reg.VT_SECCFG w
    | (false, s) => s.rwpRefused Reg.VT_SECCFG

/-- A write to CAL_CMD.  DESIGN CHOICE (log 31): the commit goes before the others, and open before close. -/
def State.calCmd (s : State) (v : Word) : State :=
  let rest := fun (s : State) => onBit v Fld.CAL_CMD_close calClose (onBit v Fld.CAL_CMD_open calOpen s)
  if cmdBit v Fld.CAL_CMD_commit then
    let t := calCommit s
    if t.cal.commit.isSome && s.cal.commit.isNone then rest t else t
  else rest s

/-- A write to GLB_CTL: first run, then hold, each as its level says (R463, R464, R473, R476). -/
def State.glbCtl (s : State) (v : Word) : State :=
  let s := if v.getLsbD 0 then runEnable s else runDisable s
  if v.getLsbD 1 then holdEnter s else holdExit s

/-- A write to GLB_REQ (R485); the outcome of a link check is free (log 2). -/
def State.glbReq (s : State) (v : Word) : State :=
  let op := v.toNat % 4
  if v.getLsbD 31 then
    if op = 0 then
      let (a, s) := s.drawBit
      let (b, s) := s.drawBit
      linkCheckReq a b s
    else if op = 1 then gleanerRefCheck s
    else s.accErr true Reg.GLB_REQ
  else s.wr Reg.GLB_REQ ((s.rd Reg.GLB_REQ &&& ~~~ 3#32) ||| (v &&& 3#32))

/-- HI_DB, HI_MGD and HI_MGC: accepted while the engine is off, with their alignment (R267). -/
def hiAlign (a : Nat) : Option Nat :=
  if a = Reg.HI_DB_LO || a = Reg.HI_DB_HI then some 4096
  else if a = Reg.HI_MGD_LO || a = Reg.HI_MGD_HI || a = Reg.HI_MGC_LO || a = Reg.HI_MGC_HI then some 64
  else none

def State.hiOpen (s : State) : Bool := !s.flag Reg.HI_CTL Fld.HI_CTL_en

/-- A write to a lane test register: the test, then an injection; a refused write does neither (R329, R330). -/
def State.laneTest (s : State) (i : Nat) (v : Word) : State :=
  let n := BitVec.ofNat 4 i
  let t := lnTestWrite n v s
  if s.laneTestOk i v then onBit v Fld.LN_TEST_inject (lnTestInject n) t else t

/-- A write to LN_CTL: a member's auth is the head's mode; outside Idle a differing value is refused as any RWL field's is (R3,
R486), and in Idle a member discards it (DESIGN CHOICE, log 88). -/
def State.lnCtlWrite (s : State) (v : Word) : State :=
  if s.pw.headSel then s.plainWrite Reg.LN_CTL v
  else if (regRow? Reg.LN_CTL).any (fun r => s.rwlRefused r Reg.LN_CTL v) then s.accErr true Reg.LN_CTL
  else s

/-! ## A write to one word (R1, R7) -/

/-- GLB, TB, FR, GL, FE and CV windows. -/
def State.writeLow (s : State) (a : Nat) (v : Word) : State :=
  if a = Reg.GLB_CTL then s.glbCtl v
  else if a = Reg.GLB_REQ then s.glbReq v
  else if a = Reg.TB_CMD then onBit v Fld.TB_CMD_step tbStepCmd s
  else if a = Reg.FR_CTL then onBit v Fld.FR_CTL_clr_peak frClrPeak (onBit v Fld.FR_CTL_clr_ovr frClrOvr s)
  else if a = Reg.GL_CTL then onBit v Fld.GL_CTL_clr_drop glClrDrop s
  else if a = Reg.GL_REQ then glReq v s
  else if inBlock a (Reg.GL_EDGE 0) 4 4 then glEdgeWrite (BitVec.ofNat 2 ((a - Reg.GL_EDGE 0) / 4)) v s
  else if a = Reg.FE_CTL then feCtlWrite v s
  else if inBlock a (Reg.FE_BLANKCFG 0) 4 4 then (s.plainWrite a v).blankJudge ((a - Reg.FE_BLANKCFG 0) / 4)
  else if a = Reg.CV_CTL then s.cvCtlWrite v
  else if a = Reg.CV_STAT then onBit v Fld.CV_STAT_clr_ovl clrOvl (s.plainWrite a v)
  else s.plainWrite a v

/-- IN, AQ and CE windows. -/
def State.writeMid (s : State) (a : Nat) (v : Word) : State :=
  if inBlock a (Reg.IN_CFG 0) 0x20 256 && decide ((a - Reg.IN_CFG 0) % 0x20 / 4 < 5) then
    inConfigWrite (BitVec.ofNat 8 ((a - Reg.IN_CFG 0) / 0x20)) (BitVec.ofNat 3 ((a - Reg.IN_CFG 0) % 0x20 / 4)) v s
  else if inBlock a (Reg.AQ_PINCFG 0) 4 4 then
    let c := s.plainWrite a v
    if s.inRun && (List.range 8).any (fun u => s.unitEn u && State.unitBroken c u) then s.accErr true a else c
  else if a = Reg.AQ_DRILLCMD then
    onBit v Fld.AQ_DRILLCMD_go (drillSend (BitVec.ofNat 4 (BitField.get Fld.AQ_DRILLCMD_ch v))) s
  else if inBlock a (Reg.AQ_UCMD 0) 0x200 8 then
    let u := (a - Reg.AQ_UCMD 0) / 0x200
    let k := BitVec.ofNat 3 u
    if a = Reg.AQ_UCMD u then
      onBit v Fld.AQ_UCMD_force (aqForce k) (onBit v Fld.AQ_UCMD_arm (aqArm k) (onBit v Fld.AQ_UCMD_stop (aqStop k) s))
    else if a = Reg.AQ_USTAT u then s.plainWrite a v
    else if (regRow? a).any (fun r => r.rw != 0) then s.unitWrite u [(a, v)]
    else s
  else if inBlock a (Reg.CE_LCTL 0) 0x80 32 then
    let l := BitVec.ofNat 5 ((a - Reg.CE_LCTL 0) / 0x80)
    let t := loopStageWrite l (BitVec.ofNat 7 ((a - Reg.CE_LCTL 0) % 0x80)) v s
    if a = Reg.CE_LCTL l.toNat then onBit v Fld.CE_LCTL_apply (loopApply l) t else t
  else if a = Reg.CE_CMD then onBit v Fld.CE_CMD_coef_apply coefApply s
  else s.plainWrite a v

/-- The windows from HI on. -/
def State.writeHigh (s : State) (a : Nat) (v : Word) : State :=
  if a = Reg.HI_CTL then (if cmdBit v Fld.HI_CTL_en then hiEnable s else hiDisable s)
  else if a = Reg.HI_MGCFG then (if s.hiOpen then s.plainWrite a v else s.accErr true a)
  else if inBlock a (Reg.HI_MSIX_ALO 0) 16 64 then (if s.pw.headSel then (s.plainWrite a v).flushMsix else s)
  else if a = Reg.LN_CTL then onBit v Fld.LN_CTL_reform ringReform (s.lnCtlWrite v)
  else if inBlock a (Reg.LN_TEST 0) 16 10 && decide (a % 16 = 0) then s.laneTest ((a - Reg.LN_TEST 0) / 16) v
  else if a = Reg.BL_CTL then onBit v Fld.BL_CTL_clr blClr s
  else if a = Reg.VT_SECCFG then s.seccfgWrite v
  else if a = Reg.SV_CMD then
    onBit v Fld.SV_CMD_ptest proofTest (onBit v Fld.SV_CMD_rejoin rejoin (onBit v Fld.SV_CMD_release svRelease
      (onBit v Fld.SV_CMD_safe svSafeCmd s)))
  else if a = Reg.SV_CAUSE then s.clearCauses v
  else if a = Reg.BC_CMD then beaconClear (BitVec.ofNat 4 (BitField.get Fld.BC_CMD_clear v)) s
  else if a = Reg.CAL_CMD then s.calCmd v
  else if a = Reg.CAL_STGPTR then calStgptrWrite v s
  else if a = Reg.CAL_STGDATA then calStgdataWrite v s
  else if a = Reg.EV_TRPTR then evTrptrWrite v s
  else if inBlock a (Reg.EV_CFG 0) 16 64 && decide (a % 16 = 0) then
    let vec := BitField.get Fld.EV_CFG_vec v
    if 64 ≤ vec && vec ≤ 254 then s.accErr true a else s.plainWrite a v
  else s.plainWrite a v

/-- A write to a word that belongs to no multi-word value. -/
def State.writeWord (s : State) (a : Nat) (v : Word) : State :=
  if a < 0x10000 then s.writeLow a v
  else if a < 0x28000 then s.writeMid a v
  else s.writeHigh a v

/-! ## Multi-word values (R8, R9) -/

/-- The multi-word value that holds an address: its lowest word and its number of words; parameters B and C of a frame condition
are one (R237). -/
def State.multiAt (s : State) (a : Nat) : Option (Nat × Nat) :=
  match multiOf? a with
  | some x => some x
  | none =>
    if inBlock a (Reg.AQ_UCOND_A 0 0) 0x200 8 then
      let u := (a - Reg.AQ_UCOND_A 0 0) / 0x200
      let c := (a - Reg.AQ_UCOND_A 0 0) % 0x200 / 16
      if c < 8 && s.condType u c == 6 && (a = Reg.AQ_UCOND_B u c || a = Reg.AQ_UCOND_C u c) then some (Reg.AQ_UCOND_B u c, 2) else none
    else none

/-- The staging copy of an upper word: the staged word, or the value in force (R9). -/
def State.stagedWord (s : State) (a : Nat) : Word := (kget? s.staged a).getD (s.hostWord a)

/-- Staging ends for the upper words of a value. -/
def State.unstage (s : State) (a n : Nat) : State :=
  { s with staged := (List.range (n - 1)).foldl (fun (m : KMap Word) i => kerase m (a + 4 * (i + 1))) s.staged }

/-- A write to an upper word is staged; a value that does not take the write discards it at once. -/
def State.writeUpper (s : State) (a : Nat) (v : Word) : State :=
  if inBlock a (Reg.CE_LCTL 0) 0x80 32 && decide (a % 0x80 ≠ 0x1C) then s.writeMid a v
  else if (hiAlign a).isSome && !s.hiOpen then s.accErr true a
  else match regRow? a with
    | none => s
    | some r =>
      if s.rwlRefused r a v then s.accErr true a
      else if r.rw ||| r.rwl == 0 then s
      else { s with staged := kset s.staged a (v &&& (r.rw ||| r.rwl)) }

/-- A write of the lowest word commits the value in one step.  DESIGN CHOICE (log 30): a refused write of the lowest word ends
the staging of parameters B and C, of a loop's setpoint and of a coefficient, and keeps that of TB_RATE and of the HI_ values. -/
def State.writeLowest (s : State) (a n : Nat) (v : Word) : State :=
  let upper := (List.range (n - 1)).map (fun i => (a + 4 * (i + 1), s.stagedWord (a + 4 * (i + 1))))
  if inBlock a (Reg.CE_LCTL 0) 0x80 32 then
    let l := BitVec.ofNat 5 ((a - Reg.CE_LCTL 0) / 0x80)
    if a % 0x80 = 0x18 then (ceLspWrite l (join64 v (s.stagedWord (a + 4))) s).unstage a n else s.writeMid a v
  else if inBlock a (Reg.CE_COEF_LO 0) 8 512 then
    (coefWrite (BitVec.ofNat 9 ((a - Reg.CE_COEF_LO 0) / 8)) (join64 v (s.stagedWord (a + 4))) s).unstage a n
  else if a = Reg.TB_RATE_LO then tbRateWrite v s
  else if inBlock a (Reg.AQ_UCMD 0) 0x200 8 then (s.unitWrite ((a - Reg.AQ_UCMD 0) / 0x200) ((a, v) :: upper)).unstage a n
  else match hiAlign a with
    | some k => if s.hiOpen && v.toNat % k == 0 then (s.commitWords a ((a, v) :: upper)).unstage a n
        else s.accErr true a
    | none =>
      let s := (s.commitWords a ((a, v) :: upper)).unstage a n
      if a = Reg.TB_PPSSEC_LO then { s with tb := { s.tb with ppsSecSet := true } } else s

/-- A 32-bit write at a setup-space offset; at an unimplemented one it is discarded (R7). -/
def State.hostWrite (s : State) (a : Nat) (v : Word) : State :=
  if (regRow? a).isNone then s
  else match s.multiAt a with
  | none => s.writeWord a v
  | some (b, n) => if a = b then s.writeLowest a n v else s.writeUpper a v

/-- A 32-bit read: the lowest word of a value latches the upper ones, which later reads return (R8); the ports of the staging
buffer, the trace and the first-fault record advance; an unimplemented offset reads 0 (R7). -/
def State.hostRead (s : State) (a : Nat) : State :=
  if (regRow? a).isNone then { s with rdata := s.hostWord a }
  else if a = Reg.CAL_STGDATA then calStgdataRead s
  else if a = Reg.EV_TRDATA then evTrdataRead s
  else if inBlock a (Reg.EV_FF 0) 4 8 then evFfRead (BitVec.ofNat 3 ((a - Reg.EV_FF 0) / 4)) s
  else match s.multiAt a with
    | none => { s with rdata := s.hostWord a }
    | some (b, n) =>
      if a = b then
        let sh := (List.range (n - 1)).foldl (fun (m : KMap Word) i => shadowPut m (a + 4 * (i + 1)) (s.hostWord (a + 4 * (i + 1)))) s.shadow
        { s with rdata := s.hostWord a, shadow := sh }
      else { s with rdata := regRead s.shadow a }

/-! ## The mailbox (R367, R368) -/

/-- The codes of *Vault services*. -/
def vaultServices : List Nat :=
  [0x01, 0x02, 0x03, 0x10, 0x11, 0x12, 0x20, 0x21, 0x22, 0x23, 0x24, 0x25, 0x26, 0x30, 0x31, 0x32, 0x33]

/-- The member at an address has joined and can be reached. -/
def State.reachable (s : State) (a : Nat) : Bool :=
  decide (a < 48) && s.flag (Reg.LN_MAP a) Fld.LN_MAP_present && s.flag (Reg.LN_MAP a) Fld.LN_MAP_reachable && (s.route a).isSome

/-- A setup request of the head to a member, with the next tag: offset, direction, data (R305). -/
def State.sendSetup (s : State) (hub off : Nat) (write : Bool) (v : Word) : Nat × State :=
  let t := s.ln.nextTag
  let s := { s with ln := { s.ln with nextTag := t + 1 } }
  (t.toNat, s.sendMessage 9 hub (leBytes 4 off ++ leBytes 4 (b2n write) ++ leBytes 4 v.toNat ++ leBytes 2 t.toNat))

/-- This hub's vault is to serve the request: one of an unknown service ends at once. -/
def State.mbServe (s : State) (service : Nat) : State := if vaultServices.contains service then s else s.mbDone 1 []

/-- The mailbox is busy with a new request. -/
def State.mbBusy (s : State) : State :=
  let s := { s with vt := { s.vt with resp := [], memberReq := none } }
  (s.wr Reg.MB_STAT 0x80000000#32).wr Reg.MB_RSPLEN 0

/-- The head forwards its request to a member: service and request bytes in one setup request (R368, log 25). -/
def State.sendMail (s : State) (hub : Nat) (v : Word) : Nat × State :=
  let t := s.ln.nextTag
  let s := { s with ln := { s.ln with nextTag := t + 1 } }
  (t.toNat, s.sendMessage 9 hub (leBytes 4 0 ++ leBytes 4 2 ++ leBytes 4 v.toNat ++ leBytes 2 t.toNat ++ s.mbReq s.mbLen))

/-- A forwarded request at a member: as if its bytes, its length and go had been written there. -/
def State.mailRequest (s : State) (tag : Nat) (v : Word) (req : List Byte) : State :=
  if s.flag Reg.MB_STAT Fld.MB_STAT_busy then s.accErr true 0
  else
    let words : KMap Word := (List.range (ceilDiv req.length 4)).foldl (fun m i =>
      let w := word (ofLe (slice req (4 * i) 4))
      if w = 0 then m else kset m i w) []
    let s := { s with vt := { s.vt with req := words, mailTag := some tag } }
    let s := (s.wr Reg.MB_REQLEN (word req.length)).wr Reg.MB_CMD (v &&& 0x003F00FF#32)
    s.mbBusy.mbServe (BitField.get Fld.MB_CMD_service v)

/-- MB_CMD.go: the own vault is to serve the request, or a member's. -/
def State.mbGo (s : State) (v : Word) : State :=
  let s := s.mbBusy
  let hub := BitField.get Fld.MB_CMD_hub v
  if hub = s.hubAddr || (s.pw.headSel && hub = 0) then s.mbServe (BitField.get Fld.MB_CMD_service v)
  else if s.pw.headSel && s.reachable hub then
    let (t, s) := s.sendMail hub v
    { s with vt := { s.vt with memberReq := some t } }
  else s.mbDone 7 []

/-- A write in BAR2. -/
def State.mbWrite (s : State) (off : Nat) (v : Word) : State :=
  if off = 0 then
    if cmdBit v Fld.MB_CMD_go then
      if s.flag Reg.MB_STAT Fld.MB_STAT_busy then s.accErr true 0
      else (s.wr Reg.MB_CMD (v &&& 0x003F00FF#32)).mbGo v
    else s.wr Reg.MB_CMD (v &&& 0x003F00FF#32)
  else if 0x1000 ≤ off && off < 0x8000 then
    let i := (off - 0x1000) / 4
    { s with vt := { s.vt with req := if v = 0 then kerase s.vt.req i else kset s.vt.req i v } }
  else if off < 0x1000 then s.plainWrite (Reg.MB_CMD + off) v
  else s

/-! ## The commands -/

/-- The upper half of a 64-bit write, which goes first (R6). -/
def State.upperFirst (s : State) (upper : Option Word) (write : Word → State → State) : State :=
  match upper with
  | some u => write u s
  | none => s

/-- One 32-bit write to a window of the host. -/
def State.barWrite (s : State) (bar : Bar) (off : Nat) (val : Word) : State :=
  match bar with
  | .setup => s.hostWrite off val
  | .mailbox => s.mbWrite off val

/-- REGISTER_WRITE: a naturally aligned 32-bit write, or a 64-bit one as two (R6). -/
def registerWrite (bar : Bar) (off : BitVec 20) (d : WriteData) (s : State) : State :=
  if !s.served || !wellAligned off.toNat (accWidth d.upper.isSome) then s
  else (s.upperFirst d.upper (fun u s => s.barWrite bar (off.toNat + 4) u)).barWrite bar off.toNat d.val
def execRegisterWrite (bar : Bar) (off : BitVec 20) (val : WriteData) (s : State) :
    Host.Outcome State Fault Refusal := fin (registerWrite bar off val s)

/-- MALFORMED_ACCESS (R6, R484). -/
def malformedAccess (write : Bool) (off : BitVec 20) (width : Nat) (s : State) : State :=
  if !s.served || wellAligned off.toNat width then s
  else
    let s := if write then s else { s with rdata := 0 }
    s.accErr write off.toNat
def execMalformedAccess (write : Bool) (off : BitVec 20) (width : Nat) (s : State) : Host.Outcome State Fault Refusal :=
  fin (malformedAccess write off width s)

/-- The upper half of a 64-bit read: `rdata` keeps the lower word (R6). -/
def State.readUpper (s : State) (read : State → State) : State :=
  let t := read s
  { t with rdata := s.rdata, hi := { t.hi with readHi := t.rdata } }

/-- LOW_WORD_READ_LATCH: a 32-bit read, or a 64-bit one as two, lower address first (R6). -/
def lowWordReadLatch (acc : ReadAcc) (s : State) : State :=
  let off := acc.off.toNat
  if s.served && wellAligned off (accWidth acc.both) && (s.multiAt off).any (fun x => x.1 == off) then
    let t := s.hostRead off
    if acc.both then t.readUpper (fun t => t.hostRead (off + 4)) else t
  else s
def execLowWordReadLatch (acc : ReadAcc) (s : State) : Host.Outcome State Fault Refusal := fin (lowWordReadLatch acc s)

/-- UPPER_WORD_WRITE_STAGE. -/
def upperWordWriteStage (off : BitVec 20) (val : Word) (s : State) : State :=
  if s.served && off.toNat % 4 == 0 && (s.multiAt off.toNat).any (fun x => x.1 != off.toNat) then s.hostWrite off.toNat val else s
def execUpperWordWriteStage (off : BitVec 20) (val : Word) (s : State) : Host.Outcome State Fault Refusal :=
  fin (upperWordWriteStage off val s)

/-- LOW_WORD_WRITE_COMMIT: a 32-bit write, or a 64-bit one as two, upper address first (R6). -/
def lowWordWriteCommit (off : BitVec 20) (d : WriteData) (s : State) : State :=
  if s.served && wellAligned off.toNat (accWidth d.upper.isSome) && (s.multiAt off.toNat).any (fun x => x.1 == off.toNat) then
    (s.upperFirst d.upper (fun u s => s.hostWrite (off.toNat + 4) u)).hostWrite off.toNat d.val
  else s
def execLowWordWriteCommit (off : BitVec 20) (val : WriteData) (s : State) : Host.Outcome State Fault Refusal :=
  fin (lowWordWriteCommit off val s)

/-- SETUP_REQUEST at a member: the access, as if over its own BAR0; a read is answered (R328, R486); or a mailbox request that the
head forwards (R368). -/
def setupRequest (write : Bool) (off : BitVec 20) (d : SetupData) (tag : BitVec 16) (s : State) : State :=
  if s.pw.headSel || !s.served then s
  else match d.mail with
  | some req => s.mailRequest tag.toNat d.val req
  | none =>
    if off.toNat % 4 != 0 then s.accErr write off.toNat
    else if write then s.hostWrite off.toNat d.val
    else
      let s := s.hostRead off.toNat
      s.sendMessage 10 0 (leBytes 2 tag.toNat ++ zeros 2 ++ leBytes 4 s.rdata.toNat)
def execSetupRequest (write : Bool) (off : BitVec 20) (data : SetupData) (tag : BitVec 16) (s : State) :
    Host.Outcome State Fault Refusal := fin (setupRequest write off data tag s)

/-- One 32-bit access to a slot of BAR4 (R24, R328, R486): slot 0 is the head's own space; an absent or unreachable member reads
0 and counts. -/
def State.slotAccess (s : State) (write : Bool) (hub off : Nat) (v : Word) : State :=
  if hub = 0 then (if write then s.hostWrite off v else s.hostRead off)
  else if !s.reachable hub then
    (if write then s else { s with rdata := 0 }).incSat Reg.LN_TUNTO 1
  else
    let (t, s) := s.sendSetup hub off write v
    if write then s else { s with ln := { s.ln with setups := s.ln.setups ++ [(t, hub)] } }

/-- BAR4_ACCESS. A 64-bit access is two: lower address first for a read, upper address first for a write. -/
def bar4Access (write : Bool) (off : BitVec 26) (width : Nat) (val : Word64) (s : State) : State :=
  let hub := off.toNat / 2 ^ 20
  let o := off.toNat % 2 ^ 20
  if !s.pw.headSel || !s.served then s
  else if !wellAligned o width then
    let s := if write then s else { s with rdata := 0 }
    s.accErr write o
  else if width = 4 then s.slotAccess write hub o (lo32 val)
  else if write then (s.slotAccess true hub (o + 4) (hi32 val)).slotAccess true hub o (lo32 val)
  else
    let t := (s.slotAccess false hub o 0).readUpper (fun t => t.slotAccess false hub (o + 4) 0)
    if hub = 0 || !s.reachable hub then t else { t with hi := { t.hi with hiTag := t.ln.setups.getLast?.map Prod.fst } }
def execBar4Access (write : Bool) (off : BitVec 26) (width : Nat) (val : Word64) (s : State) : Host.Outcome State Fault Refusal :=
  fin (bar4Access write off width val s)

/-- A pending read of a member completes with a word: the upper half of a 64-bit read goes beside the lower (R6, R328). -/
def State.setupDone (s : State) (tag : Nat) (val : Word) : State :=
  let s := { s with ln := { s.ln with setups := s.ln.setups.filter (fun p => p.1 != tag) } }
  if s.hi.hiTag == some tag then { s with hi := { s.hi with readHi := val, hiTag := none } } else { s with rdata := val }

/-- SETUP_RESPONSE: a pending read completes with its data; a forwarded mailbox request with the member's status and response. -/
def setupResponse (tag : BitVec 16) (d : SetupData) (s : State) : State :=
  if !s.pw.headSel then s
  else if s.ln.setups.any (fun p => p.1 == tag.toNat) then s.setupDone tag.toNat d.val
  else if s.vt.memberReq == some tag.toNat then s.mbDone (d.val.toNat % 256) (d.mail.getD [])
  else s
def execSetupResponse (tag : BitVec 16) (data : SetupData) (s : State) : Host.Outcome State Fault Refusal :=
  fin (setupResponse tag data s)

/-- SETUP_TIMEOUT: a pending read returns 0 and counts. -/
def setupTimeout (tag : BitVec 16) (s : State) : State :=
  if s.pw.headSel && s.ln.setups.any (fun p => p.1 == tag.toNat) then
    (s.setupDone tag.toNat 0).incSat Reg.LN_TUNTO 1
  else s
def execSetupTimeout (tag : BitVec 16) (s : State) : Host.Outcome State Fault Refusal := fin (setupTimeout tag s)

end Sys2Proof.Machine
end

