-- ==== Sys2Proof/Machine/Dispatch.lean ====
section
/-! DEFINITION. The meaning of every command, one arm for each constructor of Instr. -/

namespace Sys2Proof.Machine

def exec (i : Instr) (s : State) : Host.Outcome State Fault Refusal :=
  match i with
  | .registerWrite bar off val => Sys2Proof.Machine.execRegisterWrite bar off val s
  | .malformedAccess write off width => Sys2Proof.Machine.execMalformedAccess write off width s
  | .lowWordReadLatch acc => Sys2Proof.Machine.execLowWordReadLatch acc s
  | .upperWordWriteStage off val => Sys2Proof.Machine.execUpperWordWriteStage off val s
  | .lowWordWriteCommit off val => Sys2Proof.Machine.execLowWordWriteCommit off val s
  | .dieLinkCheck die pass => Sys2Proof.Machine.execDieLinkCheck die pass s
  | .tick inp => Sys2Proof.Machine.execTick inp s
  | .acquisitionStart => Sys2Proof.Machine.execAcquisitionStart s
  | .settleCountExpire n => Sys2Proof.Machine.execSettleCountExpire n s
  | .sealSigned => Sys2Proof.Machine.execSealSigned s
  | .frClrOvr => Sys2Proof.Machine.execFrClrOvr s
  | .frClrPeak => Sys2Proof.Machine.execFrClrPeak s
  | .doorbellPoll => Sys2Proof.Machine.execDoorbellPoll s
  | .doorbellCounterReadDone partner count => Sys2Proof.Machine.execDoorbellCounterReadDone partner count s
  | .producerIndexReadDone partner indices => Sys2Proof.Machine.execProducerIndexReadDone partner indices s
  | .inConfigWrite n reg val => Sys2Proof.Machine.execInConfigWrite n reg val s
  | .feCtlWrite val => Sys2Proof.Machine.execFeCtlWrite val s
  | .blankAssert b word => Sys2Proof.Machine.execBlankAssert b word s
  | .blankRelease b word => Sys2Proof.Machine.execBlankRelease b word s
  | .blankExtensionExpire b => Sys2Proof.Machine.execBlankExtensionExpire b s
  | .blankLong b => Sys2Proof.Machine.execBlankLong b s
  | .leadStale g => Sys2Proof.Machine.execLeadStale g s
  | .excCompliance n => Sys2Proof.Machine.execExcCompliance n s
  | .headlandWindow n peak => Sys2Proof.Machine.execHeadlandWindow n peak s
  | .openWire n => Sys2Proof.Machine.execOpenWire n s
  | .modOverload n word resetAfter upper => Sys2Proof.Machine.execModOverload n word resetAfter upper s
  | .modPllLockLoss => Sys2Proof.Machine.execModPllLockLoss s
  | .modPllLock => Sys2Proof.Machine.execModPllLock s
  | .retrim => Sys2Proof.Machine.execRetrim s
  | .trimComplete die figures => Sys2Proof.Machine.execTrimComplete die figures s
  | .clrOvl => Sys2Proof.Machine.execClrOvl s
  | .gleanerScheduleStart k => Sys2Proof.Machine.execGleanerScheduleStart k s
  | .glEdgeTrigger j t => Sys2Proof.Machine.execGlEdgeTrigger j t s
  | .glEdgeTimerExpire j => Sys2Proof.Machine.execGlEdgeTimerExpire j s
  | .glEdgeWrite j val => Sys2Proof.Machine.execGlEdgeWrite j val s
  | .glReq val => Sys2Proof.Machine.execGlReq val s
  | .glReqDue => Sys2Proof.Machine.execGlReqDue s
  | .gleanerConversionDone raw sat => Sys2Proof.Machine.execGleanerConversionDone raw sat s
  | .glClrDrop => Sys2Proof.Machine.execGlClrDrop s
  | .fastTapSample slot k words => Sys2Proof.Machine.execFastTapSample slot k words s
  | .calOpen => Sys2Proof.Machine.execCalOpen s
  | .calClose => Sys2Proof.Machine.execCalClose s
  | .calStgptrWrite val => Sys2Proof.Machine.execCalStgptrWrite val s
  | .calStgdataWrite val => Sys2Proof.Machine.execCalStgdataWrite val s
  | .calStgdataRead => Sys2Proof.Machine.execCalStgdataRead s
  | .calStghashUpdate => Sys2Proof.Machine.execCalStghashUpdate s
  | .calCommit => Sys2Proof.Machine.execCalCommit s
  | .calCommitComplete => Sys2Proof.Machine.execCalCommitComplete s
  | .tbStepCmd => Sys2Proof.Machine.execTbStepCmd s
  | .tbRateWrite val => Sys2Proof.Machine.execTbRateWrite val s
  | .refclkLoss => Sys2Proof.Machine.execRefclkLoss s
  | .refclkReturn is25 => Sys2Proof.Machine.execRefclkReturn is25 s
  | .ptpSync m => Sys2Proof.Machine.execPtpSync m s
  | .ptpDelayReqSend tx => Sys2Proof.Machine.execPtpDelayReqSend tx s
  | .ptpDelayResp resp corr logInt => Sys2Proof.Machine.execPtpDelayResp resp corr logInt s
  | .ptpAnnounce a => Sys2Proof.Machine.execPtpAnnounce a s
  | .ptpAnnounceTimeout => Sys2Proof.Machine.execPtpAnnounceTimeout s
  | .ppsInEdge t falling => Sys2Proof.Machine.execPpsInEdge t falling s
  | .ppsMissing => Sys2Proof.Machine.execPpsMissing s
  | .ppsOut => Sys2Proof.Machine.execPpsOut s
  | .holdoverEnter => Sys2Proof.Machine.execHoldoverEnter s
  | .timeStepApply => Sys2Proof.Machine.execTimeStepApply s
  | .timeCellSend port tx => Sys2Proof.Machine.execTimeCellSend port tx s
  | .timeCell port rx c => Sys2Proof.Machine.execTimeCell port rx c s
  | .ringRttMarker ns => Sys2Proof.Machine.execRingRttMarker ns s
  | .aqArm u => Sys2Proof.Machine.execAqArm u s
  | .aqStop u => Sys2Proof.Machine.execAqStop u s
  | .aqForce u => Sys2Proof.Machine.execAqForce u s
  | .trigInEdge p rising t => Sys2Proof.Machine.execTrigInEdge p rising t s
  | .drillSend ch => Sys2Proof.Machine.execDrillSend ch s
  | .drillMessage origin ch seq tp tdet => Sys2Proof.Machine.execDrillMessage origin ch seq tp tdet s
  | .drillAct => Sys2Proof.Machine.execDrillAct s
  | .trigOutPulseEnd o => Sys2Proof.Machine.execTrigOutPulseEnd o s
  | .autoTrigger u => Sys2Proof.Machine.execAutoTrigger u s
  | .plotCaptureComplete u => Sys2Proof.Machine.execPlotCaptureComplete u s
  | .plotPartHandoff u ecc => Sys2Proof.Machine.execPlotPartHandoff u ecc s
  | .loopStageWrite l off val => Sys2Proof.Machine.execLoopStageWrite l off val s
  | .loopApply l => Sys2Proof.Machine.execLoopApply l s
  | .ceLspWrite l val => Sys2Proof.Machine.execCeLspWrite l val s
  | .coefWrite k val => Sys2Proof.Machine.execCoefWrite k val s
  | .coefApply => Sys2Proof.Machine.execCoefApply s
  | .loopHoldExpire l => Sys2Proof.Machine.execLoopHoldExpire l s
  | .outputReadbackCheck o pin level => Sys2Proof.Machine.execOutputReadbackCheck o pin level s
  | .pwmPeriodStart j => Sys2Proof.Machine.execPwmPeriodStart j s
  | .pwmOnTimeEnd j => Sys2Proof.Machine.execPwmOnTimeEnd j s
  | .sharedValues frame entries => Sys2Proof.Machine.execSharedValues frame entries s
  | .hiEnable => Sys2Proof.Machine.execHiEnable s
  | .hiDisable => Sys2Proof.Machine.execHiDisable s
  | .hiStopComplete => Sys2Proof.Machine.execHiStopComplete s
  | .pcieFunctionState fn => Sys2Proof.Machine.execPcieFunctionState fn s
  | .nop f op d => Sys2Proof.Machine.execNop f op d s
  | .fence f d => Sys2Proof.Machine.execFence f d s
  | .fenceRelease f => Sys2Proof.Machine.execFenceRelease f s
  | .buf f d ecc => Sys2Proof.Machine.execBuf f d ecc s
  | .eventBufTimeout => Sys2Proof.Machine.execEventBufTimeout s
  | .setpoint f d => Sys2Proof.Machine.execSetpoint f d s
  | .create d block => Sys2Proof.Machine.execCreate d block s
  | .destroy d => Sys2Proof.Machine.execDestroy d s
  | .resume d => Sys2Proof.Machine.execResume d s
  | .flush d => Sys2Proof.Machine.execFlush d s
  | .ledger d => Sys2Proof.Machine.execLedger d s
  | .subreset d => Sys2Proof.Machine.execSubreset d s
  | .subresetComplete => Sys2Proof.Machine.execSubresetComplete s
  | .dmaFailure f addr => Sys2Proof.Machine.execDmaFailure f addr s
  | .completionWriteFailure f addr => Sys2Proof.Machine.execCompletionWriteFailure f addr s
  | .laneDown lane cause => Sys2Proof.Machine.execLaneDown lane cause s
  | .laneRetrain lane eye => Sys2Proof.Machine.execLaneRetrain lane eye s
  | .portTraining port => Sys2Proof.Machine.execPortTraining port s
  | .laneTrainingDone port t => Sys2Proof.Machine.execLaneTrainingDone port t s
  | .portDown port => Sys2Proof.Machine.execPortDown port s
  | .linkControlSend port => Sys2Proof.Machine.execLinkControlSend port s
  | .linkControlCell port c chk => Sys2Proof.Machine.execLinkControlCell port c chk s
  | .sequencedCell port cell skipped => Sys2Proof.Machine.execSequencedCell port cell skipped s
  | .replayTimeout port => Sys2Proof.Machine.execReplayTimeout port s
  | .laneRetryHigh port => Sys2Proof.Machine.execLaneRetryHigh port s
  | .delineationFound d => Sys2Proof.Machine.execDelineationFound d s
  | .delineationLost d => Sys2Proof.Machine.execDelineationLost d s
  | .eyeSweep lane width height => Sys2Proof.Machine.execEyeSweep lane width height s
  | .ringReform => Sys2Proof.Machine.execRingReform s
  | .census entries port => Sys2Proof.Machine.execCensus entries port s
  | .censusTimeout => Sys2Proof.Machine.execCensusTimeout s
  | .addressMap entries => Sys2Proof.Machine.execAddressMap entries s
  | .ringParameters p => Sys2Proof.Machine.execRingParameters p s
  | .cutNotice x y last port => Sys2Proof.Machine.execCutNotice x y last port s
  | .ringFlush port => Sys2Proof.Machine.execRingFlush port s
  | .tail port => Sys2Proof.Machine.execTail port s
  | .routeMarker m => Sys2Proof.Machine.execRouteMarker m s
  | .hubJoined serial strap position => Sys2Proof.Machine.execHubJoined serial strap position s
  | .hubLeft addr samples => Sys2Proof.Machine.execHubLeft addr samples s
  | .keyAgreementOffer port msg => Sys2Proof.Machine.execKeyAgreementOffer port msg s
  | .keyAgreementConfirm port confirm => Sys2Proof.Machine.execKeyAgreementConfirm port confirm s
  | .keyAgreementTimeout port => Sys2Proof.Machine.execKeyAgreementTimeout port s
  | .dmaWriteHeader member addr order data => Sys2Proof.Machine.execDmaWriteHeader member addr order data s
  | .dmaReadRequest member addr len tag => Sys2Proof.Machine.execDmaReadRequest member addr len tag s
  | .dmaReadData f tag data => Sys2Proof.Machine.execDmaReadData f tag data s
  | .interruptRequest member vector => Sys2Proof.Machine.execInterruptRequest member vector s
  | .bar4Access write off width val => Sys2Proof.Machine.execBar4Access write off width val s
  | .setupRequest write off data tag => Sys2Proof.Machine.execSetupRequest write off data tag s
  | .setupResponse tag data => Sys2Proof.Machine.execSetupResponse tag data s
  | .setupTimeout tag => Sys2Proof.Machine.execSetupTimeout tag s
  | .lnTestWrite k val => Sys2Proof.Machine.execLnTestWrite k val s
  | .lnTestInject k => Sys2Proof.Machine.execLnTestInject k s
  | .prbsError lane errors bits firstInRun => Sys2Proof.Machine.execPrbsError lane errors bits firstInRun s
  | .compress f d => Sys2Proof.Machine.execCompress f d s
  | .expand f d => Sys2Proof.Machine.execExpand f d s
  | .verify f d => Sys2Proof.Machine.execVerify f d s
  | .balerItemDone comp src dst fault => Sys2Proof.Machine.execBalerItemDone comp src dst fault s
  | .blClr => Sys2Proof.Machine.execBlClr s
  | .status => Sys2Proof.Machine.execStatus s
  | .getNonce => Sys2Proof.Machine.execGetNonce s
  | .getCerts => Sys2Proof.Machine.execGetCerts s
  | .enrol => Sys2Proof.Machine.execEnrol s
  | .login => Sys2Proof.Machine.execLogin s
  | .logout => Sys2Proof.Machine.execLogout s
  | .authorise => Sys2Proof.Machine.execAuthorise s
  | .setUserKey => Sys2Proof.Machine.execSetUserKey s
  | .replaceOwner => Sys2Proof.Machine.execReplaceOwner s
  | .rotateSealKey => Sys2Proof.Machine.execRotateSealKey s
  | .zeroise => Sys2Proof.Machine.execZeroise s
  | .tamperClear => Sys2Proof.Machine.execTamperClear s
  | .microcodeStart => Sys2Proof.Machine.execMicrocodeStart s
  | .microcodeData => Sys2Proof.Machine.execMicrocodeData s
  | .microcodeFinish load => Sys2Proof.Machine.execMicrocodeFinish load s
  | .microcodeSessionTimeout => Sys2Proof.Machine.execMicrocodeSessionTimeout s
  | .exportCal => Sys2Proof.Machine.execExportCal s
  | .configImage => Sys2Proof.Machine.execConfigImage s
  | .selftest fail => Sys2Proof.Machine.execSelftest fail s
  | .tamperLog => Sys2Proof.Machine.execTamperLog s
  | .mailboxMemberTimeout => Sys2Proof.Machine.execMailboxMemberTimeout s
  | .nonceExpire => Sys2Proof.Machine.execNonceExpire s
  | .authorisationLapse => Sys2Proof.Machine.execAuthorisationLapse s
  | .authLockoutEnd => Sys2Proof.Machine.execAuthLockoutEnd s
  | .tamperDetect found => Sys2Proof.Machine.execTamperDetect found s
  | .continuousTestFail code => Sys2Proof.Machine.execContinuousTestFail code s
  | .svSafeCmd => Sys2Proof.Machine.execSvSafeCmd s
  | .svRelease => Sys2Proof.Machine.execSvRelease s
  | .releaseSafeNCheck high => Sys2Proof.Machine.execReleaseSafeNCheck high s
  | .proofTest => Sys2Proof.Machine.execProofTest s
  | .proofTestDone result => Sys2Proof.Machine.execProofTestDone result s
  | .rejoin => Sys2Proof.Machine.execRejoin s
  | .supplyLimit target mv => Sys2Proof.Machine.execSupplyLimit target mv s
  | .dieTempLimit sensor => Sys2Proof.Machine.execDieTempLimit sensor s
  | .lockstepMismatch => Sys2Proof.Machine.execLockstepMismatch s
  | .protectedMemEcc => Sys2Proof.Machine.execProtectedMemEcc s
  | .clockCheckFail => Sys2Proof.Machine.execClockCheckFail s
  | .driveReadbackFail => Sys2Proof.Machine.execDriveReadbackFail s
  | .safeNExternal => Sys2Proof.Machine.execSafeNExternal s
  | .permissiveLost p => Sys2Proof.Machine.execPermissiveLost p s
  | .twinFrame tf => Sys2Proof.Machine.execTwinFrame tf s
  | .twinCompareDeadline => Sys2Proof.Machine.execTwinCompareDeadline s
  | .diagnosisReport frame fault => Sys2Proof.Machine.execDiagnosisReport frame fault s
  | .twinDecision => Sys2Proof.Machine.execTwinDecision s
  | .failoverGapExpire => Sys2Proof.Machine.execFailoverGapExpire s
  | .ilkIEdge high => Sys2Proof.Machine.execIlkIEdge high s
  | .ilkClaim rings samples db => Sys2Proof.Machine.execIlkClaim rings samples db s
  | .setpointRelay f seq loop frame val => Sys2Proof.Machine.execSetpointRelay f seq loop frame val s
  | .relayAcknowledgement f seq => Sys2Proof.Machine.execRelayAcknowledgement f seq s
  | .snapshot snap => Sys2Proof.Machine.execSnapshot snap s
  | .twinRelease tick => Sys2Proof.Machine.execTwinRelease tick s
  | .twinResyncDone => Sys2Proof.Machine.execTwinResyncDone s
  | .beaconUpdate => Sys2Proof.Machine.execBeaconUpdate s
  | .beaconStep e => Sys2Proof.Machine.execBeaconStep e s
  | .beaconFault j lamp => Sys2Proof.Machine.execBeaconFault j lamp s
  | .beaconClear mask => Sys2Proof.Machine.execBeaconClear mask s
  | .eventRunClose => Sys2Proof.Machine.execEventRunClose s
  | .evTrptrWrite val => Sys2Proof.Machine.execEvTrptrWrite val s
  | .evTrdataRead => Sys2Proof.Machine.execEvTrdataRead s
  | .evFfRead w => Sys2Proof.Machine.execEvFfRead w s
  | .xfer f d => Sys2Proof.Machine.execXfer f d s
  | .xferComplete x => Sys2Proof.Machine.execXferComplete x s
  | .setpointFrameShift rx => Sys2Proof.Machine.execSetpointFrameShift rx s
  | .observerSelectFall => Sys2Proof.Machine.execObserverSelectFall s
  | .observerSelectRise bits => Sys2Proof.Machine.execObserverSelectRise bits s
  | .observerPermitLapse => Sys2Proof.Machine.execObserverPermitLapse s
  | .powerOn straps => Sys2Proof.Machine.execPowerOn straps s
  | .fallowExit start => Sys2Proof.Machine.execFallowExit start s
  | .powerFail vbatOk => Sys2Proof.Machine.execPowerFail vbatOk s
  | .vbatLoss => Sys2Proof.Machine.execVbatLoss s
  | .startUpComplete => Sys2Proof.Machine.execStartUpComplete s
  | .resetN release => Sys2Proof.Machine.execResetN release s
  | .perst => Sys2Proof.Machine.execPerst s
  | .functionLevelReset => Sys2Proof.Machine.execFunctionLevelReset s
  | .holdEnter => Sys2Proof.Machine.execHoldEnter s
  | .holdExit => Sys2Proof.Machine.execHoldExit s
  | .runEnable => Sys2Proof.Machine.execRunEnable s
  | .consistencyCheckDone view => Sys2Proof.Machine.execConsistencyCheckDone view s
  | .runDisable => Sys2Proof.Machine.execRunDisable s
  | .linkCheckReq passA passB => Sys2Proof.Machine.execLinkCheckReq passA passB s
  | .gleanerRefCheck => Sys2Proof.Machine.execGleanerRefCheck s
  | .glbReqComplete => Sys2Proof.Machine.execGlbReqComplete s
  | .ptpPortFaulty => Sys2Proof.Machine.execPtpPortFaulty s
  | .ppsOutFall => Sys2Proof.Machine.execPpsOutFall s
  | .helloTimeout port => Sys2Proof.Machine.execHelloTimeout port s
  | .rejoinTimeout => Sys2Proof.Machine.execRejoinTimeout s
  | .perstRelease => Sys2Proof.Machine.execPerstRelease s
  | .pcieLinkTrained width t => Sys2Proof.Machine.execPcieLinkTrained width t s

end Sys2Proof.Machine
end

