-- ==== Sys2Proof/Machine/Step.lean ====
section
/-! DEFINITION. The step of the block: the command at the front of the queue takes effect; on an empty queue one period
of the 500 MHz counter clock passes (R170, log 1). -/

namespace Sys2Proof.Machine

/-- The hub takes the oldest waiting command.  With none waiting, the counter of R170 advances by one (log 1: DESIGN
CHOICE), while the hub die is powered. -/
def step (s : State) : Host.Outcome State Fault Refusal :=
  match s.pending with
  | c :: rest => exec c { s with pending := rest }
  | [] => .next (idleTick s)

/-- The state with the command that a word spells put at the front of the queue; the table gives no row any bits, so no
word spells a command. -/
def State.withFetchWord (s : State) (nbits w : Nat) : State :=
  match decodeTableWord nbits w with
  | some c => { s with pending := c :: s.pending }
  | none => s

end Sys2Proof.Machine
end

