-- ==== Sys2Proof/Machine/Drive.lean ====
section
/-! DEFINITION. What the front end drives into an input's balls and into the lead loops, word by word of the present interval: the
EXCn and SNSn columns of *Input modes*, the pull currents, the test currents, and where a driver is in high impedance (R50,
R51, R54, R64, R72, R73, R81, R85, R106, R463). -/

namespace Sys2Proof.Machine

/-- The excitation driver of an input. -/
inductive ExcDrive where
  | highZ
  /-- Held at the SNSn potential: no bias across the sensor. -/
  | held
  /-- The amplitude of code `amp` (R54), above or below the SNSn potential. -/
  | excited (positive : Bool) (amp : Nat)
  deriving DecidableEq, Repr

/-- The pull current at EXCn, in µA: sourced into it or sunk from it (R72). -/
inductive PullDrive where
  | off
  | source (uA : Nat)
  | sink (uA : Nat)
  deriving DecidableEq, Repr

/-- The balls of one input. -/
structure InputDrive where
  exc : ExcDrive
  /-- The limit of the driver's output current, in nA, in excited resistive and self-test modes (R53). -/
  excLimit : Option Nat
  pull : PullDrive
  /-- The test current into SNSn in eighths of range full scale, signed; 0 where there is none (R81). -/
  test : Int
  /-- The TIA's range; none where the TIA is powered down (R463). -/
  tia : Option Nat
  deriving DecidableEq, Repr

/-- The measurement chain is powered: not off, in reset or in Hold (R463). -/
def State.chainOn (s : State) : Bool := s.alive && !s.pw.inReset && s.pw.power != .hold

/-- Word `w` of the interval lies in the diagnostic window of input `n`, or in the guard words up to the next tick (R73). -/
def State.inWindow (s : State) (n w : Nat) : Bool :=
  s.running && s.inEn n && s.pullOn n && decide ((s.windowSpan n).first ≤ w)
def State.pulledWord (s : State) (n w : Nat) : Bool := s.inWindow n w && decide (w ≤ (s.windowSpan n).last)

/-- The pull current of the code in IN_CFG (R72). -/
def State.pullOf (s : State) (n code : Nat) : PullDrive :=
  let i := if s.flag (Reg.IN_CFG n) Fld.IN_CFG_pull_mag then 100 else 10
  if code = 1 then .source i else if code = 2 then .sink i else .off

/-- The pull current: the configured one in the window; in a headland sense the configured one, or 10 µA up where none is (R106);
none on a disabled die (R85). -/
def State.pullDrive (s : State) (n w : Nat) : PullDrive :=
  if !s.dieEn (n / 128) then .off
  else if s.sensing n then (if s.inPull n = 1 || s.inPull n = 2 then s.pullOf n (s.inPull n) else .source 10)
  else if s.pulledWord n w then s.pullOf n (s.inPull n)
  else .off

/-- The driver of EXCn in word `w` (*Input modes*; R51, R73, R85, R106). -/
def State.excDrive (s : State) (n w : Nat) : ExcDrive :=
  if !s.inEn n || !s.dieEn (n / 128) || s.sensing n || s.inWindow n w then .highZ
  else match s.inMode n with
    | 0 => .excited (!s.negative n w) (s.inAmp n)
    | 1 => .held
    | 2 => .held
    | _ => .highZ

/-- The driver limits its output current to 1.25 × range full scale (R53). -/
def State.excLimit (s : State) (n w : Nat) : Option Nat :=
  if s.excDrive n w != .highZ && (s.inMode n == 0 || s.inMode n == 2) then some (1250 * fsUA (s.inRange n)) else none

/-- The self-test current: its level of 1, 2, 4 or 6 eighths, reversed with k (R81). -/
def State.testDrive (s : State) (n w : Nat) : Int :=
  if s.inEn n && s.inMode n == 2 && s.dieEn (n / 128) then
    let v : Int := ([1, 2, 4, 6].getD (s.fget (Reg.IN_CFG n) Fld.IN_CFG_st_level) 0 : Nat)
    if s.negative n w then -v else v
  else 0

/-- What the front end drives at input `n` in word `w`; a disabled input's TIA is held at range 6 (R51). -/
def State.inputDrive (s : State) (n w : Nat) : InputDrive :=
  if !s.chainOn then { exc := .highZ, excLimit := none, pull := .off, test := 0, tia := none }
  else { exc := s.excDrive n w, excLimit := s.excLimit n w, pull := s.pullDrive n w, test := s.testDrive n w
         tia := some (if s.inEn n then s.inRange n else 6) }

/-- The lead-loop current of each FE_LEADCTL.ild code, in µA. -/
def ildUA (code : Nat) : Nat := [1000, 250, 4000].getD code 0

/-- The test current into LDAg, in µA, with LDBg at the die's analog ground: while the gleaner converts that loop, on a powered and
enabled die (R64, R85, R463). -/
def State.leadDrive (s : State) (g : Nat) : Nat :=
  if s.chainOn && s.dieEn (g / 16) && s.gl.running.any (fun c => isLead c.target && c.target == g) then
    ildUA (s.fget Reg.FE_LEADCTL Fld.FE_LEADCTL_ild)
  else 0

end Sys2Proof.Machine
end

