-- ==== Sys2Proof/Safety.lean ====
section
/-! DEFINITION. What counts as a safe state of the hub, and the terms in which the statements speak of what a command
changes: the output enables (R392), the canonical form of the register map, and an occurrence of an event (R433, R438). -/

namespace Sys2Proof.Machine

/-- An OEN pin is high only where R392 lets the supervisor drive it. -/
def State.oenOk (s : State) : Prop := s.sv.oen &&& s.oenAllowed = s.sv.oen

/-- The register map is in its canonical form. -/
def State.regsOk (s : State) : Prop := regsWf s.regs = true

/-- The registers that an occurrence of an event may change: those of chapter 16, and the ledger words of the EVENT
furrow's completions (R280). -/
def eventReg (a : Nat) : Bool := (decide (0x70000 ≤ a) && decide (a < 0x70800)) || (decide (0x800 ≤ a) && decide (a < 0x1000))

/-- From `s` to `t` nothing changed but what reporting an event changes: registers of chapter 16 and the ledger, the event
machinery, the furrows with their pending messages, what goes out and, on a member, the cells it goes in. -/
structure EventOnly (s t : State) : Prop where
  shadow : t.shadow = s.shadow
  staged : t.staged = s.staged
  rdata : t.rdata = s.rdata
  pw : t.pw = s.pw
  tb : t.tb = s.tb
  fr : t.fr = s.fr
  fe : t.fe = s.fe
  gl : t.gl = s.gl
  cal : t.cal = s.cal
  aq : t.aq = s.aq
  ce : t.ce = s.ce
  bl : t.bl = s.bl
  vt : t.vt = s.vt
  sv : t.sv = s.sv
  bc : t.bc = s.bc
  sp : t.sp = s.sp
  pending : t.pending = s.pending
  hi : t.hi = { s.hi with furrows := t.hi.furrows, pba := t.hi.pba }
  ln : s.pw.headSel = true → t.ln = s.ln
  rd : ∀ a, eventReg a = false → t.rd a = s.rd a

/-- One occurrence of source `n` (R433, R438): beside what EventOnly allows, its occurrence number advances by one, no other
source's does, and the newest entry of the fault trace is its record. -/
structure Raised (n obj cause aux8 : Nat) (data : Word64) (s t : State) : Prop where
  frame : EventOnly s t
  occ : t.rd (Reg.EV_OCC n) = s.rd (Reg.EV_OCC n) + 1
  others : ∀ m, m < 64 → m ≠ n → t.rd (Reg.EV_OCC m) = s.rd (Reg.EV_OCC m)
  traced : t.ev.trace.getLast? = some { src := n, hub := s.hubAddr, rflags := 0, occ := s.rd (Reg.EV_OCC n), time := s.now
                                        obj := obj, cause := cause, aux8 := aux8, data := data }

/-- An occurrence whose detail field is blank: it holds the number of the open frame, or 0 (R434). -/
def RaisedBlank (n obj cause : Nat) (s t : State) : Prop := Raised n obj cause 0 s.frameData s t

/-- The command answers the next state `u`, its output enables gated by the supervisor (R392). -/
def Becomes (i : Instr) (s u : State) : Prop := exec i s = .next (supervise u)

/-- The command answers a next state that, before the supervisor gates its output enables, has a property. -/
def Ends (i : Instr) (s : State) (P : State → Prop) : Prop := ∃ u, Becomes i s u ∧ P u

/-- A cause of safe state is latched (R395, R396): its bit is set and no other cause's changes; the first cause is noted where
none stands; SAFE_STATE (35) is raised; in Run the hub is in safe state with its output enables low, and outside Run the
supervisor is as before. -/
structure Latches (b : Nat) (s u : State) : Prop where
  set : u.hasCause b = true
  others : ∀ c, c ≠ b → u.hasCause c = s.hasCause c
  first : u.rd Reg.SV_FIRST = if s.flag Reg.SV_FIRST Fld.SV_FIRST_valid then s.rd Reg.SV_FIRST
    else causeWord b s.frameData.toNat
  event : u.rd (Reg.EV_OCC 35) = s.rd (Reg.EV_OCC 35) + 1
  run : s.inRun = true → u.sv.safe = true ∧ u.sv.oen = 0
  rest : s.inRun = false → u.sv = s.sv

/-- Furrow `f` holds no fetched item, and its next descriptor can be fetched. -/
structure Fetches (s : State) (f : Nat) (fu : Furrow) : Prop where
  listed : s.furrow? f = some fu
  empty : fu.items = []
  may : s.mayFetch fu = true

/-- The state once the next descriptor of a furrow without fetched items has been read from its ring (R274). -/
def State.fetched (s : State) (f : Nat) (fu : Furrow) (op : Byte) (d : Desc) (block : Option (List Byte)) : State :=
  (s.readNow (.descriptor f) (fu.descAddr fu.nextFetch) 32).setFurrow f (Furrow.fetch fu op d block)

/-- The operational vault serves a request of a service, which has its length (R364, R367). -/
def State.asks (s : State) (code len : Nat) : Prop := s.serving code = true ∧ s.vaultOk = true ∧ s.mbLen = len

/-- The operational vault serves a request of a service of the user within a session, without a body (R360). -/
def State.userAsks (s : State) (code : Nat) : Prop := s.asks code 0 ∧ s.vt.session = true

/-- A microcode request of a step: in Idle, of its length, its reserved bytes 0 (R365, R366). -/
structure UcodeAsks (s : State) (step len : Nat) : Prop where
  serving : s.serving 0x26 = true
  ok : s.vaultInError = false
  idle : s.inIdle = true
  isStep : ((s.mbReq 16).getD 0 0).toNat = step
  low : ofLe (slice (s.mbReq 16) 1 3) = 0
  high : ofLe (slice (s.mbReq 16) 12 4) = 0
  data : step ≠ 2 → ofLe (slice (s.mbReq 16) 8 4) = 0
  last : step = 3 → ofLe (slice (s.mbReq 16) 4 4) = 0
  len : s.mbLen = len

/-- The registers whose write has a rule or a command of its own, beside the multi-word values (R1). -/
def ownRule (a : Nat) : Bool :=
  [Reg.GLB_CTL, Reg.GLB_REQ, Reg.TB_CMD, Reg.FR_CTL, Reg.GL_CTL, Reg.GL_REQ, Reg.FE_CTL, Reg.CV_CTL, Reg.CV_STAT, Reg.AQ_DRILLCMD,
    Reg.CE_CMD, Reg.HI_CTL, Reg.HI_MGCFG, Reg.LN_CTL, Reg.BL_CTL, Reg.VT_SECCFG, Reg.SV_CMD, Reg.SV_CAUSE, Reg.BC_CMD, Reg.CAL_CMD,
    Reg.CAL_STGPTR, Reg.CAL_STGDATA, Reg.EV_TRPTR].contains a
  || inBlock a (Reg.GL_EDGE 0) 4 4 || inBlock a (Reg.FE_BLANKCFG 0) 4 4 || inBlock a (Reg.IN_CFG 0) 0x20 256
  || inBlock a (Reg.AQ_PINCFG 0) 4 4 || inBlock a (Reg.AQ_UCMD 0) 0x200 8 || inBlock a (Reg.CE_LCTL 0) 0x80 32
  || inBlock a (Reg.HI_MSIX_ALO 0) 16 64 || inBlock a (Reg.LN_TEST 0) 16 10 || inBlock a (Reg.EV_CFG 0) 16 64

end Sys2Proof.Machine
end

