-- ==== Sys2Proof/Certificates/Slice0/Obligations.lean ====
section
/-! DEFINITION. The statements for the provers.  Each says of its commands that they complete, under conditions on the state
and the operands alone, and what they leave: `Becomes` gives the whole next state, so every register, field and queue
that its right-hand side does not name is as before; `Ends` names what changed through a relation. -/

open Sys2Proof Sys2Proof.Machine

/-! ## Front ends and modulators (chapters 3 and 4) -/

/-- DIE_LINK_CHECK (R14, R427): on a powered hub the link bit follows the check; a pass ends the die's reset; a failure
latches its bit, marks the interval and raises DIE_LINK_A (13) or DIE_LINK_B (14).
Checks on request (R485): a link check judges both dies and notes its outcome, the reference check asks for its first conversion, and a
request whose parts are done clears go and shows the outcome. -/
def Obligations.DieLink : Prop :=
  (∀ s : State, s.alive = true → s.pw.inReset = false →
     Becomes (.dieLinkCheck .a true) s
         (let u := (s.setFlag Reg.FE_STAT Fld.FE_STAT_a_link true).noteTrim; { u with fe := { u.fe with resetA := false } })
     ∧ Becomes (.dieLinkCheck .b true) s
         (let u := (s.setFlag Reg.FE_STAT Fld.FE_STAT_b_link true).noteTrim; { u with fe := { u.fe with resetB := false } })
     ∧ Ends (.dieLinkCheck .a false) s (fun u =>
         let v := ((s.setFlag Reg.FE_STAT Fld.FE_STAT_a_link false).noteTrim).setFlag Reg.FE_STAT Fld.FE_STAT_a_fail true
         RaisedBlank 13 0 0 { v with fe := { v.fe with failA := true } } u)
     ∧ Ends (.dieLinkCheck .b false) s (fun u =>
         let v := ((s.setFlag Reg.FE_STAT Fld.FE_STAT_b_link false).noteTrim).setFlag Reg.FE_STAT Fld.FE_STAT_b_fail true
         RaisedBlank 14 0 0 { v with fe := { v.fe with failB := true } } u))
  ∧ (∀ (s : State) (a b : Bool),
     let go := s.wr Reg.GLB_REQ 0x80000000#32
     let checked := (go.linkChecked 0 a).linkChecked 1 b
     (s.chainCheckOk = true → Becomes (.linkCheckReq a b) s
         { checked with pw := { checked.pw with reqTargets := [], reqResult := b2n (!a) + 2 * b2n (!b) } })
     ∧ (s.chainCheckOk = false → Becomes (.linkCheckReq a b) s (s.accErr true Reg.GLB_REQ)
         ∧ Becomes .gleanerRefCheck s (s.accErr true Reg.GLB_REQ))
     ∧ (s.chainCheckOk = true → s.flag Reg.GL_REQ Fld.GL_REQ_go = false → Ends .gleanerRefCheck s (fun u =>
         u.rd Reg.GLB_REQ = 0x80000001#32 ∧ u.pw.reqTargets = [0x5D, 0x5E, 0x5F]
         ∧ u.gl.reqDue = some ((s.now + 1000 * nsU + slotU - 1) / slotU * slotU)))
     ∧ (s.flag Reg.GLB_REQ Fld.GLB_REQ_go = true → s.pw.reqTargets = [] → s.pw.reqResult < 8 → Ends .glbReqComplete s (fun u =>
         u.flag Reg.GLB_REQ Fld.GLB_REQ_go = false ∧ u.fget Reg.GLB_REQ Fld.GLB_REQ_result = s.pw.reqResult))
     ∧ (s.flag Reg.GLB_REQ Fld.GLB_REQ_go = false → Becomes .glbReqComplete s s))

/-- IN_CONFIG_WRITE (R88) and FE_CTL_WRITE (R61, R85): outside Run a write stands at once; in Run an accepted write waits for
the next tick, and a refused one is discarded with acc_err (R3).
What the front end drives (R50, R51, R85): a disabled input, or one of a disabled die, is in high impedance, with its TIA at range 6
where it is disabled itself; an enabled one is driven by its mode. -/
def Obligations.ConfigWrites : Prop :=
  ∀ (s : State) (n : BitVec 8) (reg : BitVec 3) (val : Word),
    let off := Reg.IN_CFG n.toNat + 4 * reg.toNat
    let v := val &&& inMask n.toNat reg.toNat
    let keeps := ¬ (s.pended.inEn n.toNat = true ∧ (s.pended.wr off v).inEn n.toNat = false ∧ s.sampled n.toNat = true)
    let good := codesOk (s.pended.wr off v) n.toNat reg.toNat && State.inputOk s.pended (s.pended.wr off v) n.toNat
    let loses := s.pended.inEn n.toNat = true ∧ (s.pended.wr off v).inEn n.toNat = false ∧ s.captured n.toNat = true
    (s.inRun = false → keeps → Becomes (.inConfigWrite n reg val) s (s.wr off v))
    ∧ (s.inRun = true → keeps → ¬ loses → good = true →
        Becomes (.inConfigWrite n reg val) s
          (({ s with fe := { s.fe with pend := s.fe.pend ++ [(off, v)] } }).wr Reg.FR_BUDGET
            (word (s.pended.wr off v).windowCost)))
    ∧ (s.inRun = true → loses ∨ good = false →
        Becomes (.inConfigWrite n reg val) s (s.accErr true off))
    ∧ (¬ keeps → Becomes (.inConfigWrite n reg val) s (s.accErr true off))
    ∧ (s.inRun = false → Becomes (.feCtlWrite val) s (s.wr Reg.FE_CTL (val &&& 3#32)))
    ∧ (s.inRun = true → (s.pended.wr Reg.FE_CTL (val &&& 3#32)).dieOver = [] →
        Becomes (.feCtlWrite val) s { s with fe := { s.fe with pend := s.fe.pend ++ [(Reg.FE_CTL, val &&& 3#32)] } })
    ∧ (s.inRun = true → (s.pended.wr Reg.FE_CTL (val &&& 3#32)).dieOver ≠ [] →
        Becomes (.feCtlWrite val) s (s.accErr true Reg.FE_CTL))
    ∧ (s.chainOn = true → s.inEn n.toNat = false → ∀ w, s.excDrive n.toNat w = .highZ ∧ (s.inputDrive n.toNat w).tia = some 6)
    ∧ (s.chainOn = true → s.inEn n.toNat = true → s.dieEn (n.toNat / 128) = false → ∀ w, s.excDrive n.toNat w = .highZ)
    ∧ (s.inEn n.toNat = true → s.dieEn (n.toNat / 128) = true → s.sensing n.toNat = false → s.pullOn n.toNat = false → ∀ w,
        (s.inMode n.toNat = 0 → s.excDrive n.toNat w = .excited (!s.negative n.toNat w) (s.inAmp n.toNat))
        ∧ (s.inMode n.toNat = 1 ∨ s.inMode n.toNat = 2 → s.excDrive n.toNat w = .held))

/-- The blanking inputs (R69, R70, R71): a group begins to blank two words after its pin, one whose pin comes
back within its extension blanks on, runs on for its extension after the release, ends when that has expired, and a group that blanks beyond the set count of whole frames raises BLANK_LONG (12). -/
def Obligations.Blanking : Prop :=
  ∀ (s : State) (b : BitVec 2) (w l : Nat),
    let x := s.blank b.toNat
    let ext := s.fget (Reg.FE_BLANKCFG b.toNat) Fld.FE_BLANKCFG_ext
    let pol := s.flag (Reg.FE_BLANKCFG b.toNat) Fld.FE_BLANKCFG_pol
    (s.alive = true → s.flag (Reg.FE_BLANKCFG b.toNat) Fld.FE_BLANKCFG_en = true → x.asserted = false → x.active = false →
      Becomes (.blankAssert b w) s (s.setBlank b.toNat
        { x with pin := !pol, asserted := true, active := true, first := w + 2, last := none, frames := 0, longRaised := false }))
    ∧ (s.alive = true → s.flag (Reg.FE_BLANKCFG b.toNat) Fld.FE_BLANKCFG_en = true → x.asserted = false → x.active = true → x.last = some l →
        w + 2 ≤ l + 1 → Becomes (.blankAssert b w) s (s.setBlank b.toNat { x with pin := !pol, asserted := true, last := none }))
    ∧ (s.alive = true → s.flag (Reg.FE_BLANKCFG b.toNat) Fld.FE_BLANKCFG_en = true → x.asserted = false → x.active = true → x.last = some l →
        l + 1 < w + 2 → Becomes (.blankAssert b w) s (s.setBlank b.toNat
          { x with pin := !pol, asserted := true, last := none, first := w + 2, frames := 0, longRaised := false
                   spans := x.spans ++ [{ first := x.first, last := l, upper := false }] }))
    ∧ (s.alive = true → x.asserted = true → w + ext ≤ x.first → Becomes (.blankRelease b w) s (s.setBlank b.toNat
        { x with pin := pol, asserted := false, active := false, last := none, frames := 0, longRaised := false }))
    ∧ (s.alive = true → x.asserted = true → x.first < w + ext → 0 < ext →
        Becomes (.blankRelease b w) s (s.setBlank b.toNat { x with pin := pol, asserted := false, last := some (w + ext - 1) }))
    ∧ (s.alive = true → x.asserted = true → x.first < w → ext = 0 →
        Becomes (.blankRelease b w) s (s.setBlank b.toNat
          { x with pin := pol, asserted := false, active := false, last := none, frames := 0, longRaised := false
                   spans := x.spans ++ [{ first := x.first, last := w - 1, upper := false }] }))
    ∧ (x.active = true → x.last = some l → x.first ≤ l →
        Becomes (.blankExtensionExpire b) s (s.setBlank b.toNat
          { x with active := false, last := none, frames := 0, longRaised := false
                   spans := x.spans ++ [{ first := x.first, last := l, upper := false }] }))
    ∧ (x.active = true → x.longRaised = false → s.blankLongLimit ≠ 0 → s.blankLongLimit ≤ x.frames + 1 →
        Ends (.blankLong b) s (RaisedBlank 12 b.toNat 0 (s.setBlank b.toNat { x with longRaised := true })))

/-- Broken wires and leads (R66, R73 to R79): compliance marks the frame and is raised once an episode (EXC_COMPLIANCE, 9); a
headland window is judged against ow_thr in units of 10 mV; an open wire is declared once (OPEN_WIRE, 8), by its floor or by
its window; a lead group is stale beyond max_age. -/
def Obligations.BrokenWires : Prop :=
  ∀ (s : State) (n : BitVec 8) (peak : Nat) (g : BitVec 5),
    let i := n.toNat
    let x := s.inSt i
    let declared := (s.setFlag (Reg.IN_STAT i) Fld.IN_STAT_open true).setFlag (Reg.IN_STAT i) Fld.IN_STAT_open_lat true
    (s.acquiring i = true → s.inMode i = 0 → x.complEp = true →
      Becomes (.excCompliance n) s ((s.setIn i { x with compl := true }).setFlag (Reg.IN_STAT i) Fld.IN_STAT_compl_lat true))
    ∧ (s.acquiring i = true → s.inMode i = 0 → x.complEp = false →
        Ends (.excCompliance n) s (RaisedBlank 9 i 0
          ((s.setIn i { x with compl := true, complEp := true }).setFlag (Reg.IN_STAT i) Fld.IN_STAT_compl_lat true)))
    ∧ (s.acquiring i = true → (s.inPull i = 1 ∨ s.inPull i = 2) → (s.inMode i = 0 ∨ s.inMode i = 1) →
        Becomes (.headlandWindow n peak) s
          (s.setIn i { x with window := some (decide (s.fget (Reg.IN_LIM i) Fld.IN_LIM_ow_thr * 10000 < peak)) }))
    ∧ (s.acquiring i = true → s.flag (Reg.IN_STAT i) Fld.IN_STAT_open = true → Becomes (.openWire n) s s)
    ∧ (s.acquiring i = true → s.flag (Reg.IN_STAT i) Fld.IN_STAT_open = false → s.floorDeclares i = true →
        Ends (.openWire n) s (RaisedBlank 8 i 1 declared))
    ∧ (s.acquiring i = true → s.flag (Reg.IN_STAT i) Fld.IN_STAT_open = false → s.floorDeclares i = false → 2 ≤ x.tripRun →
        Ends (.openWire n) s (RaisedBlank 8 i 2 declared))
    ∧ (s.alive = true → Becomes (.leadStale g) s (s.setFlag (Reg.FE_LDSTAT g.toNat) Fld.FE_LDSTAT_stale
        (decide (s.fget Reg.FE_LEADCTL Fld.FE_LEADCTL_max_age < s.fget (Reg.FE_LDSTAT g.toNat) Fld.FE_LDSTAT_age))))

/-- Modulators (R93 to R100): an overload marks 32 words beyond the integrators' reset, and its first word of an episode sets
the input's bit of CV_OVL, counts and raises MOD_OVERLOAD (16); the loss of the modulator clock raises 13 and 14 and marks
every input; a retrim in Idle starts both dies' trims. -/
def Obligations.Modulators : Prop :=
  ∀ (s : State) (n : BitVec 8) (w : Nat) (r : BitVec 2) (upper : Bool),
    let i := n.toNat
    let x := s.inSt i
    let marked := s.setIn i { x with ovlEp := true
                                     ovl := x.ovl ++ [{ first := w, last := w + r.toNat + 32, upper := upper }] }
    (s.inRun = true → s.running = true → s.inEn i = true → x.ovlEp = true → Becomes (.modOverload n w r upper) s marked)
    ∧ (s.inRun = true → s.running = false ∨ s.inEn i = false → Becomes (.modOverload n w r upper) s
        (s.setIn i { x with ovl := x.ovl ++ [{ first := w, last := w + r.toNat + 32, upper := upper }] }))
    ∧ (s.inRun = false → Becomes (.modOverload n w r upper) s s)
    ∧ (s.inRun = true → s.running = true → s.inEn i = true → x.ovlEp = false → Ends (.modOverload n w r upper) s (RaisedBlank 16 i 0
        ((marked.wr (Reg.CV_OVL (i / 32)) (s.rd (Reg.CV_OVL (i / 32)) ||| (1#32 <<< (i % 32)))).incSat Reg.CV_OVLCNT 1)))
    ∧ (s.pllLocked = true → Ends .modPllLockLoss s (fun u => ∃ v,
        RaisedBlank 13 0 1 s.pllUnlock v ∧ RaisedBlank 14 0 1 v u))
    ∧ (s.flag Reg.CV_CTL Fld.CV_CTL_retrim = false → s.idleOpen = true →
        Becomes .retrim s ((s.setFlag Reg.CV_CTL Fld.CV_CTL_retrim true).startTrims))
    ∧ (s.flag Reg.CV_CTL Fld.CV_CTL_retrim = false → s.idleOpen = false → Becomes .retrim s (s.accErr true Reg.CV_CTL))

/-- Trims and settle counts (R97 to R99, R130 to R133), and the modulator clock's lock (R96): the last modulator of a die's
trim sets the die's done bit and the second die ends the trim; each of the 128 figures stands in the CAL window, and each beyond the
limit raises TRIM_QUALITY_LOW (23) and sets trim_low; a settle count ends once its last frame has opened.
The counters that a command clears (R49, R100, R116, R355): each command writes 0 there and changes nothing else. -/
def Obligations.TrimsAndSettling : Prop :=
  (∀ (s : State) (n : BitVec 8) (figs : List (BitVec 16)),
     let low := word (figs.filter (fun g => decide (g.toNat < idleLimit))).length
     (s.fe.trimA = true → s.dieLink 0 = true → figs.length = 128 → Ends (.trimComplete .a figs) s (fun u =>
       u.fe.trimA = false ∧ u.fe.trimB = s.fe.trimB ∧ u.flag Reg.CV_STAT Fld.CV_STAT_trim_a_done = true
       ∧ u.flag Reg.CV_STAT Fld.CV_STAT_trim_busy = (s.fe.trimB && s.dieLink 1)
       ∧ u.flag Reg.CV_CTL Fld.CV_CTL_retrim = (s.flag Reg.CV_CTL Fld.CV_CTL_retrim && s.fe.trimB)
       ∧ (∀ i, i < 128 → u.rd (Reg.CAL_IDLE i) = (figs.getD i 0).setWidth 32
         ∧ u.rd (Reg.CAL_IDLE (128 + i)) = s.rd (Reg.CAL_IDLE (128 + i)))
       ∧ u.flag Reg.CV_STAT Fld.CV_STAT_trim_low = u.anyIdleLow 0 ∧ u.rd (Reg.EV_OCC 23) = s.rd (Reg.EV_OCC 23) + low))
     ∧ (s.fe.trimB = true → s.dieLink 1 = true → figs.length = 128 → Ends (.trimComplete .b figs) s (fun u =>
       u.fe.trimB = false ∧ u.fe.trimA = s.fe.trimA ∧ u.flag Reg.CV_STAT Fld.CV_STAT_trim_b_done = true
       ∧ u.flag Reg.CV_STAT Fld.CV_STAT_trim_busy = (s.fe.trimA && s.dieLink 0)
       ∧ u.flag Reg.CV_CTL Fld.CV_CTL_retrim = (s.flag Reg.CV_CTL Fld.CV_CTL_retrim && s.fe.trimA)
       ∧ (∀ i, i < 128 → u.rd (Reg.CAL_IDLE (128 + i)) = (figs.getD i 0).setWidth 32
         ∧ u.rd (Reg.CAL_IDLE i) = s.rd (Reg.CAL_IDLE i))
       ∧ u.flag Reg.CV_STAT Fld.CV_STAT_trim_low = u.anyIdleLow 1 ∧ u.rd (Reg.EV_OCC 23) = s.rd (Reg.EV_OCC 23) + low))
     ∧ (s.fe.trimA = false → Becomes (.trimComplete .a figs) s s) ∧ (s.fe.trimB = false → Becomes (.trimComplete .b figs) s s)
     ∧ ((s.inSt n.toNat).setEnd ≤ s.frameNo →
       Becomes (.settleCountExpire n) s (s.setIn n.toNat { s.inSt n.toNat with setEnd := 0 }))
     ∧ (s.frameNo < (s.inSt n.toNat).setEnd → Becomes (.settleCountExpire n) s s))
  ∧ (∀ s : State,
     Becomes .clrOvl s (s.wr Reg.CV_OVLCNT 0)
     ∧ Becomes .glClrDrop s (s.wr Reg.GL_DROPCNT 0)
     ∧ Becomes .frClrPeak s (s.wr Reg.FR_PEAK 0)
     ∧ Becomes .frClrOvr s (((s.wr Reg.FR_OVRCNT 0).wr Reg.FR_LASTOVR_LO 0).wr Reg.FR_LASTOVR_HI 0))

/-! ## The gleaner (chapter 4) -/

/-- Gleaner requests (R108, R110, R111): a schedule entry whose frame has come starts its conversion; an edge starts its
timer, an edge while that timer runs is dropped; a write to GL_EDGE cancels the timer; a request with go = 1 is due at the
first base-slot boundary at least 1 µs away, and is refused where one waits. -/
def Obligations.GleanerRequests : Prop :=
  ∀ (s : State) (i : BitVec 5) (j : BitVec 2) (t : Int) (val : Word),
    let e := i.toNat
    let k := s.fr.nextTick - 1
    let sub := s.fget (Reg.GL_SCHEDB e) Fld.GL_SCHEDB_sub
    let ready := s.inRun = true ∧ s.running = true ∧ s.schedValid e = true ∧ s.schedG ≠ 0 ∧ k % s.schedG = s.schedF e
      ∧ s.fr.tickS ≤ k ∧ s.gl.running = none
    let due := t + (s.fget (Reg.GL_EDGE j.toNat) Fld.GL_EDGE_delay : Int) * 1000 * nsU
    let v := val &&& 0x80000F7F#32
    (ready → s.targetOk (s.schedTarget e) sub = true → Becomes (.gleanerScheduleStart i) s
      (s.glStart (s.schedTarget e) sub 0 0 (s.tickTime k + (s.schedSlot e : Int) * slotU)))
    ∧ (ready → s.targetOk (s.schedTarget e) sub = false → Becomes (.gleanerScheduleStart i) s
      (s.glDrop (s.schedTarget e) 0 true))
    ∧ (s.glOn = true → s.flag (Reg.GL_EDGE j.toNat) Fld.GL_EDGE_en = true → s.edgeSeen j.toNat = true →
      kget? s.gl.timers j.toNat = none → Ends (.glEdgeTrigger j t) s (fun u => u.gl.timers = kset s.gl.timers j.toNat due
        ∧ u.gl.running = s.gl.running ∧ u.flag Reg.GL_STAT Fld.GL_STAT_pend = true))
    ∧ (∀ d, s.glOn = true → s.flag (Reg.GL_EDGE j.toNat) Fld.GL_EDGE_en = true → s.edgeSeen j.toNat = true →
      kget? s.gl.timers j.toNat = some d →
      Becomes (.glEdgeTrigger j t) s (s.glDrop (s.fget (Reg.GL_EDGE j.toNat) Fld.GL_EDGE_target) (j.toNat + 1) false))
    ∧ (s.edgeSeen j.toNat = false → Becomes (.glEdgeTrigger j t) s s)
    ∧ (BitField.get Fld.GL_EDGE_target val ≤ 0x5F → Ends (.glEdgeWrite j val) s (fun u =>
        u.rd (Reg.GL_EDGE j.toNat) = val ∧ kget? u.gl.timers j.toNat = none
        ∧ ∀ m, m ≠ j.toNat → kget? u.gl.timers m = kget? s.gl.timers m))
    ∧ (0x5F < BitField.get Fld.GL_EDGE_target val → Becomes (.glEdgeWrite j val) s (s.accErr true (Reg.GL_EDGE j.toNat)))
    ∧ (BitField.get Fld.GL_REQ_target v ≤ 0x5F → BitField.get Fld.GL_REQ_go v ≠ 0 →
        s.flag Reg.GL_REQ Fld.GL_REQ_go = false → (s.inIdle = true ∨ s.inRun = true) → s.pw.reqGlean = false →
        Ends (.glReq val) s (fun u => u.rd Reg.GL_REQ = v ∧ u.gl.running = s.gl.running
          ∧ u.gl.reqDue = some ((s.now + 1000 * nsU + slotU - 1) / slotU * slotU)))
    ∧ (BitField.get Fld.GL_REQ_target v ≤ 0x5F → BitField.get Fld.GL_REQ_go v ≠ 0 →
        (s.flag Reg.GL_REQ Fld.GL_REQ_go = true ∨ s.pw.reqGlean = true ∨ (s.inIdle = false ∧ s.inRun = false)) →
        Becomes (.glReq val) s (s.accErr true Reg.GL_REQ))
    ∧ (BitField.get Fld.GL_REQ_target v ≤ 0x5F → BitField.get Fld.GL_REQ_go v = 0 →
        Becomes (.glReq val) s (s.wr Reg.GL_REQ (v ||| (s.rd Reg.GL_REQ &&& 0x80000000#32))))
    ∧ (0x5F < BitField.get Fld.GL_REQ_target v → Becomes (.glReq val) s (s.accErr true Reg.GL_REQ))

/-- Gleaner conversions (R107, R110 to R113): a due edge or host request starts its conversion where the converter is free for it
and its target available, and is dropped elsewhere; a conversion that completes stores its value, counts its target's sequence number and frees the
converter. -/
def Obligations.GleanerConversions : Prop :=
  ∀ (s : State) (j : BitVec 2) (t : Int) (c : Conv) (raw : BitVec 32) (sat : Bool) (g : Nat) (rest : List Nat),
    let clear := fun (u : State) => (u.nextEntry t).all (fun x => decide (t + convU ≤ x))
    let u3 := ({ s with gl := { s.gl with reqDue := none } }).glPend
    let target := s.fget (Reg.GL_EDGE j.toNat) Fld.GL_EDGE_target
    let sub := s.fget (Reg.GL_EDGE j.toNat) Fld.GL_EDGE_sub
    let u1 := ({ s with gl := { s.gl with timers := kerase s.gl.timers j.toNat } }).glPend
    let u2 := ((({ s with gl := { s.gl with reqDue := none } }).setFlag Reg.GL_REQ Fld.GL_REQ_go false)).glPend
    let rt := s.fget Reg.GL_REQ Fld.GL_REQ_target
    let rs := s.fget Reg.GL_REQ Fld.GL_REQ_sub
    (kget? s.gl.timers j.toNat = some t → u1.gl.running = none → u1.outranked j.toNat t = false → clear u1 = true → u1.targetOk target sub = true →
      Becomes (.glEdgeTimerExpire j) s (u1.glStart target sub 1 j.toNat t))
    ∧ (kget? s.gl.timers j.toNat = some t → u1.gl.running = none → u1.outranked j.toNat t = false → clear u1 = true → u1.targetOk target sub = false →
      Becomes (.glEdgeTimerExpire j) s (u1.glDrop target (j.toNat + 1) true))
    ∧ (kget? s.gl.timers j.toNat = some t → (u1.gl.running ≠ none ∨ u1.outranked j.toNat t = true ∨ clear u1 = false) →
      Becomes (.glEdgeTimerExpire j) s (u1.glDrop target (j.toNat + 1) false))
    ∧ (s.gl.reqDue = some t → s.pw.reqTargets = [] → s.glOn = true → s.gl.running = none → u2.outranked 4 t = false → clear u2 = true →
      u2.targetOk rt rs = true → Becomes .glReqDue s (u2.glStart rt rs 2 0 t))
    ∧ (s.gl.reqDue = some t → s.pw.reqTargets = [] → (s.glOn = false ∨ s.gl.running ≠ none ∨ u2.outranked 4 t = true ∨ clear u2 = false) →
      Becomes .glReqDue s (u2.glDrop rt 5 false))
    ∧ (s.gl.reqDue = some t → s.pw.reqTargets = g :: rest → s.glOn = true → s.gl.running = none → u3.outranked 4 t = false → clear u3 = true →
      u3.targetOk g 0 = true → Becomes .glReqDue s (u3.glStart g 0 2 0 t))
    ∧ (s.gl.running = some c → c.target < 96 → c.sub < 16 → Ends (.gleanerConversionDone raw sat) s (fun u =>
      u.rd (Reg.GL_TGT_VAL c.target) = wordI (s.glValue c.target raw.toInt sat)
      ∧ u.rd Reg.GL_RES_VAL = wordI (s.glValue c.target raw.toInt sat)
      ∧ u.fget (Reg.GL_TGT_INFO c.target) Fld.GL_TGT_INFO_seq
          = (s.fget (Reg.GL_TGT_INFO c.target) Fld.GL_TGT_INFO_seq + 1) % 256
      ∧ u.flag Reg.GL_STAT Fld.GL_STAT_busy = false ∧ u.gl.running = none))

/-! ## Time (chapter 8) -/

/-- TB_STEP_CMD and TB_RATE_WRITE (R171, R173, R187 to R189): outside Run a step on a head in free run adds the difference
between the staged and the corrected time; in Run it waits for its tick; elsewhere it is discarded.  A rate is the staged
upper word with the written lower one, clamped to 200 ppm, and TIME_STEP_APPLY leaves a state without a due step alone.
A step of corrected time in Run takes effect at its tick (R189): it adds the announced step to the offset, the ticks in the
jump are skipped, and the modulator clock must lock anew. -/
def Obligations.TimeCommands : Prop :=
  (∀ (s : State) (val : Word),
     let delta := s.tbSet - s.now
     let hi := kgetD s.staged Reg.TB_RATE_HI (s.rd Reg.TB_RATE_HI)
     (s.freeRunHost = false → Becomes .tbStepCmd s (s.accErr true Reg.TB_CMD)
       ∧ Becomes (.tbRateWrite val) s (s.accErr true Reg.TB_RATE_LO))
     ∧ (s.freeRunHost = true → s.inRun = false → Ends .tbStepCmd s (fun u =>
         u.tb = { s.tb with off := s.tb.off + delta * 2 ^ 48, lockedOnce := false }
         ∧ u.flag Reg.TB_STAT Fld.TB_STAT_stepped = true
         ∧ u.rd (Reg.EV_OCC 2) = s.rd (Reg.EV_OCC 2) + 1))
     ∧ (s.freeRunHost = true → s.inRun = true → s.runStepOk delta = true → s.tb.step = none →
         Becomes .tbStepCmd s (s.planStep delta 1))
     ∧ (s.freeRunHost = true → Ends (.tbRateWrite val) s (fun u =>
         u.rd64 Reg.TB_RATE_LO = BitVec.ofInt 64 (clampRate (join64 val hi).toInt)
         ∧ u.corr64 (rawOf s.tb.cnt.toNat 0) = s.corr64 (rawOf s.tb.cnt.toNat 0)))
     ∧ (s.tb.step = none → Becomes .timeStepApply s s))
  ∧ (∀ (s : State) (p : StepPlan), s.tb.step = some p → s.inRun = true → s.running = true → p.tick < s.fr.nextTick →
     Ends .timeStepApply s (fun u =>
       u.tb.off = s.tb.off + p.delta * 2 ^ 48 ∧ u.tb.step = none
       ∧ u.fr.nextTick = s.fr.nextTick + (if p.delta < 0 then 0 else (p.delta / s.periodU).toNat)
       ∧ u.flag Reg.CV_STAT Fld.CV_STAT_lock = false))

/-- The reference clock (R175, R176), PPS_OUT (R184), PPS_IN and its absence (R183), and holdover (R190). -/
def Obligations.ClocksAndPps : Prop :=
  ∀ (s : State) (is25 : Bool) (st : Stamp) (falling : Bool),
    let t := s.stampTime st
    let n := s.ppsSec
    let r := rawOf st.count.toNat st.frac.toNat
    (s.flag Reg.TB_STAT Fld.TB_STAT_ref_ok = true → Ends .refclkLoss s (RaisedBlank 7 0 0
      ((s.setFlag Reg.TB_STAT Fld.TB_STAT_ref_ok false).setFlag Reg.TB_STAT Fld.TB_STAT_refclk_lost true)))
    ∧ (s.alive = true → Becomes (.refclkReturn is25) s
      ((s.setFlag Reg.TB_STAT Fld.TB_STAT_ref25 is25).setFlag Reg.TB_STAT Fld.TB_STAT_ref_ok true))
    ∧ (s.alive = true → s.flag Reg.TB_CTL Fld.TB_CTL_pps_out_en = true →
      Becomes .ppsOut s { s with tb := { s.tb with ppsOut := true } })
    ∧ Becomes .ppsOutFall s { s with tb := { s.tb with ppsOut := false } }
    ∧ (s.alive = true → falling = s.flag Reg.TB_PPS Fld.TB_PPS_in_pol → s.pw.headSel = true → s.timeSrc = 2 →
        (s.tb.lockedOnce = false ∨ secDist t ≤ (s.fget Reg.TB_PPS Fld.TB_PPS_win : Int) * 1000 * nsU) → Becomes (.ppsInEdge st falling) s
          (({ (({ s with tb := { s.tb with ppsLast := some r } }).setPpsSec (n + 1)) with
              tb := { s.tb with ppsLast := some r, ppsMissRun := false } }).measure (t - (n : Int) * secU) (1000000000 * 65536)))
    ∧ (s.alive = true → falling = s.flag Reg.TB_PPS Fld.TB_PPS_in_pol → s.tb.lockedOnce = true →
        (s.fget Reg.TB_PPS Fld.TB_PPS_win : Int) * 1000 * nsU < secDist t →
        Becomes (.ppsInEdge st falling) s { s with tb := { s.tb with ppsLast := some r } })
    ∧ (falling ≠ s.flag Reg.TB_PPS Fld.TB_PPS_in_pol → Becomes (.ppsInEdge st falling) s s)
    ∧ (s.alive = true → falling = s.flag Reg.TB_PPS Fld.TB_PPS_in_pol → s.timeSrc ≠ 2 →
        Becomes (.ppsInEdge st falling) s { s with tb := { s.tb with ppsLast := some r } })
    ∧ (s.alive = true → s.pw.headSel = true → s.timeSrc = 2 → s.tb.ppsMissRun = false → Ends .ppsMissing s
        (Raised 5 0 0 0 (BitVec.ofNat 64 n)
          { (s.setFlag Reg.TB_STAT Fld.TB_STAT_pps_miss true) with tb := { s.tb with ppsMissRun := true } }))
    ∧ (s.fget Reg.TB_STAT Fld.TB_STAT_state = 1 ∨ s.fget Reg.TB_STAT Fld.TB_STAT_state = 2 → Ends .holdoverEnter s (fun u =>
        u.fget Reg.TB_STAT Fld.TB_STAT_state = 3 ∧ u.flag Reg.TB_STAT Fld.TB_STAT_hold_ent = true
        ∧ (s.tb.integs ≠ [] → u.rd64 Reg.TB_RATE_LO = BitVec.ofInt 64 (clampRate
            (openDiv (-(s.tb.integs.foldl (· + ·) 0)) (2000000000 * s.tb.integs.length))))))

/-- PTP (R179 to R182): a Sync is measured against the mean path delay, a Delay_Req leaves with its stamp, a Delay_Resp completes
an exchange, a better Announce is taken, and an announce timeout or a faulty port drops the grandmaster with PTP_FAULT (6). -/
def Obligations.PtpMessages : Prop :=
  ∀ (s : State) (m : PtpSyncIn) (tx : Stamp) (r : PtpResp) (corr : Word64) (li : BitVec 8) (a : Announce) (t3 t2 t1 : Int),
    s.ptpOn = true →
    let rx := s.stampTime m.rx - s.stampTrim 0
    let org := PtpTime.val m.origin + m.corr.toInt
    let synced := { s with tb := { s.tb with lastSync := some (rx, org) } }
    let raw := rawOf m.rx.count.toNat m.rx.frac.toNat
    let dom := s.fget Reg.TB_PTPCFG Fld.TB_PTPCFG_domain
    let taken := s.tb.gm.all (fun g => g.hdr.source == a.hdr.source || lexLt (gmRank a) (gmRank g))
    let trans := s.fget Reg.TB_PTPCFG Fld.TB_PTPCFG_transport
    (s.ptpFromGm m.hdr = true → -7 ≤ m.logInt.toInt → m.logInt.toInt ≤ 1 → s.tb.mpds ≠ [] → Becomes (.ptpSync m) s
      (({ synced with tb := { synced.tb with syncRaw := some raw } }.fput Reg.TB_PTPSTAT Fld.TB_PTPSTAT_port_state 9).measure
        (rx - org - s.ptpDelay) (s.syncTau raw m.logInt.toInt)))
    ∧ (m.hdr.domain.toNat ≠ dom ∨ b2n m.hdr.udp ≠ trans → Becomes (.ptpSync m) s s)
    ∧ (s.ptpFromGm m.hdr = true → -7 ≤ m.logInt.toInt → m.logInt.toInt ≤ 1 → s.tb.mpds = [] → Becomes (.ptpSync m) s synced)
    ∧ (s.tb.gmOk = true → Becomes (.ptpDelayReqSend tx) s
      (({ s with tb := { s.tb with delayReq := some (s.stampTime tx + s.stampTrim 1) } }).emit
        (.ptpDelayReq dom (trans == 1) (s.stampTime tx + s.stampTrim 1))))
    ∧ (s.ptpFromGm r.hdr = true → -7 ≤ li.toInt → li.toInt ≤ 5 → s.tb.delayReq = some t3 → s.tb.lastSync = some (t2, t1) →
      Ends (.ptpDelayResp r corr li) s (fun u => u.tb.delayReq = none
        ∧ u.tb.mpds = (((PtpTime.val r.t4 - corr.toInt - t1) - (t3 - t2)) :: s.tb.mpds).take 16
        ∧ u.rd Reg.TB_PTPMPD = wordI (openDiv u.ptpDelay 256)))
    ∧ (r.hdr.domain.toNat ≠ dom ∨ b2n r.hdr.udp ≠ trans → Becomes (.ptpDelayResp r corr li) s s)
    ∧ (a.hdr.domain.toNat ≠ dom ∨ b2n a.hdr.udp ≠ trans → Becomes (.ptpAnnounce a) s s)
    ∧ (s.ptpHears a.hdr = true → taken = true → (a.ptpTimescale = true ∨ s.flag Reg.TB_CTL Fld.TB_CTL_arb_ok = true) →
        Ends (.ptpAnnounce a) s (fun u => u = s.takeGm a ∧ u.tb.gm = some a ∧ u.tb.gmOk = true ∧ u.rd64 Reg.TB_PTPGM_LO = a.identity
          ∧ u.rd Reg.TB_STAT = s.rd Reg.TB_STAT))
    ∧ (s.ptpHears a.hdr = true → s.tb.gm = none → a.ptpTimescale = false → s.flag Reg.TB_CTL Fld.TB_CTL_arb_ok = false →
        Ends (.ptpAnnounce a) s (Raised 6 0 5 0 a.identity s))
    ∧ (taken = false → Becomes (.ptpAnnounce a) s s)
    ∧ (s.tb.gm ≠ none → Ends .ptpAnnounceTimeout s (fun u => u.tb.gm = none ∧ u.tb.gmOk = false
        ∧ u.fget Reg.TB_PTPSTAT Fld.TB_PTPSTAT_port_state = 4 ∧ u.rd (Reg.EV_OCC 6) = s.rd (Reg.EV_OCC 6) + 1))
    ∧ Ends .ptpPortFaulty s (fun u => u.tb.gm = none ∧ u.tb.gmOk = false
        ∧ u.fget Reg.TB_PTPSTAT Fld.TB_PTPSTAT_port_state = 2 ∧ u.rd (Reg.EV_OCC 6) = s.rd (Reg.EV_OCC 6) + 1)

/-- Ring time (R193, R194): a time cell carries the exchange's stamps, a received one is kept and, on the port a
member takes its time from, measured; one with a bad check sequence or tag is discarded; and the marker's round trip is
shown on the head of a whole ring. -/
def Obligations.RingTime : Prop :=
  ∀ (s : State) (p : BitVec 2) (tx rx : Stamp) (c : TimeCellIn) (ns : Word) (t2 trip : Int),
    let sent := PtpTime.val c.prevTx
    (s.alive = true → s.portUp p.toNat = true → Ends (.timeCellSend p tx) s (fun u =>
      (u.stamps p.toNat).sent = ((s.stampTime tx + s.stampTrim (2 * p.toNat + 3)) :: (s.stamps p.toNat).sent).take 4
      ∧ (u.stamps p.toNat).rcvd = (s.stamps p.toNat).rcvd ∧ u.regs = s.regs))
    ∧ (s.alive = true → s.portUp p.toNat = true → c.chk.line = true → (s.authOn = true → (s.port p.toNat).keys.isSome = true ∧ c.chk.tag = true) →
      (s.pw.headSel = true ∨ p = 2 ∨ s.timePort ≠ p.toNat + 1) → Ends (.timeCell p rx c) s (fun u =>
        (u.stamps p.toNat).rcvd = some (s.stampTime rx - s.stampTrim (2 * p.toNat + 2)) ∧ (u.stamps p.toNat).sent = (s.stamps p.toNat).sent
        ∧ u.rd Reg.TB_THETA = s.rd Reg.TB_THETA ∧ (u.port p.toNat).badRun = 0 ∧ (u.port p.toNat).authRun = 0))
    ∧ (s.alive = true → s.portUp p.toNat = true → c.chk.line = true → (s.authOn = true → (s.port p.toNat).keys.isSome = true ∧ c.chk.tag = true) →
      s.pw.headSel = false → p.toNat < 2 → s.timePort = p.toNat + 1 → (s.stamps p.toNat).rcvd = some t2 →
      linkTrip sent t2 (PtpTime.val c.lastRx) (s.stamps p.toNat).sent = some trip → Ends (.timeCell p rx c) s (fun u =>
        u.rd Reg.TB_THETA = satWord (openDiv (openDiv ((2 * (t2 - sent) - trip) * 1000
          - (s.rd (Reg.TB_LINKASYM (p.toNat + 1))).toInt * 65536) 2000) 256)))
    ∧ (s.alive = true → s.portUp p.toNat = true → c.chk.line = false → Becomes (.timeCell p rx c) s (s.badCell p.toNat))
    ∧ (s.alive = true → s.portUp p.toNat = true → c.chk.line = true → s.authOn = true → c.chk.tag = false →
        Becomes (.timeCell p rx c) s (s.tagError p.toNat))
    ∧ (s.pw.headSel = true → s.fget Reg.LN_STAT Fld.LN_STAT_state = 2 →
      Becomes (.ringRttMarker ns) s (s.wr Reg.TB_RINGRTT ns))

/-! ## The supervisor (chapter 15) -/

/-- The causes that a command or a check of the supervisor brings (R395, R396, R401 to R404): on a powered hub each latches
its cause, after its own event where it has one; a cause that stands is not latched again. -/
def Obligations.CauseLatching : Prop :=
  ∀ (s : State) (target : Byte) (mv : BitVec 16) (low high : Nat) (x : SensorRead) (p : BitVec 3), s.alive = true →
    let limit : Int := 1000 * (s.rdN Reg.SV_TEMPLIM % 256 : Int)
    (s.hasCause 0 = false → Ends .svSafeCmd s (Latches 0 s))
    ∧ (s.hasCause 0 = true → Becomes .svSafeCmd s s)
    ∧ (s.hasCause 3 = false → Ends .lockstepMismatch s (fun u => Latches 3 s u
        ∧ (s.running = true → u.fr.hbPosted = false ∧ u.ce.ran = false ∧ u.ce.undo = [])))
    ∧ (s.hasCause 4 = false → Ends .protectedMemEcc s (Latches 4 s))
    ∧ (s.hasCause 14 = false → Ends .clockCheckFail s (Latches 14 s))
    ∧ (s.hasCause 16 = false → Ends .driveReadbackFail s (Latches 16 s))
    ∧ (s.hasCause 5 = false → s.supplyWindow target.toNat = some (low, high) → mv.toNat < low ∨ high < mv.toNat →
        Ends (.supplyLimit target mv) s (fun u => Latches 5 s u ∧ u.rd (Reg.EV_OCC 19) = s.rd (Reg.EV_OCC 19) + 1))
    ∧ (s.supplyWindow target.toNat = some (low, high) → low ≤ mv.toNat → mv.toNat ≤ high → Becomes (.supplyLimit target mv) s s)
    ∧ s.supplyWindow 0x49 = some (736, 864)
    ∧ s.supplyWindow 0x4C = some (if s.pw.io33.getLsbD 0 then (2970, 3630) else (1620, 1980))
    ∧ (s.hasCause 6 = false → 0x51 ≤ x.target.toNat → x.target.toNat ≤ 0x59 → limit < x.milliC.toInt → Ends (.dieTempLimit x) s (fun u =>
        Latches 6 s u ∧ u.rd (Reg.EV_OCC 20) = s.rd (Reg.EV_OCC 20) + 1))
    ∧ (x.milliC.toInt ≤ limit → Becomes (.dieTempLimit x) s s)
    ∧ (s.hasCause 10 = false → s.sv.pulls = false → s.inRun = true → Ends .safeNExternal s (Latches 10 s))
    ∧ (s.hasCause 9 = false → s.inRun = true → s.sv.safe = false → s.permInForce p.toNat = true → s.permHolds p.toNat = false →
        Ends (.permissiveLost p) s (fun u => Latches 9 s u ∧ u.rd (Reg.EV_OCC 39) = s.rd (Reg.EV_OCC 39) + 1))

/-- Entry to safe state on a hub without a twin (R396): the output enables go low, SAFE_N is pulled, the analog outputs take
their safe codes and the PWM outputs their safe duties, and the entry is counted. -/
def Obligations.SafeEntry : Prop :=
  ∀ s : State, s.inRun = true → s.role = 0 → s.hasCause 0 = false → s.sv.safe = false →
    Ends .svSafeCmd s (fun u =>
      u.sv.safe = true ∧ u.sv.oen = 0 ∧ u.sv.pulls = true ∧ u.sv.safeN = false
      ∧ (∀ j, j < 16 → u.rd (Reg.CE_AOCUR j) = word (s.fget (Reg.CE_AOCFG j) Fld.CE_AOCFG_safe))
      ∧ (∀ j, j < 8 → u.rd (Reg.CE_PWMCUR j) = word (s.fget (Reg.CE_PWMCFG j) Fld.CE_PWMCFG_safe))
      ∧ u.rd Reg.SV_SAFECNT = word (min 0xFFFFFFFF (s.rdN Reg.SV_SAFECNT + 1)))

/-- Release and proof test (R398, R404): a release is accepted exactly where every condition of R398 holds and is discarded with
acc_err elsewhere; 10 µs after its tick SAFE_N must read high; the proof test pulses the enabled outputs in Idle and its result
is noted. -/
def Obligations.ReleaseAndProofTest : Prop :=
  ∀ (s : State) (r : ProofTestResult),
    (s.releaseOk = true → s.isTwin = false → Becomes .svRelease s { s with sv := { s.sv with releasePend := true } })
    ∧ (s.releaseOk = true → s.isTwin = true → Becomes .svRelease s
        (({ s with sv := { s.sv with releasePend := true } }).sendTwin 0x15 [s.frameNo + 1]))
    ∧ (s.releaseOk = false → Becomes .svRelease s (s.accErr true Reg.SV_CMD))
    ∧ (s.sv.checkDue = true → Becomes (.releaseSafeNCheck true) s
        { s with sv := { s.sv with checkDue := false, safeN := true } })
    ∧ (s.sv.checkDue = true → s.hasCause 10 = false → Ends (.releaseSafeNCheck false) s (fun u =>
        u.hasCause 10 = true ∧ u.sv.safe = true ∧ u.rd Reg.SV_SAFECNT = s.rd Reg.SV_SAFECNT))
    ∧ (s.idleOpen = true → s.sv.ptest = false → Becomes .proofTest s
        (((({ s with sv := { s.sv with ptest := true } }).loadSafeOutputs).emit .safeNPulse).emit
          (.oenPulse (s.fget Reg.SV_CTL Fld.SV_CTL_oen_en))))
    ∧ (s.idleOpen = false → Becomes .proofTest s (s.accErr true Reg.SV_CMD))
    ∧ (s.sv.ptest = true → Ends (.proofTestDone r) s (fun u => u.sv.ptest = false ∧ u.sv.safe = s.sv.safe
        ∧ u.flag Reg.SV_STAT Fld.SV_STAT_ptest_done = true ∧ u.flag Reg.SV_STAT Fld.SV_STAT_ptest_ok = s.proofOk r
        ∧ (∀ j, j < 16 → u.rd (Reg.CE_AOCUR j) = 0) ∧ (∀ j, j < 8 → u.rd (Reg.CE_PWMCUR j) = 0)))

/-- The beacon driver (R417, R418, R421): each millisecond every engine advances within its step and the sinks take their
commands; a step's end goes on to the next step or, after the last, to the first; an open or shorted output turns its group
dark and raises BEACON_FAULT (62); clearing lights it again. -/
def Obligations.Beacon : Prop :=
  ∀ (s : State) (e : BitVec 2) (j : BitVec 3) (lamp : LampRead) (mask : BitVec 4), s.alive = true →
    let isOpen := lampOpen lamp (kgetD s.bc.sinks j.toNat 0)
    let short := s.lampShort lamp
    let n := e.toNat
    let x := s.engine n
    let level := s.bstep n x.step Fld.BC_STEP_level
    let g := s.fget (Reg.BC_OUT j.toNat) Fld.BC_OUT_grp
    (s.flag Reg.BC_CTL Fld.BC_CTL_en = false → Becomes .beaconUpdate s
      (({ s with bc := { s.bc with engines := [] } }).lightSinks))
    ∧ (s.flag Reg.BC_CTL Fld.BC_CTL_en = true → Ends .beaconUpdate s (fun u => ∀ k, k < 4 →
        (u.engine k).step = (s.engine k).step
        ∧ (u.engine k).ms = min ((s.engine k).ms + 1) (10 * s.bstep k (s.engine k).step Fld.BC_STEP_time)))
    ∧ (s.flag Reg.BC_CTL Fld.BC_CTL_en = true → x.step < s.fget (Reg.BC_ENG n) Fld.BC_ENG_last →
        Becomes (.beaconStep e) s ((s.setEngine n { x with step := x.step + 1, ms := 0, from' := level }).lightSinks))
    ∧ (s.flag Reg.BC_CTL Fld.BC_CTL_en = true → s.fget (Reg.BC_ENG n) Fld.BC_ENG_last ≤ x.step →
        s.flag (Reg.BC_ENG n) Fld.BC_ENG_once = false →
        Becomes (.beaconStep e) s ((s.setEngine n { x with step := 0, ms := 0, from' := level }).lightSinks))
    ∧ (s.flag Reg.BC_CTL Fld.BC_CTL_en = true → s.fget (Reg.BC_ENG n) Fld.BC_ENG_last ≤ x.step →
        s.flag (Reg.BC_ENG n) Fld.BC_ENG_once = true →
        Becomes (.beaconStep e) s ((s.setEngine n { x with ms := 10 * s.bstep n x.step Fld.BC_STEP_time, done := true }).lightSinks))
    ∧ (g < 4 → s.groupOn g = true → 35 ≤ kgetD s.bc.sinks j.toNat 0 → isOpen ≠ short → Ends (.beaconFault j lamp) s (fun u =>
        (u.fget Reg.BC_STAT Fld.BC_STAT_fault).testBit g = true
        ∧ (u.fget Reg.BC_STAT (if short then Fld.BC_STAT_short else Fld.BC_STAT_open)).testBit j.toNat = true
        ∧ u.groupOn g = false ∧ u.rd (Reg.EV_OCC 62) = s.rd (Reg.EV_OCC 62) + 1))
    ∧ Ends (.beaconClear mask) s (fun u => ∀ k, k < 4 →
        (u.fget Reg.BC_STAT Fld.BC_STAT_fault).testBit k = ((s.fget Reg.BC_STAT Fld.BC_STAT_fault).testBit k && !mask.getLsbD k)
        ∧ (mask.getLsbD k = true → ∀ o, o < 8 → s.fget (Reg.BC_OUT o) Fld.BC_OUT_grp = k →
            (u.fget Reg.BC_STAT Fld.BC_STAT_short).testBit o = false ∧ (u.fget Reg.BC_STAT Fld.BC_STAT_open).testBit o = false))

/-! ## Frames (chapter 2) -/

/-- TICK in Run (R34, R46, R47): a step of corrected time that is due acts (R189); the next frame number and corrected time at
its grid time; the tick's own work; then the window, which is the late tail of a cut frame, tick entry, acquire, reduce and control,
and, unless the frame is cut, seal and deliver (R40); the last tick of Run ends it.
The window is judged by its cycles (R40) and an overrun is counted at the next tick (R42); a cut control step posts no heartbeat
and stages nothing (R43, R241), and a second heartbeat missing latches cause 2.
Every enabled input has one slot (R18), a slot without VAL holds 0 but for R137's exceptions, and so does what a cut left unreduced
(R41); a loop that has not started holds its start value, and one that holds longer than its limit takes its safe value (R243);
the sample furrows take the frame under its flag (R42, R47), and a seal interval closes where R371 says so.
Outside Run, or before acquisition, TICK does nothing, and ACQUISITION_START does nothing once frames run (R33). -/
def Obligations.Tick : Prop :=
  (∀ (s : State) (inp : TickIn), s.inRun = true → s.running = true →
     let v := s.applyStep
     let n := v.fr.nextTick
     let last := v.pw.lastTick.any (fun l => decide (l ≤ n))
     let opened := ({ (v.advanceTo (v.tickTime n)) with fr := { v.fr with nextTick := n + 1 } }).wr64 Reg.FR_FRAME_LO (BitVec.ofNat 64 n)
     let ready := opened.noteOverrun.outputTick.spTick.supervisorTick.feCauses
     let ovr := ready.overrunOf n inp last
     let cut := ovr.any Overrun.cut
     let entered := (((ready.openWindow inp).lateTail inp.ecc).frameConds n).tickEntry n
     let before := entered.fr.skipped.foldl (State.skippedFrame inp.ecc)
       { entered with fr := { entered.fr with skipped := [], overrun := ovr } }
     let acq := before.acquire n inp.words
     let red := acq.2.reduce n acq.1 (ready.groupsDone n inp cut)
     let ctl := ((red.2.controlPart n red.1 cut inp.vectorsFail).frameRows n red.1).applyInputs n
     let full := ((ctl.sealDeliver n (if ovr.isSome then 1#4 else 0#4) last (eccOf inp.ecc none)).noteCycles inp.cycles).noteSettling
     (last = false → cut = true → Becomes (.tick inp) s ctl)
     ∧ (last = false → cut = false → Becomes (.tick inp) s full)
     ∧ (last = true → Becomes (.tick inp) s full.endRun))
  ∧ (∀ (s : State) (n : Nat) (inp : TickIn) (o : Overrun),
     let c := fun i => stepCycles inp i
     let c0 := (s.fr.overrun.map Overrun.carry).getD 0
     let front := c0 + c 0 + c 1 + c 2 + c 3
     let av := s.windowCycles n
     s.overrunOf n inp true = none
     ∧ (s.tb.step = none → av = s.m * 25000)
     ∧ (front + c 4 + c 5 ≤ av → s.overrunOf n inp false = none)
     ∧ (front ≤ av → av < front + c 4 + c 5 →
         s.overrunOf n inp false = some { frame := n, cut := false, carry := front + c 4 + c 5 - av, cycles := inp.cycles })
     ∧ (av < front → (s.overrunOf n inp false).any (fun x => x.cut && x.frame == n && x.carry == c0 - av + c 4 + c 5) = true)
     ∧ (s.fr.overrun = none → s.noteOverrun = s)
     ∧ (s.fr.overrun = some o → s.noteOverrun.rd Reg.FR_OVRCNT = word (min 0xFFFFFFFF (s.rdN Reg.FR_OVRCNT + 1))
         ∧ s.noteOverrun.rd64 Reg.FR_LASTOVR_LO = BitVec.ofNat 64 o.frame
         ∧ s.noteOverrun.flag Reg.FR_STAT (if o.cut then Fld.FR_STAT_cut else Fld.FR_STAT_late) = true
         ∧ s.noteOverrun.rd (Reg.EV_OCC 0) = s.rd (Reg.EV_OCC 0) + 1)
     ∧ (s.fr.hbPosted = true → s.heartbeatTick.fr.hbMissing = 0)
     ∧ (s.fr.hbPosted = false → s.heartbeatTick.fr.hbMissing = s.fr.hbMissing + 1)
     ∧ (s.fr.hbPosted = false → 1 ≤ s.fr.hbMissing → s.heartbeatTick.hasCause 2 = true))
  ∧ (∀ (s : State) (n : Nat) (ws : List InWords) (done : Nat → Bool) (x : Slot),
     let acq := s.acquire n ws
     let red := acq.2.reduce n acq.1 done
     acq.1.map Prod.fst = s.enabledInputs
     ∧ red.1.map Slot.n = s.enabledInputs ∧ red.2.fe.slotted = s.enabledInputs
     ∧ (x ∈ red.1 → (red.2.inSt x.n).value = wordI x.value ∧ (red.2.inSt x.n).status = BitVec.ofNat 8 x.st)
     ∧ (x ∈ red.1 → x.st % 2 = 0 → x.st &&& (255 - stLEAD) ≠ stOVR → (s.inMode x.n ≠ 2 ∨ clearsVal x.st = true) → x.value = 0)
     ∧ (x ∈ red.1 → done (x.n / 8) = false → x.value = 0 ∧ x.st % 2 = 0))
  ∧ (∀ (s : State) (n l : Nat) (slots : List Slot) (fails : Bool) (sp : Word64),
     let cut := s.controlPart n slots true fails
     let p := s.processValue n slots l
     let u := State.runLoop n slots s l
     let x := s.loop l
     (cut.fr.hbPosted = false ∧ cut.ce.aoNext = [] ∧ cut.ce.pwmNext = [] ∧ cut.ce.loops = s.ce.loops ∧ cut.loopU l = s.loopU l)
     ∧ (s.controlPart n slots false fails).fr.hbPosted = true
     ∧ (p.1 = none → x.numericStop = false → s.frozen = false → s.loopSetpoint l = some sp → x.started = false → l < 32 →
         u.loopU l = x.u0 ∧ (u.loop l).started = false)
     ∧ (p.1 = none → x.numericStop = false → s.frozen = false → s.loopSetpoint l = some sp → x.started = true → l < 32 →
         x.holdRun < s.lctl l Fld.CE_LCTL_hold →
         u.loopU l = s.loopU l ∧ u.loop l = { x with holdRun := x.holdRun + 1 } ∧ u.flag (Reg.CE_LSTAT l) Fld.CE_LSTAT_holding = true)
     ∧ (p.1 = none → x.numericStop = false → s.frozen = false → s.loopSetpoint l = some sp → x.started = true → l < 32 →
         s.lctl l Fld.CE_LCTL_hold ≤ x.holdRun →
         u.loopU l = s.lsafe l ∧ u.flag (Reg.CE_LSTAT l) Fld.CE_LSTAT_failed = true
         ∧ u.rd (Reg.EV_OCC 32) = s.rd (Reg.EV_OCC 32) + (if x.failed then 0 else 1)
         ∧ (s.lctl l Fld.CE_LCTL_fail_safe = 1 → u.hasCause 8 = true)))
  ∧ (∀ (s : State) (n f : Nat) (nibble : BitVec 4) (fu : Furrow) (cal last : Bool),
     let full := decide (960 ≤ s.manifestCount)
     let closes := cal || last || s.vt.rotate || (decide (130752 ≤ s.queueFree) && (s.sealGrid n || full))
     let u := s.sealClose n cal last
     let ins := (maskInputs fu.mask).filter (fun i => s.fe.slotted.contains i)
     (kwf s.hi.furrows = true → s.furrow? f = some fu → fu.kind = .sample → fu.from?.any (fun c => decide (c < n)) = true →
       (s.pushFrames n nibble).furrow? f = some { fu with openFrames := fu.openFrames ++
         [{ frame := n, nibble := nibble, values := ins.map (fun i => (s.inSt i).value), status := ins.map (fun i => (s.inSt i).status) }] })
     ∧ (s.vaultOk = true → closes = true → u.rd Reg.VT_SEALNO = s.rd Reg.VT_SEALNO + 1 ∧ u.vt.link = s.vt.chain
         ∧ u.vt.unsigned.length = s.vt.unsigned.length + 1)
     ∧ (s.vaultOk = true → closes = false → u.rd Reg.VT_SEALNO = s.rd Reg.VT_SEALNO ∧ u.vt.chain = s.vt.chain
         ∧ u.vt.unsigned = s.vt.unsigned))
  ∧ (∀ (s : State) (inp : TickIn),
     (s.inRun = false → Becomes (.tick inp) s s ∧ Becomes .acquisitionStart s s)
     ∧ (s.running = false → Becomes (.tick inp) s s)
     ∧ (s.running = true → Becomes .acquisitionStart s s))

/-- ACQUISITION_START (R33): the counter has reached tick s, frames run and the first frame is the one after it; accepted input
changes and an accepted release act as at any tick, and then the frame conditions that name tick s are met (R210). -/
def Obligations.AcquisitionStart : Prop :=
  ∀ s : State, s.inRun = true → s.running = false → s.pw.waiting = false →
    Becomes .acquisitionStart s (s.acquisitionBegin.frameConds s.fr.tickS)
    ∧ (let u := s.acquisitionBegin
      u.running = true ∧ u.fr.nextTick = s.fr.tickS + 1 ∧ u.fr.overrun = none ∧ u.fe.pend = []
      ∧ u.rd64 Reg.FR_FIRST_LO = BitVec.ofNat 64 (s.fr.tickS + 1) ∧ u.rd64 Reg.FR_FRAME_LO = BitVec.ofNat 64 s.fr.tickS
      ∧ u.tb = (s.advanceTo (s.tickTime s.fr.tickS)).tb)

/-! ## Control (chapter 10) -/

/-- Writes to loops and coefficients (R239, R249, R262): outside Run a word of a loop stands at once under its mask, in Run it
is staged; an accepted copy waits for the next tick entry, a refused one is dropped with acc_err; a setpoint of a loop whose
source is a furrow is refused; coefficients go to the bank, in Run to its shadow. -/
def Obligations.LoopWrites : Prop :=
  ∀ (s : State) (l : BitVec 5) (off : BitVec 7) (val : Word) (v : Word64) (i : BitVec 9),
    let a := Reg.CE_LCTL l.toNat + off.toNat
    let copy := s.stagedOf l.toNat
    let c := copy.foldl (fun (s : State) e => s.wr e.1 e.2) s.pended
    let k := Reg.CE_COEF_LO i.toNat
    let hi := (kget? s.staged (a + 4)).getD (s.ceRead (a + 4))
    (s.inRun = false → off.toNat < 0x10 → loopWritable off.toNat = true →
      Becomes (.loopStageWrite l off val) s (s.wr a (val &&& loopMask off.toNat)))
    ∧ (s.inRun = true → off.toNat < 0x10 → loopWritable off.toNat = true → Ends (.loopStageWrite l off val) s (fun u =>
        u.ce.staged = kset s.ce.staged a (val &&& loopMask off.toNat)
        ∧ u.flag (Reg.CE_LSTAT l.toNat) Fld.CE_LSTAT_pend = true
        ∧ ∀ b, b ≠ Reg.CE_LSTAT l.toNat → u.rd b = s.rd b))
    ∧ (off.toNat = 0x10 → Becomes (.loopStageWrite l off val) s
        (s.wr (Reg.CE_LSTAT l.toNat) (s.rd (Reg.CE_LSTAT l.toNat) &&& ~~~ (val &&& 0x60#32))))
    ∧ (loopWritable off.toNat = false → off.toNat ≠ 0x10 → Becomes (.loopStageWrite l off val) s s)
    ∧ (0x20 ≤ off.toNat → off.toNat % 8 = 4 → loopWritable off.toNat = true →
      Becomes (.loopStageWrite l off val) s { s with staged := kset s.staged a val })
    ∧ (s.inRun = false → 0x20 ≤ off.toNat → off.toNat % 8 = 0 → loopWritable off.toNat = true →
      Becomes (.loopStageWrite l off val) s { ((s.wr a val).wr (a + 4) hi) with staged := kerase s.staged (a + 4) })
    ∧ (s.inRun = true → 0x20 ≤ off.toNat → off.toNat % 8 = 0 → loopWritable off.toNat = true →
      Ends (.loopStageWrite l off val) s (fun u =>
        u.ce.staged = kset (kset s.ce.staged a val) (a + 4) hi ∧ u.staged = kerase s.staged (a + 4)
        ∧ u.flag (Reg.CE_LSTAT l.toNat) Fld.CE_LSTAT_pend = true))
    ∧ (s.inRun = true → copy = [] → State.loopsOk s.pended c (some l.toNat) = true → Ends (.loopApply l) s (fun u =>
        u.ce.applied = kset s.ce.applied (Reg.CE_LCTL l.toNat) (s.pended.rd (Reg.CE_LCTL l.toNat))
        ∧ u.rd Reg.FR_BUDGET = word c.windowCost))
    ∧ (s.inRun = true → copy ≠ [] → State.loopsOk s.pended c (some l.toNat) = true → Ends (.loopApply l) s (fun u =>
        u.ce.applied = copy.foldl (fun m e => kset m e.1 e.2) s.ce.applied ∧ u.rd Reg.FR_BUDGET = word c.windowCost))
    ∧ (s.inRun = true → State.loopsOk s.pended c (some l.toNat) = false → Ends (.loopApply l) s (fun u =>
        u.ce.applied = s.ce.applied ∧ u.ce.staged = s.ce.staged.filter (fun e => !inLoopBlock l.toNat e.1)
        ∧ u.flag Reg.GLB_STAT Fld.GLB_STAT_acc_err = true))
    ∧ (s.inRun = false → Becomes (.loopApply l) s s ∧ Becomes .coefApply s s ∧ Becomes (.coefWrite i v) s (s.wr64 k v))
    ∧ (s.fget (Reg.CE_LCTL l.toNat) Fld.CE_LCTL_sp_src = 1 → Becomes (.ceLspWrite l v) s (s.accErr true (Reg.CE_LSP_LO l.toNat)))
    ∧ (s.fget (Reg.CE_LCTL l.toNat) Fld.CE_LCTL_sp_src ≠ 1 → Becomes (.ceLspWrite l v) s (s.wr64 (Reg.CE_LSP_LO l.toNat) v))
    ∧ (s.inRun = true → Ends (.coefWrite i v) s (fun u =>
        kget? u.ce.shadow k = some (lo32 v) ∧ kget? u.ce.shadow (k + 4) = some (hi32 v)
        ∧ u.flag Reg.CE_STAT Fld.CE_STAT_coef_pend = true ∧ u.rd64 k = s.rd64 k))
    ∧ (s.inRun = true → State.loopsOk s.pended (s.ce.shadow.foldl (fun (s : State) e => s.wr e.1 e.2) s.pended) none = true →
        Ends .coefApply s (fun u =>
          u.ce.coefNext = some (s.ce.shadow.foldl (fun m e => kset m e.1 e.2) (s.ce.coefNext.getD []))))
    ∧ (s.inRun = true → State.loopsOk s.pended (s.ce.shadow.foldl (fun (s : State) e => s.wr e.1 e.2) s.pended) none = false →
        Ends .coefApply s (fun u => u.ce.coefNext = s.ce.coefNext ∧ u.ce.shadow = []
          ∧ u.flag Reg.CE_STAT Fld.CE_STAT_coef_pend = false ∧ u.flag Reg.GLB_STAT Fld.GLB_STAT_acc_err = true))

/-- The engine's outputs (R243, R255, R257, R259): a loop that has held too long fails, takes its safe value, raises LOOP_LIMIT (32)
once and with fail_safe latches cause 8; an output that reads back within its tolerance clears its failure count, and at its second
failure in a row it is marked, raises OUTPUT_FAIL (34) once and latches cause 7; a PWM period starts with the duty in force and
turns off at the end of its on-time; a shared value at least as new replaces the one held. -/
def Obligations.LoopsAndOutputs : Prop :=
  ∀ (s : State) (l : BitVec 5) (o : BitVec 5) (pin : PinVolts) (level : Bool) (j : BitVec 3) (x : PwmSt) (frame : Word64)
    (es : List SharedIn) (e : SharedIn) (n : Nat),
    let k := l.toNat
    let i := o.toNat
    let duty := s.fget (Reg.CE_PWMCUR j.toNat) Fld.CE_PWMCUR_duty
    let isOn := ((kget? s.ce.pwm (i - 16)).map PwmSt.isOn).getD false
    let fails := if i < 16 then
        decide (s.fget (Reg.CE_AOCFG i) Fld.CE_AOCFG_rb_tol * 1000 * 1048576
          < (pin.uv * 1048576 - (s.fget (Reg.CE_AOCUR i) Fld.CE_AOCUR_code : Int) * pin.vref).natAbs)
      else level != (isOn != s.flag (Reg.CE_PWMCFG (i - 16)) Fld.CE_PWMCFG_pol)
    let judged := s.running && (decide (i < 16) || (decide (i < 24) && s.pwmEn (i - 16)))
    let c := kgetD s.ce.rbFail i 0
    let holds := s.running && s.loopEn k && (s.loop k).started && !(s.loop k).numericStop
      && decide (s.lctl k Fld.CE_LCTL_hold < (s.loop k).holdRun)
    (holds = true → s.lctl k Fld.CE_LCTL_fail_safe ≠ 1 →
      Ends (.loopHoldExpire l) s (fun u => u.sv = s.sv ∧ u.rd64 (Reg.CE_LOUTV_LO k) = s.lsafe k
        ∧ u.flag (Reg.CE_LSTAT k) Fld.CE_LSTAT_failed = true
        ∧ u.rd (Reg.EV_OCC 32) = s.rd (Reg.EV_OCC 32) + (if (s.loop k).failed then 0 else 1)))
    ∧ (holds = true → s.lctl k Fld.CE_LCTL_fail_safe = 1 →
      Ends (.loopHoldExpire l) s (fun u => u.hasCause 8 = true ∧ u.rd64 (Reg.CE_LOUTV_LO k) = s.lsafe k
        ∧ u.flag (Reg.CE_LSTAT k) Fld.CE_LSTAT_failed = true
        ∧ u.rd (Reg.EV_OCC 32) = s.rd (Reg.EV_OCC 32) + (if (s.loop k).failed then 0 else 1)))
    ∧ (holds = false → Becomes (.loopHoldExpire l) s s)
    ∧ (judged = true → fails = false →
        Becomes (.outputReadbackCheck o pin level) s { s with ce := { s.ce with rbFail := kset s.ce.rbFail i 0 } })
    ∧ (judged = true → fails = true → c = 0 →
        Becomes (.outputReadbackCheck o pin level) s ({ s with ce := { s.ce with rbFail := kset s.ce.rbFail i 1 } }.noteBad s.frameNo))
    ∧ (judged = true → fails = true → 1 ≤ c → Ends (.outputReadbackCheck o pin level) s (fun u =>
        u.ce.rbFail = kset s.ce.rbFail i (c + 1) ∧ u.rd Reg.CE_RBSTAT = s.rd Reg.CE_RBSTAT ||| (1#32 <<< i) ∧ u.hasCause 7 = true
        ∧ u.sv.twin.lastBad = some s.frameNo ∧ u.rd (Reg.EV_OCC 34) = s.rd (Reg.EV_OCC 34) + (if c = 1 then 1 else 0)))
    ∧ (judged = false → Becomes (.outputReadbackCheck o pin level) s s)
    ∧ (s.running = true → s.pwmEn j.toNat = true → Becomes (.pwmPeriodStart j) s
        { s with ce := { s.ce with pwm := kset s.ce.pwm j.toNat { isOn := decide (0 < onCycles duty (s.pwmCycles j.toNat)), duty := duty } } })
    ∧ (s.running = false ∨ s.pwmEn j.toNat = false → Becomes (.pwmPeriodStart j) s s)
    ∧ (s.running = true → s.pwmEn j.toNat = true → kget? s.ce.pwm j.toNat = some x → x.isOn = true →
        onCycles x.duty (s.pwmCycles j.toNat) < s.pwmCycles j.toNat → Becomes (.pwmOnTimeEnd j) s
          { s with ce := { s.ce with pwm := kset s.ce.pwm j.toNat { x with isOn := false } } })
    ∧ (s.running = true → s.pwmEn j.toNat = true → kget? s.ce.pwm j.toNat = some x →
        x.isOn = false ∨ s.pwmCycles j.toNat ≤ onCycles x.duty (s.pwmCycles j.toNat) → Becomes (.pwmOnTimeEnd j) s s)
    ∧ (s.alive = true → (es.map SharedIn.id).Nodup → kwf s.ce.shared = true → Ends (.sharedValues frame es) s (fun u =>
        (es.all (fun d => d.id.toNat != n) = true → kget? u.ce.shared n = kget? s.ce.shared n)
        ∧ (e ∈ es → (kget? s.ce.shared e.id.toNat).all (fun h => decide (h.frame ≤ frame.toNat)) = true →
            kget? u.ce.shared e.id.toNat = some { frame := frame.toNat, valid := e.valid, value := e.value })
        ∧ (e ∈ es → (kget? s.ce.shared e.id.toNat).any (fun h => decide (frame.toNat < h.frame)) = true →
            kget? u.ce.shared e.id.toNat = kget? s.ce.shared e.id.toNat)))
    ∧ (s.alive = false → Becomes (.sharedValues frame es) s s)

/-! ## Triggers, plots and the drill bus (chapter 9) -/

/-- Arming, stopping and forcing a unit (R218, R232, R234), and the automatic trigger (R217): arming in Run with a free furrow
starts watches and history anew; stopping disarms; a forced trigger of a unit that is not armed is refused. -/
def Obligations.CaptureCommands : Prop :=
  ∀ (s : State) (u : BitVec 3) (p : Plot),
    let k := u.toNat
    (s.inRun = true → s.unitEn k = true → s.furrowFree k = true → s.ustate k ≠ uArmed → s.ustate k ≠ uCapturing →
      (s.unit k).slipWait = false → Ends (.aqArm u) s (fun t =>
        t.ustate k = uArmed ∧ (t.unit k).hist = [] ∧ (t.unit k).plot = none ∧ (t.unit k).count = 0
        ∧ (∀ a, a ≠ Reg.AQ_USTAT k → t.rd a = s.rd a)))
    ∧ ((s.inRun = true ∧ s.unitEn k = true ∧ s.furrowFree k = true → False) →
        Becomes (.aqArm u) s (s.accErr true (Reg.AQ_UCMD k)))
    ∧ (s.inRun = true → s.unitEn k = true → s.furrowFree k = true →
        (s.ustate k = uArmed ∨ s.ustate k = uCapturing ∨ (s.unit k).slipWait = true) → Becomes (.aqArm u) s s)
    ∧ Ends (.aqStop u) s (fun t => t.ustate k = uDisarmed ∧ (t.unit k).plot = none ∧ (t.unit k).held = [])
    ∧ (s.ustate k = uArmed → s.unitStream k = false → (s.unit k).usedSlots < s.rdN (Reg.AQ_USLOTS k) →
        Ends (.aqForce u) s (fun t => t.ustate k = uCapturing ∧ t.rd (Reg.AQ_USEQ k) = s.rd (Reg.AQ_USEQ k) + 1
          ∧ (t.unit k).usedSlots = (s.unit k).usedSlots + 1
          ∧ (t.unit k).plot.any (fun p => p.source == 0xFE && p.tp == s.now && p.seq == s.rd (Reg.AQ_USEQ k)) = true))
    ∧ (s.ustate k = uArmed → s.unitStream k = false → s.rdN (Reg.AQ_USLOTS k) ≤ (s.unit k).usedSlots →
        Ends (.aqForce u) s (fun t => t.ustate k = uArmed ∧ t.flag (Reg.AQ_USTAT k) Fld.AQ_USTAT_coll = true
          ∧ t.rd (Reg.AQ_UCOLL k) = word (min 0xFFFFFFFF (s.rdN (Reg.AQ_UCOLL k) + 1))))
    ∧ (s.ustate k = uCapturing → (s.unit k).plot = some p → Ends (.aqForce u) s (fun t => (t.unit k).plot = some p
        ∧ t.ustate k = uCapturing ∧ t.flag (Reg.AQ_USTAT k) Fld.AQ_USTAT_coll = true
        ∧ t.rd (Reg.AQ_UCOLL k) = word (min 0xFFFFFFFF (s.rdN (Reg.AQ_UCOLL k) + 1))))
    ∧ (s.ustate k = uArmed → s.unitEn k = true → s.ucfg k Fld.AQ_UCFG_auto = true → s.unitStream k = false →
        (s.unit k).usedSlots < s.rdN (Reg.AQ_USLOTS k) →
        Ends (.autoTrigger u) s (fun t => t.ustate k = uCapturing ∧ t.rd (Reg.AQ_USEQ k) = s.rd (Reg.AQ_USEQ k) + 1
          ∧ (t.unit k).plot.any (fun p => p.source == 0xFF && p.seq == s.rd (Reg.AQ_USEQ k)) = true))
    ∧ (s.ustate k ≠ uArmed → Becomes (.autoTrigger u) s s)
    ∧ (s.ustate k ≠ uArmed → s.ustate k ≠ uCapturing → Becomes (.aqForce u) s (s.accErr true (Reg.AQ_UCMD k)))
    ∧ (s.ustate k = uArmed ∨ s.ustate k = uCapturing → Becomes (.aqForce u) s (s.meet k (s.firing 0xFE s.now (s.sampleAt k s.now))))
    ∧ (s.ustate k = uArmed → s.unitEn k = true → s.ucfg k Fld.AQ_UCFG_auto = true →
        let tp := (s.unit k).armedAt + (s.fget (Reg.AQ_UAUTO k) Fld.AQ_UAUTO_timeout : Int) * 1000000 * nsU
        let v := s.setUnit k { s.unit k with armedAt := tp }
        Becomes (.autoTrigger u) s (v.meet k (v.firing 0xFF tp (v.sampleAt k tp))))

/-- A plot's end and its delivery (R201, R215, R216, R220, R229): a complete record is settled and counted, after the unit's last
one it stops; a part of a unit goes to delivery while the mover is free; of an error of the field memory, a corrected one is
counted and an uncorrectable one in a last part is marked there. -/
def Obligations.PlotDelivery : Prop :=
  ∀ (s : State) (u : BitVec 3) (p : Plot) (q : Part) (rest : List Part) (hit : EccHit) (hits : List EccHit)
    (fi : Firing),
    let k := u.toNat
    let taken := s.setUnit k { s.unit k with ready := rest }
    let marked := State.markPart taken k q hits
    ((s.unit k).plot = some p → s.ustate k = uCapturing → Plot.complete p = true → p.viol = none → (s.unit k).held = [] →
      s.rdN (Reg.AQ_UCOUNT k) ≠ 0 → s.rdN (Reg.AQ_UCOUNT k) ≤ (s.unit k).count + 1 →
      Ends (.plotCaptureComplete u) s (fun t => t.ustate k = uByCount ∧ (t.unit k).plot = none
        ∧ (t.unit k).count = (s.unit k).count + 1))
    ∧ ((s.unit k).plot = some p → s.ustate k = uCapturing → Plot.complete p = true → p.viol = none → (s.unit k).held = [] →
      s.rdN (Reg.AQ_UCOUNT k) = 0 →
      Ends (.plotCaptureComplete u) s (fun t => t.ustate k = uArmed ∧ (t.unit k).plot = none))
    ∧ ((s.unit k).plot = some p → s.ustate k = uCapturing → Plot.complete p = true → p.viol.isSome = true →
      s.ucfg k Fld.AQ_UCFG_stop_viol = true → Ends (.plotCaptureComplete u) s (fun t => t.ustate k = uByViol ∧ (t.unit k).plot = none
        ∧ (t.unit k).held = [] ∧ (t.unit k).count = (s.unit k).count + 1))
    ∧ ((s.unit k).plot = some p → s.ustate k = uCapturing → Plot.complete p = true → p.viol = none →
      s.rdN (Reg.AQ_UCOUNT k) = 0 → s.unitStream k = false → (s.unit k).usedSlots < s.rdN (Reg.AQ_USLOTS k) →
      (s.unit k).held = [fi] → Ends (.plotCaptureComplete u) s (fun t => t.ustate k = uCapturing ∧ (t.unit k).held = []
        ∧ t.rd (Reg.AQ_USEQ k) = s.rd (Reg.AQ_USEQ k) + 1
        ∧ (t.unit k).plot.any (fun x => x.j == fi.j && x.tp == fi.tp && x.source == fi.cond) = true))
    ∧ ((s.unit k).plot.all (fun x => !Plot.complete x) = true → Becomes (.plotCaptureComplete u) s s)
    ∧ ((s.unit k).ready = q :: rest → s.moverHeld = false → Becomes (.plotPartHandoff u hits) s (marked.2.handPart k marked.1))
    ∧ (marked.2.rd Reg.AQ_ECCCNT = word (min 0xFFFFFFFF (taken.rdN Reg.AQ_ECCCNT + (hits.filter EccHit.fixed).length)))
    ∧ ((s.unit k).ready = q :: rest → s.moverHeld = true → Becomes (.plotPartHandoff u hits) s s)
    ∧ ((s.unit k).ready = q :: rest → s.moverHeld = false → Becomes (.plotPartHandoff u []) s
        ((s.setUnit k { s.unit k with ready := rest }).handPart k q))
    ∧ ((s.unit k).ready = q :: rest → s.moverHeld = false → hit.fixed = true → Becomes (.plotPartHandoff u [hit]) s
        (((s.setUnit k { s.unit k with ready := rest }).incSat Reg.AQ_ECCCNT 1).handPart k q))
    ∧ ((s.unit k).ready = q :: rest → s.moverHeld = false → q.last = true → hit.fixed = false →
        let v := (s.setUnit k { s.unit k with ready := rest }).eccError hit
        Becomes (.plotPartHandoff u [hit]) s (v.handPart k { q with
          bytes := eccHeader q.bytes hit.row
          eccAt := some (min (64 + hit.row * v.rowLen k) (q.bytes.length - 1)) }))
    ∧ ((s.unit k).ready = [] → Becomes (.plotPartHandoff u hits) s s)

/-- Pins, fast taps and the drill bus (R119, R211, R221 to R227): an edge closer than 20 ns to the last is no trigger; a drill
message of this hub takes the next sequence number; the first copy of a message waits for its time of action and a further one
is dropped; a pulse ends on its own output; the modulator clock's lock is shown. -/
def Obligations.PinsAndDrill : Prop :=
  ∀ (s : State) (p : BitVec 2) (rising : Bool) (t : Stamp) (last : Int) (ch : BitVec 4) (org : BitVec 6) (seq : Word)
    (tp tdet : PtpTime) (o : BitVec 1) (m : DrillMsg) (slot : BitVec 5) (k : Nat) (ws : List (BitVec 4)),
    let st := rawOf t.count.toNat t.frac.toNat
    let tact := PtpTime.val tdet + s.drillLatency
    let n := s.ftInput slot.toNat
    let lastWord : Int := 64 * (k : Int) + 63 - (s.frameNo * s.wordsPerFrame : Nat)
    (s.alive = true → s.flag (Reg.AQ_PINCFG p.toNat) Fld.AQ_PINCFG_en = true → kget? s.aq.lastEdge p.toNat = some last →
      st - last < 20 * nsU → Becomes (.trigInEdge p rising t) s s)
    ∧ (s.flag (Reg.AQ_PINCFG p.toNat) Fld.AQ_PINCFG_en = false → Becomes (.trigInEdge p rising t) s s)
    ∧ (s.alive = true → s.flag (Reg.AQ_PINCFG p.toNat) Fld.AQ_PINCFG_en = true →
      (kget? s.aq.lastEdge p.toNat).all (fun l => decide (20 * nsU ≤ st - l)) = true → Becomes (.trigInEdge p rising t) s
        (({ s with aq := { s.aq with lastEdge := kset s.aq.lastEdge p.toNat st } }).pinConds p.toNat rising (s.pinTime p.toNat t)))
    ∧ Ends (.drillSend ch) s (fun u => u.aq.drillSeq = s.aq.drillSeq + 1 ∧ u.regs = s.regs
        ∧ u.aq.seen = (s.hubAddr, s.aq.drillSeq) :: s.aq.seen)
    ∧ (s.alive = true → s.aq.seen.contains (org.toNat, seq) = false → s.now ≤ tact →
        Becomes (.drillMessage org ch seq tp tdet) s { s with aq := { s.aq with
          seen := (org.toNat, seq) :: s.aq.seen
          drills := s.aq.drills ++ [{ origin := org.toNat, ch := ch.toNat, seq := seq, tp := PtpTime.val tp, tact := tact }] } })
    ∧ (s.alive = true → s.aq.seen.contains (org.toNat, seq) = false → tact < s.now →
        let seen := ({ s with aq := { s.aq with seen := (org.toNat, seq) :: s.aq.seen } }).incSat Reg.AQ_DRILLLATE 1
        let late := (s.now - tact) / nsU
        Becomes (.drillMessage org ch seq tp tdet) s
          ((seen.raiseD 29 org.toNat 0 ch.toNat (BitVec.ofInt 64 late)).drillConds ch.toNat (PtpTime.val tp) (some late)))
    ∧ (s.aq.seen.contains (org.toNat, seq) = true → Becomes (.drillMessage org ch seq tp tdet) s s)
    ∧ (nextDrill s.aq.drills = some m → Becomes .drillAct s
        (({ s with aq := { s.aq with drills := s.aq.drills.erase m } }).drillConds m.ch m.tp none))
    ∧ (s.aq.drills = [] → Becomes .drillAct s s)
    ∧ Becomes (.trigOutPulseEnd o) s { s with aq := { s.aq with tout := s.aq.tout &&& ~~~ (1#2 <<< o.toNat) } }
    ∧ (s.running = true → s.ftEn slot.toNat = true → s.inEn n = true → s.fe.pllStep = false →
        let row := { s with aq := { s.aq with ftRow := kset s.aq.ftRow slot.toNat (k, s.fastValue n ws, s.fastFlags n lastWord) } }
        Becomes (.fastTapSample slot k ws) s ((List.range 8).foldl (fun (s : State) u =>
          if s.unitEn u && s.unitFast u && (s.unitSources u).contains slot.toNat then s.fastRow u k else s) row))
    ∧ (s.running = true → s.ftEn slot.toNat = true → s.inEn n = true → s.fe.pllStep = false →
        Ends (.fastTapSample slot k ws) s (fun u =>
          kget? u.aq.ftRow slot.toNat = some (k, s.fastValue n ws, s.fastFlags n lastWord)))
    ∧ (s.running = false ∨ s.ftEn slot.toNat = false ∨ s.inEn n = false ∨ s.fe.pllStep = true →
        Becomes (.fastTapSample slot k ws) s s)
    ∧ (s.alive = true → s.pw.inReset = false → s.pw.power ≠ .hold → Ends .modPllLock s (fun u =>
        u.pllLocked = true ∧ u.fe.pllStep = false))
    ∧ (s.pw.inReset = true ∨ s.pw.power = .hold → Becomes .modPllLock s s)

/-! ## Events, the trace and the side port (chapters 16 and 17) -/

/-- Reading the fault trace and the first fault (R437, R439, R440): a selected entry reads word by word and the selection then
advances; an entry that is not held reads 0 with tr_miss; word 0 of the first fault latches the others, and reading word 7
after it frees it; the runs of a queue with room close into two records each. -/
def Obligations.TraceReads : Prop :=
  ∀ (s : State) (val : Word) (e : EvRec) (w : BitVec 3),
    Becomes (.evTrptrWrite val) s
      ((({ s with ev := { s.ev with trWord := 0 } }).wr Reg.EV_TRPTR val).setFlag Reg.EV_STAT Fld.EV_STAT_tr_miss false)
    ∧ (s.traceEntry (s.rd Reg.EV_TRPTR) = some e → s.ev.trWord < 7 → Becomes .evTrdataRead s
        { s with rdata := (EvRec.words e).getD s.ev.trWord 0, ev := { s.ev with trWord := s.ev.trWord + 1 } })
    ∧ (s.traceEntry (s.rd Reg.EV_TRPTR) = some e → s.ev.trWord = 7 → Becomes .evTrdataRead s
        (({ s with rdata := (EvRec.words e).getD 7 0, ev := { s.ev with trWord := 0 } }).wr
          Reg.EV_TRPTR (s.rd Reg.EV_TRPTR + 1)))
    ∧ (s.traceEntry (s.rd Reg.EV_TRPTR) = none → Ends .evTrdataRead s (fun u =>
        u.rdata = 0 ∧ u.flag Reg.EV_STAT Fld.EV_STAT_tr_miss = true))
    ∧ Ends (.evFfRead 0) s (fun u => u.rdata = s.rd (Reg.EV_FF 0) ∧ u.ev = { s.ev with ffArmed := true } ∧ u.regs = s.regs
        ∧ ∀ i, 0 < i → i < 8 → regRead u.shadow (Reg.EV_FF i) = s.rd (Reg.EV_FF i))
    ∧ (w ≠ 0 → w ≠ 7 → Becomes (.evFfRead w) s { s with rdata := regRead s.shadow (Reg.EV_FF w.toNat) })
    ∧ (s.ev.ffArmed = true → Becomes (.evFfRead 7) s
        (({ s with rdata := regRead s.shadow (Reg.EV_FF 7), ev := { s.ev with ffArmed := false } }).setFlag
          Reg.EV_STAT Fld.EV_STAT_ff_valid false))
    ∧ (s.alive = true → s.inRun = true → 256 ≤ s.evFree → Ends .eventRunClose s (fun u =>
        u.ev.runs = [] ∧ u.ev.queue = s.ev.queue ++ s.ev.runs.flatMap EvRun.records))

/-- The side port (R449 to R456): a setpoint frame is shifted out once before the tick; the observer's register takes the status
frame as its select falls; a frame of a wrong length is discarded and raised (SP_FRAME, 61); the permit lapses. -/
def Obligations.SidePort : Prop :=
  ∀ (s : State) (rx bits : List Bool) (f : Nat) (it : Item) (fu : Furrow) (bytes : XferBytes),
    let fr := s.spFrame s.sv.safe
    let all := s.sp.obsReg ++ bits
    let ws := wordsOfBits 8 (all.drop bits.length)
    let w0 := (ws.getD 0 0).toNat
    let w1 := (ws.getD 1 0).toNat
    let good := decide (w0 / 2 ^ 24 = 0xC3) && obsCrc (ws.take 7) == ws.getD 7 0
    let command := w0 / 2 ^ 8 % 256
    (s.spMode = 1 → s.spEn = true → s.running = true → s.sp.shifting = false → s.sp.inhibit = false →
      (s.sv.safe = true ∨ s.ce.ran = true ∨ s.fr.nextTick = s.fr.tickS + 1) → Becomes (.setpointFrameShift rx) s
        ((({ s with sp := { s.sp with shifting := true, frame := fr, rx := rx.take fr.length } }).setFlag
          Reg.SP_STAT Fld.SP_STAT_sp_busy true).emit
            (.sideShift (s.fget Reg.SP_SPCFG Fld.SP_SPCFG_sel) (clocksOf (lanesOf s.spWidth) fr))))
    ∧ (s.sv.safe = false → s.ce.ran = false → s.fr.nextTick ≠ s.fr.tickS + 1 → Becomes (.setpointFrameShift rx) s s)
    ∧ (s.alive = true → s.spMode = 2 → Becomes .observerSelectFall s
        (({ s with sp := { s.sp with obsSel := true, obsReg := s.obsStatus.flatMap (fun (w : Word) => msbBits 32 w.toNat) } }).fput
          Reg.SP_OBSPTR Fld.SP_OBSPTR_ptr (min 0xFFFF (s.fget Reg.SP_OBSPTR Fld.SP_OBSPTR_ptr + 3))))
    ∧ (s.sp.obsSel = true → bits.length ≠ 256 * s.obsStages → Ends (.observerSelectRise bits) s (fun u =>
        u.sp.obsSel = false ∧ u.sp.obsErr = true ∧ u.sp.permit = s.sp.permit
        ∧ u.rd Reg.SP_OBSERR = word (min 0xFFFFFFFF (s.rdN Reg.SP_OBSERR + 1))
        ∧ u.flag Reg.SP_STAT Fld.SP_STAT_frm_err = true ∧ u.rd (Reg.EV_OCC 61) = s.rd (Reg.EV_OCC 61) + 1))
    ∧ (s.sp.obsSel = true → bits.length = 256 * s.obsStages → good = false → Ends (.observerSelectRise bits) s (fun u =>
        u.sp.obsSel = false ∧ u.sp.obsErr = true ∧ u.sp.permit = s.sp.permit ∧ u.sp.obsSeq = s.sp.obsSeq
        ∧ u.rd Reg.SP_OBSERR = word (min 0xFFFFFFFF (s.rdN Reg.SP_OBSERR + 1))
        ∧ u.flag Reg.SP_STAT Fld.SP_STAT_frm_err = true))
    ∧ (s.sp.obsSel = true → bits.length = 256 * s.obsStages → good = true → Ends (.observerSelectRise bits) s (fun u =>
        u.sp.obsSel = false ∧ u.sp.obsErr = false ∧ u.sp.obsSeq = BitVec.ofNat 8 (w0 / 2 ^ 16)
        ∧ u.sp.permit = (w1 / 2 ^ 31 == 1) ∧ u.flag Reg.SP_STAT Fld.SP_STAT_permit = (w1 / 2 ^ 31 == 1)
        ∧ (command = 1 → u.fget Reg.SP_OBSPTR Fld.SP_OBSPTR_ptr = w1 % 65536)
        ∧ (command = 2 → u.hasCause 11 = true)
        ∧ (command = 3 → u.rd Reg.SP_OBSERR = 0)))
    ∧ (s.sp.obsSel = false → Becomes (.observerSelectRise bits) s s)
    ∧ Becomes .observerPermitLapse s
        (({ s with sp := { s.sp with permit := false } }).setFlag Reg.SP_STAT Fld.SP_STAT_permit false)
    ∧ (s.readsCame .transfer = true → s.sp.xfer = some it.seq → s.furrowOf? .side = some f → s.furrow? f = some fu → Furrow.item? fu it.seq = some it →
        xferIn it.desc = 0 → Becomes (.xferComplete bytes) s ((((s.readsDone .transfer).freeSide.sideOut it.desc bytes.tx).endItem f it.seq .done 0 0).sidePump))
    ∧ (s.readsCame .transfer = true → s.sp.xfer = some it.seq → s.furrowOf? .side = some f → s.furrow? f = some fu → Furrow.item? fu it.seq = some it →
        0 < xferIn it.desc → Becomes (.xferComplete bytes) s
          (((((s.readsDone .transfer).freeSide.sideOut it.desc bytes.tx).toHost (.dmaWrite (join64 it.desc.w4 it.desc.w5)
              (packRx (xferIn it.desc) bytes.rx))).endItem f it.seq .done (ceilDiv (xferIn it.desc) 8) 0).sidePump))

/-! ## Furrows (chapter 11) -/

/-- Descriptors that end as soon as they start (R269, R278, R279, R284): NOP completes DONE, an op that the furrow's kind does
not allow completes FAILED_PARAM, and a FENCE completes once the item it names has been posted and waits before.
FENCE_RELEASE (R284): the fence of a furrow completes once its target's item has been posted, and what it held starts. -/
def Obligations.FurrowNopAndFence : Prop :=
  (∀ (s : State) (f : BitVec 9) (fu : Furrow) (d : Desc) (op : Byte) (t : Nat), Fetches s f.toNat fu → f.toNat ≠ 0 →
     let i := f.toNat
     let q := fu.nextFetch
     let fs := s.fetched i fu 1 d none
     (fu.kind ≠ .mgmt → reservedZero 0 d = true → Becomes (.nop f 0 d) s
       (((s.fetched i fu 0 d none).endItem i q .done 0 0).balerPump.sidePump))
     ∧ (opAllowed fu.kind op = false → Becomes (.nop f op d) s
       (((s.fetched i fu op d none).endItem i q .failedParam 0 (if op = 0x20#8 then d.w2 else 0)).balerPump.sidePump))
     ∧ (fu.kind ≠ .mgmt → reservedZero 1 d = true → fs.target? d.w2 = some t → t ≠ i →
         (fs.furrow? t).any (fun g => Furrow.posted g d.w1) = true →
         Becomes (.fence f d) s ((fs.endItem i q .done 0 0).balerPump.sidePump))
     ∧ (fu.kind ≠ .mgmt → reservedZero 1 d = true → fs.target? d.w2 = some t → t ≠ i →
         (fs.furrow? t).any (fun g => Furrow.posted g d.w1) = false →
         Becomes (.fence f d) s ((fs.activate i q).balerPump.sidePump))
     ∧ (fu.kind ≠ .mgmt → reservedZero 1 d = true → fs.target? d.w2 = none →
         Becomes (.fence f d) s (((fs.stale d.w2).endItem i q .failedParam 0 0).balerPump.sidePump)))
  ∧ (∀ (s : State) (fu : Furrow) (d : Desc) (op : Byte), Fetches s 0 fu → fu.kind = .mgmt →
     (reservedZero 0 d = true → Becomes (.nop 0 0 d) s ((s.fetched 0 fu 0 d none).endItem 0 fu.nextFetch .done 0 0))
     ∧ (opAllowed .mgmt op = false → Becomes (.nop 0 op d) s ((s.fetched 0 fu op d none).endItem 0 fu.nextFetch .failedParam 0 0))
     ∧ Becomes (.fence 0 d) s ((s.fetched 0 fu 1 d none).endItem 0 fu.nextFetch .failedParam 0 0))
  ∧ (∀ (s : State) (f : BitVec 9) (fu : Furrow), s.furrow? f.toNat = some fu →
     (fu.items.find? (fun it => it.op == 0x01#8 && Item.isActive it) = none → Becomes (.fenceRelease f) s s))
  ∧ (∀ (s : State) (f : BitVec 9) (fu : Furrow) (it : Item), s.furrow? f.toNat = some fu →
     fu.items.find? (fun it => it.op == 0x01#8 && Item.isActive it) = some it →
     let ready := (s.target? it.desc.w2).any (fun t => (s.furrow? t).any (fun g => Furrow.posted g it.desc.w1))
     (ready = true → Becomes (.fenceRelease f) s ((s.endItem f.toNat it.seq .done 0 0).startHeld f.toNat false))
     ∧ (ready = false → Becomes (.fenceRelease f) s s))

/-- BUF and SETPOINT (R250, R279, R286): a buffer of length 0 ends empty, a misaligned one fails, and a good one is posted and
takes what waits; a setpoint in order joins the queue, and one that is not names FAILED_PARAM. -/
def Obligations.BuffersAndSetpoints : Prop :=
  ∀ (s : State) (f : BitVec 9) (fu : Furrow) (d : Desc) (hits : List EccHit), Fetches s f.toNat fu → f.toNat ≠ 0 →
    let i := f.toNat
    let q := fu.nextFetch
    let bs := s.fetched i fu 0x10 d none
    let ss := s.fetched i fu 0x20 d none
    let frame := (join64 d.w2 d.w3).toNat
    let value := join64 d.w4 d.w5
    let now := if s.running then s.frameNo else 0
    let queued := fun (acked : Bool) => ({ ss with ce := { ss.ce with queue := ss.ce.queue ++
      [({ furrow := i, seq := q, loop := d.param.toNat, frame := frame, value := value, acked := acked } : QSet)] } } : State).noteQueueSp
    (opAllowed fu.kind 0x10 = true → reservedZero 0x10 d = true → Desc.len d = 0 →
      Becomes (.buf f d []) s ((bs.endItem i q .doneEmpty 0 0).balerPump.sidePump))
    ∧ (opAllowed fu.kind 0x10 = true → reservedZero 0x10 d = true → Desc.len d ≠ 0 → bufAligned d = false →
      Becomes (.buf f d []) s ((bs.endItem i q .failedParam 0 0).balerPump.sidePump))
    ∧ (opAllowed fu.kind 0x10 = true → reservedZero 0x10 d = true → Desc.len d ≠ 0 → bufAligned d = true → s.inRun = true →
      Becomes (.buf f d []) s (((bs.activate i q).deliver i false).balerPump.sidePump))
    ∧ (opAllowed fu.kind 0x10 = true → reservedZero 0x10 d = true → Desc.len d ≠ 0 → bufAligned d = true → s.inRun = false →
      fu.kind ≠ .event → Becomes (.buf f d []) s (((bs.activate i q).deliver i false).balerPump.sidePump))
    ∧ (fu.kind = .event → reservedZero 0x10 d = true → Desc.len d ≠ 0 → bufAligned d = true → s.inRun = false →
      Becomes (.buf f d []) s (((bs.activate i q).deliver i false).evFill.balerPump.sidePump))
    ∧ (fu.kind = .sample → reservedZero 0x10 d = true → Desc.len d ≠ 0 → bufAligned d = true → s.inRun = true →
      Becomes (.buf f d hits) s
        (let v := if fu.blocks.isEmpty then s else hits.foldl State.eccHit s
         ((((v.fetched i fu 0x10 d none).activate i q).deliver i (hits.any (fun hit => !hit.fixed))).balerPump.sidePump)))
    ∧ (fu.kind = .setpoint → reservedZero 0x20 d = true → (∀ x ∈ ss.ce.queue, ¬ (x.furrow = i ∧ x.seq = q)) →
        s.sv.twin.applied = [] → d.param.toNat ≤ 31 → ss.setpointBad i d.param.toNat = false → fFinite value = true →
        frame ≤ now + 65536 → (s.running = true → now < frame) → ss.relays = false →
        Becomes (.setpoint f d) s
          (((queued true).activate i q).balerPump.sidePump))
    ∧ (fu.kind = .setpoint → reservedZero 0x20 d = true → (∀ x ∈ ss.ce.queue, ¬ (x.furrow = i ∧ x.seq = q)) →
        s.sv.twin.applied = [] → d.param.toNat ≤ 31 → ss.setpointBad i d.param.toNat = false → fFinite value = true →
        frame ≤ now + 65536 → (s.running = true → now < frame) → ss.relays = true →
        Becomes (.setpoint f d) s
          (((((queued false).activate i q).sendTwin 0x11 [i % 256, q.toNat, d.param.toNat, frame, value.toNat])).balerPump.sidePump))
    ∧ (fu.kind = .setpoint → reservedZero 0x20 d = true → (∀ x ∈ ss.ce.queue, ¬ (x.furrow = i ∧ x.seq = q)) →
        s.sv.twin.applied = [] → d.param.toNat ≤ 31 → ss.setpointBad i d.param.toNat = false → fFinite value = true →
        s.running = true → frame ≤ now →
        Becomes (.setpoint f d) s
          (((ss.setpointLate i q d.param.toNat frame).endItem i q .failedLate 0 d.w2).balerPump.sidePump))
    ∧ (fu.kind = .setpoint → reservedZero 0x20 d = true → (∀ x ∈ ss.ce.queue, ¬ (x.furrow = i ∧ x.seq = q)) →
        s.sv.twin.applied = [] → 31 < d.param.toNat →
        Becomes (.setpoint f d) s ((ss.endItem i q .failedParam 0 d.w2).balerPump.sidePump))

/-- Jobs and transfers (R336, R338, R351, R446): a fetched COMPRESS, EXPAND or VERIFY waits while its pipe is in use; a free pipe
takes it and reads its source, one whose fields break the rules ends FAILED_PARAM and one without source bytes DONE_EMPTY; a fetched
XFER waits for the side port likewise. -/
def Obligations.JobsAndTransfers : Prop :=
  (∀ (s : State) (f : Byte) (fu : Furrow) (d : Desc), Fetches s f.toNat fu →
    (fu.kind = .job → Becomes (.compress f d) s ((s.fetched f.toNat fu 0x30 d none).balerPump.sidePump))
    ∧ (fu.kind = .job → Becomes (.expand f d) s ((s.fetched f.toNat fu 0x31 d none).balerPump.sidePump))
    ∧ (fu.kind = .job → Becomes (.verify f d) s ((s.fetched f.toNat fu 0x32 d none).balerPump.sidePump))
    ∧ (f.toNat ≠ 0 → fu.kind = .side → d.flags &&& 0xFE#8 = 0 → Becomes (.xfer f d) s ((s.fetched f.toNat fu 0x40 d none).balerPump.sidePump))
    ∧ (f.toNat ≠ 0 → fu.kind = .side → d.flags &&& 0xFE#8 ≠ 0 → s.hi.subreset = none →
        Becomes (.xfer f d) s (((s.fetched f.toNat fu 0x40 d none).endItem f.toNat fu.nextFetch .failedParam 0 0).balerPump.sidePump)))
  ∧ (∀ (s : State) (f : Byte) (fu : Furrow) (d : Desc) (c : Instr) (op : Byte) (comp : Bool), Fetches s f.toNat fu → f.toNat ≠ 0 →
    fu.kind = .job → (c, op, comp) ∈ [(Instr.compress f d, 0x30#8, true), (.expand f d, 0x31#8, false), (.verify f d, 0x32#8, false)] →
    let i := f.toNat
    let q := fu.nextFetch
    let pipe := fun (u : State) => if comp then u.bl.comp else u.bl.exp
    let stands := fun (u : State) (st : Item → Bool) => (u.furrow? i).any (fun g => (Furrow.item? g q).any (fun it => it.op == op && it.desc == d && st it))
    let alone := (kkeys s.hi.furrows).all (fun k => k == i || (s.furrow? k).all (fun g =>
      (Furrow.runnable? g true).isNone && (Furrow.runnable? g false).isNone))
    (pipe s ≠ none → Ends c s (fun u => pipe u = pipe s ∧ stands u Item.isHeld = true))
    ∧ (pipe s = none → s.hi.subreset = none → alone = true → s.jobBad i op d = false →
        Desc.srcLen d ≠ 0 ∨ (comp && optFinal d) = true → Ends c s (fun u => pipe u = some (i, q) ∧ stands u Item.isActive = true
          ∧ u.flag Reg.BL_STAT (if comp then Fld.BL_STAT_comp_busy else Fld.BL_STAT_exp_busy) = true ∧ u.rd Reg.BL_JOBS = s.rd Reg.BL_JOBS))
    ∧ (pipe s = none → s.hi.subreset = none → alone = true →
        s.jobBad i op d = true ∨ (Desc.srcLen d = 0 ∧ (comp && optFinal d) = false) → Ends c s (fun u => pipe u = none
          ∧ stands u (fun it => !Item.ended it) = false ∧ u.rd Reg.BL_JOBS = word (min 0xFFFFFFFF (s.rdN Reg.BL_JOBS + 1)))))
  ∧ (∀ (s : State) (f : Byte) (fu : Furrow) (d : Desc), Fetches s f.toNat fu → f.toNat ≠ 0 → fu.kind = .side →
    d.flags &&& 0xFE#8 = 0 → s.furrowOf? .side = some f.toNat → s.hi.subreset = none →
    let i := f.toNat
    let q := fu.nextFetch
    let stands := fun (u : State) (st : Item → Bool) => (u.furrow? i).any (fun g => (Furrow.item? g q).any st)
    (s.sp.xfer ≠ none → Ends (.xfer f d) s (fun u => u.sp.xfer = s.sp.xfer ∧ stands u Item.isHeld = true))
    ∧ (s.sp.xfer = none → xferReserved d = false → d.w1 ≠ 0 → s.xferBad d = false → s.xferTooLong d = false → s.sp.shifting = false →
        s.xferFits d = true → Ends (.xfer f d) s (fun u => u.sp.xfer = some q ∧ stands u Item.isActive = true
          ∧ u.flag Reg.SP_STAT Fld.SP_STAT_xfer_busy = true))
    ∧ (s.sp.xfer = none → xferReserved d = true ∨ d.w1 = 0 ∨ s.xferBad d = true ∨ s.xferTooLong d = true →
        Ends (.xfer f d) s (fun u => u.sp.xfer = none ∧ stands u (fun it => !Item.ended it) = false)))

/-- Operations of furrow 0 on handles (R270, R273, R280, R295): a stale handle fails with HANDLE_STALE (54); DESTROY, RESUME and FLUSH act
on their furrow and complete with its count; LEDGER writes the 2,048 bytes of the drain ledger. -/
def Obligations.ManagementItems : Prop :=
  ∀ (s : State) (fu : Furrow) (d : Desc) (f : Nat) (g : Furrow) (x : Word64), Fetches s 0 fu → fu.kind = .mgmt →
    let q := fu.nextFetch
    let fs := fun (op : Byte) => s.fetched 0 fu op d none
    (reservedZero 0x81 d = true → d.w1 ≠ 0x100#32 → (fs 0x81).target? d.w1 = some f → (fs 0x81).furrow? f = some g →
      Becomes (.destroy d) s ((((fs 0x81).destroyFurrow f g).2.endItem 0 q .done 0 (word ((fs 0x81).destroyFurrow f g).1))))
    ∧ (reservedZero 0x81 d = true → d.w1 ≠ 0x100#32 → (fs 0x81).target? d.w1 = some f → (fs 0x81).furrow? f = some g →
      Ends (.destroy d) s (fun u => u.furrow? f = none ∧ (f < 256 → u.fget (Reg.GLB_LEDGER_HI f) Fld.GLB_LEDGER_HI_state = 0)))
    ∧ (reservedZero 0x81 d = true → d.w1 = 0x100#32 → Becomes (.destroy d) s ((fs 0x81).endItem 0 q .failedParam 0 0))
    ∧ (reservedZero 0x81 d = true → d.w1 ≠ 0x100#32 → (fs 0x81).target? d.w1 = none →
      Becomes (.destroy d) s (((fs 0x81).stale d.w1).endItem 0 q .failedParam 0 0))
    ∧ (reservedZero 0x82 d = true → (fs 0x82).target? d.w1 = some f → (fs 0x82).furrow? f = some g →
      Becomes (.resume d) s (((fs 0x82).resumeFurrow f).endItem 0 q .done 0 0))
    ∧ (reservedZero 0x82 d = true → (fs 0x82).target? d.w1 = some f → (fs 0x82).furrow? f = some g → g.failed = false →
      Ends (.resume d) s (fun u => (u.furrow? f).any (fun h => !h.stalled) = true))
    ∧ (reservedZero 0x82 d = true → (fs 0x82).target? d.w1 = none →
      Becomes (.resume d) s (((fs 0x82).stale d.w1).endItem 0 q .failedParam 0 0))
    ∧ (reservedZero 0x83 d = true → (fs 0x83).target? d.w1 = some f → (fs 0x83).furrow? f = some g →
      Becomes (.flush d) s (((fs 0x83).flushFurrow f g).2.endItem 0 q .done 0 (word ((fs 0x83).flushFurrow f g).1)))
    ∧ (reservedZero 0x83 d = true → (fs 0x83).target? d.w1 = some f → (fs 0x83).furrow? f = some g → g.stalled = true → g.failed = false →
      Ends (.flush d) s (fun u => (u.furrow? f).any (fun h => !h.stalled && h.nextFetch == g.prod && h.items.all Item.ended) = true))
    ∧ (reservedZero 0x83 d = true → (fs 0x83).target? d.w1 = none →
      Becomes (.flush d) s (((fs 0x83).stale d.w1).endItem 0 q .failedParam 0 0))
    ∧ (reservedZero 0x84 d = true → Desc.len d = 0 → Becomes (.ledger d) s ((fs 0x84).endItem 0 q .doneEmpty 0 0))
    ∧ (reservedZero 0x84 d = true → Desc.len d ≠ 0 → bufAligned d = false → Becomes (.ledger d) s ((fs 0x84).endItem 0 q .failedParam 0 0))
    ∧ (reservedZero 0x84 d = true → bufAligned d = true → 2048 ≤ Desc.len d → s.hi.refuseAt = some x → (x - Desc.addr d).toNat < 2048 →
      Becomes (.ledger d) s
        ((({ fs 0x84 with hi := { (fs 0x84).hi with refuseAt := none } }).dmaErr x).endItem 0 q .failedDma 0 0))
    ∧ (reservedZero 0x84 d = true → bufAligned d = true → 2048 ≤ Desc.len d →
      s.hi.refuseAt.all (fun x => decide (2048 ≤ (x - Desc.addr d).toNat)) = true → Becomes (.ledger d) s (((fs 0x84).toHost (.dmaWrite (Desc.addr d) (fs 0x84).ledgerBytes)).endItem 0 q .done 2048 0))
    ∧ (reservedZero 0x84 d = true → bufAligned d = true → Desc.len d ≠ 0 → Desc.len d < 2048 →
      Becomes (.ledger d) s ((fs 0x84).endItem 0 q .failedSpace 0 0))

/-- CREATE (R271, R280): a block that cannot be read fails with FAILED_DMA, a bad one with FAILED_PARAM, and a good one makes a
furrow at the lowest free index, whose handle holds a new generation and whose ledger entry reads open. -/
def Obligations.Create : Prop :=
  ∀ (s : State) (fu : Furrow) (d : Desc) (b : List Byte) (nf : Furrow) (i : Nat), Fetches s 0 fu → fu.kind = .mgmt →
    reservedZero 0x80 d = true →
    let q := fu.nextFetch
    let fs := (s.fetched 0 fu 0x80 d (some b)).readNow .block (Desc.addr d) 64
    let gen := if s.ledgerGen i = 0xFFFFFF then 1 else s.ledgerGen i + 1
    Becomes (.create d none) s ((((s.fetched 0 fu 0x80 d none).readNow .block (Desc.addr d) 64).dmaErr (Desc.addr d)).endItem 0 q .failedDma 0 0)
    ∧ (blockFurrow fs (fitBytes 64 b) = none → Becomes (.create d (some b)) s (fs.endItem 0 q .failedParam 0 0))
    ∧ (blockFurrow fs (fitBytes 64 b) = some nf → (List.range 256).find? (fun i => i != 0 && (fs.furrow? i).isNone) = none →
        Becomes (.create d (some b)) s (fs.endItem 0 q .failedLimit 0 0))
    ∧ (blockFurrow fs (fitBytes 64 b) = some nf → (List.range 256).find? (fun i => i != 0 && (fs.furrow? i).isNone) = some i →
        fs.kindFull nf.kind = true ∨ (nf.kind = .sample ∧ s.inRun = true ∧ (fs.pended.setFurrow i nf).costOk = false) →
        Becomes (.create d (some b)) s (fs.endItem 0 q .failedLimit 0 0))
    ∧ (blockFurrow fs (fitBytes 64 b) = some nf → fs.kindFull nf.kind = false →
        nf.kind ≠ .sample ∨ s.inRun = false ∨ (fs.pended.setFurrow i nf).costOk = true →
        (List.range 256).find? (fun i => i != 0 && (fs.furrow? i).isNone) = some i →
        Ends (.create d (some b)) s (fun u =>
          u.furrow? i = some { nf with handle := word (gen * 256 + i) }
          ∧ (nf.kind = .sample → s.inRun = true → u.rd Reg.FR_BUDGET = word (fs.pended.setFurrow i nf).windowCost)
          ∧ u.rd (Reg.GLB_LEDGER_LO i) = 0xFFFFFFFF#32
          ∧ u.fget (Reg.GLB_LEDGER_HI i) Fld.GLB_LEDGER_HI_state = 1
          ∧ u.fget (Reg.GLB_LEDGER_HI i) Fld.GLB_LEDGER_HI_gen = gen % 2 ^ 24))

/-- SUBRESET and its completion (R427, R428): a listed subsystem is reset and its item stays in work until the reset completes; a
code or index that is not listed fails with FAILED_PARAM. -/
def Obligations.Subreset : Prop :=
  ∀ (s : State) (fu : Furrow) (d : Desc) (r : SubReset) (it : Item),
    let code := d.param.toNat % 256
    let index := d.param.toNat / 256
    let q := fu.nextFetch
    let fs := s.fetched 0 fu 0x85 d none
    let act := (fs.activate 0 q).dropStaging
    let on : State := { act with hi := { act.hi with subreset := some { code := code, index := index, aborted := 0 } } }
    let aux := if r.code = 5 then b2n !s.portUp 0 else if r.code = 6 then b2n !s.portUp 1 else r.aborted
    let done : State := { s with hi := { s.hi with subreset := none }, sp := { s.sp with inhibit := s.sp.inhibit && r.code != 2 } }
    (Fetches s 0 fu → fu.kind = .mgmt → reservedZero 0x85 d = true → fs.subresetOk code index = false →
      Becomes (.subreset d) s (fs.endItem 0 q .failedParam 0 0))
    ∧ (Fetches s 0 fu → fu.kind = .mgmt → reservedZero 0x85 d = true → s.inIdle = false → s.inRun = false →
      Becomes (.subreset d) s (fs.endItem 0 q .failedParam 0 0))
    ∧ (Fetches s 0 fu → fu.kind = .mgmt → reservedZero 0x85 d = true → fs.subresetOk code index = true →
        (s.inIdle = true ∨ s.inRun = true) → Becomes (.subreset d) s
          (let p := on.resetPart code index
           { p.2 with hi := { p.2.hi with subreset := some { code := code, index := index, aborted := p.1 } } }))
    ∧ (s.hi.subreset = some r → (s.furrow? 0).bind (fun fu => fu.items.find? (fun it => it.op == 0x85#8 && Item.isActive it)) = some it →
        Becomes .subresetComplete s (((done.endItem 0 it.seq .done 0 (word aux)).balerPump).sidePump.mgmtRun))
    ∧ (s.hi.subreset = none → Becomes .subresetComplete s s)

/-- Failed host accesses and the event buffer's timeout (R287, R292, R294, R296): a refused fetch ends its item FAILED_DMA, and so does a
refused data access of a job or transfer, whose furrow stalls; a buffer that waits is marked, or at once fails where it holds records
outside Run; furrow 0 keeps the address for its next LEDGER; a furrow whose completion cannot be written stops for good, with
DMA_ERROR (53) and FURROW_FAILED (48), the completion before it standing in the ledger and the event (that the failed one is the last
sent out is log 63, and that a waiting buffer is marked is log 85). -/
def Obligations.FailedAccesses : Prop :=
  (∀ (s : State) (f : BitVec 9) (fu : Furrow) (addr : Word64) (it : Item), s.furrow? f.toNat = some fu → fu.failed = false → s.hostOpen = true →
    let i := f.toNat
    let fetch := addr == fu.descAddr fu.fetchSeq && s.mayFetch fu
    (fetch = true → i ≠ 0 → Becomes (.dmaFailure f addr) s ((s.dmaErr addr).failFetch i fu))
    ∧ (fetch = true → i = 0 → Becomes (.dmaFailure f addr) s ((s.dmaErr addr).failFetch 0 fu).mgmtRun)
    ∧ (fetch = true → i ≠ 0 → (fu.kind = .job ∨ fu.kind = .side ∨ fu.kind = .setpoint) → fu.items = [] →
      Ends (.dmaFailure f addr) s (fun u => (u.furrow? i).any (fun g => g.stalled) = true))
    ∧ (fetch = false → (fu.kind = .sample ∨ fu.kind = .plot ∨ fu.kind = .seal ∨ (fu.kind = .event ∧ s.inRun = true)) →
      Furrow.buffer? fu = some it →
      Becomes (.dmaFailure f addr) s (s.setFurrow i (Furrow.modItem fu it.seq (fun x => { x with refused := some addr }))))
    ∧ (fetch = false → fu.kind = .event → s.inRun = false → Furrow.buffer? fu = some it → it.recs ≠ 0 →
      Becomes (.dmaFailure f addr) s (s.failBuffer i it addr).evFill)
    ∧ (fetch = false → fu.kind = .event → s.inRun = false → Furrow.buffer? fu = some it → it.recs = 0 →
      Becomes (.dmaFailure f addr) s ((s.dmaErr addr).failFetch i fu))
    ∧ (fetch = false → (fu.kind = .sample ∨ fu.kind = .plot ∨ fu.kind = .seal ∨ fu.kind = .event) → Furrow.buffer? fu = none →
      Becomes (.dmaFailure f addr) s ((s.dmaErr addr).failFetch i fu))
    ∧ (fetch = false → (fu.kind = .job ∨ fu.kind = .side) → fu.refusedItem? addr = some it →
      Becomes (.dmaFailure f addr) s (s.failWork i fu it addr))
    ∧ (fetch = false → fu.kind = .job → fu.refusedItem? addr = some it → Ends (.dmaFailure f addr) s (fun u =>
      (u.furrow? i).any (fun g => g.stalled) = true ∧ u.bl.comp ≠ some (i, it.seq) ∧ u.bl.exp ≠ some (i, it.seq)))
    ∧ (fetch = false → (fu.kind = .job ∨ fu.kind = .side) → fu.refusedItem? addr = none →
      Becomes (.dmaFailure f addr) s ((s.dmaErr addr).failFetch i fu))
    ∧ (fetch = false → fu.kind = .mgmt → Becomes (.dmaFailure f addr) s { s with hi := { s.hi with refuseAt := some addr } })
    ∧ (fetch = false → fu.kind = .setpoint → Becomes (.dmaFailure f addr) s ((s.dmaErr addr).failFetch i fu)))
  ∧ (∀ (s : State) (f : BitVec 9) (fu : Furrow) (addr : Word64) (it : Item), s.furrow? f.toNat = some fu →
    (fu.kind = .sample → Furrow.buffer? fu = some it → it.refused = some addr → fu.failed = false → fu.blocks.head?.any (fun b => Block.len b ≤ Desc.len it.desc) = true →
      s.sampleOne f.toNat false = (true, s.failBuffer f.toNat it addr))
    ∧ (fu.failed = false → fu.nextPost ≠ 0 → f.toNat < 256 → Ends (.completionWriteFailure f addr) s (fun u =>
        let q := s.setFurrow f.toNat { fu with failed := true, nextPost := fu.nextPost - 1 }
        ∃ v, Raised 53 (f.toNat % 256) 0 0 addr ((q.wr (Reg.GLB_LEDGER_LO f.toNat) (fu.nextPost - 2)).dmaErr addr) v
          ∧ Raised 48 (f.toNat % 256) 0 0 (join64 fu.handle (fu.nextPost - 2)) v u))
    ∧ (fu.failed = true ∨ fu.nextPost = 0 → Becomes (.completionWriteFailure f addr) s s)
    ∧ (fu.failed = true ∨ s.hostOpen = false → Becomes (.dmaFailure f addr) s s)
    ∧ (s.inRun = true → Becomes .eventBufTimeout s s)
    ∧ (s.inRun = false → Becomes .eventBufTimeout s s.evFlush))

/-! ## The host engine (chapter 11) -/

/-- HI_CTL.en and the PCIe function (R265, R267, R268): enabling makes furrow 0 anew from the management registers; a stop is
refused in Run; at its end no furrow is left; the function's return sends what waited. -/
def Obligations.HostEngineStartStop : Prop :=
  ∀ s : State,
    (s.flag Reg.HI_CTL Fld.HI_CTL_en = false → s.hi.stopping = false → Ends .hiEnable s (fun u =>
      u.flag Reg.HI_CTL Fld.HI_CTL_en = true ∧ u.flag Reg.HI_STAT Fld.HI_STAT_up = true
      ∧ (∃ fu, u.furrow? 0 = some fu ∧ fu.kind = .mgmt ∧ fu.handle = 0x100 ∧ fu.items = [] ∧ fu.nextFetch = 0
          ∧ fu.descRing = s.rd64 Reg.HI_MGD_LO ∧ fu.cplRing = s.rd64 Reg.HI_MGC_LO
          ∧ fu.lsize = s.fget Reg.HI_MGCFG Fld.HI_MGCFG_lsize)
      ∧ (∀ f, f ≠ 0 → u.furrow? f = s.furrow? f)
      ∧ u.rd (Reg.GLB_LEDGER_LO 0) = 0xFFFFFFFF#32))
    ∧ (s.flag Reg.HI_CTL Fld.HI_CTL_en = true → Becomes .hiEnable s s)
    ∧ (s.inRun = true → Becomes .hiDisable s (s.accErr true Reg.HI_CTL))
    ∧ (s.inRun = false → s.flag Reg.HI_CTL Fld.HI_CTL_en = true → kwf s.hi.furrows = true → Ends .hiDisable s (fun u =>
        u.flag Reg.HI_CTL Fld.HI_CTL_en = false ∧ u.hi.stopping = true ∧ u.bl.comp = none ∧ u.bl.exp = none ∧ u.sp.xfer = none
        ∧ kkeys u.hi.furrows = kkeys s.hi.furrows
        ∧ u.hi.furrows.all (fun e => e.2.items.all (fun it => Item.ended it || Item.isBack it)) = true))
    ∧ (s.inRun = false → s.flag Reg.HI_CTL Fld.HI_CTL_en = false → Becomes .hiDisable s s)
    ∧ (s.flag Reg.HI_CTL Fld.HI_CTL_en = false → s.hi.stopping = true → Becomes .hiEnable s (s.accErr true Reg.HI_CTL))
    ∧ (∀ code : BitVec 2, s.pw.headSel = true → s.alive = true → s.pw.d0 = true → Becomes (.pcieFunctionState ⟨true, code⟩) s
        (let u := s.setFlag Reg.HI_STAT Fld.HI_STAT_d0 true
         { u with hi := { u.hi with maxPayload := 128 * 2 ^ min 2 code.toNat } }))
    ∧ (∀ code : BitVec 2, s.pw.headSel = true → s.alive = true → s.pw.d0 = false → Ends (.pcieFunctionState ⟨true, code⟩) s (fun u =>
        u.pw.d0 = true ∧ u.flag Reg.HI_STAT Fld.HI_STAT_d0 = true ∧ u.hi.maxPayload = 128 * 2 ^ min 2 code.toNat ∧ u.ln.tunnel = []))
    ∧ (∀ fn : FunctionState, s.alive = false → Becomes (.pcieFunctionState fn) s s)
    ∧ (s.hi.stopping = true → Ends .hiStopComplete s (fun u =>
        u.hi.furrows = [] ∧ u.hi.stopping = false ∧ u.flag Reg.HI_STAT Fld.HI_STAT_up = false))
    ∧ (s.hi.stopping = false → Becomes .hiStopComplete s s)
    ∧ (∀ code : BitVec 2, s.pw.headSel = true → s.alive = true → Ends (.pcieFunctionState ⟨false, code⟩) s (fun u =>
        u.pw.d0 = false ∧ u.flag Reg.HI_STAT Fld.HI_STAT_d0 = false ∧ u.hi.maxPayload = 128 * 2 ^ min 2 code.toNat ∧ u.hi.furrows = s.hi.furrows))
    ∧ (∀ fn : FunctionState, s.pw.headSel = false → s.alive = true → Becomes (.pcieFunctionState fn) s
        (let u := s.setFlag Reg.HI_STAT Fld.HI_STAT_d0 fn.d0
         { u with pw := { u.pw with headD0 := fn.d0 } }))

/-- The doorbell (R48, R275, R276, R414): a poll reads the counter of an area without an outstanding read, that of a retired partner
beside the own one where furrows were adopted from it; a changed counter starts the read of the indices, an unchanged one does not, and a
refused one is reported once in a run; an index that moves on within the ring is taken, and one that moves back or passes the ring is
ignored and counted once. -/
def Obligations.Doorbell : Prop :=
  ∀ (s : State) (partner : Bool) (c : Word64) (ind : List Word) (k : Nat) (v : Word) (fu : Furrow),
    let a := s.area partner
    let who := ReadBy.doorbell partner
    let came := s.readsCame who
    let base := if partner then 256 else 0
    let i := base + k
    (s.hostOpen = true → s.hi.db.poll = false → s.hi.db.idx = false → (∀ e ∈ s.hi.furrows, e.1 < 256) →
      Becomes .doorbellPoll s
        (({ s with hi := { s.hi with db := { s.hi.db with poll := true } } }).readHost (.doorbell false) (s.rd64 Reg.HI_DB_LO + 0x400) 8))
    ∧ (s.hostOpen = true → (s.hi.db.poll || s.hi.db.idx) = true → (∀ e ∈ s.hi.furrows, e.1 < 256) → Becomes .doorbellPoll s s)
    ∧ (s.hostOpen = true → s.hi.furrows.any (fun e => decide (256 ≤ e.1)) = true → s.hi.dbTwin.poll = false → s.hi.dbTwin.idx = false →
      Ends .doorbellPoll s (fun u => u.hi.dbTwin.poll = true ∧ (u.hi.db.poll || u.hi.db.idx) = true))
    ∧ (s.hostOpen = false → Becomes .doorbellPoll s s)
    ∧ (a.poll = true → came = true → c ≠ a.count → Becomes (.doorbellCounterReadDone partner (some c)) s
        ((((s.readsDone who).setArea partner { a with poll := false, idx := true, next := c })).readHost who (s.areaAddr partner) 1024))
    ∧ (a.poll = true → came = true → Becomes (.doorbellCounterReadDone partner (some a.count)) s
        ((s.readsDone who).setArea partner { a with poll := false, failRun := false }))
    ∧ (a.poll = true → came = true → Ends (.doorbellCounterReadDone partner none) s (fun u =>
        (u.area partner).poll = false ∧ (u.area partner).failRun = true ∧ u.rd64 Reg.HI_DMAERR_LO = s.areaAddr partner + 0x400
        ∧ u.rd (Reg.EV_OCC 53) = s.rd (Reg.EV_OCC 53) + (if a.failRun then 0 else 1)))
    ∧ (a.poll = false → Becomes (.doorbellCounterReadDone partner (some c)) s s)
    ∧ (a.idx = true → came = true → k < 256 → ind[k]? = some v → s.furrow? i = some fu → 0 ≤ (v - fu.prod).toInt →
        (v - fu.nextPost).toNat ≤ 2 ^ fu.lsize → Ends (.producerIndexReadDone partner (some ind)) s (fun u =>
          u.furrow? i = some { fu with prod := v } ∧ (u.area partner).count = a.next ∧ (u.area partner).idx = false))
    ∧ (a.idx = true → came = true → k < 256 → ind[k]? = some v → s.furrow? i = some fu →
        (v - fu.prod).toInt < 0 ∨ 2 ^ fu.lsize < (v - fu.nextPost).toNat → kget? s.hi.ignored i ≠ some v →
        Ends (.producerIndexReadDone partner (some ind)) s (fun u => u.furrow? i = some fu ∧ kget? u.hi.ignored i = some v
          ∧ u.flag Reg.HI_STAT Fld.HI_STAT_db_mal = true))
    ∧ (a.idx = true → came = true → s.furrow? base = some fu → (v - fu.prod).toInt < 0 → kget? s.hi.ignored base ≠ some v →
        Ends (.producerIndexReadDone partner (some [v])) s (fun u =>
          u.rd Reg.HI_DBMAL = word (min 0xFFFFFFFF (s.rdN Reg.HI_DBMAL + 1)) ∧ u.rd (Reg.EV_OCC 55) = s.rd (Reg.EV_OCC 55) + 1))
    ∧ (a.idx = true → came = true → s.furrow? base = some fu → (v - fu.prod).toInt < 0 → kget? s.hi.ignored base = some v →
        Ends (.producerIndexReadDone partner (some [v])) s (fun u =>
          u.rd Reg.HI_DBMAL = s.rd Reg.HI_DBMAL ∧ u.rd (Reg.EV_OCC 55) = s.rd (Reg.EV_OCC 55)))
    ∧ (a.idx = true → came = true → Ends (.producerIndexReadDone partner none) s (fun u =>
        (u.area partner).idx = false ∧ (u.area partner).failRun = true ∧ u.rd64 Reg.HI_DMAERR_LO = s.areaAddr partner
        ∧ u.rd (Reg.EV_OCC 53) = s.rd (Reg.EV_OCC 53) + (if a.failRun then 0 else 1)))
    ∧ (a.idx = false → Becomes (.producerIndexReadDone partner (some ind)) s s)

/-- The tunnel at the head (R266, R326, R327): a member's write is issued in the order of its numbers, in pieces of at most
Max_Payload_Size; one that comes early waits for its turn; a read takes its turn among the head's 64 requests and its tag stands until
its data goes back; a member's interrupt becomes a message, or waits for the writes before it.  At the member the answer frees the
read's tag for the next one, and a refused read fails its furrow's item. -/
def Obligations.Tunnel : Prop :=
  (∀ (s : State) (m : BitVec 6) (addr : Word64) (order : Word) (data : List Byte) (len : BitVec 13) (tag : BitVec 4)
    (f vec : Byte), s.pw.headSel = true → s.alive = true →
    let others := s.ln.early.all (fun e => e.1 != m.toNat)
    (others = true → order = kgetD s.ln.orders m.toNat 0 → Becomes (.dmaWriteHeader m addr order data) s
      (({ s with ln := { s.ln with orders := kset s.ln.orders m.toNat (order + 1) } }).memWrite addr data))
    ∧ (s.ln.early.all (fun e => !(e.1 == m.toNat && e.2.1 == kgetD s.ln.orders m.toNat 0)) = true →
      0 < (order - kgetD s.ln.orders m.toNat 0).toInt → Becomes (.dmaWriteHeader m addr order data) s
      { s with ln := { s.ln with early := s.ln.early ++ [(m.toNat, order, .dmaWrite addr data)] } })
    ∧ ((order - kgetD s.ln.orders m.toNat 0).toInt < 0 → Becomes (.dmaWriteHeader m addr order data) s s)
    ∧ (∀ other, order = kgetD s.ln.orders m.toNat 0 → s.ln.early = [(m.toNat, order + 1, .dmaWrite addr other)] →
      Becomes (.dmaWriteHeader m addr order data) s
        (let t := ({ s with ln := { s.ln with early := [(m.toNat, order + 1, .dmaWrite addr other)]
                                              orders := kset s.ln.orders m.toNat (order + 1) } }).memWrite addr data
         ({ t with ln := { t.ln with early := [], orders := kset t.ln.orders m.toNat (order + 2) } }).memWrite addr other))
    ∧ (s.ln.readWait = [] → s.ln.reads.length < 64 → s.pw.d0 = true → 1 ≤ len.toNat → len.toNat ≤ 4096 →
        Becomes (.dmaReadRequest m addr len tag) s
          (({ s with ln := { s.ln with reads := s.ln.reads ++ [(⟨.member m.toNat tag.toNat, addr, len.toNat, s.freeTag⟩ : ReadReq)] } }).emit
            (.dmaRead addr len.toNat)))
    ∧ (64 ≤ s.ln.reads.length ∨ s.pw.d0 = false → 1 ≤ len.toNat → len.toNat ≤ 4096 → Becomes (.dmaReadRequest m addr len tag) s
          { s with ln := { s.ln with readWait := s.ln.readWait ++ [(⟨.member m.toNat tag.toNat, addr, len.toNat, 0⟩ : ReadReq)] } })
    ∧ (s.ln.reads.any (fun r => r.who == .member f.toNat tag.toNat) = true → Becomes (.dmaReadData f tag (.data data)) s
        ((s.dropReads (.member f.toNat tag.toNat)).sendMessage 6 f.toNat ([tag.setWidth 8] ++ zeros 3 ++ leBytes 4 data.length ++ data)))
    ∧ (∀ status : BitVec 3, s.ln.reads.any (fun r => r.who == .member f.toNat tag.toNat) = true →
        Becomes (.dmaReadData f tag (.failed status)) s
          ((s.dropReads (.member f.toNat tag.toNat)).sendMessage 7 f.toNat [tag.setWidth 8, status.setWidth 8]))
    ∧ (s.ln.reads.any (fun r => r.who == .member f.toNat tag.toNat) = false → Becomes (.dmaReadData f tag (.data data)) s s)
    ∧ (m.toNat < 48 → others = true → Becomes (.interruptRequest m vec) s (s.sendMsix vec.toNat))
    ∧ (m.toNat < 48 → s.ln.early.all (fun e => !(e.1 == m.toNat && e.2.1 == kgetD s.ln.orders m.toNat 0)) = true →
      order + 1 ≠ kgetD s.ln.orders m.toNat 0 →
      (s.ln.early.filter (fun e => e.1 == m.toNat)).getLast? = some (m.toNat, order, .dmaWrite addr data) →
      Becomes (.interruptRequest m vec) s
        { s with ln := { s.ln with early := s.ln.early ++ [(m.toNat, order + 1, .msix vec.toNat)] } }))
  ∧ (∀ (s : State) (f : Byte) (tag : BitVec 4) (r : ReadReq) (data : List Byte) (status : BitVec 3), s.pw.headSel = false → s.alive = true →
     s.ln.reads.find? (fun r => r.tag == tag.toNat) = some r →
     let free := ({ s with ln := { s.ln with reads := s.ln.reads.erase r } }).pumpReads
     Becomes (.dmaReadData f tag (.data data)) s free
     ∧ Becomes (.dmaReadData f tag (.failed status)) s (dmaFailure (f.setWidth 9) r.addr free))

/-! ## The host's accesses (chapters 0, 19) -/

/-- Writes by access type (R1 to R3): a register without rules of its own takes its RW fields at once, its RWL fields in Idle
only, and a 1 clears a W1C field; a differing RWL value outside Idle is refused with acc_err.
The frame period (R3, R38): FR_PERIOD takes a new value in Idle and keeps its value in Run, with acc_err.
A write to a register with a command of its own is that command; a 64-bit write is two, the upper first (R6); a word of the mailbox
request is stored; the lowest word of a value writes all of it (R9). -/
def Obligations.RegisterWrites : Prop :=
  (∀ (s : State) (off : BitVec 20) (val : Word) (r : RegRow),
     s.served = true → off.toNat % 4 = 0 → s.multiAt off.toNat = none → ownRule off.toNat = false → regRow? off.toNat = some r →
     let a := off.toNat
     (s.idleOpen = true → Becomes (.registerWrite .setup off ⟨val, none⟩) s
       (s.wr a (((s.rd a &&& ~~~ (r.rw ||| r.rwl)) ||| (val &&& (r.rw ||| r.rwl))) &&& ~~~ (val &&& r.w1c))))
     ∧ (s.idleOpen = false → (val ^^^ s.rd a) &&& r.rwl = 0 → Becomes (.registerWrite .setup off ⟨val, none⟩) s
       (s.wr a (((s.rd a &&& ~~~ r.rw) ||| (val &&& r.rw)) &&& ~~~ (val &&& r.w1c))))
     ∧ (s.idleOpen = false → (val ^^^ s.rd a) &&& r.rwl ≠ 0 → Ends (.registerWrite .setup off ⟨val, none⟩) s (fun u =>
       u.flag Reg.GLB_STAT Fld.GLB_STAT_acc_err = true
       ∧ (a ≠ Reg.GLB_STAT → a ≠ Reg.GLB_ACCADDR →
           u.rd a = ((s.rd a &&& ~~~ r.rw) ||| (val &&& r.rw)) &&& ~~~ (val &&& r.w1c))
       ∧ ∀ b, b ≠ a → b ≠ Reg.GLB_STAT → b ≠ Reg.GLB_ACCADDR → u.rd b = s.rd b)))
  ∧ (∀ (s : State) (val : Word), s.served = true → val.toNat < 2 ^ 14 →
     (s.idleOpen = true → Ends (.registerWrite .setup 0x2000 ⟨val, none⟩) s (fun u => u.m = val.toNat))
     ∧ (s.inRun = true → s.m ≠ val.toNat → Ends (.registerWrite .setup 0x2000 ⟨val, none⟩) s (fun u =>
         u.m = s.m ∧ u.flag Reg.GLB_STAT Fld.GLB_STAT_acc_err = true)))
  ∧ (∀ (s : State) (bar : Bar) (off : BitVec 20) (val up : Word) (n : Nat), s.served = true →
     let a := off.toNat
     let writes := fun (off : Nat) (u : State) => a = off → Becomes (.registerWrite .setup off ⟨val, none⟩) s u
     writes Reg.GLB_CTL (s.glbCtl val) ∧ writes Reg.GLB_REQ (s.glbReq val) ∧ writes Reg.TB_CMD (onBit val Fld.TB_CMD_step tbStepCmd s)
     ∧ writes Reg.FE_CTL (feCtlWrite val s) ∧ writes Reg.CV_CTL (s.cvCtlWrite val) ∧ writes Reg.GL_REQ (glReq val s)
     ∧ writes Reg.HI_CTL (if cmdBit val Fld.HI_CTL_en then hiEnable s else hiDisable s)
     ∧ writes Reg.VT_SECCFG (s.seccfgWrite val) ∧ writes Reg.SV_CAUSE (s.clearCauses val) ∧ writes Reg.CAL_CMD (s.calCmd val)
     ∧ (a % 8 = 0 → Becomes (.registerWrite bar off ⟨val, some up⟩) s ((s.barWrite bar (a + 4) up).barWrite bar a val))
     ∧ (0x1000 ≤ a → a < 0x8000 → a % 4 = 0 → Ends (.registerWrite .mailbox off ⟨val, none⟩) s (fun u =>
         u.vt = { s.vt with req := u.vt.req } ∧ kgetD u.vt.req ((a - 0x1000) / 4) 0 = val ∧ u.regs = s.regs))
     ∧ (s.multiAt a = some (a, n) → regRow? a ≠ none → a % 4 = 0 →
         Becomes (.registerWrite .setup off ⟨val, none⟩) s (s.writeLowest a n val))
     ∧ (wellAligned a (accWidth false) = false → Becomes (.registerWrite bar off ⟨val, none⟩) s s))

/-- R7: a write to an unimplemented offset, or to the reserved range, is discarded, a read returns 0, and neither sets acc_err or
changes any other state.  (The image mirror of R153 is implemented.) -/
def Obligations.UnimplementedOffsets : Prop :=
  ∀ (s : State) (off : BitVec 20) (o : BitVec 26) (v : Word64), s.served = true → off.toNat % 4 = 0 →
    (regRow? off.toNat = none ∨ 0x80000 ≤ off.toNat) →
    ¬ (0x60000 ≤ off.toNat ∧ off.toNat < 0x6F800 ∧ ¬ (0x60100 ≤ off.toNat ∧ off.toNat < 0x60150)) →
    Becomes (.registerWrite .setup off ⟨lo32 v, none⟩) s s
    ∧ (s.pw.headSel = true → o.toNat = off.toNat → Becomes (.bar4Access false o 4 v) s { s with rdata := 0 }
        ∧ Becomes (.bar4Access true o 4 v) s s)

/-- Malformed accesses (R6, R484) and multi-word values (R8, R9): a malformed access changes nothing but acc_err, with the access noted
where acc_err was clear, and a malformed read reads 0; reading the lowest word of any value latches its upper words; a write to an upper
word is staged (a loop's words go to the loop's own copy, R239), and the write of the lowest word commits the whole value and ends its
staging: the words take it as their types state, a loop's setpoint, a coefficient, the rate and a unit's words by their own rules, and
the host engine's addresses while the engine is off. -/
def Obligations.MalformedAndMultiWord : Prop :=
  ∀ (s : State) (off : BitVec 20) (width n b : Nat) (val up : Word) (r : RegRow) (wr : Bool), s.served = true →
    let a := off.toNat
    let wordOf := fun (i : Nat) => if i = 0 then val else s.stagedWord (a + 4 * i)
    let takes := fun (r : RegRow) => r.rw ||| (if s.idleOpen then r.rwl else 0)
    let plain := inBlock a (Reg.CE_LCTL 0) 0x80 32 = false ∧ inBlock a (Reg.CE_COEF_LO 0) 8 512 = false ∧ a ≠ Reg.TB_RATE_LO
      ∧ inBlock a (Reg.AQ_UCMD 0) 0x200 8 = false
    let loop := BitVec.ofNat 5 ((a - Reg.CE_LCTL 0) / 0x80)
    let aligned := (hiAlign a).all (fun k => s.hiOpen && val.toNat % k == 0)
    let refused := (List.range n).any (fun i => (regRow? (a + 4 * i)).any (fun r => s.rwlRefused r (a + 4 * i) (wordOf i)))
    (wellAligned a width = false → Ends (.malformedAccess wr off width) s (fun u =>
        u.flag Reg.GLB_STAT Fld.GLB_STAT_acc_err = true ∧ u.rdata = (if wr then s.rdata else 0)
        ∧ u.rd Reg.GLB_ACCADDR = (if s.flag Reg.GLB_STAT Fld.GLB_STAT_acc_err then s.rd Reg.GLB_ACCADDR else word (2 ^ 31 * b2n wr + a))
        ∧ (∀ b, b ≠ Reg.GLB_STAT → b ≠ Reg.GLB_ACCADDR → u.rd b = s.rd b)
        ∧ { u with rdata := s.rdata, regs := s.regs } = s))
    ∧ (s.multiAt a = some (a, n) → regRow? a ≠ none → a % 4 = 0 →
        Ends (.lowWordReadLatch ⟨off, false⟩) s (fun u => u.rdata = s.hostWord a ∧ u.regs = s.regs
          ∧ ∀ i, 0 < i → i < n → regRead u.shadow (a + 4 * i) = s.hostWord (a + 4 * i)))
    ∧ (s.multiAt a = some (a, n) → s.multiAt (a + 4) = some (a, n) → regRow? a ≠ none → regRow? (a + 4) ≠ none → a % 8 = 0 →
        Ends (.lowWordReadLatch ⟨off, true⟩) s (fun u => u.rdata = s.hostWord a ∧ u.hi.readHi = s.hostWord (a + 4) ∧ u.regs = s.regs))
    ∧ (s.multiAt a = some (b, n) → a ≠ b → a % 4 = 0 → (inBlock a (Reg.CE_LCTL 0) 0x80 32 = false ∨ a % 0x80 = 0x1C) →
        (hiAlign a = none ∨ s.hiOpen = true) → regRow? a = some r → s.rwlRefused r a val = true →
        Becomes (.upperWordWriteStage off val) s (s.accErr true a))
    ∧ (s.multiAt a = some (b, n) → a ≠ b → a % 4 = 0 → (inBlock a (Reg.CE_LCTL 0) 0x80 32 = false ∨ a % 0x80 = 0x1C) →
        (hiAlign a = none ∨ s.hiOpen = true) → regRow? a = some r → s.rwlRefused r a val = false → r.rw ||| r.rwl ≠ 0 →
        Becomes (.upperWordWriteStage off val) s { s with staged := kset s.staged a (val &&& (r.rw ||| r.rwl)) })
    ∧ (s.multiAt a = some (b, n) → a ≠ b → a % 4 = 0 → regRow? a = some r → inBlock a (Reg.CE_LCTL 0) 0x80 32 = true → a % 0x80 ≠ 0x1C →
        Becomes (.upperWordWriteStage off val) s (loopStageWrite loop (BitVec.ofNat 7 ((a - Reg.CE_LCTL 0) % 0x80)) val s))
    ∧ (s.multiAt a = some (b, n) → a ≠ b → a % 4 = 0 → regRow? a ≠ none → hiAlign a ≠ none → s.hiOpen = false →
        Becomes (.upperWordWriteStage off val) s (s.accErr true a))
    ∧ (s.multiAt a = some (a, n) → a % 4 = 0 → regRow? a ≠ none → plain → aligned = true → refused = false →
        Ends (.lowWordWriteCommit off ⟨val, none⟩) s (fun u =>
          (∀ i, i < n → ∀ r, regRow? (a + 4 * i) = some r →
            u.rd (a + 4 * i) = ((s.rd (a + 4 * i) &&& ~~~ takes r) ||| (wordOf i &&& takes r)) &&& ~~~ (wordOf i &&& r.w1c))
          ∧ (∀ i, 0 < i → i < n → kget? u.staged (a + 4 * i) = none)
          ∧ ∀ c, (∀ i, i < n → c ≠ a + 4 * i) → u.rd c = s.rd c ∧ kget? u.staged c = kget? s.staged c))
    ∧ (s.multiAt a = some (a, n) → a % 4 = 0 → regRow? a ≠ none → plain → aligned = true → refused = true →
        Ends (.lowWordWriteCommit off ⟨val, none⟩) s (fun u => u.flag Reg.GLB_STAT Fld.GLB_STAT_acc_err = true
          ∧ ∀ i, 0 < i → i < n → kget? u.staged (a + 4 * i) = none))
    ∧ (s.multiAt a = some (a, n) → a % 4 = 0 → regRow? a ≠ none → aligned = false →
        Becomes (.lowWordWriteCommit off ⟨val, none⟩) s (s.accErr true a))
    ∧ (s.multiAt a = some (a, n) → a % 4 = 0 → regRow? a ≠ none → inBlock a (Reg.CE_LCTL 0) 0x80 32 = true → a % 0x80 = 0x18 →
        Becomes (.lowWordWriteCommit off ⟨val, none⟩) s ((ceLspWrite loop (join64 val (s.stagedWord (a + 4))) s).unstage a n))
    ∧ (s.multiAt a = some (a, n) → a % 4 = 0 → regRow? a ≠ none → inBlock a (Reg.CE_LCTL 0) 0x80 32 = true → a % 0x80 ≠ 0x18 →
        Becomes (.lowWordWriteCommit off ⟨val, none⟩) s (loopStageWrite loop (BitVec.ofNat 7 ((a - Reg.CE_LCTL 0) % 0x80)) val s))
    ∧ (s.multiAt a = some (a, n) → a % 4 = 0 → regRow? a ≠ none → inBlock a (Reg.CE_COEF_LO 0) 8 512 = true →
        Becomes (.lowWordWriteCommit off ⟨val, none⟩) s
          ((coefWrite (BitVec.ofNat 9 ((a - Reg.CE_COEF_LO 0) / 8)) (join64 val (s.stagedWord (a + 4))) s).unstage a n))
    ∧ (a = Reg.TB_RATE_LO → Becomes (.lowWordWriteCommit off ⟨val, none⟩) s (tbRateWrite val s))
    ∧ (s.multiAt a = some (a, n) → a % 4 = 0 → regRow? a ≠ none → inBlock a (Reg.AQ_UCMD 0) 0x200 8 = true →
        Becomes (.lowWordWriteCommit off ⟨val, none⟩) s
          ((s.unitWrite ((a - Reg.AQ_UCMD 0) / 0x200) [(a, val), (a + 4, s.stagedWord (a + 4))]).unstage a n))
    ∧ (s.multiAt a = some (a, n) → a % 8 = 0 → Becomes (.lowWordWriteCommit off ⟨val, some up⟩) s
        ((s.hostWrite (a + 4) up).hostWrite a val))

/-- Requests to members (R24, R328, R486): a member answers a read with the word it holds; the head reads 0 for an absent member and
counts it; a response completes the read that waits, the upper half of a 64-bit one beside its lower (R6), and a timeout completes it with 0.
A mailbox request that the head forwards is served by the member as if written there, and its response ends the head's own (R368, log 25). -/
def Obligations.SetupTunnel : Prop :=
  ∀ (s : State) (off : BitVec 20) (val : Word) (req : List Byte) (tag : BitVec 16) (o : BitVec 26) (v : Word64) (width : Nat), s.served = true →
    let hub := o.toNat / 2 ^ 20
    let a := o.toNat % 2 ^ 20
    (s.pw.headSel = false → off.toNat % 4 = 0 → Becomes (.setupRequest true off ⟨val, none⟩ tag) s (s.hostWrite off.toNat val)
      ∧ Becomes (.setupRequest false off ⟨val, none⟩ tag) s
          (let u := s.hostRead off.toNat
           u.sendMessage 10 0 (leBytes 2 tag.toNat ++ zeros 2 ++ leBytes 4 u.rdata.toNat)))
    ∧ (s.pw.headSel = false → off.toNat % 4 ≠ 0 → Becomes (.setupRequest true off ⟨val, none⟩ tag) s (s.accErr true off.toNat)
      ∧ Becomes (.setupRequest false off ⟨val, none⟩ tag) s (s.accErr false off.toNat))
    ∧ (s.pw.headSel = false → s.flag Reg.MB_STAT Fld.MB_STAT_busy = true →
        Becomes (.setupRequest true off ⟨val, some req⟩ tag) s (s.accErr true 0))
    ∧ (s.pw.headSel = false → s.flag Reg.MB_STAT Fld.MB_STAT_busy = false →
        vaultServices.contains (BitField.get Fld.MB_CMD_service val) = true →
        Ends (.setupRequest true off ⟨val, some req⟩ tag) s (fun u => u.vt.mailTag = some tag.toNat
          ∧ u.rd Reg.MB_REQLEN = word req.length ∧ u.rd Reg.MB_STAT = 0x80000000 ∧ u.vt.memberReq = none))
    ∧ (s.pw.headSel = true → s.ln.setups.any (fun p => p.1 == tag.toNat) = false → s.vt.memberReq = some tag.toNat →
        Becomes (.setupResponse tag ⟨val, some req⟩) s (s.mbDone (val.toNat % 256) req))
    ∧ (s.pw.headSel = true → hub = 0 → wellAligned a 4 = true → Becomes (.bar4Access true o 4 v) s (s.hostWrite a (lo32 v))
      ∧ Becomes (.bar4Access false o 4 v) s (s.hostRead a))
    ∧ (s.pw.headSel = true → hub = 0 → wellAligned a 8 = true →
        Becomes (.bar4Access true o 8 v) s ((s.hostWrite (a + 4) (hi32 v)).hostWrite a (lo32 v)))
    ∧ (s.pw.headSel = true → hub = 0 → wellAligned a 8 = true →
        Becomes (.bar4Access false o 8 v) s ((s.hostRead a).readUpper (fun t => t.hostRead (a + 4))))
    ∧ (s.pw.headSel = true → (width = 4 ∨ width = 8) → wellAligned a width = false → Becomes (.bar4Access true o width v) s (s.accErr true a)
      ∧ Becomes (.bar4Access false o width v) s (({ s with rdata := 0 }).accErr false a))
    ∧ (s.pw.headSel = true → hub ≠ 0 → s.reachable hub = false → wellAligned a 8 = true →
        Ends (.bar4Access false o 8 v) s (fun u => u.rdata = 0 ∧ u.hi.readHi = 0 ∧ u.ln = s.ln))
    ∧ (s.pw.headSel = true → hub ≠ 0 → s.reachable hub = false → wellAligned a 4 = true →
        Becomes (.bar4Access true o 4 v) s (s.incSat Reg.LN_TUNTO 1))
    ∧ (s.pw.headSel = true → hub ≠ 0 → s.reachable hub = true → wellAligned a 4 = true → Ends (.bar4Access true o 4 v) s (fun u =>
        u.ln.setups = s.ln.setups ∧ u.ln.nextTag = s.ln.nextTag + 1 ∧ u.regs = s.regs))
    ∧ (s.pw.headSel = true → hub ≠ 0 → s.reachable hub = true → wellAligned a 8 = true → Ends (.bar4Access false o 8 v) s (fun u =>
        u.ln.setups = s.ln.setups ++ [(s.ln.nextTag.toNat, hub), ((s.ln.nextTag + 1).toNat, hub)]
        ∧ u.hi.hiTag = some (s.ln.nextTag + 1).toNat ∧ u.regs = s.regs))
    ∧ (s.pw.headSel = true → hub ≠ 0 → s.reachable hub = false → wellAligned a 4 = true →
        Becomes (.bar4Access false o 4 v) s (({ s with rdata := 0 }).incSat Reg.LN_TUNTO 1))
    ∧ (s.pw.headSel = true → hub ≠ 0 → s.reachable hub = true → wellAligned a 4 = true → Ends (.bar4Access false o 4 v) s (fun u =>
        u.ln.setups = s.ln.setups ++ [(s.ln.nextTag.toNat, hub)] ∧ u.regs = s.regs))
    ∧ (let left := s.ln.setups.filter (fun p => p.1 != tag.toNat)
       s.pw.headSel = true → s.ln.setups.any (fun p => p.1 == tag.toNat) = true →
        (s.hi.hiTag ≠ some tag.toNat → Becomes (.setupResponse tag ⟨val, none⟩) s { s with rdata := val, ln := { s.ln with setups := left } }
          ∧ Becomes (.setupTimeout tag) s (({ s with rdata := 0, ln := { s.ln with setups := left } }).incSat Reg.LN_TUNTO 1))
        ∧ (s.hi.hiTag = some tag.toNat →
          Becomes (.setupResponse tag ⟨val, none⟩) s { s with ln := { s.ln with setups := left }, hi := { s.hi with readHi := val, hiTag := none } }
          ∧ Becomes (.setupTimeout tag) s
            (({ s with ln := { s.ln with setups := left }, hi := { s.hi with readHi := 0, hiTag := none } }).incSat Reg.LN_TUNTO 1)))


/-! ## The calibration store (chapter 7) -/

/-- The calibration store (R157 to R163): open copies the set in force or empties the buffer, writes and reads go on at the
pointer, a commit needs its authorisation, an implausible image is rejected with reason and index, and a good one is in force
at once where no frame boundary has to be awaited. -/
def Obligations.Calibration : Prop :=
  ∀ (s : State) (val : Word) (img : Image) (b : Bank) (r : Nat × Nat),
    let a := BitField.get Fld.CAL_STGPTR_word val * 4
    let p := s.rdN Reg.CAL_STGPTR
    (s.cal.commit = none → s.cal.inForce = some b → Ends .calOpen s (fun u => u.rd Reg.CAL_STGPTR = 0 ∧ u.cal.hashDue = true
        ∧ ∃ i, u.cal.staging = some i ∧ ∀ off, Image.rd i s.pw.serial off = Bank.rd b s.pw.serial off))
    ∧ (s.cal.commit = none → s.cal.inForce = none → Ends .calOpen s (fun u =>
        u.rd Reg.CAL_STGPTR = 0 ∧ ∃ i, u.cal.staging = some i ∧ ∀ off, Image.rd i s.pw.serial off = 0))
    ∧ (s.cal.commit ≠ none → Becomes .calOpen s (s.accErr true Reg.CAL_CMD) ∧ Becomes .calClose s (s.accErr true Reg.CAL_CMD))
    ∧ (s.cal.commit = none → Becomes .calClose s { s with cal := { s.cal with staging := none, hashDue := false } })
    ∧ (s.cal.commit = none → a < 0xF800 → Becomes (.calStgptrWrite val) s (s.wr Reg.CAL_STGPTR (word a)))
    ∧ (0xF800 ≤ a → Becomes (.calStgptrWrite val) s (s.accErr true Reg.CAL_STGPTR))
    ∧ (s.cal.commit = none → s.cal.staging = some img → p < 0xF800 → Ends (.calStgdataWrite val) s (fun u =>
        u.rdN Reg.CAL_STGPTR = p + 4 ∧ u.cal.staging = some (img.setWord p val) ∧ u.cal.hashDue = true))
    ∧ (s.cal.staging = some img → p < 0xF800 → Ends .calStgdataRead s (fun u =>
        u.rdata = Image.rd img s.pw.serial p ∧ u.rdN Reg.CAL_STGPTR = p + 4 ∧ u.cal = s.cal))
    ∧ (s.cal.staging = none → Becomes .calStgdataRead s { s with rdata := 0 }
        ∧ Becomes (.calStgdataWrite val) s (s.accErr true Reg.CAL_STGDATA))
    ∧ (s.cal.staging = some img → s.cal.hashDue = true → Ends .calStghashUpdate s (fun u => u.cal.hashDue = false
        ∧ ∀ i, i < 12 → u.rd (Reg.CAL_STGHASH i) = word (ofLe (slice (s.stageHash img) (4 * i) 4))))
    ∧ (s.vt.armed = some (1, s.stageHash img) → s.vaultOk = true → s.cal.staging = some img → s.cal.commit = none →
        s.vt.extended = false → Ends .calCommit s (fun u =>
          u.cal = { s.cal with commit := some img } ∧ u.vt.armed = none ∧ u.flag Reg.VT_STAT Fld.VT_STAT_armed = false))
    ∧ (s.vt.armed = none → Ends .calCommit s (Raised 59 0 3 0 (BitVec.ofNat 64 Reg.CAL_CMD) s))
    ∧ (s.cal.commit = some img → calFailure img s.pw.serial s.cal.wrcnt.toNat = some r → Ends .calCommitComplete s (fun u =>
        u.cal = { s.cal with commit := none, result := 2 } ∧ u.rd Reg.CAL_REJ = word (2 ^ 24 * r.1 + r.2)
        ∧ u.flag Reg.CAL_STAT Fld.CAL_STAT_rejected = true ∧ u.rd (Reg.EV_OCC 21) = s.rd (Reg.EV_OCC 21) + 1))
    ∧ (s.cal.commit = some img → calFailure img s.pw.serial s.cal.wrcnt.toNat = none → s.commitWaits = false →
        Ends .calCommitComplete s (fun u => u.cal.commit = none ∧ u.cal.result = 1 ∧ u.cal.wrcnt = s.cal.wrcnt + 1
          ∧ (∃ n, u.cal.inForce = some n ∧ n.img = img ∧ n.epoch = s.cal.wrcnt + 2 ∧ n.origin = true)
          ∧ u.flag Reg.CAL_STAT Fld.CAL_STAT_written = true ∧ u.rd (Reg.EV_OCC 22) = s.rd (Reg.EV_OCC 22) + 1))
    ∧ (s.cal.commit = some img → calFailure img s.pw.serial s.cal.wrcnt.toNat = none → s.commitWaits = true →
        Ends .calCommitComplete s (fun u => u.cal.commit = none ∧ u.cal.result = 1 ∧ u.cal.wrcnt = s.cal.wrcnt + 1
          ∧ u.cal.inForce = s.cal.inForce ∧ u.vt.calClose = true
          ∧ (∃ n, u.cal.next = some n ∧ n.img = img ∧ n.epoch = s.cal.wrcnt + 2 ∧ n.origin = true)
          ∧ u.flag Reg.CAL_STAT Fld.CAL_STAT_written = true ∧ u.rd (Reg.EV_OCC 22) = s.rd (Reg.EV_OCC 22) + 1))
    ∧ (s.cal.commit = none → Becomes .calCommitComplete s s)
    ∧ (s.cal.staging = none ∨ s.cal.hashDue = false → Becomes .calStghashUpdate s s)

/-! ## Signing, and the Baler's items (chapters 13, 14) -/

/-- Signing (R374, R377) and a Baler item's end (R344 to R355): the oldest unsigned record joins the seal queue with its
signature, and the space its notices hold is freed; an EXPAND that fits is written and DONE, one beyond dst_len FAILED_LIMIT, a
VERIFY that agrees is DONE, one that does not fails with its reason; a COMPRESS that fits is written and DONE and its stream goes on or
ends, one that does not is FAILED_SPACE, and a faulty output is counted and raised (60); a new zlib stream that ends at once is the 8
bytes of R343; BL_CTL.clr clears the counters. -/
def Obligations.SealsAndJobs : Prop :=
  ∀ (s : State) (r : SealRec) (rest : List SealRec) (f : Nat) (q : Word) (fu : Furrow) (it : Item) (src dst : List Byte)
    (fault : List Byte) (out : List (Byte × Nat)) (err : Option (Nat × Nat)) (e : Nat × Nat) (i : Nat),
    let v := (({ s with freeCtr := s.freeCtr + 1, vt := { s.vt with
      unsigned := rest
      queue := s.vt.queue ++ [{ r with body := r.body ++ fitBytes 96 (Config.ecSign r.key r.body s.freeCtr), key := [], notices := [] }]
      } }).freeNotices r.notices).noteQueue
    let free := (s.readsDone (.job false)).freePipe false
    let bytes := out.map Prod.fst
    let len := Desc.srcLen it.desc
    let freed := (s.readsDone (.job true)).freePipe true
    let empty : List Byte := [0x78, 0x5E, 0x03, 0x00, 0x00, 0x00, 0x00, 0x01]
    let held := s.readsCame (.job false) = true ∧ s.bl.exp = some (f, q) ∧ s.furrow? f = some fu ∧ Furrow.item? fu q = some it
      ∧ expandAll it.desc (fitBytes len src) = (out, none)
    let st := kgetD freed.bl.streams f (Stream.new (optFormat it.desc))
    let bs := fitBytes len src
    let run := compressItem st it.desc bs
    let written := if run.1.isEmpty then freed else freed.toHost (.dmaWrite (Desc.dstAddr it.desc) run.1)
    let comp := s.readsCame (.job true) = true ∧ s.bl.comp = some (f, q) ∧ s.furrow? f = some fu ∧ Furrow.item? fu q = some it
    let exps := s.readsCame (.job false) = true ∧ s.bl.exp = some (f, q) ∧ s.furrow? f = some fu ∧ Furrow.item? fu q = some it
      ∧ expandAll it.desc bs = (out, err)
    let kept := bytes.take (Desc.dstLen it.desc)
    (s.vt.unsigned = [] ∨ s.vaultInError = true → Becomes .sealSigned s s)
    ∧ (exps → it.op ≠ 0x32 → Desc.dstLen it.desc < out.length → kept ≠ [] →
        let used := ((out.getD kept.length (0, 1)).2 - 1) / 8
        Becomes (.balerItemDone false src dst fault) s
          ((((free.toHost (.dmaWrite (Desc.dstAddr it.desc) kept)).countBytes used kept.length).endJob f q .failedLimit kept.length
            (word (used % 2 ^ 28))).balerPump))
    ∧ (exps → it.op ≠ 0x32 → out.length ≤ Desc.dstLen it.desc → out ≠ [] → err = some e →
        Becomes (.balerItemDone false src dst fault) s
          ((((free.toHost (.dmaWrite (Desc.dstAddr it.desc) bytes)).countBytes len out.length).failVerify f it out.length e.1 e.2).balerPump))
    ∧ (exps → it.op = 0x32 → err = none → firstDiff bytes (fitBytes (Desc.dstLen it.desc) dst) 0 = some i →
        Becomes (.balerItemDone false src dst fault) s (((free.countBytes len 0).failVerify f it 0 9 i).balerPump))
    ∧ (exps → it.op = 0x32 → err = some e → firstDiff bytes ((fitBytes (Desc.dstLen it.desc) dst).take bytes.length) 0 = none →
        Becomes (.balerItemDone false src dst fault) s (((free.countBytes len 0).failVerify f it 0 e.1 e.2).balerPump))
    ∧ (comp → run.1.length ≤ Desc.dstLen it.desc → optFinal it.desc = false → freed.bl.compDrop = false →
        let w := written.countBytes len run.1.length
        Becomes (.balerItemDone true src dst []) s
          (((({ w with bl := { w.bl with streams := kset w.bl.streams f { run.2 with written := st.written ++ run.1 } } }).noteStreams).endJob f q
            .done run.1.length run.2.adler).balerPump))
    ∧ (comp → run.1.length ≤ Desc.dstLen it.desc → optFinal it.desc = true ∨ freed.bl.compDrop = true →
        Becomes (.balerItemDone true src dst []) s
          ((((written.countBytes len run.1.length).abandon f).endJob f q .done run.1.length run.2.adler).balerPump))
    ∧ (comp → Desc.dstLen it.desc < run.1.length → Becomes (.balerItemDone true src dst []) s
        (let p := freed.partOf len
         ((((p.2.countBytes p.1 0).abandon f).endJob f q .failedSpace 0 0).balerPump)))
    ∧ (comp → faulty run.1 fault ≠ run.1 →
        (selfCheck st.format (optFinal it.desc) (st.written ++ faulty run.1 fault) run.2.taken).isSome = true →
        Ends (.balerItemDone true src dst fault) s (fun u => u.rd Reg.BL_VFAIL = word (min 0xFFFFFFFF (s.rdN Reg.BL_VFAIL + 1))
          ∧ u.flag Reg.BL_STAT Fld.BL_STAT_vfail = true ∧ u.rd (Reg.EV_OCC 60) = s.rd (Reg.EV_OCC 60) + 1))
    ∧ (s.bl.comp = none → Becomes (.balerItemDone true src dst fault) s s)
    ∧ (s.vt.unsigned = r :: rest → s.vaultInError = false → s.furrowOf? .seal = none → Becomes .sealSigned s v)
    ∧ (s.vt.unsigned = r :: rest → s.vaultInError = false → s.furrowOf? .seal = some f → Becomes .sealSigned s (v.deliver f false))
    ∧ (held → it.op ≠ 0x32 → out ≠ [] → out.length ≤ Desc.dstLen it.desc → Becomes (.balerItemDone false src dst fault) s
        ((((free.toHost (.dmaWrite (Desc.dstAddr it.desc) bytes)).countBytes len out.length).endJob f q .done out.length
          (adler32From 1 bytes)).balerPump))
    ∧ (held → it.op ≠ 0x32 → out = [] → Becomes (.balerItemDone false src dst fault) s
        (((free.countBytes len 0).endJob f q .done 0 1).balerPump))
    ∧ (held → it.op = 0x32 → bytes = fitBytes (Desc.dstLen it.desc) dst → Becomes (.balerItemDone false src dst fault) s
        (((free.countBytes len 0).endJob f q .done 0 (adler32From 1 bytes)).balerPump))
    ∧ (s.bl.exp = none → Becomes (.balerItemDone false src dst fault) s s)
    ∧ (s.readsCame (.job true) = true → s.bl.comp = some (f, q) → s.furrow? f = some fu → Furrow.item? fu q = some it → len = 0 →
        optFinal it.desc = true → freed.bl.streams = [(f, Stream.new 1)] → 8 ≤ Desc.dstLen it.desc →
        Becomes (.balerItemDone true src dst []) s ((((((freed.toHost (.dmaWrite (Desc.dstAddr it.desc) empty)).countBytes 0 8).abandon f).endJob
          f q .done 8 1)).balerPump))
    ∧ Ends .blClr s (fun u => u.rd Reg.BL_JOBS = 0 ∧ u.rd Reg.BL_VFAIL = 0 ∧ u.rd64 Reg.BL_IN_LO = 0 ∧ u.rd64 Reg.BL_OUT_LO = 0
        ∧ u.bl = s.bl)

/-! ## Lanes, ports and the ring (chapter 12) -/

/-- Lanes and ports (R311 to R317, R322): a lane that goes down leaves the port its other lane, with LANE_DOWN (40); a retrained lane
rejoins; training keeps the cells and their numbers; a break of an intact ring is noted, and the head raises
RING_BREAK (42); replays, the retry count and the eye figures act as stated;
a training at 6.25 Gb/s whose figures are poor is done again at 3.125 Gb/s (R311); a second cut gives ring state 4. -/
def Obligations.LanesAndPorts : Prop :=
  ∀ (s : State) (l : BitVec 4) (cause : BitVec 2) (port : BitVec 2) (i : Nat) (t : TrainIn) (e : EyeFig) (w h : Byte),
    let p := port.toNat
    let left := s.inService p - 2 ^ i
    let ready := s.alive = true ∧ s.pw.inReset = false ∧ p < 3 ∧ s.lanesEn p ≠ 0 ∧ s.pstate p < 2
    let low := w.toNat < 16 ∨ h.toNat < 10
    let known := (if p < 2 then (s.setInService p left).setFlag (Reg.LN_PSTAT p) Fld.LN_PSTAT_lane_down true else s.setInService p left)
    let okv := (List.range 2).filter (fun i => (s.lanesEn p).testBit i && t.lanesOk.getLsbD i)
    let fig := fun (i : Nat) => if i = 0 then (⟨t.width0, t.height0⟩ : EyeFig) else ⟨t.width1, t.height1⟩
    let falls := s.fget (Reg.LN_PCFG p) Fld.LN_PCFG_rate = 0 ∧ t.rate = 2 ∧ okv.any (fun i => eyeBad (fig i)) = true
    let again := p < 2 ∧ 3 ≤ s.pstate p ∧ (s.lanesEn p).testBit i = true ∧ (s.inService p).testBit i = false
      ∧ s.laneTested l.toNat = false ∧ (s.port p).loops.getLsbD i = false
    (lanePort l.toNat = some (p, i) → (s.inService p).testBit i = true → left = 0 → Becomes (.laneDown l cause) s
        ((known.raise 40 l.toNat cause.toNat).portGoesDown p))
    ∧ (lanePort l.toNat = some (p, i) → (s.inService p).testBit i = true → left ≠ 0 → Becomes (.laneDown l cause) s
        ((known.raise 40 l.toNat cause.toNat).replayOrDown p))
    ∧ (lanePort l.toNat = none → Becomes (.laneDown l cause) s s ∧ Becomes (.laneRetrain l (some e)) s s)
    ∧ (lanePort l.toNat = some (p, i) → ¬ again → Becomes (.laneRetrain l (some e)) s s)
    ∧ (¬ ready → Becomes (.portTraining port) s s)
    ∧ (ready → p = 2 → Ends (.portTraining port) s (fun u => u.portUp 2 = false ∧ (u.port 2).txSeq = (s.port 2).txSeq
        ∧ (u.port 2).rxSeq = (s.port 2).rxSeq ∧ (u.port 2).replay = (s.port 2).replay ∧ (u.port 2).queue = (s.port 2).queue))
    ∧ (p < 2 → s.pstate p ≠ 1 → Becomes (.laneTrainingDone port t) s s)
    ∧ (p < 2 → s.pstate p = 1 → okv = [] → Becomes (.laneTrainingDone port t) s (s.portGoesDown p))
    ∧ (p < 2 → s.pstate p = 1 → okv ≠ [] → ¬ falls → Ends (.laneTrainingDone port t) s (fun u =>
        u.inService p = (okv.map (fun i => 2 ^ i)).foldl (· + ·) 0 ∧ u.fget (Reg.LN_PSTAT p) Fld.LN_PSTAT_rate = t.rate.toNat
        ∧ u.rd (Reg.CAL_DESKEW p) = t.skew.setWidth 32
        ∧ ∀ i ∈ okv, u.rd (Reg.CAL_EYE (laneOf p i)) = eyeWord (fig i)))
    ∧ (p < 2 → s.pstate p = 1 → okv ≠ [] → falls → Ends (.laneTrainingDone port t) s (fun u => u.pstate p = 1
        ∧ u.inService p = s.inService p ∧ u.rd (Reg.CAL_DESKEW p) = t.skew.setWidth 32
        ∧ ∀ i ∈ okv, u.rd (Reg.CAL_EYE (laneOf p i)) = eyeWord (fig i)))
    ∧ (p = 2 → t.lanesOk.getLsbD 0 = true → Ends (.laneTrainingDone port t) s (fun u => u.rd (Reg.CAL_EYE 9) = eyeWord (fig 0)))
    ∧ (t.lanesOk.getLsbD 0 = false → Becomes (.laneTrainingDone 3 t) s s)
    ∧ (p < 3 → s.pstate p = 0 → Becomes (.portDown port) s s)
    ∧ (p < 2 → s.portUp p = true → s.hubs < 2 → Becomes (.portDown port) s (s.dropPort p))
    ∧ (p = 2 → s.portUp 2 = true → Becomes (.portDown port) s ((s.dropPort 2).twinLaneLost))
    ∧ (p < 2 → s.portUp p = true → 2 ≤ s.hubs → s.ringState = 2 → s.ln.cuts = [] → s.pw.headSel = false → Ends (.portDown port) s (fun u =>
        u.ringState = 3 ∧ u.flag Reg.LN_STAT Fld.LN_STAT_brk_lat = true ∧ u.ln.cuts = [s.linkOf p] ∧ u.pstate p = 0
        ∧ u.rd (Reg.EV_OCC 42) = s.rd (Reg.EV_OCC 42)))
    ∧ (p < 2 → s.portUp p = true → 2 ≤ s.hubs → s.ringState = 3 → s.ln.cuts.contains (s.linkOf p) = false → Ends (.portDown port) s (fun u =>
        u.ringState = 4 ∧ u.ln.cuts = s.ln.cuts ++ [s.linkOf p] ∧ u.pstate p = 0))
    ∧ (p < 2 → s.rdN Reg.LN_RETRYTHR < (s.port p).replaysInSecond → Ends (.laneRetryHigh port) s
        (Raised 41 (p + 1) 0 0 (BitVec.ofNat 64 (s.port p).replaysInSecond)
          ((s.modPort p (fun x => { x with replaysInSecond := 0 })).setFlag (Reg.LN_PSTAT p) Fld.LN_PSTAT_retry_high true)))
    ∧ (s.alive = true → l.toNat < 10 → low → s.ln.eyeLow.contains l.toNat = true →
        Becomes (.eyeSweep l w h) s (s.wr (Reg.LN_EYE l.toNat) (eyeWord ⟨w, h⟩)))
    ∧ (s.alive = true → l.toNat < 10 → ¬ low → w.toNat < 20 ∨ h.toNat < 12 →
        Becomes (.eyeSweep l w h) s (s.wr (Reg.LN_EYE l.toNat) (eyeWord ⟨w, h⟩)))
    ∧ (lanePort l.toNat = some (p, i) → p < 2 → (s.inService p).testBit i = true → left ≠ 0 → Becomes (.laneDown l cause) s
        (((((s.setInService p left).setFlag (Reg.LN_PSTAT p) Fld.LN_PSTAT_lane_down true).raise 40 l.toNat cause.toNat)).replayOrDown p))
    ∧ (lanePort l.toNat = some (p, i) → (s.inService p).testBit i = false → Becomes (.laneDown l cause) s s)
    ∧ (lanePort l.toNat = some (p, i) → p < 2 → 3 ≤ s.pstate p → (s.lanesEn p).testBit i = true →
        (s.inService p).testBit i = false → s.laneTested l.toNat = false → (s.port p).loops.getLsbD i = false →
        Becomes (.laneRetrain l (some e)) s (let u := s.laneTrimmed l.toNat e
          if eyeBad e then u else (((u.setInService p (u.inService p + 2 ^ i)).setPstate p 3).drawLane p i).replayOrDown p))
    ∧ Becomes (.laneRetrain l none) s s
    ∧ (s.alive = true → t.lanesOk.getLsbD 0 = true → Becomes (.laneTrainingDone 3 t) s (s.laneTrimmed 4 ⟨t.width0, t.height0⟩))
    ∧ (ready → p < 2 → Ends (.portTraining port) s (fun u => u.pstate p = 1 ∧ (u.port p).txSeq = (s.port p).txSeq
        ∧ (u.port p).rxSeq = (s.port p).rxSeq ∧ (u.port p).replay = (s.port p).replay ∧ (u.port p).queue = (s.port p).queue))
    ∧ (p < 2 → s.pstate p = 1 → s.lanesEn p = 3 → t.lanesOk = 3 → eyeBad ⟨t.width0, t.height0⟩ = false →
        eyeBad ⟨t.width1, t.height1⟩ = false → t.skew.toNat ≤ 4 → t.rate ≠ 0 → Ends (.laneTrainingDone port t) s (fun u =>
          u.inService p = 3 ∧ u.fget (Reg.LN_PSTAT p) Fld.LN_PSTAT_rate = t.rate.toNat
          ∧ u.rd (Reg.CAL_DESKEW p) = t.skew.setWidth 32 ∧ u.rd (Reg.CAL_EYE (laneOf p 0)) = eyeWord ⟨t.width0, t.height0⟩))
    ∧ (p < 2 → s.pstate p ≠ 0 → s.portUp p = false → Becomes (.portDown port) s (s.dropPort p))
    ∧ (p < 2 → s.portUp p = true → 2 ≤ s.hubs → s.ringState = 2 → s.ln.cuts = [] → s.pw.headSel = true → Ends (.portDown port) s (fun u =>
        u.ringState = 3 ∧ u.flag Reg.LN_STAT Fld.LN_STAT_brk_lat = true ∧ u.ln.cuts = s.ln.cuts ++ [s.linkOf p] ∧ u.pstate p = 0
        ∧ u.rd (Reg.EV_OCC 42) = s.rd (Reg.EV_OCC 42) + 1))
    ∧ (p < 3 → ((s.replay p).port p).replaysOfOldest < 16 → Becomes (.replayTimeout port) s (s.replay p))
    ∧ (p < 3 → 16 ≤ ((s.replay p).port p).replaysOfOldest → Becomes (.replayTimeout port) s ((s.replay p).portGoesDown p))
    ∧ (p < 3 → (s.port p).replaysInSecond ≤ s.rdN Reg.LN_RETRYTHR →
        Becomes (.laneRetryHigh port) s (s.modPort p (fun x => { x with replaysInSecond := 0 })))
    ∧ (p = 2 → s.rdN Reg.LN_RETRYTHR < (s.port p).replaysInSecond → Ends (.laneRetryHigh port) s
        (Raised 41 3 0 0 (BitVec.ofNat 64 (s.port p).replaysInSecond) (s.modPort p (fun x => { x with replaysInSecond := 0 }))))
    ∧ (s.alive = true → l.toNat < 10 → low → s.ln.eyeLow.contains l.toNat = false → Ends (.eyeSweep l w h) s (fun u =>
        u.rd (Reg.LN_EYE l.toNat) = eyeWord ⟨w, h⟩ ∧ u.rd (Reg.EV_OCC 44) = s.rd (Reg.EV_OCC 44) + 1))
    ∧ (s.alive = true → l.toNat < 10 → ¬ low → 20 ≤ w.toNat → 12 ≤ h.toNat → Ends (.eyeSweep l w h) s (fun u =>
        u.rd (Reg.LN_EYE l.toNat) = eyeWord ⟨w, h⟩ ∧ u.ln.eyeLow.contains l.toNat = false))

/-- Cells (R299 to R304, R309, R313 to R318): a cell is put together from its lanes; one with a bad check sequence is counted and
discarded, 8 in a row losing delineation; one out of order, or with no room for it, is discarded, one whose tag fails is counted; one in
order is accepted, counted and routed; a control cell acknowledges what it covers and lets what waits go. -/
def Obligations.Cells : Prop :=
  ∀ (s : State) (port : BitVec 2) (cell : CellRx) (skipped : Word64) (chk : CellCheck) (c : LinkCtlIn) (d : Delineation)
    (k : List Byte × List Byte) (g : Agree),
    let p := port.toNat
    let bs := (cellOfLanes cell (s.lanesOn p)).1
    let good := (cellOfLanes cell (s.lanesOn p)).2 = true ∧ ofLe (bs.drop 260) = (crc32c (bs.take 260)).toNat
    let x := cellOf p s.payloadLen bs
    let slot := (s.port p).rxSlots + skipped
    let r := s.modPort p (fun x => { x with rxSlots := slot + 1, badRun := if skipped = 0 then x.badRun else 0 })
    let v := r.modPort p (fun x => { x with badRun := 0 })
    let y := v.modPort p (fun x => { x with authRun := 0 })
    let w := y.modPort p (fun x => { x with rxSeq := x.rxSeq + 1, naked := false, acceptedSince := x.acceptedSince + 1 })
    let on := p < 3 ∧ s.portUp p = true ∧ (s.port p).delineated = true
    let tag := v.tagOk p x.1.typ slot (bs.take (4 + s.payloadLen)) (slice bs (4 + s.payloadLen) 16)
    let sound := s.authOn = false ∨ tag = true
    let plain := 3 ≤ x.1.typ ∧ x.1.typ < 0xD ∧ (s.authOn = true → tag = true)
    let heard := s.modPort p (fun x => { x with badRun := 0 })
    let listens := s.alive = true ∧ p < 3 ∧ (p = 2 ∨ s.inService p ≠ 0) ∧ (s.port p).delineated = true
    let known := c.src.toNat < 48 ∨ c.src = 0x3E
    let named := if p < 2 then heard.fput (Reg.LN_PSTAT p) Fld.LN_PSTAT_partner c.src.toNat
      else { heard with sv := { heard.sv with twin := { heard.sv.twin with partnerAddr := c.src.toNat } } }
    let acked := ((named.modPort p (fun x => { x with authRun := 0 })).noteLoops p c).takeAck p c.ack
    let freed := if c.release then acked.modPort p (fun x => { x with heldByPartner := false }) else acked
    let held := if c.hold then freed.modPort p (fun x => { x with heldByPartner := true }) else freed
    let served := ((if c.nak then held.replayOrDown p else held).partnerLanes p c.lanes).serve p
    let agreed := s.authOn = false ∨ ((s.port p).keys ≠ none ∧ chk.tag = true)
    let dp := d.port.toNat
    (s.alive = true → p < 2 → s.inService p ≠ 0 → Becomes (.linkControlSend port) s (s.sendControl p 0))
    ∧ (s.alive = true → p = 2 → Becomes (.linkControlSend port) s (s.sendControl p 0))
    ∧ (s.alive = false ∨ 2 < p ∨ (p < 2 ∧ s.inService p = 0) → Becomes (.linkControlSend port) s s)
    ∧ (on → good → s.authOn = true → tag = false → (v.tagError p).portUp p = false →
        Becomes (.sequencedCell port cell skipped) s (v.tagError p))
    ∧ (on → good → sound → 0xD < x.1.typ → Becomes (.sequencedCell port cell skipped) s (v.crcError p))
    ∧ (on → good → sound → x.1.typ < 3 ∨ x.1.typ = 0xD → Becomes (.sequencedCell port cell skipped) s v)
    ∧ (on → good → plain → x.2 = (s.port p).rxSeq → y.noRoom p x.1 = false → 64 ≤ ((w.routeCell p x.1).port p).acceptedSince →
        Becomes (.sequencedCell port cell skipped) s (((w.routeCell p x.1).sendControl p 0).flowControl p))
    ∧ (2 < p ∨ (s.port p).delineated = false → Becomes (.sequencedCell port cell skipped) s s)
    ∧ (listens → chk.line = true → agreed → known → s.portUp p = true →
        Becomes (.linkControlCell port c chk) s (if c.release && !served.inRun then served.deliverAll else served))
    ∧ (listens → chk.line = true → s.portUp p = false → known → (s.port p).hello = false → (s.port p).keyBlocked = false →
        Becomes (.linkControlCell port c chk) s (named.takeHello p c))
    ∧ (listens → chk.line = true → s.portUp p = false → known → (s.port p).hello = true ∨ (s.port p).keyBlocked = true →
        Becomes (.linkControlCell port c chk) s named)
    ∧ (listens → chk.line = true → s.portUp p = true → s.authOn = true → (s.port p).keys = none ∨ chk.tag = false →
        Becomes (.linkControlCell port c chk) s (heard.tagError p))
    ∧ (listens → chk.line = true → agreed → ¬ known → Becomes (.linkControlCell port c chk) s heard)
    ∧ (listens → chk.line = false → Becomes (.linkControlCell port c chk) s (s.badCell p))
    ∧ (s.alive = false ∨ 2 < p ∨ (s.port p).delineated = false ∨ (p < 2 ∧ s.inService p = 0) →
        Becomes (.linkControlCell port c chk) s s)
    ∧ (s.alive = false ∨ 2 < dp ∨ d.far = true → Becomes (.delineationFound d) s s)
    ∧ (dp < 3 → d.good.reverse.take 8 = List.replicate 8 false → d.far = true ∨ (s.port dp).delineated = true →
        (s.port dp).keys = none ∨ (s.port dp).agree = none → Becomes (.delineationLost d) s
          (if d.far then s else s.modPort dp (fun x => { x with delineated := false, badRun := 0 })))
    ∧ (dp < 3 → d.good.reverse.take 8 = List.replicate 8 false → d.far = true → (s.port dp).keys = some k → (s.port dp).agree = some g →
        Becomes (.delineationLost d) s (s.modPort dp (fun x => { x with rekey := x.rekey + 1, keys := some (laneKeys g (x.rekey + 1))
                                                                        txSlots := 0, rxSlots := 0 })))
    ∧ (2 < dp ∨ (d.far = false ∧ (s.port dp).delineated = false) → Becomes (.delineationLost d) s s)
    ∧ (2 < p ∨ (s.port p).hello = true ∨ 3 ≤ s.pstate p → Becomes (.helloTimeout port) s s)
    ∧ (on → ¬ good → Becomes (.sequencedCell port cell skipped) s ((r.badCell p).discardCell p))
    ∧ (on → good → s.authOn = true → tag = false → (v.tagError p).portUp p = true →
        Becomes (.sequencedCell port cell skipped) s ((v.tagError p).discardCell p))
    ∧ (on → good → plain → (x.2 ≠ (s.port p).rxSeq ∨ y.noRoom p x.1 = true) →
        Becomes (.sequencedCell port cell skipped) s (y.discardCell p))
    ∧ (on → good → plain → x.2 = (s.port p).rxSeq → y.noRoom p x.1 = false → ((w.routeCell p x.1).port p).acceptedSince < 64 →
        Becomes (.sequencedCell port cell skipped) s ((w.routeCell p x.1).flowControl p))
    ∧ (s.portUp p = false → Becomes (.sequencedCell port cell skipped) s s)
    ∧ (s.alive = true → p < 2 → s.inService p ≠ 0 → s.portUp p = true → (s.port p).delineated = true → s.authOn = false →
        c.src.toNat < 48 → chk.line = true → c.hold = false → c.release = false → c.nak = false → Becomes (.linkControlCell port c chk) s
          ((((((((s.modPort p (fun x => { x with badRun := 0 })).fput (Reg.LN_PSTAT p) Fld.LN_PSTAT_partner c.src.toNat).modPort p
            (fun x => { x with authRun := 0 })).noteLoops p c).takeAck p c.ack).partnerLanes p c.lanes).serve p)))
    ∧ (s.alive = true → p < 2 → s.inService p ≠ 0 → (s.port p).delineated = true → s.authOn = false → 48 ≤ c.src.toNat →
        c.src ≠ 0x3E → chk.line = true → Becomes (.linkControlCell port c chk) s (s.modPort p (fun x => { x with badRun := 0 })))
    ∧ (s.alive = true → p < 2 → s.inService p ≠ 0 → (s.port p).delineated = true → chk.line = false →
        Becomes (.linkControlCell port c chk) s (s.badCell p))
    ∧ (s.alive = true → d.port.toNat < 3 → d.far = false → d.good.reverse.take 6 = List.replicate 6 true → Becomes (.delineationFound d) s
        (s.modPort d.port.toNat (fun x => { x with delineated := true, badRun := 0 })))
    ∧ (d.good.reverse.take 6 ≠ List.replicate 6 true → Becomes (.delineationFound d) s s)
    ∧ (d.port.toNat < 3 → d.far = false → (s.port d.port.toNat).delineated = true → d.good.reverse.take 8 = List.replicate 8 false →
        (s.port d.port.toNat).keys = some k → (s.port d.port.toNat).agree = some g → Becomes (.delineationLost d) s
          (s.modPort d.port.toNat (fun x => { x with delineated := false, badRun := 0, rekey := x.rekey + 1
                                                     keys := some (laneKeys g (x.rekey + 1)), txSlots := 0, rxSlots := 0 })))
    ∧ (d.good.reverse.take 8 ≠ List.replicate 8 false → Becomes (.delineationLost d) s s)
    ∧ (p < 3 → (s.port p).hello = false → s.pstate p < 3 → Becomes (.helloTimeout port) s ((s.dropPort p).formRing))

/-- Ring formation (R318 to R321, R475): reform starts it anew in Idle; a member passes a census on, the head forms the ring from it and
sends a second one after a timeout; a member takes its address and position; hubs that join and leave are raised (46, 47); ring
parameters tell the ring's form, and a member that does not wait only notes them. -/
def Obligations.RingFormation : Prop :=
  ∀ (s : State) (es : List CensusEntry) (ms : List MapEntry) (e : MapEntry) (port : BitVec 2) (serial : Word64)
    (strap pos addr : BitVec 6) (samples : List SampleTake) (p : RingParams) (b o : Nat) (down : List CensusEntry),
    let q := port.toNat
    let all := if es.any (fun e => e.serial == s.pw.serial) then es else es ++ [s.censusEntry]
    let cuts := (p.cut.map (fun (c : BitVec 6 × BitVec 6) => (c.1.toNat, c.2.toNat))).toList
    let same := es.any (fun e => e.serial != s.pw.serial && e.strap != 0 && e.strap == s.pw.hubAddr)
    let seen := if same then { s with ln := { s.ln with sameAddrs := s.pw.hubAddr.toNat :: s.ln.sameAddrs } } else s
    let heads := s.alive = true ∧ s.pw.headSel = true ∧ s.ln.censusOut = true
    let told := s.ln.census.getD []
    let waits := s.inRun = true ∧ s.pw.waiting = true ∧ p.started = true
    let free := ((List.range 48).find? (fun a => a != 0 && !(kkeys s.ln.map).contains a)).getD 0x3E
    let present := s.pw.headSel = true ∧ addr.toNat < 48 ∧ s.flag (Reg.LN_MAP addr.toNat) Fld.LN_MAP_present = true
    let lost := if s.pw.headSel && decide (addr.toNat < 48) && s.flag (Reg.LN_MAP addr.toNat) Fld.LN_MAP_present then
      (s.setFlag (Reg.LN_MAP addr.toNat) Fld.LN_MAP_reachable false).raise 47 addr.toNat 0 else s
    let partner := s.isTwin = true ∧ addr.toNat = s.sv.twin.partnerAddr
    let gone := lost.modTwin (fun t => { t with partnerGone := true })
    let adopts := s.inRun = true ∧ s.role = 1 ∧ s.pReady = false ∧ s.sv.twin.tookOver = true
    (s.alive = true → s.pw.headSel = false → q < 2 → s.portUp (1 - q) = false →
        Becomes (.census es port) s (seen.sendValues q 1 0x3F (censusValues all)))
    ∧ (s.alive = false ∨ 1 < q ∨ (s.pw.headSel = true ∧ s.ln.censusOut = false) → Becomes (.census es port) s s)
    ∧ (heads → s.ln.census = some down → s.ln.censusLate = true → Becomes (.census es 0) s
        (s.formed (down ++ es.reverse) (some down.length)))
    ∧ (heads → s.ln.census = some down → s.ln.censusLate = false → Becomes (.census es 0) s s)
    ∧ (heads → s.ln.census = none → s.ln.censusLate = true → Becomes (.census es 0) s (s.formed es.reverse (some 0)))
    ∧ (heads → s.portUp 0 = true → Becomes (.census es 1) s { s with ln := { s.ln with census := some es } })
    ∧ (heads → s.portUp 0 = false → Becomes (.census es 1) s (s.formed es (some es.length)))
    ∧ (s.pw.headSel = true → s.ln.censusOut = true → s.ln.censusLate = true → Becomes .censusTimeout s (s.formed told (some told.length)))
    ∧ (s.pw.headSel = true → s.ln.censusOut = true → s.ln.censusLate = false → s.portUp 0 = false → Becomes .censusTimeout s
        (({ s with ln := { s.ln with censusLate := true } }).formed told (some told.length)))
    ∧ (s.pw.headSel = false → Becomes .censusTimeout s s)
    ∧ (s.alive = true → s.pw.headSel = false → ms.find? (fun e => e.serial == s.pw.serial) = none → Ends (.addressMap ms) s (fun u =>
        u.ln.position = s.ln.position ∧ u.hubAddr = s.hubAddr
        ∧ u.ln.map = ms.foldl (fun m e => kset m e.addr.toNat e.position.toNat) [(0, 0)]))
    ∧ (s.pw.headSel = true ∨ s.alive = false → Becomes (.addressMap ms) s s)
    ∧ (s.pw.headSel = true → 2 ≤ s.ringState → strap = 0 → s.placeOf serial = none → free < 48 →
        Ends (.hubJoined serial strap pos) s (fun u => u.rd (Reg.LN_MAP free) = mapWord true true pos.toNat
          ∧ kget? u.ln.map free = some pos.toNat ∧ kget? u.ln.serials free = some serial
          ∧ u.rd (Reg.EV_OCC 46) = s.rd (Reg.EV_OCC 46) + 1))
    ∧ (s.pw.headSel = true → 2 ≤ s.ringState → strap ≠ 0 → strap.toNat < 48 → b ≠ strap.toNat → s.placeOf serial = none →
        kget? s.ln.map b = some o → Ends (.hubJoined serial strap pos) s (fun u =>
          kget? u.ln.map b = some (if pos.toNat ≤ o then o + 1 else o)))
    ∧ (s.pw.headSel = false ∨ s.ringState < 2 ∨ 48 ≤ strap.toNat → Becomes (.hubJoined serial strap pos) s s)
    ∧ (strap = 0 → s.placeOf serial = none → 48 ≤ free → Becomes (.hubJoined serial strap pos) s s)
    ∧ (¬ partner → ¬ present → Becomes (.hubLeft addr samples) s s)
    ∧ (partner → ¬ adopts → Becomes (.hubLeft addr samples) s gone)
    ∧ (partner → adopts → Becomes (.hubLeft addr samples) s (gone.adoptSamples samples))
    ∧ (s.alive = true → s.pw.inReset = false → s.pw.headSel = false → waits → (s.noteRing p).agreesWith p = false →
        Becomes (.ringParameters p) s ((s.noteRing p).endRun.setEnstat enRefused 9 1 (s.noteRing p).endRun.hubAddr))
    ∧ (s.alive = false ∨ s.pw.inReset = true → Becomes (.ringParameters p) s s)
    ∧ (s.idleOpen = true → Ends .ringReform s (fun u => u.ringState = 0 ∧ u.ln.map = [] ∧ u.ln.cuts = []
        ∧ (s.lanesEn 0 ≠ 0 → u.pstate 0 = 1) ∧ (s.lanesEn 1 ≠ 0 → u.pstate 1 = 1)))
    ∧ (s.idleOpen = false → Becomes .ringReform s (s.accErr true Reg.LN_CTL))
    ∧ (s.alive = true → s.pw.headSel = false → q < 2 → s.portUp (1 - q) = true →
        Becomes (.census es port) s (seen.sendValues (1 - q) 1 0x3F (censusValues all)))
    ∧ (s.alive = true → s.pw.headSel = true → s.ln.censusOut = true → s.ln.census = none → s.ln.censusLate = false →
        Becomes (.census es 0) s (s.formed es none))
    ∧ (s.pw.headSel = true → s.ln.censusOut = true → s.ln.censusLate = false → s.portUp 0 = true → Becomes .censusTimeout s
        (({ s with ln := { s.ln with censusLate := true } }).sendValues 0 1 0x3F []))
    ∧ (s.ln.censusOut = false → Becomes .censusTimeout s s)
    ∧ (s.alive = true → s.pw.headSel = false → ms.find? (fun e => e.serial == s.pw.serial) = some e → Ends (.addressMap ms) s (fun u =>
        u.ln.position = e.position.toNat ∧ u.hubAddr = e.addr.toNat
        ∧ u.ln.map = ms.foldl (fun m e => kset m e.addr.toNat e.position.toNat) [(0, 0)]))
    ∧ (s.pw.headSel = true → 2 ≤ s.ringState → strap ≠ 0 → strap.toNat < 48 → Ends (.hubJoined serial strap pos) s (fun u =>
        u.rd (Reg.LN_MAP strap.toNat) = mapWord true false pos.toNat ∧ kget? u.ln.map strap.toNat = some pos.toNat
        ∧ kget? u.ln.serials strap.toNat = some serial
        ∧ u.rd (Reg.EV_OCC 46) = s.rd (Reg.EV_OCC 46) + 1))
    ∧ (present → ¬ partner →
        Ends (.hubLeft addr samples) s (RaisedBlank 47 addr.toNat 0
          (s.setFlag (Reg.LN_MAP addr.toNat) Fld.LN_MAP_reachable false)))
    ∧ (s.alive = true → s.pw.inReset = false → s.pw.headSel = false → ¬ waits → Ends (.ringParameters p) s (fun u => u.pw.headParams = some p ∧ u.ln.cuts = cuts
          ∧ u.ringState = (if p.cut.isSome then 3 else 2) ∧ u.flag Reg.LN_CTL Fld.LN_CTL_auth = p.auth
          ∧ u.flag Reg.LN_STAT Fld.LN_STAT_auth_on = p.auth ∧ (s.ringState < 2 → u.tb.formStep = true ∧ u.ln.order = 0)))
    ∧ (s.inRun = true → s.pw.inReset = false → s.pw.headSel = false → s.pw.waiting = true → p.started = true →
        (s.noteRing p).agreesWith p = true → Becomes (.ringParameters p) s ((s.noteRing p).startMember p p.tickS.toNat))
    ∧ (s.pw.headSel = true → Becomes (.ringParameters p) s s)

/-- Reroute and healing (R322, R324): a hub between passes a cut notice on, X turns its cells back and ends with a tail, a tail frees the
held traffic, a flush is passed on, and a marker heals the ring, which the head raises (43). -/
def Obligations.Rerouting : Prop :=
  ∀ (s : State) (x y : BitVec 6) (last : BitVec 12) (port : BitVec 2) (m : RouteMark) (r : Reroute),
    let q := port.toNat
    let k := s.cutDir x.toNat y.toNat
    let link := if k = 1 then (x.toNat, y.toNat) else (y.toNat, x.toNat)
    let b := s.noteBreak link
    let v := (b.joinReroute k x.toNat y.toNat).noticePassed k
    let healed := (m.up.toNat, m.down.toNat)
    let n := { v with ln := { v.ln with reroutes := kset v.ln.reroutes k { r with noticed := true } } }
    let flushing := crossed n.hubs (farther n.hubs n.ln.position k) y.toNat k
    let takes := s.alive = true ∧ q < 2 ∧ 2 ≤ s.hubs
    let passOn := fun (u : State) => if u.portUp (1 - q) then u.sendCell (1 - q) false (u.passedCell 4 x.toNat y.toNat last.toNat x.toNat y.toNat) else u
    let passed := passOn n
    let cells := (unacked last (n.port k).replay).map Prod.snd ++ (n.port k).queue.map Prod.snd
    let turned := cells.foldl (fun u c => u.sendCell (1 - k) false { c with turned := true })
      (n.setPort k { n.port k with replay := [], queue := [] })
    let noted : State := { s with ln := { s.ln with reroutes := kset s.ln.reroutes (1 - q) { r with flushed := true } } }
    let dropped : State := { s with ln := { s.ln with waitMarker := s.ln.waitMarker.filter (fun a => a != m.src.toNat) } }
    (takes → b.firstCut link = true → kget? v.ln.reroutes k = some r → n.ln.position ≠ x.toNat →
      Becomes (.cutNotice x y last port) s
        (if r.holdsOwn && !flushing then passed.sendCell k true (passed.controlCell 5 x.toNat y.toNat 0 x.toNat) else passed))
    ∧ (takes → b.firstCut link = true → kget? v.ln.reroutes k = some r → n.ln.position = x.toNat → Becomes (.cutNotice x y last port) s
        (if flushing && !r.flushed then turned else turned.sendTail k { r with noticed := true }))
    ∧ (takes → b.firstCut link = false → b.ln.position ≠ x.toNat → Becomes (.cutNotice x y last port) s (passOn b))
    ∧ (s.alive = false ∨ 1 < q → Becomes (.cutNotice x y last port) s s)
    ∧ (kget? s.ln.reroutes (1 - q) = some r → r.x = s.ln.position → r.noticed = false → Becomes (.ringFlush port) s noted)
    ∧ (kget? s.ln.reroutes (1 - q) = some r → r.x ≠ s.ln.position →
        Becomes (.ringFlush port) s (noted.sendCell (1 - q) true (noted.controlCell 5 r.x r.y 0 r.x)))
    ∧ (s.ln.cuts.contains healed = false → Becomes (.routeMarker m) s dropped.noteReroute.releaseHere)
    ∧ (s.ln.cuts = [healed] → s.pw.headSel = false → Ends (.routeMarker m) s (fun u => u.ringState = 2
        ∧ u.ln.cuts = [] ∧ u.flag Reg.LN_STAT Fld.LN_STAT_heal_lat = true ∧ u.rd (Reg.EV_OCC 43) = s.rd (Reg.EV_OCC 43)))
    ∧ (s.ln.cuts = [healed, link] → healed ≠ link → Ends (.routeMarker m) s (fun u => u.ringState = 3
        ∧ u.ln.cuts = [link] ∧ u.flag Reg.LN_STAT Fld.LN_STAT_heal_lat = true))
    ∧ (takes → b.firstCut link = true → kget? v.ln.reroutes k = some r → n.ln.position ≠ x.toNat →
      flushing = true → n.portUp (1 - q) = true →
      Becomes (.cutNotice x y last port) s (n.sendCell (1 - q) false (n.passedCell 4 x.toNat y.toNat last.toNat x.toNat y.toNat)))
    ∧ (s.alive = true → q < 2 → 2 ≤ s.hubs → b.firstCut link = true → kget? v.ln.reroutes k = some r → n.ln.position = x.toNat →
      flushing = false →
      (n.port k).replay = [] → (n.port k).queue = [] → Becomes (.cutNotice x y last port) s
        ((n.setPort k { n.port k with replay := [], queue := [] }).sendTail k { r with noticed := true }))
    ∧ (s.alive = true → q < 2 → 2 ≤ s.hubs → b.firstCut link = false → b.ln.position = x.toNat → Becomes (.cutNotice x y last port) s b)
    ∧ (s.hubs < 2 → Becomes (.cutNotice x y last port) s s)
    ∧ (kget? s.ln.reroutes (1 - q) = none → Becomes (.ringFlush port) s s)
    ∧ (kget? s.ln.reroutes (1 - q) = some r → r.x = s.ln.position → r.noticed = true → Becomes (.ringFlush port) s
        (({ s with ln := { s.ln with reroutes := kset s.ln.reroutes (1 - q) { r with flushed := true } } }).sendTail (1 - q)
          { r with flushed := true }))
    ∧ (kget? s.ln.reroutes q = none → Becomes (.tail port) s s)
    ∧ (kget? s.ln.reroutes q = some r → r.y = s.ln.position → Becomes (.tail port) s (s.endReroute q))
    ∧ (kget? s.ln.reroutes q = some r → r.y ≠ s.ln.position → Becomes (.tail port) s
        ((s.sendCell (1 - q) false (s.passedCell 6 r.x r.y 0 r.y r.x)).endReroute q))
    ∧ (s.ln.cuts.contains healed = false → s.ln.heldDst = [] → Ends (.routeMarker m) s (fun u => u.ringState = s.ringState
        ∧ u.ln = { s.ln with waitMarker := s.ln.waitMarker.filter (fun a => a != m.src.toNat) }))
    ∧ (s.ln.cuts = [healed] → s.pw.headSel = true → Ends (.routeMarker m) s (fun u => u.ringState = 2
        ∧ u.ln.cuts = [] ∧ u.flag Reg.LN_STAT Fld.LN_STAT_heal_lat = true ∧ u.rd (Reg.EV_OCC 43) = s.rd (Reg.EV_OCC 43) + 1))

/-- Lane tests (R329 to R331) and key agreement (R310, R385): a test of lanes 0 to 3 is refused; errors of a running test are counted; an
offer that is sound is answered, one that is not ends the agreement; a confirmed signature installs the keys, unless the lane's engine
fails; a test of an eligible lane starts and ends, an injection acts in service only, and PRBS_ERROR (45) comes once a second. -/
def Obligations.TestsAndKeys : Prop :=
  ∀ (s : State) (i : BitVec 4) (val errors : Word) (bits : Word64) (port : BitVec 2) (msg : List Byte) (engine : Byte) (a : Agree) (p j : Nat)
    (first : Bool) (t : Word64),
    let l := i.toNat
    let mode := s.fget (Reg.LN_TEST l) Fld.LN_TEST_mode
    let q := port.toNat
    let m := fitBytes 384 msg
    let sound := s.mayAgree && !a.priv.isEmpty && slice m 0 1 == [1#8] && certOk (slice m 0x80 256)
      && (!s.flag Reg.VT_SECCFG Fld.VT_SECCFG_same_owner || slice m 8 8 == s.ownerId)
    let answered := s.modPort q (fun x => { x with agree := some { a with partner := m } })
    let sig := fitBytes 96 (Config.ecSign Config.factoryIdentityKey (offersInOrder a.offer m) s.freeCtr)
    let proven := s.mayAgree && !a.priv.isEmpty && !a.partner.isEmpty && slice m 0 1 == [2#8]
      && Config.ecVerify (offerPublic a.partner) (offersInOrder a.offer a.partner) (slice m 0x20 96)
    let otherUp := (lanePort l).any (fun e => (s.inService e.1).testBit (1 - e.2))
    let eligible := (l = 4 ∧ s.fget Reg.TB_CTL Fld.TB_CTL_src ≠ 1) ∨ (l = 9 ∧ (s.isTwin = false ∨ s.inRun = false))
      ∨ (4 < l ∧ l < 9 ∧ (s.inRun = false ∨ otherUp = true))
    let listed := BitField.get Fld.LN_TEST_mode val ≤ 4 ∧ BitField.get Fld.LN_TEST_pattern val ≤ 5
    let anew := if BitField.get Fld.LN_TEST_run val = 1 ∧ s.flag (Reg.LN_TEST l) Fld.LN_TEST_run = false then
      { s with ln := { s.ln with lastErr := kerase s.ln.lastErr l } } else s
    let set := anew.wr (Reg.LN_TEST l) (val &&& 0xFF00FFFF#32 &&& ~~~(1#32 <<< 23))
    let out := set.laneOut l 0 false
    let checks := 4 ≤ l ∧ l < 10 ∧ s.flag (Reg.LN_TEST l) Fld.LN_TEST_run = true ∧ (mode = 2 ∨ mode = 3)
    let counted := (s.incSat (Reg.LN_TERR l) errors.toNat).wr64 (Reg.LN_TBITS_LO l) ((s.incSat (Reg.LN_TERR l) errors.toNat).rd64 (Reg.LN_TBITS_LO l) + bits)
    (l < 10 → ¬ (eligible ∧ listed) → Becomes (.lnTestWrite i val) s (s.accErr true (Reg.LN_TEST l)))
    ∧ (9 < l → Becomes (.lnTestWrite i val) s s)
    ∧ (eligible → listed → set.laneTested l = s.laneTested l → Becomes (.lnTestWrite i val) s set)
    ∧ (eligible → listed → s.laneTested l = false → set.laneTested l = true → lanePort l = some (p, j) → p < 2 → 3 ≤ out.pstate p →
        Becomes (.lnTestWrite i val) s (out.setPstate p 4))
    ∧ (eligible → listed → s.laneTested l = false → set.laneTested l = true → lanePort l = some (p, j) → p = 2 ∨ out.pstate p < 3 →
        Becomes (.lnTestWrite i val) s out)
    ∧ (eligible → listed → s.laneTested l = true → set.laneTested l = false → lanePort l = some (p, j) → p < 2 → s.pstate p = 4 →
        Becomes (.lnTestWrite i val) s (set.setPstate p 3))
    ∧ (eligible → listed → s.laneTested l = true → set.laneTested l = false → lanePort l = some (p, j) → p = 2 ∨ s.pstate p ≠ 4 →
        Becomes (.lnTestWrite i val) s set)
    ∧ (lanePort l = none ∨ s.flag (Reg.LN_TEST l) Fld.LN_TEST_run = false ∨ mode ≠ 4 → Becomes (.lnTestInject i) s s)
    ∧ (lanePort l = some (p, j) → (s.inService p).testBit j = false → Becomes (.lnTestInject i) s s)
    ∧ (¬ checks → Becomes (.prbsError i errors bits first) s s)
    ∧ (checks → kget? s.ln.lastErr l = some t → (s.tb.cnt - t).toNat < secondCounts → Becomes (.prbsError i errors bits first) s
        { counted with ln := { counted.ln with lastErr := kset s.ln.lastErr l s.tb.cnt } })
    ∧ (2 < q ∨ s.agreeing q = false → Becomes (.keyAgreementOffer port msg) s s ∧ Becomes (.keyAgreementConfirm port ⟨msg, engine⟩) s s)
    ∧ (q < 3 → s.agreeing q = true → (s.port q).agree = some a → proven = false →
        Becomes (.keyAgreementConfirm port ⟨msg, engine⟩) s (s.failAgree q))
    ∧ (2 < q → Becomes (.keyAgreementTimeout port) s s)
    ∧ (l < 4 → Becomes (.lnTestWrite i val) s (s.accErr true (Reg.LN_TEST l)))
    ∧ (l = 4 → s.fget Reg.TB_CTL Fld.TB_CTL_src ≠ 1 → BitField.get Fld.LN_TEST_mode val ≤ 4 →
        BitField.get Fld.LN_TEST_pattern val ≤ 5 → Becomes (.lnTestWrite i val) s set)
    ∧ (lanePort l = some (p, j) → s.flag (Reg.LN_TEST l) Fld.LN_TEST_run = true → mode = 4 → (s.inService p).testBit j = true →
        Becomes (.lnTestInject i) s (s.modPort p (fun x => { x with inject := true })))
    ∧ (4 ≤ l → l < 10 → s.flag (Reg.LN_TEST l) Fld.LN_TEST_run = true → (mode = 2 ∨ mode = 3) →
        (kget? s.ln.lastErr l).all (fun t => decide (secondCounts ≤ (s.tb.cnt - t).toNat)) = true → Ends (.prbsError i errors bits first) s (fun u =>
        u.rd (Reg.LN_TERR l) = word (min 0xFFFFFFFF (s.rdN (Reg.LN_TERR l) + errors.toNat))
        ∧ u.rd64 (Reg.LN_TBITS_LO l) = s.rd64 (Reg.LN_TBITS_LO l) + bits ∧ u.rd (Reg.EV_OCC 45) = s.rd (Reg.EV_OCC 45) + 1))
    ∧ (q < 3 → s.agreeing q = true → (s.port q).agree = some a → Becomes (.keyAgreementOffer port msg) s
        (if sound then ({ answered with freeCtr := s.freeCtr + 1 }).sendAgree q
          ([2#8, portByte q] ++ zeros 6 ++ s.ownerId ++ zeros 16 ++ sig ++ zeros 256)
         else s.failAgree q))
    ∧ (q < 3 → s.agreeing q = true → (s.port q).agree = some a → engine ≠ 0 → Becomes (.keyAgreementConfirm port ⟨msg, engine⟩) s
        (if proven then s.engineFailed q engine.toNat else s.failAgree q))
    ∧ (q < 3 → s.agreeing q = true → (s.port q).agree = some a → Becomes (.keyAgreementConfirm port ⟨msg, 0⟩) s
        (if proven then (s.modPort q (fun x => { x with keys := some (laneKeys a 0), rekey := 0, txSlots := 0, rxSlots := 0 })).portComesUp q
         else s.failAgree q))
    ∧ (q < 3 → s.agreeing q = true → Becomes (.keyAgreementTimeout port) s (s.failAgree q))
    ∧ (s.agreeing q = false → Becomes (.keyAgreementTimeout port) s s)

/-! ## The vault (chapter 14) -/

/-- The vault's services (R360 to R364, R367, R380, R383, R384, R386, R388): where the vault is operational and the request has its
length, each completes with status 0 and its response where the role's token, signature or session is good, and is refused where it
is not (whether a signature verifies is a free value, log 2).
Requests the vault turns away (R360, R363, R367, R383, R384): a wrong length completes with status 4, an error state with 5, a
user's request outside a session with 2; a refused token raises AUTH_REJECTED (59) and locks tokens out. -/
def Obligations.VaultServices : Prop :=
  (∀ (s : State) (b : Bank) (k : List Byte) (fail : Byte),
     let e := s.endUcode
     let keyIdOf := fun (o : Option (List Byte)) => match o with | some k => keyId k | none => zeros 8
     let good := fun (op : Nat) (digest : List Byte) => s.tokenOk (s.mbReq 176) op && tokenDigest (s.mbReq 176) == digest
     let signed := fun (code op : Nat) (digest : List Byte) (u : State) =>
       if good op digest then u else (e.refuseAuth code).mbDone 3 []
     let key := slice (s.mbReq 272) 176 96
     let n := e.newNonce
     let scope := (s.mbReq 177).getD 176 0
     let op := ofLe (slice (s.mbReq 176) 4 2)
     (s.serving 0x01 = true → s.mbLen = 0 → Becomes .status s (s.mbDone 0 (fitBytes 64 (leBytes 4 (s.rdN Reg.VT_STAT)
         ++ leBytes 4 (s.rdN Reg.VT_STFAIL) ++ keyIdOf s.vt.owner ++ keyIdOf s.vt.user))))
     ∧ (s.serving 0x02 = true → s.mbLen = 0 → Becomes .getNonce s (e.mbDone 0 (fitBytes 16 s.vt.nonce)))
     ∧ (s.serving 0x03 = true → s.mbLen = 0 → Becomes .getCerts s (e.mbDone 0 (fitBytes 256 s.identityCertBytes ++ fitBytes 256 s.sealCertBytes)))
     ∧ (s.userAsks 0x32 → (s.inIdle = true ∨ s.inRun = true) → Becomes (.selftest fail) s
         ((if fail = 0 then e else e.selftestFail fail.toNat).mbDone 0 (leBytes 4 fail.toNat)))
     ∧ (s.userAsks 0x32 → s.inIdle = false → s.inRun = false → Becomes (.selftest fail) s (e.mbDone 6 []))
     ∧ (s.asks 0x11 96 → s.vt.lockout = true ∨ s.vt.user = none → Becomes .login s ((e.refuseAuth 0x11).mbDone 3 []))
     ∧ (s.asks 0x20 176 → op = 0 ∨ 8 < op → Becomes .authorise s ((e.refuseAuth 0x20).mbDone 3 []))
     ∧ (s.asks 0x24 177 → 2 < scope.toNat → Becomes .zeroise s (e.mbDone 4 []))
     ∧ (s.userAsks 0x30 → s.cal.inForce = none ∨ s.vt.sealKey = none → Becomes .exportCal s (e.mbDone 6 []))
     ∧ (s.asks 0x01 0 → Becomes .status s (s.mbDone 0 (fitBytes 64 (leBytes 4 (s.rdN Reg.VT_STAT) ++ leBytes 4 (s.rdN Reg.VT_STFAIL)
         ++ keyIdOf s.vt.owner ++ keyIdOf s.vt.user))))
     ∧ (s.asks 0x02 0 → Becomes .getNonce s (e.mbDone 0 (fitBytes 16 s.vt.nonce)))
     ∧ (s.asks 0x03 0 → Becomes .getCerts s (e.mbDone 0 (fitBytes 256 s.identityCertBytes ++ fitBytes 256 s.sealCertBytes)))
     ∧ (s.asks 0x10 192 → s.vt.owner = none → Becomes .enrol s
         (if Config.ecVerify ((s.mbReq 192).take 96) (serialBytes s ++ s.vt.nonce) (slice (s.mbReq 192) 96 96) then
           (({ e with vt := { e.vt with owner := some ((s.mbReq 192).take 96) } }).setFlag Reg.VT_STAT Fld.VT_STAT_owner true).mbDone 0 []
         else e.mbDone 3 []))
     ∧ (s.asks 0x11 96 → s.vt.lockout = false → s.vt.user = some k → Becomes .login s
         (if Config.ecVerify k (serialBytes s ++ s.vt.nonce ++ [0x4C, 0x4F, 0x47, 0x4E]) (s.mbReq 96) then
           ((({ e with vt := { e.vt with session := true } }).newNonce).setFlag Reg.VT_STAT Fld.VT_STAT_user true).mbDone 0 []
         else (e.refuseAuth 0x11).mbDone 3 []))
     ∧ (s.userAsks 0x12 → Becomes .logout s (e.endSession.mbDone 0 []))
     ∧ (s.asks 0x20 176 → 1 ≤ op → op ≤ 8 → Ends .authorise s (fun u =>
         if s.tokenOk (s.mbReq 176) op then
           u.vt.armed = some (op, tokenDigest (s.mbReq 176)) ∧ u.flag Reg.VT_STAT Fld.VT_STAT_armed = true ∧ u.rd Reg.MB_STAT = 0
         else u = (e.refuseAuth 0x20).mbDone 3 []))
     ∧ (s.asks 0x21 272 → Becomes .setUserKey s (signed 0x21 5 (sha384 key) (({ n with vt := { n.vt with user := some key } }).mbDone 0 [])))
     ∧ (s.asks 0x22 272 → Becomes .replaceOwner s (signed 0x22 6 (sha384 key) (({ n with vt := { n.vt with owner := some key } }).mbDone 0 [])))
     ∧ (s.asks 0x23 176 → Ends .rotateSealKey s (fun u => if good 4 (zeros 48) then
         (if n.drawBytes 48 |>.2.pairwise (n.drawBytes 48).1 then
           u.vt.rotate = true ∧ u.vt.sealKey = some (n.drawBytes 48).1 ∧ u.vt.resp = fitBytes 256 u.sealCertBytes ∧ u.rd Reg.MB_STAT = 0
          else u.vaultState = vtError ∧ u.vt.sealKey = s.vt.sealKey ∧ u.rd Reg.MB_STAT = 5)
         else u = (e.refuseAuth 0x23).mbDone 3 []))
     ∧ (s.asks 0x24 177 → scope.toNat ≤ 2 → Becomes .zeroise s (signed 0x24 7 (sha384 [scope]) ((n.zeroiseScope scope.toNat).mbDone 0 [])))
     ∧ (s.asks 0x25 176 → Becomes .tamperClear s (signed 0x25 8 (zeros 48) (({ n with vt := { n.vt with log := [] } }).mbDone 0 [])))
     ∧ (s.userAsks 0x30 → s.cal.inForce = some b → s.vt.sealKey = some k → Ends .exportCal s (fun u =>
         u.rd Reg.MB_STAT = 0 ∧ u.vt.resp.length = 63712 ∧ u.cal = s.cal))
     ∧ (s.userAsks 0x31 → Becomes .configImage s (e.mbDone 0 (if s.running then s.vt.config else s.configImage)))
     ∧ (s.userAsks 0x32 → (s.inIdle = true ∨ s.inRun = true) → Becomes (.selftest 0) s (e.mbDone 0 (leBytes 4 0)))
     ∧ (s.userAsks 0x33 → Ends .tamperLog s (fun u =>
         u.rd Reg.MB_STAT = 0 ∧ u.vt.log = s.vt.log ∧ u.vt.resp.drop 256 = leBytes 4 s.vt.logCount.toNat)))
  ∧ (∀ s : State,
     let e := s.endUcode
     (s.serving 0x20 = true → s.vaultInError = false → s.mbLen ≠ 176 → Becomes .authorise s (e.mbDone 4 []))
     ∧ (s.serving 0x20 = true → s.vaultInError = true → Becomes .authorise s (e.mbDone 5 []))
     ∧ (s.serving 0x31 = true → s.vaultOk = true → s.vt.session = false → Becomes .configImage s (e.mbDone 2 []))
     ∧ (s.asks 0x10 192 → s.vt.owner ≠ none → Becomes .enrol s (e.mbDone 2 []))
     ∧ (s.asks 0x21 272 → s.tokenOk (s.mbReq 176) 5 = false → Ends .setUserKey s (fun u =>
         u.rd Reg.MB_STAT = 3 ∧ u.vt.lockout = true ∧ u.vt.user = s.vt.user ∧ u.rd (Reg.EV_OCC 59) = s.rd (Reg.EV_OCC 59) + 1))
     ∧ (s.serving 0x01 = false → Becomes .status s s)
     ∧ (s.flag Reg.MB_STAT Fld.MB_STAT_busy = false →
         Becomes .status s s ∧ Becomes .getNonce s s ∧ Becomes .getCerts s s ∧ Becomes .enrol s s ∧ Becomes .login s s ∧ Becomes .logout s s
         ∧ Becomes .authorise s s ∧ Becomes .setUserKey s s ∧ Becomes .replaceOwner s s ∧ Becomes .rotateSealKey s s ∧ Becomes .zeroise s s
         ∧ Becomes .tamperClear s s ∧ Becomes .exportCal s s ∧ Becomes .configImage s s ∧ Becomes (.selftest 0) s s ∧ Becomes .tamperLog s s))

/-- The microcode session (R365, R366): its start takes length and digest under a token, its data append in order, its finish stores an
image that is whole and signed, and the timeout ends it. -/
def Obligations.Microcode : Prop :=
  ∀ (s : State) (x : UcodeSession) (load : Byte),
    let len := ofLe (slice (s.mbReq 192) 4 4)
    let t := (s.mbReq 192).drop 16
    let n := ofLe (slice (s.mbReq 16) 8 4)
    let r := s.mbReq s.mbLen
    let body := x.image.length
    let e := s.endUcode
    let signed := Config.ecVerify (fitBytes 96 Config.codePublic) (x.image.take (body - 96)) (x.image.drop (body - 96))
    (UcodeAsks s 1 192 → s.vt.ucode ≠ none ∨ len < 4096 ∨ 524288 < len ∨ len % 16 ≠ 0 → Becomes .microcodeStart s (e.mbDone 4 []))
    ∧ (UcodeAsks s 2 (16 + n) → s.vt.ucode = none → Becomes .microcodeData s (s.mbDone 4 []))
    ∧ (UcodeAsks s 2 (16 + n) → s.vt.ucode = some x →
        ofLe (slice r 4 4) ≠ body ∨ ofLe (slice r 8 4) < 16 ∨ 28656 < ofLe (slice r 8 4) ∨ ofLe (slice r 8 4) % 16 ≠ 0
          ∨ x.length < ofLe (slice r 4 4) + ofLe (slice r 8 4) → Becomes .microcodeData s (e.mbDone 4 []))
    ∧ (UcodeAsks s 3 16 → s.vt.ucode = some x → body ≠ x.length → Becomes (.microcodeFinish load) s (e.mbDone 4 []))
    ∧ (UcodeAsks s 3 16 → s.vt.ucode = some x → body = x.length → sha384 x.image ≠ x.digest → Becomes (.microcodeFinish load) s (e.mbDone 3 []))
    ∧ (UcodeAsks s 3 16 → s.vt.ucode = some x → body = x.length → sha384 x.image = x.digest → load ≠ 0 →
        Becomes (.microcodeFinish load) s (if signed then (e.selftestFail load.toNat).mbDone 5 [] else e.mbDone 3 []))
    ∧ (s.serving 0x26 = true → s.vaultInError = false → s.inIdle = false →
        Becomes .microcodeStart s (e.mbDone 6 []) ∧ Becomes .microcodeData s (e.mbDone 6 []) ∧ Becomes (.microcodeFinish load) s (e.mbDone 6 []))
    ∧ (s.serving 0x26 = true → s.vaultInError = true →
        Becomes .microcodeStart s (e.mbDone 5 []) ∧ Becomes .microcodeData s (e.mbDone 5 []) ∧ Becomes (.microcodeFinish load) s (e.mbDone 5 []))
    ∧ (s.serving 0x26 = false →
        Becomes .microcodeStart s s ∧ Becomes .microcodeData s s ∧ Becomes (.microcodeFinish load) s s)
    ∧ (UcodeAsks s 1 192 → s.vt.ucode = none → 4096 ≤ len → len ≤ 524288 → len % 16 = 0 →
      Ends .microcodeStart s (fun u => if s.tokenOk t 3 then u.rd Reg.MB_STAT = 0
        ∧ u.vt.ucode = some { length := len, digest := tokenDigest t, image := [] }
        else u = (s.endUcode.refuseAuth 0x26).mbDone 3 []))
    ∧ (UcodeAsks s 2 (16 + n) → s.vt.ucode = some x → ofLe (slice r 4 4) = body → ofLe (slice r 8 4) = n → 16 ≤ n → n ≤ 28656 → n % 16 = 0 →
      body + n ≤ x.length → Becomes .microcodeData s
        (({ s with vt := { s.vt with ucode := some { x with image := x.image ++ slice r 16 n } } }).mbDone 0 []))
    ∧ (UcodeAsks s 3 16 → s.vt.ucode = some x → body = x.length → sha384 x.image = x.digest →
      Ends (.microcodeFinish 0) s (fun u =>
        if Config.ecVerify (fitBytes 96 Config.codePublic) (x.image.take (body - 96)) (x.image.drop (body - 96)) then
          u.rd Reg.MB_STAT = 0 ∧ u.vt.ucode = none ∧ u.vt.ucodeStored = BitVec.ofNat 16 (ofLe (slice x.image 4 2))
          ∧ u.vt.ucodeActive = s.vt.ucodeActive
        else u = s.endUcode.mbDone 3 []))
    ∧ (UcodeAsks s 3 16 → s.vt.ucode = none → Becomes (.microcodeFinish load) s (s.mbDone 4 []))
    ∧ Becomes .microcodeSessionTimeout s { s with vt := { s.vt with ucode := none } }

/-- Self-test failures, the vault's timeouts and tamper (R361, R363, R368, R382, R383, R387, R388): a failed test leads to the error state with
event 56; nonce, authorisation and lock-out end; a tamper detection erases keys, session and authorisation, is logged and
raises TAMPER (57), in Fallow at the next start. -/
def Obligations.VaultWatch : Prop :=
  ∀ (s : State) (code : Byte) (x : TamperIn),
    let bits := x.bits
    (s.alive = false → Becomes (.continuousTestFail code) s s ∧ Becomes .nonceExpire s s)
    ∧ (s.pw.power = .off → Becomes (.tamperDetect x) s s)
    ∧ (bits ≠ 0 → s.pw.power = .fallow → Ends (.tamperDetect x) s (fun u => u.wakeLow = true))
    ∧ (s.alive = true → Ends (.continuousTestFail code) s (fun u => u.rd Reg.VT_STFAIL = word code.toNat ∧ u.vaultState = vtError
        ∧ u.vt = { s.vt with chainOpen := false } ∧ u.rd (Reg.EV_OCC 56) = s.rd (Reg.EV_OCC 56) + 1))
    ∧ (s.vt.memberReq ≠ none → Becomes .mailboxMemberTimeout s (s.mbDone 7 []))
    ∧ (s.vt.memberReq = none → Becomes .mailboxMemberTimeout s s)
    ∧ (s.alive = true → Ends .nonceExpire s (fun u => u.vt.nonce.length = 16 ∧ u.freeCtr = s.freeCtr + 1 ∧ u.regs = s.regs))
    ∧ Ends .authorisationLapse s (fun u => u.vt = { s.vt with armed := none } ∧ u.flag Reg.VT_STAT Fld.VT_STAT_armed = false)
    ∧ Becomes .authLockoutEnd s { s with vt := { s.vt with lockout := false } }
    ∧ (bits = 0 → Becomes (.tamperDetect x) s s)
    ∧ (bits ≠ 0 → s.pw.power = .fallow → Becomes (.tamperDetect x) s
        (let u := (s.fallowSeconds x.seconds).tamperErase.logTamper bits 0
         { u with vt := { u.vt with fallowTamper := u.vt.fallowTamper ||| bits } }))
    ∧ (bits ≠ 0 → s.alive = true → Ends (.tamperDetect x) s (fun u => u.vt.session = false ∧ u.vt.armed = none
        ∧ u.vt.tampered = true ∧ u.flag Reg.VT_STAT Fld.VT_STAT_tampered = true ∧ u.flag Reg.VT_STAT Fld.VT_STAT_user = false
        ∧ u.rd Reg.VT_TAMPER = s.rd Reg.VT_TAMPER ||| bits.setWidth 32 ∧ u.vt.logCount = s.vt.logCount + 1
        ∧ u.rd (Reg.EV_OCC 57) = s.rd (Reg.EV_OCC 57) + 1))

/-- R388: the tamper log keeps the newest 16 entries; each holds the cause bits, the Fallow second counter and the corrected time at
detection, or 0 in Fallow; the 32-bit count goes on; TAMPER_CLEAR empties the log. -/
def Obligations.TamperLog : Prop :=
  ∀ (s : State) (x : TamperIn), x.bits ≠ 0 →
    let after := fun (k : Word) (t : Int) (u : State) =>
      u.vt.logCount = s.vt.logCount + 1 ∧ u.vt.second = k ∧ u.vt.log.getLast? = some (TamperEntry.mk x.bits k t)
      ∧ (s.vt.log.length < 16 → u.vt.log = s.vt.log ++ [TamperEntry.mk x.bits k t])
      ∧ (s.vt.log.length = 16 → u.vt.log = s.vt.log.drop 1 ++ [TamperEntry.mk x.bits k t])
    (s.pw.power = .fallow → Ends (.tamperDetect x) s (after (s.vt.second + x.seconds) 0))
    ∧ (s.alive = true → Ends (.tamperDetect x) s (after s.vt.second s.now))
    ∧ (s.asks 0x25 176 → Ends .tamperClear s (fun u =>
        u.vt.log = if s.tokenOk (s.mbReq 176) 8 && tokenDigest (s.mbReq 176) == zeros 48 then [] else s.vt.log))

/-! ## Enabling (chapter 19) -/

/-- The enable check and the end of Run (R473, R474, R476, R482): run = 1 in Idle starts the check; a refusal reports class, detail and
index and leaves the hub in Idle; a hub for which every condition holds enters Run in safe state with cause start; run = 0 names
the last tick, and ends Run at once where no frame is to come. -/
def Obligations.RunControl : Prop :=
  ∀ (s : State) (v : RingView) (r : Nat × Nat × Nat) (hp : RingParams),
    let noted := ({ s with pw := { s.pw with checking := false } }).noteBudget
    let cs := orderConds (s.checkConds v)
    let t := s.now + slotU - (s.fr.epoch : Int) * secU
    let n := ((t + s.periodU - 1) / s.periodU).toNat
    let stopped : State := { s with sv := { s.sv with oen := 0, releasePend := false, raiseDue := false } }
    (s.pw.inReset = false → s.idleOpen = true → Becomes .runEnable s
        (({ s with pw := { s.pw with checking := true } }).setEnstat enChecking 0 0 0))
    ∧ (s.pw.inReset = false → s.inIdle = true → s.pw.checking = true → Becomes .runEnable s (s.accErr true Reg.GLB_CTL))
    ∧ (s.inRun = true → Becomes .runEnable s s)
    ∧ (s.pw.inReset = true ∨ (s.inIdle = false ∧ s.pw.power ≠ .hold) → Becomes .runEnable s s)
    ∧ (s.pw.inReset = false → s.pw.power = .hold → Becomes .runEnable s (s.accErr true Reg.GLB_CTL))
    ∧ (s.inIdle = true → s.pw.checking = true → refusalOf cs = none → s.headRuns = some hp →
        Becomes (.consistencyCheckDone v) s (noted.enterRun.startMember hp (noted.firstTick hp.epoch.toNat)))
    ∧ (s.inIdle = true → s.pw.checking = true → refusalOf cs = none → s.pw.headSel = false → s.headRuns = none →
        Becomes (.consistencyCheckDone v) s noted.enterRun)
    ∧ (s.pw.checking = false → Becomes (.consistencyCheckDone v) s s)
    ∧ (s.inRun = true → s.pw.lastTick ≠ none → Becomes .runDisable s stopped)
    ∧ (s.inRun = true → s.pw.lastTick = none → n ≤ s.fr.tickS → Becomes .runDisable s stopped.endRun)
    ∧ (s.inIdle = true → s.pw.checking = true → refusalOf cs = some r → Ends (.consistencyCheckDone v) s (fun u =>
        u.pw = { s.pw with checking := false } ∧ u.rd Reg.GLB_ENSTAT_LO = 3
        ∧ u.rd Reg.GLB_ENSTAT_HI = word (2 ^ 24 * r.1 + 2 ^ 16 * r.2.1 + r.2.2 % 2 ^ 16)))
    ∧ (s.inIdle = true → s.pw.checking = true → refusalOf cs = none → s.pw.headSel = false → s.pw.headParams = none →
        Becomes (.consistencyCheckDone v) s noted.enterRun)
    ∧ (s.inIdle = true → s.pw.checking = true → refusalOf cs = none → s.pw.headSel = true →
        Becomes (.consistencyCheckDone v) s
          (noted.enterRun.startAt noted.chooseEpoch (noted.firstTick noted.chooseEpoch)).distribute)
    ∧ (s.inIdle = false → Becomes (.consistencyCheckDone v) s s)
    ∧ (s.inRun = false → Becomes .runDisable s s)
    ∧ (s.inRun = true → s.pw.lastTick = none → s.pw.waiting = false → s.fr.tickS < n → Becomes .runDisable s
        { stopped with pw := { s.pw with lastTick := some (if s.running then max n s.fr.nextTick else n) } })
    ∧ (s.inRun = true → s.pw.lastTick = none → s.pw.waiting = true → Becomes .runDisable s stopped.endRun)

/-- R30: the frame period is m × 62.5 µs; for m from 1 to 16,000 the check raises nothing against it, and any other m is refused
at enable with reason class 0x02, unless class 0x01 fails as well, which R474 then reports. -/
def Obligations.FramePeriod : Prop :=
  ∀ (s : State) (v : RingView),
    s.periodU * 2 = (s.m : Int) * 125000 * nsU
    ∧ (1 ≤ s.m → s.m ≤ 16000 → ∀ c ∈ s.checkConds v, c.cls = 2 → c.det = 1 → c.bad = [])
    ∧ ((s.m = 0 ∨ 16000 < s.m) → s.inIdle = true → s.pw.checking = true → Ends (.consistencyCheckDone v) s (fun u =>
        u.inIdle = true ∧ u.rd Reg.GLB_ENSTAT_LO = 3
        ∧ (s.condsBudget.all (fun c => c.bad.isEmpty) = true → u.rd Reg.GLB_ENSTAT_HI = 0x0201FFFF#32)
        ∧ (s.condsBudget.all (fun c => c.bad.isEmpty) = false → (u.rd Reg.GLB_ENSTAT_HI).toNat / 2 ^ 24 = 1)))

/-- The entry to Run (R396, R397, R405): the hub is in Run, in safe state with cause start, its output enables low and the entry
counted; the enable status reads RUNNING. -/
def Obligations.EnterRun : Prop :=
  ∀ (s : State) (v : RingView),
    let ready := s.inIdle = true ∧ s.pw.checking = true ∧ refusalOf (orderConds (s.checkConds v)) = none
    (ready → Ends (.consistencyCheckDone v) s (fun u => u.inRun = true ∧ u.pw.waiting = (!s.pw.headSel && s.headRuns.isNone)
      ∧ u.sv.safe = true ∧ u.sv.oen = 0 ∧ u.hasCause 1 = true ∧ u.rd Reg.GLB_ENSTAT_LO = 2 ∧ u.rd Reg.GLB_ENSTAT_HI = 0
      ∧ u.role = (if s.isTwin then (if s.sv.ilkI then 4 else if s.pw.twinPri then 1 else 2) else 0)
      ∧ ((s.isTwin && s.sv.ilkI) = false → u.sv.safeN = false)
      ∧ (s.hasCause 1 = false → u.rdN Reg.SV_SAFECNT = min 0xFFFFFFFF (s.rdN Reg.SV_SAFECNT + 1))))
    ∧ (ready → s.pw.headSel = true → Ends (.consistencyCheckDone v) s (fun u => u.fr.tickS = s.firstTick s.chooseEpoch
        ∧ u.fr.epoch = s.chooseEpoch ∧ u.fr.nextTick = s.firstTick s.chooseEpoch + 1))
    ∧ (ready → s.pw.headSel = false → s.pw.headParams = none → s.isTwin = false →
      Ends (.consistencyCheckDone v) s (fun u => u.inRun = true ∧ u.pw.waiting = true ∧ u.sv.safe = true ∧ u.sv.oen = 0
      ∧ u.hasCause 1 = true ∧ u.sv.safeN = false ∧ u.rd Reg.GLB_ENSTAT_LO = 2 ∧ u.rd Reg.GLB_ENSTAT_HI = 0))

/-! ## The twin pair (chapter 15) -/

/-- Comparison and diagnosis (R406 to R409): frames that match end the run of mismatches, ones that differ or are missing at the
deadline lengthen it; equal reports lead to safe state with cause twin, the hub that reports a fault retires, and so does a gap
that expires. -/
def Obligations.TwinComparison : Prop :=
  ∀ (s : State) (a b : TwinFrameIn) (o c n : Nat) (frame : Word64) (fault : Bool),
    let told := s.modTwin (fun t => { t with theirs := some b, activeSafe := t.activeSafe || b.cause != 0 })
    let hears := s.isTwin = true ∧ s.inRun = true ∧ s.role ≠ 5
    let single := (s.endHold.setPReady false).modTwin (fun t =>
      { t with joinAt := none, snapshotSent := false, gap := if s.sv.ilkO then none else t.gap })
    let ended := s.endHold.modTwin (fun t => { t with gap := none })
    let mine := s.sv.twin.myReport.getD (s.twinFault n false)
    let theirs := s.sv.twin.theirReport.getD true
    let on := hears ∧ b.leaving = false ∧ s.sv.twin.mine = some a ∧ s.sv.twin.compared = false ∧ s.sv.twin.held = false
    let pair := s.inRun = true ∧ (s.role = 1 ∨ s.role = 2) ∧ s.sv.twin.mismatchFrame = some n
    (on → a.frame = b.frame → told.twinDiff a b = none → Becomes (.twinFrame b) s told.twinMatch)
    ∧ (on → a.frame = b.frame → told.twinDiff a b = some (o, c) → Becomes (.twinFrame b) s (told.twinMismatch a.frame.toNat o c))
    ∧ (on → a.frame ≠ b.frame → Becomes (.twinFrame b) s told)
    ∧ (s.isTwin = false → Becomes (.twinFrame b) s s)
    ∧ (s.inRun = false ∨ s.role = 5 → Becomes (.twinFrame b) s s)
    ∧ (hears → b.leaving = false → s.sv.twin.mine = none ∨ s.sv.twin.compared = true ∨ s.sv.twin.held = true →
        Becomes (.twinFrame b) s told)
    ∧ (hears → b.leaving = true → s.role ≠ 1 → Becomes (.twinFrame b) s s)
    ∧ (hears → b.leaving = true → s.role = 1 → Becomes (.twinFrame b) s (if s.sv.twin.held then single.restartLoops else single))
    ∧ (s.inRun = false ∨ s.sv.twin.compared = true ∨ s.sv.twin.held = true → Becomes .twinCompareDeadline s s)
    ∧ (s.sv.twin.mine = some a → s.twinRuns a.frame.toNat = false → Becomes .twinCompareDeadline s s)
    ∧ (s.sv.twin.mismatchFrame = some n → frame.toNat ≠ n → frame.toNat ≠ n + 1 → Becomes (.diagnosisReport frame fault) s s)
    ∧ (s.sv.twin.mismatchFrame = some n → s.inRun = false ∨ (s.role ≠ 1 ∧ s.role ≠ 2) → Becomes .twinDecision s s.endHold)
    ∧ (pair → mine = false → theirs = true → s.role = 1 → Becomes .twinDecision s
        ((s.endHold.setPReady false).modTwin (fun t => { t with gap := if s.sv.ilkO then none else t.gap })).restartLoops)
    ∧ (s.inRun = false ∨ (s.role ≠ 1 ∧ s.role ≠ 2) → Becomes .failoverGapExpire s s)
    ∧ (s.inRun = true → s.sv.twin.mine = some a → s.sv.twin.compared = false → s.sv.twin.held = false → s.twinRuns a.frame.toNat = true →
        Becomes .twinCompareDeadline s (s.twinMismatch a.frame.toNat 0 2))
    ∧ (s.sv.twin.mine = none → Becomes .twinCompareDeadline s s)
    ∧ (s.sv.twin.mismatchFrame = some n → frame.toNat = n ∨ frame.toNat = n + 1 → Becomes (.diagnosisReport frame fault) s
        (s.modTwin (fun t => { t with theirReport := some fault })))
    ∧ (s.sv.twin.mismatchFrame = none → Becomes (.diagnosisReport frame fault) s s ∧ Becomes .twinDecision s s)
    ∧ (pair → mine = theirs → Becomes .twinDecision s (ended.latchCause 15))
    ∧ (pair → mine = true → theirs = false → Becomes .twinDecision s ended.retire)
    ∧ (pair → mine = false → theirs = true → s.role = 2 → Becomes .twinDecision s s.endHold.failOver.restartLoops)
    ∧ (s.inRun = true → (s.role = 1 ∨ s.role = 2) → s.sv.twin.gap ≠ none → Becomes .failoverGapExpire s
        (((s.modTwin (fun t => { t with gap := none, failing := false })).endHold).latchCause 15))
    ∧ (s.sv.twin.gap = none → Becomes .failoverGapExpire s s)

/-- Interlock, fail-over, relay and rejoin (R410 to R416): of two claims the hub with TWIN_PRI low gives way; the active claims once
ILK_I is low, and a hub that takes over raises TWIN_FAILOVER (37); a standby takes relayed setpoints and releases; a rejoin
ends with a ready standby and TWIN_RESYNC (38), or aborts with its reason. -/
def Obligations.TwinFailoverAndRejoin : Prop :=
  ∀ (s : State) (rings : List RingRead) (samples : List SampleTake) (db : Word64) (f : Byte) (seq : Word) (loop : BitVec 5)
    (frame val : Word64) (snap : SnapshotIn),
    let active := s.isTwin = true ∧ s.inRun = true ∧ s.role = 1
    let claimed : State := { s with sv := { s.sv with ilkO := true, twin := { s.sv.twin with claimAt := s.now, gap := none } } }
    let q : QSet := { furrow := 256 + f.toNat, seq := seq, loop := loop.toNat, frame := frame.toNat, value := val, acked := true }
    let epoch := (s.cal.inForce.map Bank.epoch).getD 0
    let enough := s.fget Reg.SV_TWCFG Fld.SV_TWCFG_agree ≤ s.sv.twin.agreeRun ∧ s.sv.twin.joinAt ≠ none
    let seen := fun (b : Bool) => ({ s with sv := { s.sv with ilkI := b } } : State)
    let gates : State := { claimed with sv := { claimed.sv with oen := claimed.oenAllowed } }
    let took := ((gates.modTwin (fun t => { t with failing := false, tookOver := true, partnerDb := db })).adoptSetpoints rings).adoptSamples samples
    let takes := s.inRun = true ∧ s.role = 4 ∧ (snap.epoch = 0 ∨ epoch = snap.epoch)
    let loaded := snap.loops.foldl State.snapLoop ((s.fput Reg.SV_TWSTAT Fld.SV_TWSTAT_abort 0).clearSetpoints.dropStaging)
    let queued := snap.queue.map (fun x => ({ furrow := 256 + x.furrow.toNat, seq := x.seq, loop := x.loop.toNat, frame := x.frame.toNat
                                              value := x.value, acked := true } : QSet))
    (s.alive = true → s.sv.ilkO = true → s.pw.twinPri = false → s.now - s.sv.twin.claimAt ≤ 2000 * nsU → Becomes (.ilkIEdge true) s
        { s with sv := { s.sv with ilkI := true, ilkO := false, oen := 0 } })
    ∧ (s.alive = true → s.inRun = true → s.role = 2 → s.sv.twin.held = false → Becomes (.ilkIEdge false) s
        ({ s with sv := { s.sv with ilkI := false } }).failOver)
    ∧ (active → s.sv.ilkI = false → s.sv.ilkO = false → s.sv.twin.failing = false → Becomes (.ilkClaim rings samples db) s
        { claimed with sv := { claimed.sv with oen := claimed.oenAllowed } })
    ∧ (active → s.sv.ilkI = false → s.sv.ilkO = false → s.sv.twin.failing = true → s.sv.twin.partnerFurrows = [] → s.sv.twin.partnerGone = false →
        Ends (.ilkClaim [] samples db) s (fun u => u.sv.ilkO = true ∧ u.sv.twin.failing = false
          ∧ u.flag Reg.SV_TWSTAT Fld.SV_TWSTAT_failover = true ∧ u.rd (Reg.EV_OCC 37) = s.rd (Reg.EV_OCC 37) + 1))
    ∧ (s.sv.ilkI = true → Becomes (.ilkClaim rings samples db) s s)
    ∧ (¬ active ∨ s.sv.ilkO = true → Becomes (.ilkClaim rings samples db) s s)
    ∧ (active → s.sv.ilkI = false → s.sv.ilkO = false → s.sv.twin.failing = true → Becomes (.ilkClaim rings samples db) s
        ((took.setFlag Reg.SV_TWSTAT Fld.SV_TWSTAT_failover true).raise 37 took.sv.twin.partnerAddr 0))
    ∧ (s.alive = false → Becomes (.ilkIEdge true) s s ∧ Becomes (.ilkIEdge false) s s)
    ∧ (s.alive = true → s.sv.ilkO = false ∨ s.pw.twinPri = true ∨ 2000 * nsU < s.now - s.sv.twin.claimAt → Becomes (.ilkIEdge true) s (seen true))
    ∧ (s.alive = true → s.inRun = false ∨ s.role ≠ 2 ∨ s.sv.twin.held = true → Becomes (.ilkIEdge false) s (seen false))
    ∧ (s.inRun = false ∨ (s.role ≠ 2 ∧ s.role ≠ 4) → Becomes (.setpointRelay f seq loop frame val) s s)
    ∧ (s.inRun = true → s.role = 4 → s.sv.twin.activeSafe = true → s.frameNo < frame.toNat → Becomes (.twinRelease frame) s
        { s with sv := { s.sv with releasePend := true } })
    ∧ (s.inRun = false ∨ frame.toNat ≤ s.frameNo ∨ (s.role = 2 ∧ s.sv.safe = false) ∨ (s.role = 4 ∧ s.sv.twin.activeSafe = false)
        ∨ (s.role ≠ 2 ∧ s.role ≠ 4) → Becomes (.twinRelease frame) s s)
    ∧ (takes → Becomes (.snapshot snap) s (if s.twinHash = snap.config then
        (({ loaded with ce := { loaded.ce with queue := queued } }).noteQueueSp).modTwin (fun t =>
          { t with joinAt := some snap.start.toNat, agreeRun := 0, compared := true, activeSafe := snap.safe, partnerFurrows := snap.furrows,
                   partnerDb := snap.doorbell })
        else s.fput Reg.SV_TWSTAT Fld.SV_TWSTAT_abort 2))
    ∧ (s.inRun = false ∨ s.role ≠ 4 → Becomes (.snapshot snap) s s ∧ Becomes .rejoinTimeout s s)
    ∧ (s.inRun = true → s.role = 4 → s.sv.twin.joinAt ≠ none → Becomes .rejoinTimeout s s)
    ∧ (s.inRun = false ∨ ¬ enough ∨ (s.role ≠ 1 ∧ s.role ≠ 4) → Becomes .twinResyncDone s s)
    ∧ (s.role = 1 → s.sv.twin.snapshotSent = false → Becomes .twinResyncDone s s)
    ∧ (s.inRun = true → (s.role = 2 ∨ s.role = 4) → Becomes (.setpointRelay f seq loop frame val) s
        ((({ s with ce := { s.ce with queue := s.ce.queue ++ [q] } }).noteQueueSp).sendTwin 0x12 [f.toNat, seq.toNat]))
    ∧ Ends (.relayAcknowledgement f seq) s (fun u => u.regs = s.regs ∧ u.ce.queue.length = s.ce.queue.length
        ∧ ∀ x ∈ u.ce.queue, x.furrow % 256 = f.toNat → x.seq = seq → x.acked = true)
    ∧ (s.inRun = true → s.role = 2 → s.sv.safe = true → s.frameNo < frame.toNat → Becomes (.twinRelease frame) s
        { s with sv := { s.sv with releasePend := true } })
    ∧ (¬ active → Becomes .rejoin s (s.accErr true Reg.SV_CMD))
    ∧ (active → Ends .rejoin s (fun u => u.sv.twin.snapshotSent = true ∧ u.sv.twin.agreeRun = 0 ∧ u.regs = s.regs
        ∧ ∃ j, u.sv.twin.joinAt = some j ∧ s.frameNo < j))
    ∧ (s.inRun = true → s.role = 4 → snap.epoch ≠ 0 → epoch ≠ snap.epoch → Becomes (.snapshot snap) s
        (s.fput Reg.SV_TWSTAT Fld.SV_TWSTAT_abort 1))
    ∧ (s.inRun = true → s.role = 4 → epoch = snap.epoch → s.twinHash = snap.config → snap.loops = [] → Ends (.snapshot snap) s (fun u =>
        u.sv.twin.joinAt = some snap.start.toNat ∧ u.sv.twin.partnerFurrows = snap.furrows ∧ u.ce.queue.length = snap.queue.length))
    ∧ (s.inRun = true → enough → s.role = 4 → Ends .twinResyncDone s (fun u => u.role = 2 ∧ u.sv.twin.joinAt = none
        ∧ u.rd Reg.SV_CAUSE = s.rd Reg.SV_CAUSE &&& ~~~2#32
        ∧ u.sv.safe = (if s.rd Reg.SV_CAUSE &&& ~~~2#32 = 0 ∧ s.sv.twin.activeSafe = false then false else s.sv.safe)))
    ∧ (s.inRun = true → enough → s.role = 4 → s.rd Reg.SV_CAUSE = 2 → Ends .twinResyncDone s (fun u => u.role = 2
        ∧ (s.sv.twin.activeSafe = false → u.rd Reg.SV_CAUSE = 0 ∧ u.sv.safe = false)
        ∧ (s.sv.twin.activeSafe = true → u.sv.safe = s.sv.safe) ∧ u.rd (Reg.EV_OCC 38) = s.rd (Reg.EV_OCC 38) + 1))
    ∧ (s.inRun = true → enough → s.role = 1 → s.sv.twin.snapshotSent = true → Ends .twinResyncDone s (fun u =>
        u.pReady = true ∧ u.sv.twin.snapshotSent = false ∧ u.rd (Reg.EV_OCC 38) = s.rd (Reg.EV_OCC 38) + 1))
    ∧ (s.inRun = true → s.role = 4 → s.sv.twin.joinAt = none → Becomes .rejoinTimeout s (s.fput Reg.SV_TWSTAT Fld.SV_TWSTAT_abort 4))

/-! ## Power and resets (chapter 18) -/

/-- Power (R458 to R464, R471, R472): power good samples the straps and starts the hub with the cause of its reset; a power fail drives the
outputs low and leads to Fallow where VBAT is good; Hold is entered and left in Idle. -/
def Obligations.PowerStates : Prop :=
  ∀ (s : State) (st : Straps) (n : Word),
    ((s.pw.power = .off ∨ s.pw.power = .fallow) → Ends (.powerOn st) s (fun u => u.pw.power = .startUp ∧ u.pw.headSel = st.headSel
        ∧ u.vt.ucodeActive = s.vt.ucodeStored ∧ u.rd Reg.GLB_RSTCAUSE = (if s.vt.ucodeStored = s.vt.ucodeActive then 1 else 5)
        ∧ u.vt.chain = [] ∧ u.vt.log = [] ∧ u.sv.safeN = true ∧ u.sv.oen = 0))
    ∧ (s.pw.power = .fallow → s.pw.fallowValid = true → Ends (.fallowExit ⟨st, n⟩) s (fun u => u.pw.power = .startUp
        ∧ u.vt.ucodeActive = s.vt.ucodeStored ∧ u.rd Reg.GLB_RSTCAUSE = (if s.vt.ucodeStored = s.vt.ucodeActive then 6 else 5)
        ∧ u.vt.second = s.vt.second + n ∧ u.vt.chain = s.vt.chain))
    ∧ (s.pw.power ≠ .fallow ∨ s.pw.fallowValid = false → Becomes (.fallowExit ⟨st, n⟩) s s)
    ∧ (s.alive = false → Becomes (.powerFail true) s s ∧ Becomes (.powerFail false) s s)
    ∧ (s.pw.power ≠ .fallow → Becomes .vbatLoss s s)
    ∧ (s.idleOpen = false → Becomes .holdEnter s (s.accErr true Reg.GLB_CTL))
    ∧ (s.pw.power ≠ .hold → Becomes .holdExit s s)
    ∧ (s.pw.power = .off → s.vt.ucodeStored = s.vt.ucodeActive → Ends (.powerOn st) s (fun u => u.pw.power = .startUp
        ∧ u.pw.headSel = st.headSel ∧ u.pw.twinPri = st.twinPri ∧ u.pw.hubAddr = st.hubAddr ∧ u.pw.io33 = st.io33
        ∧ u.rd Reg.GLB_RSTCAUSE = 1 ∧ u.rd Reg.VT_SECCFG = s.rd Reg.VT_SECCFG ∧ u.tb.cnt = 0 ∧ u.sv.oen = 0
        ∧ u.sv.safeN = true ∧ u.wakeLow = false ∧ u.fe.trimA = true ∧ u.fe.trimB = true))
    ∧ (s.alive = true → Becomes (.powerOn st) s s ∧ Becomes (.fallowExit ⟨st, n⟩) s s)
    ∧ (s.pw.power = .fallow → s.pw.fallowValid = true → s.vt.ucodeStored = s.vt.ucodeActive → Ends (.fallowExit ⟨st, n⟩) s (fun u =>
        u.pw.power = .startUp ∧ u.vt.second = s.vt.second + n ∧ u.sv.safeN = true ∧ u.wakeLow = false ∧ u.rd Reg.GLB_RSTCAUSE = 6 ∧ u.rd Reg.VT_SEALNO = s.rd Reg.VT_SEALNO
        ∧ u.rd Reg.VT_SEALPOS = s.rd Reg.VT_SEALPOS ∧ u.vt.chain = s.vt.chain ∧ u.vt.log = s.vt.log ∧ u.vt.fallowFirst = true))
    ∧ (s.alive = true → Ends (.powerFail true) s (fun u => u.pw.power = .fallow ∧ u.pw.fallowValid = true ∧ u.sv.oen = 0
        ∧ u.sv.safeN = false ∧ u.aq.tout = 0 ∧ (∀ i, u.trigOutPin i = .highZ) ∧ u.vt.chain = s.vt.chain ∧ u.rd Reg.VT_SEALNO = s.rd Reg.VT_SEALNO
        ∧ u.cal.partly = (s.cal.partly || s.cal.commit.isSome)))
    ∧ (s.alive = true → Ends (.powerFail false) s (fun u => u.pw.power = .off ∧ u.sv.oen = 0 ∧ u.vt.chain = [] ∧ u.vt.log = []))
    ∧ (s.pw.power = .fallow → Ends .vbatLoss s (fun u => u.pw.power = .off ∧ u.vt.chain = [] ∧ u.vt.log = []
        ∧ u.rd Reg.VT_SECCFG = s.rd Reg.VT_SECCFG))
    ∧ (s.idleOpen = true → Becomes .holdEnter s (let u := s.gleanerOff.endUcode; { u with pw := { u.pw with power := .hold } }))
    ∧ (s.inRun = true → Becomes .holdEnter s (s.accErr true Reg.GLB_CTL))
    ∧ (s.pw.power = .hold → Becomes .holdExit s { s with pw := { s.pw with power := .idle } })

/-- Start-up, RESET_N, PERST# and the function-level reset (R465, R468, R469, R472, R483): start-up ends in Idle once the dies are trimmed or have
no link; RESET_N keeps the counter, the trace, the first fault and the ledger, and its release restarts the hub with cause 2;
the function's resets clear the host engine and leave their cause; a member ignores PERST#. -/
def Obligations.Resets : Prop :=
  ∀ (s : State) (w : BitVec 4) (t : PcieTrained),
    let held : State := { s with pw := { s.pw with perst := true } }
    (s.pw.power = .startUp → s.pw.inReset = false → (s.fe.trimA = true → s.dieLink 0 = false) →
      (s.fe.trimB = true → s.dieLink 1 = false) → Ends .startUpComplete s (fun u => u.pw.power = .idle ∧ u.fe.trimA = false
        ∧ u.fe.trimB = false ∧ u.sv.safeN = true ∧ u.sv.pulls = false ∧ u.pw.fallowValid = true))
    ∧ (s.pw.power ≠ .startUp → Becomes .startUpComplete s s)
    ∧ (s.pw.inReset = true ∨ (s.fe.trimA = true ∧ s.dieLink 0 = true) ∨ (s.fe.trimB = true ∧ s.dieLink 1 = true) →
        Becomes .startUpComplete s s)
    ∧ (s.alive = false → Becomes (.resetN false) s s ∧ Becomes (.resetN true) s s ∧ Becomes .perst s s ∧ Becomes .functionLevelReset s s
        ∧ Becomes (.pcieLinkTrained w t) s s)
    ∧ (s.pw.inReset = true → Becomes (.resetN false) s s)
    ∧ (s.pw.inReset = false → Becomes (.resetN true) s s)
    ∧ (s.alive = true → s.pw.inReset = true → Ends (.resetN true) s (fun u => u.pw.power = .startUp ∧ u.pw.inReset = false
        ∧ u.vt.ucodeActive = s.vt.ucodeStored ∧ u.tb.cnt = s.tb.cnt
        ∧ u.rd Reg.GLB_RSTCAUSE = word (s.fr.endReset * 256 + (if s.vt.ucodeStored = s.vt.ucodeActive then 2 else 5))))
    ∧ (s.alive = true → s.pw.headSel = true → s.pw.inReset = true → Becomes .perst s held)
    ∧ (s.pw.headSel = true → s.inIdle = true ∨ s.inRun = true ∨ s.pw.power = .hold → s.pw.inReset = false →
        Becomes .perst s (held.functionReset 3))
    ∧ (s.pw.headSel = true → s.inIdle = true ∨ s.inRun = true ∨ s.pw.power = .hold → s.pw.inReset = false → s.pw.perst = false →
        Becomes .functionLevelReset s (s.functionReset 4))
    ∧ (s.pw.headSel = false ∨ s.pw.inReset = true ∨ s.pw.power = .startUp ∨ s.pw.perst = true → Becomes .functionLevelReset s s)
    ∧ (s.pw.headSel = false ∨ s.pw.inReset = true ∨ s.pw.perst = true → Becomes (.pcieLinkTrained w t) s s)
    ∧ (s.alive = true → s.pw.inReset = false → Ends (.resetN false) s (fun u => u.pw.inReset = true ∧ u.tb.cnt = s.tb.cnt
        ∧ u.ev.trace = s.ev.trace ∧ u.rd Reg.EV_TRCNT = s.rd Reg.EV_TRCNT ∧ (∀ i, i < 8 → u.rd (Reg.EV_FF i) = s.rd (Reg.EV_FF i))
        ∧ u.vt.chain = s.vt.chain ∧ u.hi.furrows = [] ∧ u.sv.oen = 0))
    ∧ (s.alive = true → s.pw.inReset = true → s.vt.ucodeStored = s.vt.ucodeActive → Ends (.resetN true) s (fun u =>
        u.pw.power = .startUp ∧ u.pw.inReset = false ∧ u.sv.safeN = true ∧ u.rd Reg.GLB_RSTCAUSE = word (s.fr.endReset * 256 + 2)))
    ∧ (s.pw.headSel = false → Becomes .perst s s ∧ Becomes .functionLevelReset s s)
    ∧ (s.pw.headSel = true → s.inIdle = true → s.pw.inReset = false → Ends .perst s (fun u => u.hi.furrows = [] ∧ u.pw.perst = true
        ∧ u.inIdle = true ∧ u.rd Reg.GLB_RSTCAUSE = 0x103 ∧ u.pw.d0 = false))
    ∧ (s.pw.headSel = true → s.pw.power = .startUp → s.pw.inReset = false → Ends .perst s (fun u =>
        u.pw.power = .startUp ∧ u.pw.perst = true ∧ u.rd Reg.GLB_RSTCAUSE = 3))
    ∧ (s.pw.headSel = true → s.inIdle = true → s.pw.inReset = false → s.pw.perst = false → Ends .functionLevelReset s (fun u =>
        u.hi.furrows = [] ∧ u.inIdle = true ∧ u.rd Reg.GLB_RSTCAUSE = 0x104 ∧ u.pw.d0 = false))
    ∧ Becomes .perstRelease s { s with pw := { s.pw with perst := false } }
    ∧ (s.pw.headSel = true → s.alive = true → s.pw.inReset = false → s.pw.perst = false → Ends (.pcieLinkTrained w t) s (fun u =>
        u.fget Reg.HI_LINK Fld.HI_LINK_width = w.toNat ∧ u.fget Reg.HI_LINK Fld.HI_LINK_speed = t.speed.toNat
        ∧ ∀ i, i < 4 → ∀ e, t.eyes[i]? = some e → u.rd (Reg.CAL_EYE i) = eyeWord e))

/-! ## The block -/

/-- A step is the command at the front of the queue, run with the rest of the queue; the form in which the queue takes commands
and the tick of an empty one are the model's choice (log 1). -/
def Obligations.StepRunsFrontCommand : Prop :=
  ∀ (s : State) (c : Instr) (rest : List Instr),
    (s.pending = c :: rest → step s = exec c { s with pending := rest })
    ∧ (s.pending = [] → s.alive = true → step s = .next { s with tb := { s.tb with cnt := s.tb.cnt + 1 } })
    ∧ (s.pending = [] → s.alive = false → step s = .next s)

/-- The output enables (R392): every command completes in every state, and leaves its enables gated; every step answers a next state, and where an enable was driven high only under R392's conditions before it,
so it is after it; in safe state and outside Run every enable is low. -/
def Obligations.OutputEnables : Prop :=
  (∀ (c : Instr) (s : State), ∃ t, exec c s = .next t ∧ t.oenOk ∧ (t.sv.safe = true ∨ t.inRun = false → t.sv.oen = 0))
  ∧ ∀ s : State, ∃ t, step s = .next t
    ∧ (s.oenOk → t.oenOk ∧ ((t.sv.safe = true ∨ t.inRun = false ∨ (t.isTwin = true ∧ t.sv.ilkO = false)) → t.sv.oen = 0)
        ∧ (∀ i, i < 4 → t.sv.oen.getLsbD i = true → (t.fget Reg.SV_CTL Fld.SV_CTL_oen_en).testBit i = true))

/-- Reset (R170, R392, R465, R471, R480): power-on reset has just ended, start-up runs, no command waits, the output enables are low,
SAFE_N is pulled, the counter stands at 0, the fault trace is empty and GLB_RSTCAUSE names the power-on; every other register reads
its reset word. -/
def Obligations.ResetState : Prop :=
  State.reset.oenOk ∧ State.reset.regsOk ∧ State.reset.pw.power = .startUp ∧ State.reset.pending = [] ∧ State.reset.sv.oen = 0
    ∧ State.reset.sv.pulls = true ∧ State.reset.tb.cnt = 0 ∧ State.reset.rd Reg.GLB_RSTCAUSE = 1
    ∧ State.reset.hi.furrows = [] ∧ State.reset.ev.queue = [] ∧ State.reset.ev.trace = []
    ∧ (∀ a, a ≠ Reg.GLB_RSTCAUSE → State.reset.rd a = resetWord a)
    ∧ State.reset.m = 160
end

