-- ==== Sys2Proof/Laws/KMap.lean ====
section
/-! SUPPORT. Keyed lists: an entry read after a write or an erasure, and the rising order that both keep. -/

namespace Sys2Proof.Machine

@[simp] theorem kget?_kset_same {α : Type} (m : KMap α) (k : Nat) (v : α) : kget? (kset m k v) k = some v := by
  induction m with
  | nil => simp [kset, kget?]
  | cons e t ih =>
    obtain ⟨k', v'⟩ := e
    simp only [kset]
    split
    · simp [kget?]
    · split
      · simp [kget?]
      · rename_i h
        have h' : ¬ k' = k := fun e => h e.symm
        simp [kget?, h', ih]

theorem kget?_kset_ne {α : Type} (m : KMap α) {k j : Nat} (v : α) (h : j ≠ k) : kget? (kset m k v) j = kget? m j := by
  have hk : ¬ k = j := fun e => h e.symm
  induction m with
  | nil => simp [kset, kget?, hk]
  | cons e t ih =>
    obtain ⟨k', v'⟩ := e
    simp only [kset]
    split
    · simp [kget?, hk]
    · split
      · rename_i hh; subst hh; simp [kget?, hk]
      · simp [kget?, ih]

@[simp] theorem kget?_kerase_same {α : Type} (m : KMap α) (k : Nat) : kget? (kerase m k) k = none := by
  induction m with
  | nil => simp [kerase, kget?]
  | cons e t ih =>
    obtain ⟨k', v'⟩ := e
    simp only [kerase] at ih
    by_cases h : k' = k <;> simp [kerase, kget?, h, ih]

theorem kget?_kerase_ne {α : Type} (m : KMap α) {k j : Nat} (h : j ≠ k) : kget? (kerase m k) j = kget? m j := by
  induction m with
  | nil => simp [kerase, kget?]
  | cons e t ih =>
    obtain ⟨k', v'⟩ := e
    simp only [kerase] at ih
    by_cases h' : k' = k
    · have hj : ¬ k = j := fun e => h e.symm
      subst h'; simp [kerase, kget?, hj, ih]
    · simp [kerase, kget?, h', ih]

/-- Every key of a list lies above a bound. -/
theorem kwf_cons {α : Type} (a : Nat) (v : α) (t : KMap α) :
    kwf ((a, v) :: t) = true ↔ (∀ e ∈ t, a < e.1) ∧ kwf t = true := by
  induction t generalizing a v with
  | nil => simp [kwf]
  | cons e t ih =>
    obtain ⟨b, w⟩ := e
    simp only [kwf, Bool.and_eq_true, decide_eq_true_eq]
    constructor
    · rintro ⟨hab, h⟩
      refine ⟨?_, h⟩
      intro e he
      rcases List.mem_cons.mp he with rfl | he
      · exact hab
      · exact Nat.lt_trans hab (((ih b w).mp h).1 e he)
    · rintro ⟨h, h'⟩
      exact ⟨h (b, w) (by simp), h'⟩

theorem mem_kset {α : Type} (m : KMap α) (k : Nat) (v : α) (e : Nat × α) (h : e ∈ kset m k v) : e = (k, v) ∨ e ∈ m := by
  induction m with
  | nil => simp [kset] at h; exact .inl h
  | cons x t ih =>
    obtain ⟨k', v'⟩ := x
    simp only [kset] at h
    split at h
    · simpa using h
    · split at h
      · rcases List.mem_cons.mp h with h | h
        · exact .inl h
        · exact .inr (by simp [h])
      · rcases List.mem_cons.mp h with h | h
        · exact .inr (by simp [h])
        · rcases ih h with h | h
          · exact .inl h
          · exact .inr (by simp [h])

theorem kwf_kset {α : Type} (m : KMap α) (k : Nat) (v : α) (h : kwf m = true) : kwf (kset m k v) = true := by
  induction m with
  | nil => simp [kset, kwf]
  | cons x t ih =>
    obtain ⟨a, w⟩ := x
    have ⟨hall, ht⟩ := (kwf_cons a w t).mp h
    simp only [kset]
    split
    · rename_i hlt
      refine (kwf_cons _ _ _).mpr ⟨?_, h⟩
      intro e he
      rcases List.mem_cons.mp he with rfl | he
      · exact hlt
      · exact Nat.lt_trans hlt (hall e he)
    · split
      · rename_i heq; subst heq
        exact (kwf_cons _ _ _).mpr ⟨hall, ht⟩
      · rename_i h1 h2
        refine (kwf_cons _ _ _).mpr ⟨?_, ih ht⟩
        intro e he
        rcases mem_kset t k v e he with rfl | he
        · simp only []; omega
        · exact hall e he

theorem kwf_filter {α : Type} (m : KMap α) (p : Nat × α → Bool) (h : kwf m = true) : kwf (m.filter p) = true := by
  induction m with
  | nil => simp [kwf]
  | cons x t ih =>
    obtain ⟨a, w⟩ := x
    have ⟨hall, ht⟩ := (kwf_cons a w t).mp h
    by_cases hp : p (a, w) = true
    · rw [List.filter_cons_of_pos hp]
      exact (kwf_cons _ _ _).mpr ⟨fun e he => hall e (List.mem_filter.mp he).1, ih ht⟩
    · rw [List.filter_cons_of_neg hp]
      exact ih ht

theorem kwf_kerase {α : Type} (m : KMap α) (k : Nat) (h : kwf m = true) : kwf (kerase m k) = true := kwf_filter m _ h

end Sys2Proof.Machine
end

