-- ==== Sys2Proof/Laws/Regs.lean ====
section
/-! SUPPORT. Registers and their fields: a word read after a write, a field read after it is put, and the canonical form
of the register map, which every write keeps. -/

namespace Sys2Proof.Machine

@[simp] theorem regRead_regWrite_same (m : KMap Word) (a : Nat) (w : Word) : regRead (regWrite m a w) a = w := by
  by_cases h : w = resetWord a <;> simp [regRead, regWrite, h]

theorem regRead_regWrite_ne (m : KMap Word) {a b : Nat} (w : Word) (h : b ≠ a) :
    regRead (regWrite m a w) b = regRead m b := by
  by_cases hw : w = resetWord a <;> simp [regRead, regWrite, hw, kget?_kerase_ne m h, kget?_kset_ne m _ h]

@[simp] theorem State.rd_wr_same (s : State) (a : Nat) (w : Word) : (s.wr a w).rd a = w := regRead_regWrite_same _ _ _

theorem State.rd_wr_ne (s : State) {a b : Nat} (w : Word) (h : b ≠ a) : (s.wr a w).rd b = s.rd b :=
  regRead_regWrite_ne _ _ h

theorem State.rd_wr (s : State) (a b : Nat) (w : Word) : (s.wr a w).rd b = if b = a then w else s.rd b := by
  by_cases h : b = a
  · subst h; simp
  · simp [h, State.rd_wr_ne s w h]

/-- Reading depends on the register map alone. -/
theorem State.rd_congr {s t : State} (h : t.regs = s.regs) (a : Nat) : t.rd a = s.rd a := by simp [State.rd, h]

@[simp] theorem join64_parts (w : Word64) : join64 (lo32 w) (hi32 w) = w := by
  apply BitVec.eq_of_getLsbD_eq
  intro i hi
  simp only [join64, lo32, hi32, BitVec.getLsbD_or, BitVec.getLsbD_shiftLeft, BitVec.getLsbD_setWidth,
    BitVec.getLsbD_ushiftRight]
  by_cases h : i < 32
  · simp [h, hi]
  · have : i - 32 < 64 ∧ i - 32 < 32 := by omega
    simp [h, hi, this, show 32 + (i - 32) = i by omega]

@[simp] theorem State.rd64_wr64_same (s : State) (a : Nat) (w : Word64) : (s.wr64 a w).rd64 a = w := by
  simp [State.rd64, State.wr64, State.rd_wr]

theorem State.rd64_wr_ne (s : State) {a b : Nat} (w : Word) (h : b ≠ a) (h' : b + 4 ≠ a) :
    (s.wr a w).rd64 b = s.rd64 b := by
  simp [State.rd64, State.rd_wr_ne s w h, State.rd_wr_ne s w h']

theorem State.rd_wr64_ne (s : State) {a b : Nat} (w : Word64) (h : b ≠ a) (h' : b ≠ a + 4) :
    (s.wr64 a w).rd b = s.rd b := by
  rw [State.wr64, State.rd_wr_ne _ _ h', State.rd_wr_ne _ _ h]

/-! ## The canonical form -/

theorem regsWf_iff (m : KMap Word) :
    regsWf m = true ↔ kwf m = true ∧ ∀ e ∈ m, e.2 ≠ resetWord e.1 := by
  simp [regsWf]

theorem regsWf_kerase (m : KMap Word) (a : Nat) (h : regsWf m = true) : regsWf (kerase m a) = true := by
  have ⟨h1, h2⟩ := (regsWf_iff m).mp h
  exact (regsWf_iff _).mpr ⟨kwf_kerase m a h1, fun e he => h2 e (List.mem_filter.mp he).1⟩

theorem regsWf_kset (m : KMap Word) (a : Nat) (w : Word) (hw : w ≠ resetWord a) (h : regsWf m = true) :
    regsWf (kset m a w) = true := by
  have ⟨h1, h2⟩ := (regsWf_iff m).mp h
  refine (regsWf_iff _).mpr ⟨kwf_kset m a w h1, ?_⟩
  intro e he
  rcases mem_kset m a w e he with rfl | he
  · exact hw
  · exact h2 e he

theorem regsWf_filter (m : KMap Word) (p : Nat × Word → Bool) (h : regsWf m = true) : regsWf (m.filter p) = true := by
  have ⟨h1, h2⟩ := (regsWf_iff m).mp h
  exact (regsWf_iff _).mpr ⟨kwf_filter m p h1, fun e he => h2 e (List.mem_filter.mp he).1⟩

/-! ## Fields -/

theorem BitField.get_testBit (f : BitField) (w : Word) (i : Nat) :
    (BitField.get f w).testBit i = (decide (i < f.hi + 1 - f.lo) && w.getLsbD (f.lo + i)) := by
  simp only [BitField.get, Nat.testBit_mod_two_pow, Nat.testBit_div_two_pow, BitVec.getLsbD, Nat.add_comm i f.lo]

theorem BitField.mask_getLsbD (f : BitField) (hf : f.lo ≤ f.hi) (i : Nat) :
    (BitField.mask f).getLsbD i = (decide (i < 32) && decide (f.lo ≤ i) && decide (i ≤ f.hi)) := by
  simp only [BitField.mask, BitVec.getLsbD_ofNat, Nat.mul_comm _ (2 ^ f.lo), Nat.testBit_two_pow_mul,
    Nat.testBit_two_pow_sub_one]
  by_cases h : f.lo ≤ i
  · have : (i - f.lo < f.hi + 1 - f.lo) ↔ i ≤ f.hi := by omega
    simp [h, this]
  · simp [h]

theorem BitField.put_getLsbD (f : BitField) (hf : f.lo ≤ f.hi) (v : Nat) (w : Word) (i : Nat) :
    (BitField.put f v w).getLsbD i
      = if i < 32 ∧ f.lo ≤ i ∧ i ≤ f.hi then v.testBit (i - f.lo) else w.getLsbD i := by
  simp only [BitField.put, BitVec.getLsbD_or, BitVec.getLsbD_and, BitVec.getLsbD_not, BitField.mask_getLsbD f hf,
    BitVec.getLsbD_ofNat, Nat.mul_comm v (2 ^ f.lo), Nat.testBit_two_pow_mul]
  by_cases h1 : i < 32
  · by_cases h2 : f.lo ≤ i <;> by_cases h3 : i ≤ f.hi <;> simp [h1, h2, h3]
  · simp [h1, BitVec.getLsbD_of_ge w i (by omega)]

theorem BitField.get_put_same (f : BitField) (hf : f.lo ≤ f.hi) (h32 : f.hi < 32) (v : Nat) (w : Word) :
    BitField.get f (BitField.put f v w) = v % 2 ^ (f.hi + 1 - f.lo) := by
  apply Nat.eq_of_testBit_eq
  intro i
  rw [BitField.get_testBit, BitField.put_getLsbD f hf, Nat.testBit_mod_two_pow]
  by_cases h : i < f.hi + 1 - f.lo
  · have h' : f.lo + i < 32 ∧ f.lo ≤ f.lo + i ∧ f.lo + i ≤ f.hi := by omega
    simp [h, h']
  · simp [h]

theorem BitField.get_put_disjoint (f g : BitField) (hf : f.lo ≤ f.hi) (hd : f.hi < g.lo ∨ g.hi < f.lo) (v : Nat) (w : Word) :
    BitField.get g (BitField.put f v w) = BitField.get g w := by
  apply Nat.eq_of_testBit_eq
  intro i
  rw [BitField.get_testBit, BitField.get_testBit, BitField.put_getLsbD f hf]
  by_cases h : i < g.hi + 1 - g.lo
  · have h' : ¬ (g.lo + i < 32 ∧ f.lo ≤ g.lo + i ∧ g.lo + i ≤ f.hi) := by omega
    simp only [h', if_false]
  · simp [h]

theorem State.fget_fput_same (s : State) (a : Nat) (f : BitField) (hf : f.lo ≤ f.hi) (h32 : f.hi < 32) (v : Nat) :
    (s.fput a f v).fget a f = v % 2 ^ (f.hi + 1 - f.lo) := by
  simp [State.fget, State.fput, BitField.get_put_same f hf h32]

theorem State.fget_fput_disjoint (s : State) (a : Nat) (f g : BitField) (hf : f.lo ≤ f.hi)
    (hd : f.hi < g.lo ∨ g.hi < f.lo) (v : Nat) : (s.fput a f v).fget a g = s.fget a g := by
  simp [State.fget, State.fput, BitField.get_put_disjoint f g hf hd]

theorem State.rd_fput_ne (s : State) {a b : Nat} (f : BitField) (v : Nat) (h : b ≠ a) : (s.fput a f v).rd b = s.rd b :=
  State.rd_wr_ne s _ h

theorem State.rd_setFlag_ne (s : State) {a b : Nat} (f : BitField) (v : Bool) (h : b ≠ a) :
    (s.setFlag a f v).rd b = s.rd b := State.rd_wr_ne s _ h

theorem State.fget_fput_ne (s : State) {a b : Nat} (f g : BitField) (v : Nat) (h : b ≠ a) :
    (s.fput a f v).fget b g = s.fget b g := by simp [State.fget, State.rd_fput_ne s f v h]

theorem State.flag_setFlag_same (s : State) (a : Nat) (f : BitField) (hf : f.lo ≤ f.hi) (h32 : f.hi < 32) (b : Bool) :
    (s.setFlag a f b).flag a f = b := by
  have h2 : 1 < 2 ^ (f.hi + 1 - f.lo) := Nat.one_lt_two_pow (by omega)
  cases b
  · simp [State.flag, State.setFlag, State.fget_fput_same s a f hf h32, b2n]
  · simp [State.flag, State.setFlag, State.fget_fput_same s a f hf h32, b2n, Nat.mod_eq_of_lt h2]

theorem State.flag_setFlag_disjoint (s : State) (a : Nat) (f g : BitField) (hf : f.lo ≤ f.hi)
    (hd : f.hi < g.lo ∨ g.hi < f.lo) (b : Bool) : (s.setFlag a f b).flag a g = s.flag a g := by
  simp [State.flag, State.setFlag, State.fget_fput_disjoint s a f g hf hd]

theorem State.flag_setFlag_ne (s : State) {a c : Nat} (f g : BitField) (b : Bool) (h : c ≠ a) :
    (s.setFlag a f b).flag c g = s.flag c g := by
  simp [State.flag, State.fget, State.rd_setFlag_ne s f b h]

end Sys2Proof.Machine
end

