-- ==== Sys2Proof/Laws/State.lean ====
section
/-! SUPPORT. What each update of State leaves alone: one lemma per field, true by unfolding, for the simplifier. -/

namespace Sys2Proof.Machine

@[simp] theorem State.wr_shadow (s : State) (a : Nat) (w : Word) : (s.wr a w).shadow = s.shadow := (rfl)
@[simp] theorem State.wr_staged (s : State) (a : Nat) (w : Word) : (s.wr a w).staged = s.staged := (rfl)
@[simp] theorem State.wr_rdata (s : State) (a : Nat) (w : Word) : (s.wr a w).rdata = s.rdata := (rfl)
@[simp] theorem State.wr_pw (s : State) (a : Nat) (w : Word) : (s.wr a w).pw = s.pw := (rfl)
@[simp] theorem State.wr_tb (s : State) (a : Nat) (w : Word) : (s.wr a w).tb = s.tb := (rfl)
@[simp] theorem State.wr_fr (s : State) (a : Nat) (w : Word) : (s.wr a w).fr = s.fr := (rfl)
@[simp] theorem State.wr_fe (s : State) (a : Nat) (w : Word) : (s.wr a w).fe = s.fe := (rfl)
@[simp] theorem State.wr_gl (s : State) (a : Nat) (w : Word) : (s.wr a w).gl = s.gl := (rfl)
@[simp] theorem State.wr_cal (s : State) (a : Nat) (w : Word) : (s.wr a w).cal = s.cal := (rfl)
@[simp] theorem State.wr_aq (s : State) (a : Nat) (w : Word) : (s.wr a w).aq = s.aq := (rfl)
@[simp] theorem State.wr_ce (s : State) (a : Nat) (w : Word) : (s.wr a w).ce = s.ce := (rfl)
@[simp] theorem State.wr_hi (s : State) (a : Nat) (w : Word) : (s.wr a w).hi = s.hi := (rfl)
@[simp] theorem State.wr_ln (s : State) (a : Nat) (w : Word) : (s.wr a w).ln = s.ln := (rfl)
@[simp] theorem State.wr_bl (s : State) (a : Nat) (w : Word) : (s.wr a w).bl = s.bl := (rfl)
@[simp] theorem State.wr_vt (s : State) (a : Nat) (w : Word) : (s.wr a w).vt = s.vt := (rfl)
@[simp] theorem State.wr_sv (s : State) (a : Nat) (w : Word) : (s.wr a w).sv = s.sv := (rfl)
@[simp] theorem State.wr_bc (s : State) (a : Nat) (w : Word) : (s.wr a w).bc = s.bc := (rfl)
@[simp] theorem State.wr_sp (s : State) (a : Nat) (w : Word) : (s.wr a w).sp = s.sp := (rfl)
@[simp] theorem State.wr_ev (s : State) (a : Nat) (w : Word) : (s.wr a w).ev = s.ev := (rfl)
@[simp] theorem State.wr_out (s : State) (a : Nat) (w : Word) : (s.wr a w).out = s.out := (rfl)
@[simp] theorem State.wr_freeCtr (s : State) (a : Nat) (w : Word) : (s.wr a w).freeCtr = s.freeCtr := (rfl)
@[simp] theorem State.wr_pending (s : State) (a : Nat) (w : Word) : (s.wr a w).pending = s.pending := (rfl)

@[simp] theorem State.fput_shadow (s : State) (a : Nat) (f : BitField) (v : Nat) : (s.fput a f v).shadow = s.shadow := (rfl)
@[simp] theorem State.fput_staged (s : State) (a : Nat) (f : BitField) (v : Nat) : (s.fput a f v).staged = s.staged := (rfl)
@[simp] theorem State.fput_rdata (s : State) (a : Nat) (f : BitField) (v : Nat) : (s.fput a f v).rdata = s.rdata := (rfl)
@[simp] theorem State.fput_pw (s : State) (a : Nat) (f : BitField) (v : Nat) : (s.fput a f v).pw = s.pw := (rfl)
@[simp] theorem State.fput_tb (s : State) (a : Nat) (f : BitField) (v : Nat) : (s.fput a f v).tb = s.tb := (rfl)
@[simp] theorem State.fput_fr (s : State) (a : Nat) (f : BitField) (v : Nat) : (s.fput a f v).fr = s.fr := (rfl)
@[simp] theorem State.fput_fe (s : State) (a : Nat) (f : BitField) (v : Nat) : (s.fput a f v).fe = s.fe := (rfl)
@[simp] theorem State.fput_gl (s : State) (a : Nat) (f : BitField) (v : Nat) : (s.fput a f v).gl = s.gl := (rfl)
@[simp] theorem State.fput_cal (s : State) (a : Nat) (f : BitField) (v : Nat) : (s.fput a f v).cal = s.cal := (rfl)
@[simp] theorem State.fput_aq (s : State) (a : Nat) (f : BitField) (v : Nat) : (s.fput a f v).aq = s.aq := (rfl)
@[simp] theorem State.fput_ce (s : State) (a : Nat) (f : BitField) (v : Nat) : (s.fput a f v).ce = s.ce := (rfl)
@[simp] theorem State.fput_hi (s : State) (a : Nat) (f : BitField) (v : Nat) : (s.fput a f v).hi = s.hi := (rfl)
@[simp] theorem State.fput_ln (s : State) (a : Nat) (f : BitField) (v : Nat) : (s.fput a f v).ln = s.ln := (rfl)
@[simp] theorem State.fput_bl (s : State) (a : Nat) (f : BitField) (v : Nat) : (s.fput a f v).bl = s.bl := (rfl)
@[simp] theorem State.fput_vt (s : State) (a : Nat) (f : BitField) (v : Nat) : (s.fput a f v).vt = s.vt := (rfl)
@[simp] theorem State.fput_sv (s : State) (a : Nat) (f : BitField) (v : Nat) : (s.fput a f v).sv = s.sv := (rfl)
@[simp] theorem State.fput_bc (s : State) (a : Nat) (f : BitField) (v : Nat) : (s.fput a f v).bc = s.bc := (rfl)
@[simp] theorem State.fput_sp (s : State) (a : Nat) (f : BitField) (v : Nat) : (s.fput a f v).sp = s.sp := (rfl)
@[simp] theorem State.fput_ev (s : State) (a : Nat) (f : BitField) (v : Nat) : (s.fput a f v).ev = s.ev := (rfl)
@[simp] theorem State.fput_out (s : State) (a : Nat) (f : BitField) (v : Nat) : (s.fput a f v).out = s.out := (rfl)
@[simp] theorem State.fput_freeCtr (s : State) (a : Nat) (f : BitField) (v : Nat) : (s.fput a f v).freeCtr = s.freeCtr := (rfl)
@[simp] theorem State.fput_pending (s : State) (a : Nat) (f : BitField) (v : Nat) : (s.fput a f v).pending = s.pending := (rfl)

@[simp] theorem State.setFlag_shadow (s : State) (a : Nat) (f : BitField) (b : Bool) : (s.setFlag a f b).shadow = s.shadow := (rfl)
@[simp] theorem State.setFlag_staged (s : State) (a : Nat) (f : BitField) (b : Bool) : (s.setFlag a f b).staged = s.staged := (rfl)
@[simp] theorem State.setFlag_rdata (s : State) (a : Nat) (f : BitField) (b : Bool) : (s.setFlag a f b).rdata = s.rdata := (rfl)
@[simp] theorem State.setFlag_pw (s : State) (a : Nat) (f : BitField) (b : Bool) : (s.setFlag a f b).pw = s.pw := (rfl)
@[simp] theorem State.setFlag_tb (s : State) (a : Nat) (f : BitField) (b : Bool) : (s.setFlag a f b).tb = s.tb := (rfl)
@[simp] theorem State.setFlag_fr (s : State) (a : Nat) (f : BitField) (b : Bool) : (s.setFlag a f b).fr = s.fr := (rfl)
@[simp] theorem State.setFlag_fe (s : State) (a : Nat) (f : BitField) (b : Bool) : (s.setFlag a f b).fe = s.fe := (rfl)
@[simp] theorem State.setFlag_gl (s : State) (a : Nat) (f : BitField) (b : Bool) : (s.setFlag a f b).gl = s.gl := (rfl)
@[simp] theorem State.setFlag_cal (s : State) (a : Nat) (f : BitField) (b : Bool) : (s.setFlag a f b).cal = s.cal := (rfl)
@[simp] theorem State.setFlag_aq (s : State) (a : Nat) (f : BitField) (b : Bool) : (s.setFlag a f b).aq = s.aq := (rfl)
@[simp] theorem State.setFlag_ce (s : State) (a : Nat) (f : BitField) (b : Bool) : (s.setFlag a f b).ce = s.ce := (rfl)
@[simp] theorem State.setFlag_hi (s : State) (a : Nat) (f : BitField) (b : Bool) : (s.setFlag a f b).hi = s.hi := (rfl)
@[simp] theorem State.setFlag_ln (s : State) (a : Nat) (f : BitField) (b : Bool) : (s.setFlag a f b).ln = s.ln := (rfl)
@[simp] theorem State.setFlag_bl (s : State) (a : Nat) (f : BitField) (b : Bool) : (s.setFlag a f b).bl = s.bl := (rfl)
@[simp] theorem State.setFlag_vt (s : State) (a : Nat) (f : BitField) (b : Bool) : (s.setFlag a f b).vt = s.vt := (rfl)
@[simp] theorem State.setFlag_sv (s : State) (a : Nat) (f : BitField) (b : Bool) : (s.setFlag a f b).sv = s.sv := (rfl)
@[simp] theorem State.setFlag_bc (s : State) (a : Nat) (f : BitField) (b : Bool) : (s.setFlag a f b).bc = s.bc := (rfl)
@[simp] theorem State.setFlag_sp (s : State) (a : Nat) (f : BitField) (b : Bool) : (s.setFlag a f b).sp = s.sp := (rfl)
@[simp] theorem State.setFlag_ev (s : State) (a : Nat) (f : BitField) (b : Bool) : (s.setFlag a f b).ev = s.ev := (rfl)
@[simp] theorem State.setFlag_out (s : State) (a : Nat) (f : BitField) (b : Bool) : (s.setFlag a f b).out = s.out := (rfl)
@[simp] theorem State.setFlag_freeCtr (s : State) (a : Nat) (f : BitField) (b : Bool) : (s.setFlag a f b).freeCtr = s.freeCtr := (rfl)
@[simp] theorem State.setFlag_pending (s : State) (a : Nat) (f : BitField) (b : Bool) : (s.setFlag a f b).pending = s.pending := (rfl)

@[simp] theorem State.wr64_shadow (s : State) (a : Nat) (w : Word64) : (s.wr64 a w).shadow = s.shadow := (rfl)
@[simp] theorem State.wr64_staged (s : State) (a : Nat) (w : Word64) : (s.wr64 a w).staged = s.staged := (rfl)
@[simp] theorem State.wr64_rdata (s : State) (a : Nat) (w : Word64) : (s.wr64 a w).rdata = s.rdata := (rfl)
@[simp] theorem State.wr64_pw (s : State) (a : Nat) (w : Word64) : (s.wr64 a w).pw = s.pw := (rfl)
@[simp] theorem State.wr64_tb (s : State) (a : Nat) (w : Word64) : (s.wr64 a w).tb = s.tb := (rfl)
@[simp] theorem State.wr64_fr (s : State) (a : Nat) (w : Word64) : (s.wr64 a w).fr = s.fr := (rfl)
@[simp] theorem State.wr64_fe (s : State) (a : Nat) (w : Word64) : (s.wr64 a w).fe = s.fe := (rfl)
@[simp] theorem State.wr64_gl (s : State) (a : Nat) (w : Word64) : (s.wr64 a w).gl = s.gl := (rfl)
@[simp] theorem State.wr64_cal (s : State) (a : Nat) (w : Word64) : (s.wr64 a w).cal = s.cal := (rfl)
@[simp] theorem State.wr64_aq (s : State) (a : Nat) (w : Word64) : (s.wr64 a w).aq = s.aq := (rfl)
@[simp] theorem State.wr64_ce (s : State) (a : Nat) (w : Word64) : (s.wr64 a w).ce = s.ce := (rfl)
@[simp] theorem State.wr64_hi (s : State) (a : Nat) (w : Word64) : (s.wr64 a w).hi = s.hi := (rfl)
@[simp] theorem State.wr64_ln (s : State) (a : Nat) (w : Word64) : (s.wr64 a w).ln = s.ln := (rfl)
@[simp] theorem State.wr64_bl (s : State) (a : Nat) (w : Word64) : (s.wr64 a w).bl = s.bl := (rfl)
@[simp] theorem State.wr64_vt (s : State) (a : Nat) (w : Word64) : (s.wr64 a w).vt = s.vt := (rfl)
@[simp] theorem State.wr64_sv (s : State) (a : Nat) (w : Word64) : (s.wr64 a w).sv = s.sv := (rfl)
@[simp] theorem State.wr64_bc (s : State) (a : Nat) (w : Word64) : (s.wr64 a w).bc = s.bc := (rfl)
@[simp] theorem State.wr64_sp (s : State) (a : Nat) (w : Word64) : (s.wr64 a w).sp = s.sp := (rfl)
@[simp] theorem State.wr64_ev (s : State) (a : Nat) (w : Word64) : (s.wr64 a w).ev = s.ev := (rfl)
@[simp] theorem State.wr64_out (s : State) (a : Nat) (w : Word64) : (s.wr64 a w).out = s.out := (rfl)
@[simp] theorem State.wr64_freeCtr (s : State) (a : Nat) (w : Word64) : (s.wr64 a w).freeCtr = s.freeCtr := (rfl)
@[simp] theorem State.wr64_pending (s : State) (a : Nat) (w : Word64) : (s.wr64 a w).pending = s.pending := (rfl)

@[simp] theorem State.incSat_shadow (s : State) (a n : Nat) : (s.incSat a n).shadow = s.shadow := (rfl)
@[simp] theorem State.incSat_staged (s : State) (a n : Nat) : (s.incSat a n).staged = s.staged := (rfl)
@[simp] theorem State.incSat_rdata (s : State) (a n : Nat) : (s.incSat a n).rdata = s.rdata := (rfl)
@[simp] theorem State.incSat_pw (s : State) (a n : Nat) : (s.incSat a n).pw = s.pw := (rfl)
@[simp] theorem State.incSat_tb (s : State) (a n : Nat) : (s.incSat a n).tb = s.tb := (rfl)
@[simp] theorem State.incSat_fr (s : State) (a n : Nat) : (s.incSat a n).fr = s.fr := (rfl)
@[simp] theorem State.incSat_fe (s : State) (a n : Nat) : (s.incSat a n).fe = s.fe := (rfl)
@[simp] theorem State.incSat_gl (s : State) (a n : Nat) : (s.incSat a n).gl = s.gl := (rfl)
@[simp] theorem State.incSat_cal (s : State) (a n : Nat) : (s.incSat a n).cal = s.cal := (rfl)
@[simp] theorem State.incSat_aq (s : State) (a n : Nat) : (s.incSat a n).aq = s.aq := (rfl)
@[simp] theorem State.incSat_ce (s : State) (a n : Nat) : (s.incSat a n).ce = s.ce := (rfl)
@[simp] theorem State.incSat_hi (s : State) (a n : Nat) : (s.incSat a n).hi = s.hi := (rfl)
@[simp] theorem State.incSat_ln (s : State) (a n : Nat) : (s.incSat a n).ln = s.ln := (rfl)
@[simp] theorem State.incSat_bl (s : State) (a n : Nat) : (s.incSat a n).bl = s.bl := (rfl)
@[simp] theorem State.incSat_vt (s : State) (a n : Nat) : (s.incSat a n).vt = s.vt := (rfl)
@[simp] theorem State.incSat_sv (s : State) (a n : Nat) : (s.incSat a n).sv = s.sv := (rfl)
@[simp] theorem State.incSat_bc (s : State) (a n : Nat) : (s.incSat a n).bc = s.bc := (rfl)
@[simp] theorem State.incSat_sp (s : State) (a n : Nat) : (s.incSat a n).sp = s.sp := (rfl)
@[simp] theorem State.incSat_ev (s : State) (a n : Nat) : (s.incSat a n).ev = s.ev := (rfl)
@[simp] theorem State.incSat_out (s : State) (a n : Nat) : (s.incSat a n).out = s.out := (rfl)
@[simp] theorem State.incSat_freeCtr (s : State) (a n : Nat) : (s.incSat a n).freeCtr = s.freeCtr := (rfl)
@[simp] theorem State.incSat_pending (s : State) (a n : Nat) : (s.incSat a n).pending = s.pending := (rfl)

@[simp] theorem State.emit_regs (s : State) (o : Output) : (s.emit o).regs = s.regs := (rfl)
@[simp] theorem State.emit_shadow (s : State) (o : Output) : (s.emit o).shadow = s.shadow := (rfl)
@[simp] theorem State.emit_staged (s : State) (o : Output) : (s.emit o).staged = s.staged := (rfl)
@[simp] theorem State.emit_rdata (s : State) (o : Output) : (s.emit o).rdata = s.rdata := (rfl)
@[simp] theorem State.emit_pw (s : State) (o : Output) : (s.emit o).pw = s.pw := (rfl)
@[simp] theorem State.emit_tb (s : State) (o : Output) : (s.emit o).tb = s.tb := (rfl)
@[simp] theorem State.emit_fr (s : State) (o : Output) : (s.emit o).fr = s.fr := (rfl)
@[simp] theorem State.emit_fe (s : State) (o : Output) : (s.emit o).fe = s.fe := (rfl)
@[simp] theorem State.emit_gl (s : State) (o : Output) : (s.emit o).gl = s.gl := (rfl)
@[simp] theorem State.emit_cal (s : State) (o : Output) : (s.emit o).cal = s.cal := (rfl)
@[simp] theorem State.emit_aq (s : State) (o : Output) : (s.emit o).aq = s.aq := (rfl)
@[simp] theorem State.emit_ce (s : State) (o : Output) : (s.emit o).ce = s.ce := (rfl)
@[simp] theorem State.emit_hi (s : State) (o : Output) : (s.emit o).hi = s.hi := (rfl)
@[simp] theorem State.emit_ln (s : State) (o : Output) : (s.emit o).ln = s.ln := (rfl)
@[simp] theorem State.emit_bl (s : State) (o : Output) : (s.emit o).bl = s.bl := (rfl)
@[simp] theorem State.emit_vt (s : State) (o : Output) : (s.emit o).vt = s.vt := (rfl)
@[simp] theorem State.emit_sv (s : State) (o : Output) : (s.emit o).sv = s.sv := (rfl)
@[simp] theorem State.emit_bc (s : State) (o : Output) : (s.emit o).bc = s.bc := (rfl)
@[simp] theorem State.emit_sp (s : State) (o : Output) : (s.emit o).sp = s.sp := (rfl)
@[simp] theorem State.emit_ev (s : State) (o : Output) : (s.emit o).ev = s.ev := (rfl)
@[simp] theorem State.emit_freeCtr (s : State) (o : Output) : (s.emit o).freeCtr = s.freeCtr := (rfl)
@[simp] theorem State.emit_pending (s : State) (o : Output) : (s.emit o).pending = s.pending := (rfl)

@[simp] theorem State.setRole_shadow (s : State) (r : Nat) : (s.setRole r).shadow = s.shadow := (rfl)
@[simp] theorem State.setRole_staged (s : State) (r : Nat) : (s.setRole r).staged = s.staged := (rfl)
@[simp] theorem State.setRole_rdata (s : State) (r : Nat) : (s.setRole r).rdata = s.rdata := (rfl)
@[simp] theorem State.setRole_pw (s : State) (r : Nat) : (s.setRole r).pw = s.pw := (rfl)
@[simp] theorem State.setRole_tb (s : State) (r : Nat) : (s.setRole r).tb = s.tb := (rfl)
@[simp] theorem State.setRole_fr (s : State) (r : Nat) : (s.setRole r).fr = s.fr := (rfl)
@[simp] theorem State.setRole_fe (s : State) (r : Nat) : (s.setRole r).fe = s.fe := (rfl)
@[simp] theorem State.setRole_gl (s : State) (r : Nat) : (s.setRole r).gl = s.gl := (rfl)
@[simp] theorem State.setRole_cal (s : State) (r : Nat) : (s.setRole r).cal = s.cal := (rfl)
@[simp] theorem State.setRole_aq (s : State) (r : Nat) : (s.setRole r).aq = s.aq := (rfl)
@[simp] theorem State.setRole_ce (s : State) (r : Nat) : (s.setRole r).ce = s.ce := (rfl)
@[simp] theorem State.setRole_hi (s : State) (r : Nat) : (s.setRole r).hi = s.hi := (rfl)
@[simp] theorem State.setRole_ln (s : State) (r : Nat) : (s.setRole r).ln = s.ln := (rfl)
@[simp] theorem State.setRole_bl (s : State) (r : Nat) : (s.setRole r).bl = s.bl := (rfl)
@[simp] theorem State.setRole_vt (s : State) (r : Nat) : (s.setRole r).vt = s.vt := (rfl)
@[simp] theorem State.setRole_sv (s : State) (r : Nat) : (s.setRole r).sv = s.sv := (rfl)
@[simp] theorem State.setRole_bc (s : State) (r : Nat) : (s.setRole r).bc = s.bc := (rfl)
@[simp] theorem State.setRole_sp (s : State) (r : Nat) : (s.setRole r).sp = s.sp := (rfl)
@[simp] theorem State.setRole_ev (s : State) (r : Nat) : (s.setRole r).ev = s.ev := (rfl)
@[simp] theorem State.setRole_out (s : State) (r : Nat) : (s.setRole r).out = s.out := (rfl)
@[simp] theorem State.setRole_freeCtr (s : State) (r : Nat) : (s.setRole r).freeCtr = s.freeCtr := (rfl)
@[simp] theorem State.setRole_pending (s : State) (r : Nat) : (s.setRole r).pending = s.pending := (rfl)

@[simp] theorem State.pullSafeN_regs (s : State) (b : Bool) : (s.pullSafeN b).regs = s.regs := (rfl)
@[simp] theorem State.pullSafeN_shadow (s : State) (b : Bool) : (s.pullSafeN b).shadow = s.shadow := (rfl)
@[simp] theorem State.pullSafeN_staged (s : State) (b : Bool) : (s.pullSafeN b).staged = s.staged := (rfl)
@[simp] theorem State.pullSafeN_rdata (s : State) (b : Bool) : (s.pullSafeN b).rdata = s.rdata := (rfl)
@[simp] theorem State.pullSafeN_pw (s : State) (b : Bool) : (s.pullSafeN b).pw = s.pw := (rfl)
@[simp] theorem State.pullSafeN_tb (s : State) (b : Bool) : (s.pullSafeN b).tb = s.tb := (rfl)
@[simp] theorem State.pullSafeN_fr (s : State) (b : Bool) : (s.pullSafeN b).fr = s.fr := (rfl)
@[simp] theorem State.pullSafeN_fe (s : State) (b : Bool) : (s.pullSafeN b).fe = s.fe := (rfl)
@[simp] theorem State.pullSafeN_gl (s : State) (b : Bool) : (s.pullSafeN b).gl = s.gl := (rfl)
@[simp] theorem State.pullSafeN_cal (s : State) (b : Bool) : (s.pullSafeN b).cal = s.cal := (rfl)
@[simp] theorem State.pullSafeN_aq (s : State) (b : Bool) : (s.pullSafeN b).aq = s.aq := (rfl)
@[simp] theorem State.pullSafeN_ce (s : State) (b : Bool) : (s.pullSafeN b).ce = s.ce := (rfl)
@[simp] theorem State.pullSafeN_hi (s : State) (b : Bool) : (s.pullSafeN b).hi = s.hi := (rfl)
@[simp] theorem State.pullSafeN_ln (s : State) (b : Bool) : (s.pullSafeN b).ln = s.ln := (rfl)
@[simp] theorem State.pullSafeN_bl (s : State) (b : Bool) : (s.pullSafeN b).bl = s.bl := (rfl)
@[simp] theorem State.pullSafeN_vt (s : State) (b : Bool) : (s.pullSafeN b).vt = s.vt := (rfl)
@[simp] theorem State.pullSafeN_bc (s : State) (b : Bool) : (s.pullSafeN b).bc = s.bc := (rfl)
@[simp] theorem State.pullSafeN_sp (s : State) (b : Bool) : (s.pullSafeN b).sp = s.sp := (rfl)
@[simp] theorem State.pullSafeN_ev (s : State) (b : Bool) : (s.pullSafeN b).ev = s.ev := (rfl)
@[simp] theorem State.pullSafeN_out (s : State) (b : Bool) : (s.pullSafeN b).out = s.out := (rfl)
@[simp] theorem State.pullSafeN_freeCtr (s : State) (b : Bool) : (s.pullSafeN b).freeCtr = s.freeCtr := (rfl)
@[simp] theorem State.pullSafeN_pending (s : State) (b : Bool) : (s.pullSafeN b).pending = s.pending := (rfl)

@[simp] theorem supervise_regs (s : State) : (supervise s).regs = s.regs := (rfl)
@[simp] theorem supervise_shadow (s : State) : (supervise s).shadow = s.shadow := (rfl)
@[simp] theorem supervise_staged (s : State) : (supervise s).staged = s.staged := (rfl)
@[simp] theorem supervise_rdata (s : State) : (supervise s).rdata = s.rdata := (rfl)
@[simp] theorem supervise_pw (s : State) : (supervise s).pw = s.pw := (rfl)
@[simp] theorem supervise_tb (s : State) : (supervise s).tb = s.tb := (rfl)
@[simp] theorem supervise_fr (s : State) : (supervise s).fr = s.fr := (rfl)
@[simp] theorem supervise_fe (s : State) : (supervise s).fe = s.fe := (rfl)
@[simp] theorem supervise_gl (s : State) : (supervise s).gl = s.gl := (rfl)
@[simp] theorem supervise_cal (s : State) : (supervise s).cal = s.cal := (rfl)
@[simp] theorem supervise_aq (s : State) : (supervise s).aq = s.aq := (rfl)
@[simp] theorem supervise_ce (s : State) : (supervise s).ce = s.ce := (rfl)
@[simp] theorem supervise_hi (s : State) : (supervise s).hi = s.hi := (rfl)
@[simp] theorem supervise_ln (s : State) : (supervise s).ln = s.ln := (rfl)
@[simp] theorem supervise_bl (s : State) : (supervise s).bl = s.bl := (rfl)
@[simp] theorem supervise_vt (s : State) : (supervise s).vt = s.vt := (rfl)
@[simp] theorem supervise_bc (s : State) : (supervise s).bc = s.bc := (rfl)
@[simp] theorem supervise_sp (s : State) : (supervise s).sp = s.sp := (rfl)
@[simp] theorem supervise_ev (s : State) : (supervise s).ev = s.ev := (rfl)
@[simp] theorem supervise_out (s : State) : (supervise s).out = s.out := (rfl)
@[simp] theorem supervise_freeCtr (s : State) : (supervise s).freeCtr = s.freeCtr := (rfl)
@[simp] theorem supervise_pending (s : State) : (supervise s).pending = s.pending := (rfl)
@[simp] theorem supervise_rd (s : State) (a : Nat) : (supervise s).rd a = s.rd a := (rfl)
@[simp] theorem supervise_fget (s : State) (a : Nat) (f : BitField) : (supervise s).fget a f = s.fget a f := (rfl)
@[simp] theorem supervise_flag (s : State) (a : Nat) (f : BitField) : (supervise s).flag a f = s.flag a f := (rfl)
@[simp] theorem supervise_sv_safe (s : State) : (supervise s).sv.safe = s.sv.safe := (rfl)
@[simp] theorem supervise_sv_pulls (s : State) : (supervise s).sv.pulls = s.sv.pulls := (rfl)
@[simp] theorem supervise_sv_safeN (s : State) : (supervise s).sv.safeN = s.sv.safeN := (rfl)
@[simp] theorem supervise_sv_pump (s : State) : (supervise s).sv.pump = s.sv.pump := (rfl)
@[simp] theorem supervise_sv_ilkO (s : State) : (supervise s).sv.ilkO = s.sv.ilkO := (rfl)
@[simp] theorem supervise_sv_ilkI (s : State) : (supervise s).sv.ilkI = s.sv.ilkI := (rfl)
@[simp] theorem supervise_sv_releasePend (s : State) : (supervise s).sv.releasePend = s.sv.releasePend := (rfl)
@[simp] theorem supervise_sv_checkDue (s : State) : (supervise s).sv.checkDue = s.sv.checkDue := (rfl)
@[simp] theorem supervise_sv_raiseDue (s : State) : (supervise s).sv.raiseDue = s.sv.raiseDue := (rfl)
@[simp] theorem supervise_sv_ptest (s : State) : (supervise s).sv.ptest = s.sv.ptest := (rfl)
@[simp] theorem supervise_sv_twin (s : State) : (supervise s).sv.twin = s.sv.twin := (rfl)
@[simp] theorem supervise_oenAllowed (s : State) : (supervise s).oenAllowed = s.oenAllowed := (rfl)
@[simp] theorem supervise_oen (s : State) : (supervise s).sv.oen = s.sv.oen &&& s.oenAllowed := (rfl)
@[simp] theorem emit_rd (s : State) (o : Output) (a : Nat) : (s.emit o).rd a = s.rd a := (rfl)
@[simp] theorem emit_out (s : State) (o : Output) : (s.emit o).out = o :: s.out := (rfl)

/-- The gate of R392 is kept by what every command ends with. -/
theorem supervise_gated (s : State) : (supervise s).sv.oen &&& (supervise s).oenAllowed = (supervise s).sv.oen := by
  simp [BitVec.and_assoc]

theorem supervise_idem (s : State) : supervise (supervise s) = supervise s := by
  simp [supervise, State.oenAllowed, State.inRun, State.isTwin, State.flag, State.fget, State.rd, BitVec.and_assoc]

/-- Whatever a command does, it ends in a next state. -/
theorem fin_next (s : State) : fin s = .next (supervise s) := (rfl)

theorem State.wr_wf (s : State) (a : Nat) (w : Word) (h : regsWf s.regs = true) : regsWf (s.wr a w).regs = true := by
  show regsWf (regWrite s.regs a w) = true
  unfold regWrite
  split
  · exact regsWf_kerase _ _ h
  · rename_i hw; exact regsWf_kset _ _ _ hw h

end Sys2Proof.Machine
end

