-- ==== Sys2Proof/Laws/Events.lean ====
section
/-! SUPPORT. What raising an event can do, said once: every operation below it changes only what `EventOnly` allows, and
`raiseF` raises. -/

namespace Sys2Proof.Machine

theorem EventOnly.refl (s : State) : EventOnly s s := by constructor <;> intros <;> rfl

theorem EventOnly.trans {s t u : State} (h : EventOnly s t) (k : EventOnly t u) : EventOnly s u where
  shadow := k.shadow.trans h.shadow
  staged := k.staged.trans h.staged
  rdata := k.rdata.trans h.rdata
  pw := k.pw.trans h.pw
  tb := k.tb.trans h.tb
  fr := k.fr.trans h.fr
  fe := k.fe.trans h.fe
  gl := k.gl.trans h.gl
  cal := k.cal.trans h.cal
  aq := k.aq.trans h.aq
  ce := k.ce.trans h.ce
  bl := k.bl.trans h.bl
  vt := k.vt.trans h.vt
  sv := k.sv.trans h.sv
  bc := k.bc.trans h.bc
  sp := k.sp.trans h.sp
  pending := k.pending.trans h.pending
  hi := by rw [k.hi, h.hi]
  ln := fun e => (k.ln (by rw [h.pw]; exact e)).trans (h.ln e)
  rd := fun a ha => (k.rd a ha).trans (h.rd a ha)

theorem EventOnly.foldl {α : Type} (f : State → α → State) (hf : ∀ s x, EventOnly s (f s x)) (l : List α) (s : State) :
    EventOnly s (l.foldl f s) := by
  induction l generalizing s with
  | nil => exact EventOnly.refl s
  | cons x t ih => exact (hf s x).trans (ih _)

theorem EventOnly.emit (s : State) (o : Output) : EventOnly s (s.emit o) := by constructor <;> intros <;> rfl

theorem EventOnly.wr (s : State) (a : Nat) (w : Word) (h : eventReg a = true) : EventOnly s (s.wr a w) := by
  constructor <;> first | (intros; rfl) | skip
  intro b hb
  exact State.rd_wr_ne s w (by rintro rfl; simp [h] at hb)

theorem EventOnly.setFlag (s : State) (a : Nat) (f : BitField) (b : Bool) (h : eventReg a = true) :
    EventOnly s (s.setFlag a f b) := EventOnly.wr s a _ h

theorem EventOnly.evSet (s : State) (x : EvSt) : EventOnly s { s with ev := x } := by constructor <;> intros <;> rfl
theorem EventOnly.freeSet (s : State) (n : Nat) : EventOnly s { s with freeCtr := n } := by constructor <;> intros <;> rfl
theorem EventOnly.furrowsSet (s : State) (x : KMap Furrow) : EventOnly s { s with hi := { s.hi with furrows := x } } := by
  constructor <;> intros <;> rfl
theorem EventOnly.pbaSet (s : State) (x : Word64) : EventOnly s { s with hi := { s.hi with pba := x } } := by
  constructor <;> intros <;> rfl

/-! ## Cells on their way to the head: only the lanes, what goes out and the free values change -/

/-- Only the lanes, what goes out and the count of free values changed. -/
structure LinkOnly (s t : State) : Prop where
  regs : t.regs = s.regs
  shadow : t.shadow = s.shadow
  staged : t.staged = s.staged
  rdata : t.rdata = s.rdata
  pw : t.pw = s.pw
  tb : t.tb = s.tb
  fr : t.fr = s.fr
  fe : t.fe = s.fe
  gl : t.gl = s.gl
  cal : t.cal = s.cal
  aq : t.aq = s.aq
  ce : t.ce = s.ce
  hi : t.hi = s.hi
  bl : t.bl = s.bl
  vt : t.vt = s.vt
  sv : t.sv = s.sv
  bc : t.bc = s.bc
  sp : t.sp = s.sp
  ev : t.ev = s.ev
  pending : t.pending = s.pending

theorem LinkOnly.refl (s : State) : LinkOnly s s := by constructor <;> rfl

theorem LinkOnly.trans {s t u : State} (h : LinkOnly s t) (k : LinkOnly t u) : LinkOnly s u := by
  constructor <;> first
    | exact k.regs.trans h.regs | exact k.shadow.trans h.shadow | exact k.staged.trans h.staged
    | exact k.rdata.trans h.rdata | exact k.pw.trans h.pw | exact k.tb.trans h.tb | exact k.fr.trans h.fr
    | exact k.fe.trans h.fe | exact k.gl.trans h.gl | exact k.cal.trans h.cal | exact k.aq.trans h.aq
    | exact k.ce.trans h.ce | exact k.hi.trans h.hi | exact k.bl.trans h.bl | exact k.vt.trans h.vt
    | exact k.sv.trans h.sv | exact k.bc.trans h.bc | exact k.sp.trans h.sp | exact k.ev.trans h.ev
    | exact k.pending.trans h.pending

theorem LinkOnly.foldl {α : Type} (f : State → α → State) (hf : ∀ s x, LinkOnly s (f s x)) (l : List α) (s : State) :
    LinkOnly s (l.foldl f s) := by
  induction l generalizing s with
  | nil => exact LinkOnly.refl s
  | cons x t ih => exact (hf s x).trans (ih _)

theorem LinkOnly.emit (s : State) (o : Output) : LinkOnly s (s.emit o) := by constructor <;> rfl
theorem LinkOnly.lnSet (s : State) (x : LnSt) : LinkOnly s { s with ln := x } := by constructor <;> rfl
theorem LinkOnly.setPort (s : State) (p : Nat) (x : PortSt) : LinkOnly s (s.setPort p x) := by constructor <;> rfl

theorem LinkOnly.draw64 (s : State) : LinkOnly s s.draw64.2 := by constructor <;> rfl
theorem LinkOnly.drawLane (s : State) (p i : Nat) : LinkOnly s (s.drawLane p i) := by constructor <;> rfl

theorem LinkOnly.nextSlot (s : State) (p : Nat) : LinkOnly s (s.nextSlot p) := by
  unfold State.nextSlot
  simp only []
  split
  · exact LinkOnly.refl s
  · exact ((((LinkOnly.draw64 s).trans (LinkOnly.drawLane _ p 0)).trans (LinkOnly.drawLane _ p 1)).trans (LinkOnly.setPort _ p _)).trans
      (LinkOnly.emit _ _)

theorem LinkOnly.putCell (s : State) (p n : Nat) (c : Cell) (bad : Bool) : LinkOnly s (s.putCell p n c bad) :=
  ((LinkOnly.nextSlot s p).trans (LinkOnly.setPort _ p _)).trans (LinkOnly.emit _ _)

theorem LinkOnly.transmit (s : State) (p : Nat) (c : Cell) : LinkOnly s (s.transmit p c) :=
  (LinkOnly.putCell s p _ c _).trans (LinkOnly.setPort _ p _)

theorem LinkOnly.sendCell (s : State) (p : Nat) (own : Bool) (c : Cell) : LinkOnly s (s.sendCell p own c) := by
  unfold State.sendCell
  split
  · exact LinkOnly.transmit s p c
  · exact LinkOnly.setPort s p _

theorem LinkOnly.sendOwn (s : State) (c : Cell) : LinkOnly s (s.sendOwn c) := by
  unfold State.sendOwn
  split
  · exact LinkOnly.lnSet s _
  · simp only []
    split
    · exact LinkOnly.lnSet s _
    · exact LinkOnly.sendCell s _ _ c

theorem LinkOnly.sendMessage (s : State) (typ dst : Nat) (bs : List Byte) : LinkOnly s (s.sendMessage typ dst bs) :=
  LinkOnly.foldl _ LinkOnly.sendOwn _ s

theorem LinkOnly.tunnelled (s : State) (o : Output) : LinkOnly s (s.tunnelled o) := by
  unfold State.tunnelled
  split
  · exact LinkOnly.emit s o
  · exact LinkOnly.lnSet s _

theorem LinkOnly.memWrite (s : State) (a : Word64) (bs : List Byte) : LinkOnly s (s.memWrite a bs) :=
  LinkOnly.foldl _ LinkOnly.tunnelled _ s

theorem LinkOnly.tunnelWrite (s : State) (e : Word64 × List Byte) : LinkOnly s (s.tunnelWrite e) :=
  ((LinkOnly.lnSet s _).trans (LinkOnly.sendMessage _ _ _ _)).trans (LinkOnly.sendMessage _ _ _ _)

theorem LinkOnly.toHost (s : State) (o : Output) : LinkOnly s (s.toHost o) := by
  unfold State.toHost
  split
  · exact LinkOnly.memWrite s _ _
  · exact LinkOnly.emit s _
  · exact LinkOnly.foldl _ LinkOnly.tunnelWrite _ s
  · exact LinkOnly.sendMessage s _ _ _
  · exact LinkOnly.emit s _

/-- While DMA may flow a head writes to its host directly; its lanes stand. -/
theorem State.memWrite_ln (s : State) (a : Word64) (bs : List Byte) (h : s.pw.d0 = true) : (s.memWrite a bs).ln = s.ln := by
  have : ∀ (l : List Output) (u : State), u.pw.d0 = true → (l.foldl State.tunnelled u).ln = u.ln := by
    intro l
    induction l with
    | nil => intro u _; rfl
    | cons x t ih => intro u hu; simp only [List.foldl_cons, State.tunnelled, hu, if_true]; exact ih _ hu
  exact this _ s h

/-- What a head sends to its host leaves its lanes as they stand, unless it is a write that has to wait for D0. -/
theorem State.toHost_ln (s : State) (o : Output) (h : s.pw.headSel = true)
    (d : s.pw.d0 = true ∨ ∀ a bs, o ≠ .dmaWrite a bs) : (s.toHost o).ln = s.ln := by
  unfold State.toHost
  split
  · rcases d with d | d
    · exact State.memWrite_ln s _ _ d
    · exact absurd rfl (d _ _)
  · rfl
  all_goals simp_all

/-! ## Messages and completions: beside what `EventOnly` allows, the trace and the chapter 16 registers stand -/

/-- Only the ledger, the furrows with their pending messages, the event queue and what goes out changed. -/
structure PostOnly (s t : State) : Prop where
  frame : EventOnly s t
  trace : t.ev.trace = s.ev.trace
  rd : ∀ a, a < 0x800 ∨ 0x1000 ≤ a → t.rd a = s.rd a

theorem PostOnly.refl (s : State) : PostOnly s s := ⟨EventOnly.refl s, rfl, fun _ _ => rfl⟩
theorem PostOnly.trans {s t u : State} (h : PostOnly s t) (k : PostOnly t u) : PostOnly s u :=
  ⟨h.frame.trans k.frame, k.trace.trans h.trace, fun a ha => (k.rd a ha).trans (h.rd a ha)⟩

theorem PostOnly.foldl {α : Type} (f : State → α → State) (hf : ∀ s x, PostOnly s (f s x)) (l : List α) (s : State) :
    PostOnly s (l.foldl f s) := by
  induction l generalizing s with
  | nil => exact PostOnly.refl s
  | cons x t ih => exact (hf s x).trans (ih _)

theorem PostOnly.emit (s : State) (o : Output) : PostOnly s (s.emit o) := ⟨EventOnly.emit s o, rfl, fun _ _ => rfl⟩
theorem PostOnly.evSet (s : State) (x : EvSt) (h : x.trace = s.ev.trace) : PostOnly s { s with ev := x } :=
  ⟨EventOnly.evSet s x, h, fun _ _ => rfl⟩
theorem PostOnly.furrowsSet (s : State) (x : KMap Furrow) : PostOnly s { s with hi := { s.hi with furrows := x } } :=
  ⟨EventOnly.furrowsSet s x, rfl, fun _ _ => rfl⟩
theorem PostOnly.pbaSet (s : State) (x : Word64) : PostOnly s { s with hi := { s.hi with pba := x } } :=
  ⟨EventOnly.pbaSet s x, rfl, fun _ _ => rfl⟩
theorem PostOnly.wr (s : State) (a : Nat) (w : Word) (h : 0x800 ≤ a ∧ a < 0x1000) : PostOnly s (s.wr a w) := by
  refine ⟨EventOnly.wr s a w ?_, rfl, fun b hb => State.rd_wr_ne s w (by omega)⟩
  simp [eventReg]; omega

theorem PostOnly.toHost (s : State) (o : Output) (d : s.pw.headSel = true → s.pw.d0 = true ∨ ∀ a bs, o ≠ .dmaWrite a bs) :
    PostOnly s (s.toHost o) := by
  have k := LinkOnly.toHost s o
  exact ⟨{ shadow := k.shadow, staged := k.staged, rdata := k.rdata, pw := k.pw, tb := k.tb, fr := k.fr, fe := k.fe,
            gl := k.gl, cal := k.cal, aq := k.aq, ce := k.ce, bl := k.bl, vt := k.vt, sv := k.sv, bc := k.bc, sp := k.sp,
            pending := k.pending, hi := by rw [k.hi],
            ln := fun h => State.toHost_ln s o h (d h),
            rd := fun a _ => State.rd_congr k.regs a }, by rw [k.ev], fun a _ => State.rd_congr k.regs a⟩

/-! ## Completions and messages -/

theorem PostOnly.sendMsix (s : State) (v : Nat) : PostOnly s (s.sendMsix v) := by
  unfold State.sendMsix
  split
  · exact PostOnly.refl s
  · split
    · exact PostOnly.pbaSet s _
    · exact PostOnly.toHost s _ (fun _ => .inr (by simp))

theorem PostOnly.setFurrow (s : State) (f : Nat) (fu : Furrow) : PostOnly s (s.setFurrow f fu) :=
  PostOnly.furrowsSet s _

theorem PostOnly.modFurrow (s : State) (f : Nat) (g : Furrow → Furrow) : PostOnly s (s.modFurrow f g) :=
  PostOnly.furrowsSet s _

theorem PostOnly.postOne (s : State) (f : Nat) (fu : Furrow) (it : Item) (st : CStatus) (len : Nat) (aux : Word)
    (ecc more first : Bool) : PostOnly s (s.postOne f fu it st len aux ecc more first) := by
  unfold State.postOne
  have h1 : ∀ (u : State) (a : Word64) (c : Completion) (o : Output),
      PostOnly u (if u.pw.headSel then u.emit (.completion a c) else u.toHost o) := by
    intro u a c o
    split
    · exact PostOnly.emit u _
    · exact PostOnly.toHost u _ (fun h => by simp_all)
  have h2 : ∀ u : State, PostOnly u (if f < 256 then u.wr (Reg.GLB_LEDGER_LO f) it.seq else u) := by
    intro u
    split
    · rename_i h; exact PostOnly.wr u _ _ (by simp only [Reg.GLB_LEDGER_LO]; omega)
    · exact PostOnly.refl u
  simp only []
  split
  · exact ((h1 s _ _ _).trans (h2 _)).trans (PostOnly.sendMsix _ _)
  · exact (h1 s _ _ _).trans (h2 _)

theorem PostOnly.postFront (s : State) (f : Nat) : PostOnly s (s.postFront f).2 := by
  unfold State.postFront
  split
  · exact PostOnly.refl s
  · split
    · exact PostOnly.refl s
    · split
      · split
        · exact PostOnly.refl s
        · exact (PostOnly.postOne s _ _ _ _ _ _ _ _ _).trans (PostOnly.setFurrow _ _ _)
      · exact PostOnly.refl s

theorem PostOnly.postN (f n : Nat) (s : State) : PostOnly s (State.postN f n s) := by
  induction n generalizing s with
  | zero => exact PostOnly.refl s
  | succ n ih =>
    unfold State.postN
    have h := PostOnly.postFront s f
    split
    · rename_i s' e; rw [e] at h; exact h.trans (ih s')
    · rename_i s' e; rw [e] at h; exact h

theorem PostOnly.postFinished (s : State) (f : Nat) : PostOnly s (s.postFinished f) := by
  unfold State.postFinished
  split
  · exact PostOnly.refl s
  · exact PostOnly.postN _ _ _

theorem PostOnly.endItem (s : State) (f : Nat) (seq : Word) (st : CStatus) (len : Nat) (aux : Word) :
    PostOnly s (s.endItem f seq st len aux) :=
  (PostOnly.modFurrow s _ _).trans (PostOnly.postFinished _ _)

/-! ## The event queue and the trace -/

theorem PostOnly.evEnd (s : State) (f : Nat) (it : Item) : PostOnly s (s.evEnd f it) :=
  ((PostOnly.endItem s _ _ _ _ _).trans (PostOnly.evSet _ _ (by rfl))).trans
    (PostOnly.foldl _ PostOnly.sendMsix _ _)

/-- The buffer being filled is there only while DMA may flow. -/
theorem State.evBuffer_d0 (s : State) {x : Nat × Item} (h : s.evBuffer? = some x) : s.pw.d0 = true := by
  unfold State.evBuffer? at h
  cases hd : s.pw.d0 with
  | true => rfl
  | false => split at h <;> first | cases h | (split at h <;> simp [hd] at h)

theorem PostOnly.evMove (s : State) : PostOnly s s.evMove.2 := by
  unfold State.evMove
  split
  · rename_i hb
    have hd := State.evBuffer_d0 s hb
    split
    · simp only []
      split
      · exact ((PostOnly.toHost s _ (fun _ => .inl hd)).trans (PostOnly.evSet _ _ (by rfl))).trans (PostOnly.modFurrow _ _ _)
      · exact (((PostOnly.toHost s _ (fun _ => .inl hd)).trans (PostOnly.evSet _ _ (by rfl))).trans (PostOnly.modFurrow _ _ _)).trans
          (PostOnly.evEnd _ _ _)
    · exact PostOnly.refl s
  · exact PostOnly.refl s

theorem PostOnly.evFillN (n : Nat) (s : State) : PostOnly s (State.evFillN n s) := by
  induction n generalizing s with
  | zero => exact PostOnly.refl s
  | succ n ih =>
    unfold State.evFillN
    have h := PostOnly.evMove s
    split
    · rename_i s' e; rw [e] at h; exact h.trans (ih s')
    · rename_i s' e; rw [e] at h; exact h

theorem PostOnly.evFill (s : State) : PostOnly s s.evFill := PostOnly.evFillN _ s

theorem PostOnly.evFlush (s : State) : PostOnly s s.evFlush := by
  unfold State.evFlush
  split
  · split
    · exact PostOnly.refl s
    · exact PostOnly.evEnd _ _ _
  · exact PostOnly.refl s


/-! ## Raising -/

theorem EvRec.words_length (e : EvRec) : (EvRec.words e).length = 8 := by simp [EvRec.words]

/-- The words of EV_FF are all that this writes. -/
theorem State.ffWords_spec (l : List Word) (n : Nat) (s : State) (h : n + l.length ≤ 8) :
    EventOnly s (s.ffWords n l) ∧ (s.ffWords n l).ev = s.ev ∧ ∀ a, a < 0x70420 → (s.ffWords n l).rd a = s.rd a := by
  induction l generalizing n s with
  | nil => exact ⟨EventOnly.refl s, rfl, fun _ _ => rfl⟩
  | cons w t ih =>
    have h' : n < 8 ∧ n + 1 + t.length ≤ 8 := by simp at h; omega
    have hr : eventReg (Reg.EV_FF n) = true := by simp [eventReg, Reg.EV_FF]; omega
    obtain ⟨i1, i2, i3⟩ := ih (n + 1) (s.wr (Reg.EV_FF n) w) h'.2
    refine ⟨(EventOnly.wr s _ w hr).trans i1, i2, fun a ha => (i3 a ha).trans ?_⟩
    exact State.rd_wr_ne s w (by simp only [Reg.EV_FF]; omega)

theorem State.firstFault_spec (s : State) (e : EvRec) (ff : Bool) :
    EventOnly s (s.firstFault e ff) ∧ (s.firstFault e ff).ev = s.ev
      ∧ ∀ a, a < 0x70400 → (s.firstFault e ff).rd a = s.rd a := by
  unfold State.firstFault
  split
  · have ⟨h1, h2, h3⟩ := State.ffWords_spec (EvRec.words e) 0 s (by simp [EvRec.words_length])
    refine ⟨h1.trans (EventOnly.setFlag _ _ _ _ (by decide)), by rw [State.setFlag_ev]; exact h2, fun a ha => ?_⟩
    rw [State.rd_setFlag_ne _ _ _ (by simp only [Reg.EV_STAT]; omega)]
    exact h3 a (by omega)
  · exact ⟨EventOnly.refl s, rfl, fun _ _ => rfl⟩

/-- The entry is the newest of the trace; of the registers only the two counts change. -/
theorem State.traceAppend_spec (s : State) (e : EvRec) :
    EventOnly s (s.traceAppend e) ∧ (s.traceAppend e).ev.trace.getLast? = some e
      ∧ ∀ a, a < 0x70400 → (s.traceAppend e).rd a = s.rd a := by
  have h0 : ∀ x : EvSt, EventOnly s (({ s with ev := x } : State).wr Reg.EV_TRCNT (s.rd Reg.EV_TRCNT + 1)) :=
    fun x => (EventOnly.evSet s x).trans (EventOnly.wr _ _ _ (by decide))
  have r0 : ∀ (u : State) w a, a < 0x70400 → (u.wr Reg.EV_TRCNT w).rd a = u.rd a :=
    fun u w a ha => State.rd_wr_ne u w (by simp only [Reg.EV_TRCNT]; omega)
  unfold State.traceAppend
  simp only [decide_eq_true_eq]
  split
  · refine ⟨(h0 _).trans (EventOnly.wr _ _ _ (by decide)), by simp, fun a ha => ?_⟩
    rw [State.incSat, State.rd_wr_ne _ _ (by simp only [Reg.EV_TROVW]; omega)]
    exact r0 _ _ a ha
  · exact ⟨h0 _, by simp, fun a ha => r0 _ _ a ha⟩

theorem State.trace_spec (s : State) (e : EvRec) (ff : Bool) :
    EventOnly s (s.trace e ff) ∧ (s.trace e ff).ev.trace.getLast? = some e
      ∧ ∀ a, a < 0x70400 → (s.trace e ff).rd a = s.rd a := by
  have ⟨h1, h2, h3⟩ := State.traceAppend_spec s e
  have ⟨k1, k2, k3⟩ := State.firstFault_spec (s.traceAppend e) e ff
  exact ⟨h1.trans k1, by rw [State.trace, k2]; exact h2, fun a ha => (k3 a ha).trans (h3 a ha)⟩

/-- A run counts an occurrence: only its count changes. -/
theorem State.joinRun_spec (s : State) (e : EvRec) (hn : e.src < 64) :
    EventOnly s (s.joinRun e) ∧ (s.joinRun e).ev.trace = s.ev.trace
      ∧ ∀ m, m < 64 → (s.joinRun e).rd (Reg.EV_OCC m) = s.rd (Reg.EV_OCC m) := by
  have r1 : eventReg (Reg.EV_RUN e.src) = true := by simp [eventReg, Reg.EV_RUN]; omega
  exact ⟨(EventOnly.evSet s _).trans (EventOnly.wr _ _ _ r1), rfl,
    fun m _ => State.rd_wr_ne _ _ (by simp only [Reg.EV_RUN, Reg.EV_OCC]; omega)⟩

/-- The queue takes a record: only run counts change beside it. -/
theorem State.evQueue_spec (s : State) (e : EvRec) (hn : e.src < 64) :
    EventOnly s (s.evQueue e) ∧ (s.evQueue e).ev.trace = s.ev.trace
      ∧ ∀ m, m < 64 → (s.evQueue e).rd (Reg.EV_OCC m) = s.rd (Reg.EV_OCC m) := by
  have r1 : eventReg (Reg.EV_RUN e.src) = true := by simp [eventReg, Reg.EV_RUN]; omega
  have r2 : eventReg (Reg.EV_RUNOCC e.src) = true := by simp [eventReg, Reg.EV_RUNOCC]; omega
  have o1 : ∀ (u : State) (w : Word) m, m < 64 → (u.wr (Reg.EV_RUN e.src) w).rd (Reg.EV_OCC m) = u.rd (Reg.EV_OCC m) :=
    fun u w m _ => State.rd_wr_ne u w (by simp only [Reg.EV_RUN, Reg.EV_OCC]; omega)
  have o2 : ∀ (u : State) (w : Word) m, m < 64 → (u.wr (Reg.EV_RUNOCC e.src) w).rd (Reg.EV_OCC m) = u.rd (Reg.EV_OCC m) :=
    fun u w m _ => State.rd_wr_ne u w (by simp only [Reg.EV_RUNOCC, Reg.EV_OCC]; omega)
  unfold State.evQueue
  split
  · exact State.joinRun_spec s e hn
  · split
    · exact ⟨EventOnly.evSet s _, rfl, fun _ _ => rfl⟩
    · refine ⟨((EventOnly.evSet s _).trans (EventOnly.wr _ _ _ r1)).trans (EventOnly.wr _ _ _ r2), rfl, fun m hm => ?_⟩
      rw [o2 _ _ m hm]; exact o1 _ _ m hm

theorem PostOnly.evVector (s : State) (n : Nat) : PostOnly s (s.evVector n) := by
  unfold State.evVector
  simp only []
  split <;> split
  · exact (PostOnly.evSet s { s.ev with slotVecs := _, slotNo := _ } (by rfl)).trans (PostOnly.sendMsix _ _)
  · exact PostOnly.refl s
  · exact (PostOnly.evSet s { s.ev with slotVecs := _, slotNo := _ } (by rfl)).trans (PostOnly.sendMsix _ _)
  · exact PostOnly.refl s

/-- An occurrence of a source (R433 to R436): what `Raised` says. -/
theorem raiseF_raised (s : State) (flags n obj cause aux8 : Nat) (data : Word64) (hn : n < 64) :
    Raised n obj cause aux8 data s (s.raiseF flags n obj cause aux8 data) := by
  have key : ∀ (u v : State), EventOnly u v → v.ev.trace = u.ev.trace →
      (∀ m, m < 64 → v.rd (Reg.EV_OCC m) = u.rd (Reg.EV_OCC m)) →
      Raised n obj cause aux8 data s u → Raised n obj cause aux8 data s v := by
    intro u v h1 h2 h3 r
    exact ⟨r.frame.trans h1, (h3 n hn).trans r.occ, fun m hm hne => (h3 m hm).trans (r.others m hm hne), by rw [h2]; exact r.traced⟩
  have post : ∀ (u v : State), PostOnly u v → Raised n obj cause aux8 data s u → Raised n obj cause aux8 data s v :=
    fun u v p r => key u v p.frame p.trace (fun m hm => p.rd _ (by simp only [Reg.EV_OCC]; omega)) r
  have occr : eventReg (Reg.EV_OCC n) = true := by simp [eventReg, Reg.EV_OCC]; omega
  have base : ∀ (e : EvRec) ff, e = { src := n, hub := s.hubAddr, rflags := 0, occ := s.rd (Reg.EV_OCC n), time := s.now, obj := obj
                                      cause := cause, aux8 := aux8, data := data } →
      Raised n obj cause aux8 data s ((s.wr (Reg.EV_OCC n) (s.rd (Reg.EV_OCC n) + 1)).trace e ff) := by
    intro e ff he
    have ⟨h1, h2, h3⟩ := State.trace_spec (s.wr (Reg.EV_OCC n) (s.rd (Reg.EV_OCC n) + 1)) e ff
    refine ⟨(EventOnly.wr s _ _ occr).trans h1, ?_, ?_, ?_⟩
    · rw [h3 _ (by simp only [Reg.EV_OCC]; omega)]; exact State.rd_wr_same _ _ _
    · intro m hm hne
      rw [h3 _ (by simp only [Reg.EV_OCC]; omega)]
      exact State.rd_wr_ne _ _ (by simp only [Reg.EV_OCC]; omega)
    · rw [h2, he]
  have j : ∀ u e, e.src = n → Raised n obj cause aux8 data s u → Raised n obj cause aux8 data s (u.joinRun e) := by
    intro u e he r
    have ⟨h1, h2, h3⟩ := State.joinRun_spec u e (by omega)
    exact key _ _ h1 h2 h3 r
  unfold State.raiseF
  simp only []
  split
  · have q : ∀ u e, e.src = n → Raised n obj cause aux8 data s u → Raised n obj cause aux8 data s (u.evQueue e) := by
      intro u e he r
      have ⟨h1, h2, h3⟩ := State.evQueue_spec u e (by omega)
      exact key _ _ h1 h2 h3 r
    have f : ∀ u : State, Raised n obj cause aux8 data s u →
        Raised n obj cause aux8 data s (if u.inRun = true then u else u.evFill) := by
      intro u r; split
      · exact r
      · exact post _ _ (PostOnly.evFill u) r
    exact post _ _ (PostOnly.evVector _ n) (f _ (q _ { src := n, hub := s.hubAddr, rflags := flags, occ := s.rd (Reg.EV_OCC n)
                                                       time := s.now, obj := obj, cause := cause
                                                       aux8 := aux8, data := data } rfl (base _ _ rfl)))
  · split
    · exact j _ { src := n, hub := s.hubAddr, rflags := flags, occ := s.rd (Reg.EV_OCC n), time := s.now, obj := obj
                  cause := cause, aux8 := aux8, data := data } rfl (base _ _ rfl)
    · exact base _ _ rfl

theorem raise_raised (s : State) (n obj cause : Nat) (hn : n < 64) :
    Raised n obj cause 0 s.frameData s (s.raise n obj cause) := raiseF_raised s 0 n obj cause 0 _ hn

theorem raiseD_raised (s : State) (n obj cause aux8 : Nat) (data : Word64) (hn : n < 64) :
    Raised n obj cause aux8 data s (s.raiseD n obj cause aux8 data) := raiseF_raised s 0 n obj cause aux8 data hn

end Sys2Proof.Machine
end

