-- ==== Sys2Proof/Laws/Fin.lean ====
section
/-! SUPPORT. From a meaning's next state to the form of the statements. -/

namespace Sys2Proof.Machine

/-- A command that ends in `fin` of a state becomes that state. -/
theorem Becomes.of {i : Instr} {s u v : State} (h : exec i s = fin v) (e : v = u) : Becomes i s u := by
  rw [Becomes, h, e]; rfl

theorem Ends.of {i : Instr} {s v : State} {P : State → Prop} (h : exec i s = fin v) (p : P v) : Ends i s P :=
  ⟨v, h, p⟩

theorem raise_blank (s : State) (n obj cause : Nat) (hn : n < 64) : RaisedBlank n obj cause s (s.raise n obj cause) :=
  raise_raised s n obj cause hn

end Sys2Proof.Machine
end

