-- ==== Sys2Proof/Laws/Raise.lean ====
section
/-! SUPPORT. Raising an event, for the simplifier: the fields of State it leaves alone, the registers it does not touch, and
its occurrence number. -/

namespace Sys2Proof.Machine

@[simp] theorem State.raiseF_shadow (s : State) (flags n obj cause aux8 : Nat) (data : Word64) (hn : n < 64) : (s.raiseF flags n obj cause aux8 data).shadow = s.shadow :=
  (raiseF_raised s flags n obj cause aux8 data hn).frame.shadow
@[simp] theorem State.raiseF_staged (s : State) (flags n obj cause aux8 : Nat) (data : Word64) (hn : n < 64) : (s.raiseF flags n obj cause aux8 data).staged = s.staged :=
  (raiseF_raised s flags n obj cause aux8 data hn).frame.staged
@[simp] theorem State.raiseF_rdata (s : State) (flags n obj cause aux8 : Nat) (data : Word64) (hn : n < 64) : (s.raiseF flags n obj cause aux8 data).rdata = s.rdata :=
  (raiseF_raised s flags n obj cause aux8 data hn).frame.rdata
@[simp] theorem State.raiseF_pw (s : State) (flags n obj cause aux8 : Nat) (data : Word64) (hn : n < 64) : (s.raiseF flags n obj cause aux8 data).pw = s.pw :=
  (raiseF_raised s flags n obj cause aux8 data hn).frame.pw
@[simp] theorem State.raiseF_tb (s : State) (flags n obj cause aux8 : Nat) (data : Word64) (hn : n < 64) : (s.raiseF flags n obj cause aux8 data).tb = s.tb :=
  (raiseF_raised s flags n obj cause aux8 data hn).frame.tb
@[simp] theorem State.raiseF_fr (s : State) (flags n obj cause aux8 : Nat) (data : Word64) (hn : n < 64) : (s.raiseF flags n obj cause aux8 data).fr = s.fr :=
  (raiseF_raised s flags n obj cause aux8 data hn).frame.fr
@[simp] theorem State.raiseF_fe (s : State) (flags n obj cause aux8 : Nat) (data : Word64) (hn : n < 64) : (s.raiseF flags n obj cause aux8 data).fe = s.fe :=
  (raiseF_raised s flags n obj cause aux8 data hn).frame.fe
@[simp] theorem State.raiseF_gl (s : State) (flags n obj cause aux8 : Nat) (data : Word64) (hn : n < 64) : (s.raiseF flags n obj cause aux8 data).gl = s.gl :=
  (raiseF_raised s flags n obj cause aux8 data hn).frame.gl
@[simp] theorem State.raiseF_cal (s : State) (flags n obj cause aux8 : Nat) (data : Word64) (hn : n < 64) : (s.raiseF flags n obj cause aux8 data).cal = s.cal :=
  (raiseF_raised s flags n obj cause aux8 data hn).frame.cal
@[simp] theorem State.raiseF_aq (s : State) (flags n obj cause aux8 : Nat) (data : Word64) (hn : n < 64) : (s.raiseF flags n obj cause aux8 data).aq = s.aq :=
  (raiseF_raised s flags n obj cause aux8 data hn).frame.aq
@[simp] theorem State.raiseF_ce (s : State) (flags n obj cause aux8 : Nat) (data : Word64) (hn : n < 64) : (s.raiseF flags n obj cause aux8 data).ce = s.ce :=
  (raiseF_raised s flags n obj cause aux8 data hn).frame.ce
@[simp] theorem State.raiseF_bl (s : State) (flags n obj cause aux8 : Nat) (data : Word64) (hn : n < 64) : (s.raiseF flags n obj cause aux8 data).bl = s.bl :=
  (raiseF_raised s flags n obj cause aux8 data hn).frame.bl
@[simp] theorem State.raiseF_vt (s : State) (flags n obj cause aux8 : Nat) (data : Word64) (hn : n < 64) : (s.raiseF flags n obj cause aux8 data).vt = s.vt :=
  (raiseF_raised s flags n obj cause aux8 data hn).frame.vt
@[simp] theorem State.raiseF_sv (s : State) (flags n obj cause aux8 : Nat) (data : Word64) (hn : n < 64) : (s.raiseF flags n obj cause aux8 data).sv = s.sv :=
  (raiseF_raised s flags n obj cause aux8 data hn).frame.sv
@[simp] theorem State.raiseF_bc (s : State) (flags n obj cause aux8 : Nat) (data : Word64) (hn : n < 64) : (s.raiseF flags n obj cause aux8 data).bc = s.bc :=
  (raiseF_raised s flags n obj cause aux8 data hn).frame.bc
@[simp] theorem State.raiseF_sp (s : State) (flags n obj cause aux8 : Nat) (data : Word64) (hn : n < 64) : (s.raiseF flags n obj cause aux8 data).sp = s.sp :=
  (raiseF_raised s flags n obj cause aux8 data hn).frame.sp
@[simp] theorem State.raiseF_pending (s : State) (flags n obj cause aux8 : Nat) (data : Word64) (hn : n < 64) : (s.raiseF flags n obj cause aux8 data).pending = s.pending :=
  (raiseF_raised s flags n obj cause aux8 data hn).frame.pending
@[simp] theorem State.raiseF_rd (s : State) (flags n obj cause aux8 : Nat) (data : Word64) (a : Nat) (hn : n < 64) (ha : eventReg a = false) :
    (s.raiseF flags n obj cause aux8 data).rd a = s.rd a := (raiseF_raised s flags n obj cause aux8 data hn).frame.rd a ha
@[simp] theorem State.raiseF_occ (s : State) (flags n obj cause aux8 : Nat) (data : Word64) (hn : n < 64) :
    (s.raiseF flags n obj cause aux8 data).rd (Reg.EV_OCC n) = s.rd (Reg.EV_OCC n) + 1 := (raiseF_raised s flags n obj cause aux8 data hn).occ
@[simp] theorem State.raiseF_fget (s : State) (flags n obj cause aux8 : Nat) (data : Word64) (a : Nat) (f : BitField) (hn : n < 64) (ha : eventReg a = false) :
    (s.raiseF flags n obj cause aux8 data).fget a f = s.fget a f := by simp [State.fget, hn, ha]
@[simp] theorem State.raiseF_flag (s : State) (flags n obj cause aux8 : Nat) (data : Word64) (a : Nat) (f : BitField) (hn : n < 64) (ha : eventReg a = false) :
    (s.raiseF flags n obj cause aux8 data).flag a f = s.flag a f := by simp [State.flag, hn, ha]

@[simp] theorem State.raise_shadow (s : State) (n obj cause : Nat) (hn : n < 64) : (s.raise n obj cause).shadow = s.shadow :=
  (raise_raised s n obj cause hn).frame.shadow
@[simp] theorem State.raise_staged (s : State) (n obj cause : Nat) (hn : n < 64) : (s.raise n obj cause).staged = s.staged :=
  (raise_raised s n obj cause hn).frame.staged
@[simp] theorem State.raise_rdata (s : State) (n obj cause : Nat) (hn : n < 64) : (s.raise n obj cause).rdata = s.rdata :=
  (raise_raised s n obj cause hn).frame.rdata
@[simp] theorem State.raise_pw (s : State) (n obj cause : Nat) (hn : n < 64) : (s.raise n obj cause).pw = s.pw :=
  (raise_raised s n obj cause hn).frame.pw
@[simp] theorem State.raise_tb (s : State) (n obj cause : Nat) (hn : n < 64) : (s.raise n obj cause).tb = s.tb :=
  (raise_raised s n obj cause hn).frame.tb
@[simp] theorem State.raise_fr (s : State) (n obj cause : Nat) (hn : n < 64) : (s.raise n obj cause).fr = s.fr :=
  (raise_raised s n obj cause hn).frame.fr
@[simp] theorem State.raise_fe (s : State) (n obj cause : Nat) (hn : n < 64) : (s.raise n obj cause).fe = s.fe :=
  (raise_raised s n obj cause hn).frame.fe
@[simp] theorem State.raise_gl (s : State) (n obj cause : Nat) (hn : n < 64) : (s.raise n obj cause).gl = s.gl :=
  (raise_raised s n obj cause hn).frame.gl
@[simp] theorem State.raise_cal (s : State) (n obj cause : Nat) (hn : n < 64) : (s.raise n obj cause).cal = s.cal :=
  (raise_raised s n obj cause hn).frame.cal
@[simp] theorem State.raise_aq (s : State) (n obj cause : Nat) (hn : n < 64) : (s.raise n obj cause).aq = s.aq :=
  (raise_raised s n obj cause hn).frame.aq
@[simp] theorem State.raise_ce (s : State) (n obj cause : Nat) (hn : n < 64) : (s.raise n obj cause).ce = s.ce :=
  (raise_raised s n obj cause hn).frame.ce
@[simp] theorem State.raise_bl (s : State) (n obj cause : Nat) (hn : n < 64) : (s.raise n obj cause).bl = s.bl :=
  (raise_raised s n obj cause hn).frame.bl
@[simp] theorem State.raise_vt (s : State) (n obj cause : Nat) (hn : n < 64) : (s.raise n obj cause).vt = s.vt :=
  (raise_raised s n obj cause hn).frame.vt
@[simp] theorem State.raise_sv (s : State) (n obj cause : Nat) (hn : n < 64) : (s.raise n obj cause).sv = s.sv :=
  (raise_raised s n obj cause hn).frame.sv
@[simp] theorem State.raise_bc (s : State) (n obj cause : Nat) (hn : n < 64) : (s.raise n obj cause).bc = s.bc :=
  (raise_raised s n obj cause hn).frame.bc
@[simp] theorem State.raise_sp (s : State) (n obj cause : Nat) (hn : n < 64) : (s.raise n obj cause).sp = s.sp :=
  (raise_raised s n obj cause hn).frame.sp
@[simp] theorem State.raise_pending (s : State) (n obj cause : Nat) (hn : n < 64) : (s.raise n obj cause).pending = s.pending :=
  (raise_raised s n obj cause hn).frame.pending
@[simp] theorem State.raise_rd (s : State) (n obj cause : Nat) (a : Nat) (hn : n < 64) (ha : eventReg a = false) :
    (s.raise n obj cause).rd a = s.rd a := (raise_raised s n obj cause hn).frame.rd a ha
@[simp] theorem State.raise_occ (s : State) (n obj cause : Nat) (hn : n < 64) :
    (s.raise n obj cause).rd (Reg.EV_OCC n) = s.rd (Reg.EV_OCC n) + 1 := (raise_raised s n obj cause hn).occ
@[simp] theorem State.raise_fget (s : State) (n obj cause : Nat) (a : Nat) (f : BitField) (hn : n < 64) (ha : eventReg a = false) :
    (s.raise n obj cause).fget a f = s.fget a f := by simp [State.fget, hn, ha]
@[simp] theorem State.raise_flag (s : State) (n obj cause : Nat) (a : Nat) (f : BitField) (hn : n < 64) (ha : eventReg a = false) :
    (s.raise n obj cause).flag a f = s.flag a f := by simp [State.flag, hn, ha]

@[simp] theorem State.raiseD_shadow (s : State) (n obj cause aux8 : Nat) (data : Word64) (hn : n < 64) : (s.raiseD n obj cause aux8 data).shadow = s.shadow :=
  (raiseD_raised s n obj cause aux8 data hn).frame.shadow
@[simp] theorem State.raiseD_staged (s : State) (n obj cause aux8 : Nat) (data : Word64) (hn : n < 64) : (s.raiseD n obj cause aux8 data).staged = s.staged :=
  (raiseD_raised s n obj cause aux8 data hn).frame.staged
@[simp] theorem State.raiseD_rdata (s : State) (n obj cause aux8 : Nat) (data : Word64) (hn : n < 64) : (s.raiseD n obj cause aux8 data).rdata = s.rdata :=
  (raiseD_raised s n obj cause aux8 data hn).frame.rdata
@[simp] theorem State.raiseD_pw (s : State) (n obj cause aux8 : Nat) (data : Word64) (hn : n < 64) : (s.raiseD n obj cause aux8 data).pw = s.pw :=
  (raiseD_raised s n obj cause aux8 data hn).frame.pw
@[simp] theorem State.raiseD_tb (s : State) (n obj cause aux8 : Nat) (data : Word64) (hn : n < 64) : (s.raiseD n obj cause aux8 data).tb = s.tb :=
  (raiseD_raised s n obj cause aux8 data hn).frame.tb
@[simp] theorem State.raiseD_fr (s : State) (n obj cause aux8 : Nat) (data : Word64) (hn : n < 64) : (s.raiseD n obj cause aux8 data).fr = s.fr :=
  (raiseD_raised s n obj cause aux8 data hn).frame.fr
@[simp] theorem State.raiseD_fe (s : State) (n obj cause aux8 : Nat) (data : Word64) (hn : n < 64) : (s.raiseD n obj cause aux8 data).fe = s.fe :=
  (raiseD_raised s n obj cause aux8 data hn).frame.fe
@[simp] theorem State.raiseD_gl (s : State) (n obj cause aux8 : Nat) (data : Word64) (hn : n < 64) : (s.raiseD n obj cause aux8 data).gl = s.gl :=
  (raiseD_raised s n obj cause aux8 data hn).frame.gl
@[simp] theorem State.raiseD_cal (s : State) (n obj cause aux8 : Nat) (data : Word64) (hn : n < 64) : (s.raiseD n obj cause aux8 data).cal = s.cal :=
  (raiseD_raised s n obj cause aux8 data hn).frame.cal
@[simp] theorem State.raiseD_aq (s : State) (n obj cause aux8 : Nat) (data : Word64) (hn : n < 64) : (s.raiseD n obj cause aux8 data).aq = s.aq :=
  (raiseD_raised s n obj cause aux8 data hn).frame.aq
@[simp] theorem State.raiseD_ce (s : State) (n obj cause aux8 : Nat) (data : Word64) (hn : n < 64) : (s.raiseD n obj cause aux8 data).ce = s.ce :=
  (raiseD_raised s n obj cause aux8 data hn).frame.ce
@[simp] theorem State.raiseD_bl (s : State) (n obj cause aux8 : Nat) (data : Word64) (hn : n < 64) : (s.raiseD n obj cause aux8 data).bl = s.bl :=
  (raiseD_raised s n obj cause aux8 data hn).frame.bl
@[simp] theorem State.raiseD_vt (s : State) (n obj cause aux8 : Nat) (data : Word64) (hn : n < 64) : (s.raiseD n obj cause aux8 data).vt = s.vt :=
  (raiseD_raised s n obj cause aux8 data hn).frame.vt
@[simp] theorem State.raiseD_sv (s : State) (n obj cause aux8 : Nat) (data : Word64) (hn : n < 64) : (s.raiseD n obj cause aux8 data).sv = s.sv :=
  (raiseD_raised s n obj cause aux8 data hn).frame.sv
@[simp] theorem State.raiseD_bc (s : State) (n obj cause aux8 : Nat) (data : Word64) (hn : n < 64) : (s.raiseD n obj cause aux8 data).bc = s.bc :=
  (raiseD_raised s n obj cause aux8 data hn).frame.bc
@[simp] theorem State.raiseD_sp (s : State) (n obj cause aux8 : Nat) (data : Word64) (hn : n < 64) : (s.raiseD n obj cause aux8 data).sp = s.sp :=
  (raiseD_raised s n obj cause aux8 data hn).frame.sp
@[simp] theorem State.raiseD_pending (s : State) (n obj cause aux8 : Nat) (data : Word64) (hn : n < 64) : (s.raiseD n obj cause aux8 data).pending = s.pending :=
  (raiseD_raised s n obj cause aux8 data hn).frame.pending
@[simp] theorem State.raiseD_rd (s : State) (n obj cause aux8 : Nat) (data : Word64) (a : Nat) (hn : n < 64) (ha : eventReg a = false) :
    (s.raiseD n obj cause aux8 data).rd a = s.rd a := (raiseD_raised s n obj cause aux8 data hn).frame.rd a ha
@[simp] theorem State.raiseD_occ (s : State) (n obj cause aux8 : Nat) (data : Word64) (hn : n < 64) :
    (s.raiseD n obj cause aux8 data).rd (Reg.EV_OCC n) = s.rd (Reg.EV_OCC n) + 1 := (raiseD_raised s n obj cause aux8 data hn).occ
@[simp] theorem State.raiseD_fget (s : State) (n obj cause aux8 : Nat) (data : Word64) (a : Nat) (f : BitField) (hn : n < 64) (ha : eventReg a = false) :
    (s.raiseD n obj cause aux8 data).fget a f = s.fget a f := by simp [State.fget, hn, ha]
@[simp] theorem State.raiseD_flag (s : State) (n obj cause aux8 : Nat) (data : Word64) (a : Nat) (f : BitField) (hn : n < 64) (ha : eventReg a = false) :
    (s.raiseD n obj cause aux8 data).flag a f = s.flag a f := by simp [State.flag, hn, ha]

end Sys2Proof.Machine
end

