-- ==== Sys2Proof/Laws/Safe.lean ====
section
/-! SUPPORT. Refused writes, safe state and the causes, said once: what `accErr`, `enterSafe`, `retire` and `latchCause` can
do. -/

namespace Sys2Proof.Machine

/-! ## Refused writes -/

theorem State.accErr_flag (s : State) (w : Bool) (a : Nat) : (s.accErr w a).flag Reg.GLB_STAT Fld.GLB_STAT_acc_err = true :=
  State.flag_setFlag_same _ _ _ (by decide) (by decide) _

theorem State.accErr_rd (s : State) (w : Bool) (a b : Nat) (h1 : b ≠ Reg.GLB_STAT) (h2 : b ≠ Reg.GLB_ACCADDR) :
    (s.accErr w a).rd b = s.rd b := by
  unfold State.accErr
  rw [State.rd_setFlag_ne _ _ _ h1]
  split
  · rfl
  · exact State.rd_wr_ne _ _ h2

/-- A refused write changes GLB_STAT and GLB_ACCADDR alone. -/
theorem State.accErr_eq (s : State) (w : Bool) (a : Nat) : ∃ r, s.accErr w a = { s with regs := r } := by
  have one : ∀ (u : State) (x : Nat) (v : Word), ∃ r, u.wr x v = { u with regs := r } := fun _ _ _ => ⟨_, rfl⟩
  have two : ∀ (u : State) (x : Nat) (f : BitField) (b : Bool), ∃ r, u.setFlag x f b = { u with regs := r } :=
    fun _ _ _ _ => ⟨_, rfl⟩
  simp only [State.accErr]
  split
  · exact two ..
  · obtain ⟨r, h⟩ := one s Reg.GLB_ACCADDR (accWord w a)
    obtain ⟨r', h'⟩ := two ({ s with regs := r }) Reg.GLB_STAT Fld.GLB_STAT_acc_err true
    exact ⟨r', by rw [h, h']⟩

/-! ## Registers through loops of writes -/

/-- A property of both branches holds of the choice. -/
theorem ite_both {α : Type} (P : α → Prop) (c : Prop) [Decidable c] (a b : α) (h : P a) (k : P b) : P (if c then a else b) := by
  split
  · exact h
  · exact k


theorem State.foldl_wr_rd {α : Type} (l : List α) (f : State → α → State) (b : Nat)
    (h : ∀ (s : State) (x : α), x ∈ l → (f s x).rd b = s.rd b) (s : State) : (l.foldl f s).rd b = s.rd b := by
  induction l generalizing s with
  | nil => rfl
  | cons x t ih =>
    rw [List.foldl_cons, ih (fun s y hy => h s y (List.mem_cons_of_mem _ hy)), h s x (List.mem_cons_self ..)]

theorem State.foldl_field {α β : Type} (g : State → β) (l : List α) (f : State → α → State)
    (h : ∀ (s : State) (x : α), g (f s x) = g s) (s : State) : g (l.foldl f s) = g s := by
  induction l generalizing s with
  | nil => rfl
  | cons x t ih => rw [List.foldl_cons, ih, h]

/-- A loop that writes one register for each index leaves the word it wrote for index `j`. -/
theorem State.foldl_wr_at (n : Nat) (a : Nat → Nat) (w : State → Nat → Word) (s : State) (j : Nat) (hj : j < n)
    (inj : ∀ i, i < n → i ≠ j → a j ≠ a i)
    (stable : ∀ (s : State) (i : Nat), w (s.wr (a i) (w s i)) j = w s j) :
    ((List.range n).foldl (fun s i => s.wr (a i) (w s i)) s).rd (a j) = w s j := by
  have keep : ∀ m, m ≤ n → w ((List.range m).foldl (fun s i => s.wr (a i) (w s i)) s) j = w s j := by
    intro m hm
    induction m with
    | zero => rfl
    | succ m ih => rw [List.range_succ, List.foldl_append, List.foldl_cons, List.foldl_nil, stable, ih (by omega)]
  have : ∀ m, j < m → m ≤ n → ((List.range m).foldl (fun s i => s.wr (a i) (w s i)) s).rd (a j) = w s j := by
    intro m hm hn
    induction m with
    | zero => omega
    | succ m ih =>
      rw [List.range_succ, List.foldl_append, List.foldl_cons, List.foldl_nil]
      by_cases e : j = m
      · subst e; rw [State.rd_wr_same, keep _ (by omega)]
      · rw [State.rd_wr_ne _ _ (inj m (by omega) (Ne.symm e)), ih (by omega) (by omega)]
  exact this n hj (Nat.le_refl n)

/-! ## Safe state (R396, R411) -/

/-- The registers that loading the safe outputs writes. -/
def safeOutReg (a : Nat) : Bool :=
  (List.range 16).any (fun j => a == Reg.CE_AOCUR j) || (List.range 8).any (fun j => a == Reg.CE_PWMCUR j)

theorem State.loadSafeOutputs_spec (s : State) : ∃ r x, s.loadSafeOutputs = { s with regs := r, ce := x } := by
  have one : ∀ (l : List Nat) (s : State), ∃ r, l.foldl (fun s j => s.wr (Reg.CE_AOCUR j)
      (word (s.fget (Reg.CE_AOCFG j) Fld.CE_AOCFG_safe))) s = { s with regs := r } := by
    intro l
    induction l with
    | nil => intro s; exact ⟨_, rfl⟩
    | cons x t ih =>
      intro s
      obtain ⟨r, h⟩ := ih (s.wr (Reg.CE_AOCUR x) (word (s.fget (Reg.CE_AOCFG x) Fld.CE_AOCFG_safe)))
      exact ⟨r, by rw [List.foldl_cons, h]; rfl⟩
  have two : ∀ (l : List Nat) (s : State), ∃ r x, l.foldl (fun s j => s.pwmSteady j
      (s.fget (Reg.CE_PWMCFG j) Fld.CE_PWMCFG_safe)) s = { s with regs := r, ce := x } := by
    intro l
    induction l with
    | nil => intro s; exact ⟨_, _, rfl⟩
    | cons x t ih =>
      intro s
      obtain ⟨r, c, h⟩ := ih (s.pwmSteady x (s.fget (Reg.CE_PWMCFG x) Fld.CE_PWMCFG_safe))
      exact ⟨r, c, by rw [List.foldl_cons, h]; rfl⟩
  obtain ⟨r, h⟩ := one (List.range 16) s
  obtain ⟨r', c, h'⟩ := two (List.range 8) ((List.range 16).foldl (fun s j => s.wr (Reg.CE_AOCUR j)
    (word (s.fget (Reg.CE_AOCFG j) Fld.CE_AOCFG_safe))) s)
  exact ⟨r', c, by rw [State.loadSafeOutputs, h', h]⟩

@[simp] theorem State.loadSafeOutputs_sv (s : State) : s.loadSafeOutputs.sv = s.sv := by
  obtain ⟨r, x, h⟩ := s.loadSafeOutputs_spec; rw [h]

theorem State.loadSafeOutputs_rd (s : State) (a : Nat) (h : safeOutReg a = false) : s.loadSafeOutputs.rd a = s.rd a := by
  simp only [safeOutReg, Bool.or_eq_false_iff, List.any_eq_false, List.mem_range, beq_iff_eq] at h
  unfold State.loadSafeOutputs
  rw [State.foldl_wr_rd, State.foldl_wr_rd]
  · intro s j hj; exact State.rd_wr_ne _ _ (h.1 j (List.mem_range.mp hj))
  · intro s j hj
    exact State.rd_wr_ne _ _ (h.2 j (List.mem_range.mp hj))

/-- Entry to safe state: the output enables are low, a release in progress is withdrawn, and nothing else of the supervisor
changes but SAFE_N. -/
theorem State.enterSafe_sv (s : State) : s.enterSafe.sv.safe = true ∧ s.enterSafe.sv.oen = 0
    ∧ s.enterSafe.sv.releasePend = false ∧ s.enterSafe.sv.ilkO = s.sv.ilkO ∧ s.enterSafe.sv.twin = s.sv.twin
    ∧ (s.mayPull = true → s.enterSafe.sv.pulls = true ∧ s.enterSafe.sv.safeN = false) := by
  unfold State.enterSafe State.pullSafeN
  cases hp : s.mayPull <;> cases hs : s.sv.safe <;> simp [hs]

theorem State.enterSafe_rd (s : State) (a : Nat) (h : safeOutReg a = false) (h2 : a ≠ Reg.SV_SAFECNT) :
    s.enterSafe.rd a = s.rd a := by
  unfold State.enterSafe
  have p : (if s.mayPull = true then s.pullSafeN true else s).rd a = s.rd a := by split <;> rfl
  generalize (if s.mayPull = true then s.pullSafeN true else s) = u at p ⊢
  simp only []
  split
  · exact p
  · rw [State.loadSafeOutputs_rd _ _ h, State.incSat, State.rd_wr_ne _ _ h2]; exact p

theorem State.retire_sv (s : State) : s.retire.sv.safe = true ∧ s.retire.sv.oen = 0 ∧ s.retire.sv.ilkO = false
    ∧ s.retire.sv.pulls = false := by
  unfold State.retire State.pullSafeN
  cases hs : s.sv.safe <;> cases hp : s.sv.pulls <;> simp [State.setRole, hs, hp]

theorem State.retire_rd (s : State) (a : Nat) (h : safeOutReg a = false) (h2 : a ≠ Reg.SV_SAFECNT) (h3 : a ≠ Reg.SV_TWSTAT) :
    s.retire.rd a = s.rd a := by
  unfold State.retire
  have base : ((s.setRole 5).setFlag Reg.SV_TWSTAT Fld.SV_TWSTAT_p_ready false).rd a = s.rd a := by
    rw [State.rd_setFlag_ne _ _ _ h3]; exact State.rd_fput_ne _ _ _ h3
  generalize (s.setRole 5).setFlag Reg.SV_TWSTAT Fld.SV_TWSTAT_p_ready false = u at base ⊢
  have key : ∀ v : State, v.rd a = s.rd a →
      (if v.sv.safe = true then v else (({ v with sv := { v.sv with safe := true } } : State).incSat Reg.SV_SAFECNT 1).loadSafeOutputs).rd a
        = s.rd a := by
    intro v hv
    split
    · exact hv
    · rw [State.loadSafeOutputs_rd _ _ h, State.incSat, State.rd_wr_ne _ _ h2]; exact hv
  refine key _ ?_
  split
  · exact base
  · exact base

/-! ## Causes (R395) -/

theorem State.hasCause_iff (s : State) (b : Nat) : s.hasCause b = (s.rd Reg.SV_CAUSE).getLsbD b := rfl

theorem State.latchCause_held (s : State) (b : Nat) (h : s.hasCause b = true) : s.latchCause b = s := by
  simp [State.latchCause, h]

/-- What latching a cause can do: as `Latches` says. -/
theorem State.latchCause_latches (s : State) (b : Nat) (hb : b < 32) (h : s.hasCause b = false) : Latches b s (s.latchCause b) := by
  unfold State.latchCause
  rw [if_neg (by simp [h])]
  simp only []
  generalize hu : (if s.flag Reg.SV_FIRST Fld.SV_FIRST_valid = true then
    (s.wr Reg.SV_CAUSE (s.rd Reg.SV_CAUSE ||| (1#32 <<< b)))
    else (s.wr Reg.SV_CAUSE (s.rd Reg.SV_CAUSE ||| (1#32 <<< b))).wr Reg.SV_FIRST (causeWord b s.frameData.toNat)) = u
  have hflag : (s.wr Reg.SV_CAUSE (s.rd Reg.SV_CAUSE ||| (1#32 <<< b))).flag Reg.SV_FIRST Fld.SV_FIRST_valid
      = s.flag Reg.SV_FIRST Fld.SV_FIRST_valid := by
    simp [State.flag, State.fget, State.rd_wr_ne s _ (show Reg.SV_FIRST ≠ Reg.SV_CAUSE by decide)]
  have hrun : (s.wr Reg.SV_CAUSE (s.rd Reg.SV_CAUSE ||| (1#32 <<< b))).running = s.running := by
    unfold State.running State.flag State.fget
    rw [State.rd_wr_ne _ _ (by decide)]
  have hno : (s.wr Reg.SV_CAUSE (s.rd Reg.SV_CAUSE ||| (1#32 <<< b))).frameData = s.frameData := by
    unfold State.frameData State.rd64
    rw [hrun, State.rd_wr_ne _ _ (by decide), State.rd_wr_ne _ _ (by decide)]
  rw [hflag, hno, hu]
  have ucause : u.rd Reg.SV_CAUSE = s.rd Reg.SV_CAUSE ||| (1#32 <<< b) := by
    subst hu; split
    · exact State.rd_wr_same _ _ _
    · rw [State.rd_wr_ne _ _ (by decide)]; exact State.rd_wr_same _ _ _
  have ufirst : u.rd Reg.SV_FIRST = if s.flag Reg.SV_FIRST Fld.SV_FIRST_valid then s.rd Reg.SV_FIRST
      else causeWord b s.frameData.toNat := by
    subst hu; split
    · exact State.rd_wr_ne _ _ (by decide)
    · exact State.rd_wr_same _ _ _
  have uocc : u.rd (Reg.EV_OCC 35) = s.rd (Reg.EV_OCC 35) := by
    subst hu; split
    · exact State.rd_wr_ne _ _ (by decide)
    · rw [State.rd_wr_ne _ _ (by decide)]; exact State.rd_wr_ne _ _ (by decide)
  have usv : u.sv = s.sv := hu ▸ ite_both (fun v : State => v.sv = s.sv) _ _ _ (by simp) (by simp)
  have upw : u.pw = s.pw := hu ▸ ite_both (fun v : State => v.pw = s.pw) _ _ _ (by simp) (by simp)
  have run : (u.raise 35 0 b).inRun = s.inRun := by
    simp [State.inRun, upw]
  have key : ∀ v : State, (∀ a, (a = Reg.SV_CAUSE ∨ a = Reg.SV_FIRST ∨ a = Reg.EV_OCC 35) → v.rd a = (u.raise 35 0 b).rd a) →
      (s.inRun = true → v.sv.safe = true ∧ v.sv.oen = 0) → (s.inRun = false → v.sv = s.sv) → Latches b s v := by
    intro v hv h1 h2
    have c : v.rd Reg.SV_CAUSE = s.rd Reg.SV_CAUSE ||| (1#32 <<< b) := by
      rw [hv _ (Or.inl rfl), State.raise_rd _ _ _ _ _ (by decide) (by decide), ucause]
    have f := hv _ (Or.inr (Or.inl rfl))
    rw [State.raise_rd _ _ _ _ _ (by decide) (by decide), ufirst] at f
    have o := hv _ (Or.inr (Or.inr rfl))
    rw [State.raise_occ _ _ _ _ (by decide), uocc] at o
    refine ⟨?_, ?_, f, o, h1, h2⟩
    · rw [State.hasCause, c]; simp [hb]
    · intro k hk
      rw [State.hasCause, State.hasCause, c]
      simp only [BitVec.getLsbD_or, BitVec.getLsbD_shiftLeft, BitVec.getLsbD_one]
      by_cases h1 : k < b
      · simp [h1]
      · have : k - b ≠ 0 := by omega
        simp [this]
  rw [run]
  cases hr : s.inRun
  · simp only [Bool.false_eq_true, if_false]
    exact key _ (fun a _ => rfl) (by simp [hr]) (fun _ => by simp [usv])
  · simp only [if_true]
    split
    · refine key _ ?_ (fun _ => ⟨(State.retire_sv _).1, (State.retire_sv _).2.1⟩) (by simp [hr])
      intro a ha
      rcases ha with rfl | rfl | rfl <;> exact State.retire_rd _ _ (by decide) (by decide) (by decide)
    · refine key _ ?_ (fun _ => ⟨(State.enterSafe_sv _).1, (State.enterSafe_sv _).2.1⟩) (by simp [hr])
      intro a ha
      rcases ha with rfl | rfl | rfl <;> exact State.enterSafe_rd _ _ (by decide) (by decide)

end Sys2Proof.Machine
end

