-- ==== Sys2Proof/Tests/Slice0.lean ====
section
/-! SUPPORT. The model's own tests: well-formedness refuses an ill-formed command for each check, small runs of single commands
against figures of the spec, and for each statement with hypotheses a witness that meets them, clause by clause where the
clauses' conditions differ (a clause whose conditions are part of another clause's shares its witness). -/

namespace Sys2Proof.Tests

open Sys2Proof.Machine Sys2Proof.Machine.Reg Sys2Proof.Machine.Fld

/-- The reset state with some fields of registers set. -/
def tSet (l : List (Nat × BitField × Nat)) (s : State) : State := l.foldl (fun s e => s.fput e.1 e.2.1 e.2.2) s

/-- A head in a power state, with some fields of registers set. -/
def tIn (p : Power) (l : List (Nat × BitField × Nat)) : State :=
  tSet l { State.reset with pw := { State.reset.pw with power := p } }

/-- A head that runs frames. -/
def tOn (l : List (Nat × BitField × Nat)) : State := tSet [(FR_STAT, FR_STAT_running, 1)] (tIn .run l)

/-- A member at address 1. -/
def tMember (p : Power) (l : List (Nat × BitField × Nat)) : State :=
  { tIn p l with pw := { (tIn p l).pw with headSel := false, hubAddr := 1 } }

/-- A furrow without items, with one descriptor to fetch. -/
def tFu (k : FurrowKind) (handle : Word) : Furrow :=
  { kind := k, handle := handle, lsize := 4, vector := 0, irqAll := false, descRing := 0, cplRing := 0, frames := 1, mask := 1
    prod := 1, nextFetch := 0, nextPost := 0, items := [], stalled := false, failed := false, emptyEp := false, from? := none
    openFrames := [], blocks := [], gapRun := false, parts := [], twin := false }

/-- A state whose host engine is up, with some furrows. -/
def tHost (s : State) (l : KMap Furrow) : State :=
  let u := tSet [(HI_CTL, HI_CTL_en, 1), (HI_STAT, HI_STAT_up, 1)] s
  { u with pw := { u.pw with d0 := true }, hi := { u.hi with furrows := l } }

/-- A descriptor of zeros, and an item. -/
def tDesc : Desc := { flags := 0, param := 0, w1 := 0, w2 := 0, w3 := 0, w4 := 0, w5 := 0, w6 := 0, w7 := 0 }
def tItem (op : Byte) (d : Desc) : Item :=
  { seq := 0, op := op, desc := d, block := none, st := .active, wrote := 0, recs := 0, refused := none }

/-- A state whose vault is operational and serves a request of a service and a length. -/
def tVault (p : Power) (code len : Nat) (req : KMap Word) : State :=
  let u := tSet [(VT_STAT, VT_STAT_state, 1), (MB_STAT, MB_STAT_busy, 1), (MB_CMD, MB_CMD_service, code)] (tIn p [])
  { u.wr MB_REQLEN (word len) with vt := { u.vt with req := req } }

def tView : RingView :=
  { members := [], twoHeads := false, sameStrap := none, over48 := false, headPorts := [], partnerInRing := false, partnerPri := false
    partnerConfig := [], partnerEpoch := 0 }

/-- A hub in Idle for which every condition of the consistency check holds. -/
def tReady (head : Bool) : State :=
  let u := tHost (tSet [(TB_STAT, TB_STAT_ref_ok, 1), (LN_STAT, LN_STAT_state, 2), (LN_PSTAT 0, LN_PSTAT_state, 3)] (tIn .idle [])) []
  let v := u.wr HI_DB_LO 0x1000#32
  { v with
    pw := { v.pw with checking := true, headSel := head, hubAddr := if head then 0 else 3 }
    tb := { v.tb with linkU := { v.tb.linkU with means := [5] }, linkD := { v.tb.linkD with means := [5] } }
    ln := { v.ln with position := if head then 0 else 1, map := [(0, 0), (3, 1)] } }

def tPlot : Plot :=
  { seq := 0, source := 0, tp := 0, j := 0, coin := 0, drillCh := 0, drillOff := 0, flags := 0, pre := 1, post := 1, rows := []
    written := 2, viol := none, eccRow := none, pendRows := [], pendFirst := 0 }
def tPart : Part :=
  { unit := 7, plotSeq := 0, bytes := [], sent := 0, last := true, eccAt := none, fifo := 0, slot := false
    entry := none }
def tEv : EvRec := { src := 63, hub := 0, rflags := 0, occ := 0, time := 0, obj := 0, cause := 0, aux8 := 0, data := 0 }
def tHdr : PtpHdr := { domain := 3, udp := false, source := 0 }
def tGm (id : Word64) (pri : Byte) : Announce :=
  { hdr := tHdr, identity := id, priority1 := pri, clockClass := 0, accuracy := 0, variance := 0, priority2 := 0, steps := 0, utcOffset := 0
    traceable := true, ptpTimescale := true }
def tStamp : Stamp := { count := 0, frac := 0 }
def tPtp : PtpTime := { sec := 0, ns := 999999999, frac := 0 }
def tParams (m : BitVec 14) : RingParams :=
  { m := m, epoch := 0, tickS := 9, latency := 0, auth := false, started := true, cut := none }
def tAgree : Agree := { priv := [], offer := [], partner := [1] }
def tFrame (n : Word64) (cause : Word) : TwinFrameIn := { frame := n, loops := [], inputs := [], cause := cause, leaving := false }
def tCtl : LinkCtlIn :=
  { ack := 0, nak := false, hold := false, release := false, loopback := false, lanes := 3, serial := 2, strap := 1, headSel := false
    auth := false, src := 1 }
def tReroute (x y : Nat) : Reroute := { x := x, y := y, holdsOwn := false, noticed := true, flushed := false, held := [] }

/-- A ring of four hubs, this one the head, both ports up. -/
def tRing (l : List (Nat × BitField × Nat)) : State :=
  let u := tIn .idle ([(LN_STAT, LN_STAT_state, 2), (LN_PSTAT 0, LN_PSTAT_state, 3), (LN_PSTAT 0, LN_PSTAT_in_service, 3)
                     , (LN_PSTAT 1, LN_PSTAT_state, 3), (LN_PSTAT 1, LN_PSTAT_in_service, 3), (LN_PCFG 0, LN_PCFG_lanes, 3)
                     , (LN_PCFG 1, LN_PCFG_lanes, 3)] ++ l)
  { u with ln := { u.ln with map := [(0, 0), (1, 1), (2, 2), (3, 3)] } }
/-- That ring with the state of one port. -/
def tPort (p : Nat) (x : PortSt) (l : List (Nat × BitField × Nat)) : State :=
  { tRing l with ln := { (tRing l).ln with ports := [(p, x)] } }
/-- A cell as two lanes in service bring it. -/
def tLane (bs : List Byte) : LaneRx :=
  { past := 0, level := false, run := 0, bits := (LaneTx.send { past := 0, level := false, run := 0 } bs).1 }
def tCell (bs : List Byte) : CellRx := { lane0 := tLane (laneGroups 2 0 bs), lane1 := tLane (laneGroups 2 1 bs) }
/-- A hub of a twin pair in Run. -/
def tTwin (role : Nat) (f : TwinSt → TwinSt) (l : List (Nat × BitField × Nat)) : State :=
  let u := tOn ([(SV_TWCFG, SV_TWCFG_en, 1), (SV_TWSTAT, SV_TWSTAT_role, role)] ++ l)
  { u with sv := { u.sv with twin := f u.sv.twin } }

/-! ## Witnesses -/

set_option maxRecDepth 20000
set_option Elab.async false

theorem fetches_iff (s : State) (f : Nat) (fu : Furrow) :
    Fetches s f fu ↔ s.furrow? f = some fu ∧ fu.items = [] ∧ s.mayFetch fu = true :=
  ⟨fun h => ⟨h.listed, h.empty, h.may⟩, fun h => ⟨h.1, h.2.1, h.2.2⟩⟩

theorem ucodeAsks_iff (s : State) (step len : Nat) :
    UcodeAsks s step len ↔ s.serving 0x26 = true ∧ s.vaultInError = false ∧ s.inIdle = true
      ∧ ((s.mbReq 16).getD 0 0).toNat = step ∧ ofLe (slice (s.mbReq 16) 1 3) = 0 ∧ ofLe (slice (s.mbReq 16) 12 4) = 0
      ∧ (step ≠ 2 → ofLe (slice (s.mbReq 16) 8 4) = 0) ∧ (step = 3 → ofLe (slice (s.mbReq 16) 4 4) = 0) ∧ s.mbLen = len :=
  ⟨fun h => ⟨h.serving, h.ok, h.idle, h.isStep, h.low, h.high, h.data, h.last, h.len⟩,
    fun h => ⟨h.1, h.2.1, h.2.2.1, h.2.2.2.1, h.2.2.2.2.1, h.2.2.2.2.2.1, h.2.2.2.2.2.2.1, h.2.2.2.2.2.2.2.1,
      h.2.2.2.2.2.2.2.2⟩⟩

theorem firstBad_eq_none (l : List Nat) (ok : Nat → Bool) (h : ∀ i ∈ l, ok i = true) : firstBad l ok = none :=
  List.find?_eq_none.mpr fun i hi => by simp [h i hi]

/-- The ideal image: no word written by hand. -/
def tIdeal : Image := { ideal := true, words := [] }

theorem ideal_entry (serial : Word64) (i k : Nat) (hi : i < 2048) (h7 : i % 8 < 7) (hk : k < 7) :
    tIdeal.rd serial (0x1000 + i / 8 * 0xE0 + i % 8 * 0x20 + 4 * k) = if k = 1 then 0x40000000#32 else 0 := by
  have hm : (0x1000 + i / 8 * 0xE0 + i % 8 * 0x20 + 4 * k - 0x1000) % 0xE0 % 0x20 = 4 * k := by omega
  have hlo : 0x1000 ≤ 0x1000 + i / 8 * 0xE0 + i % 8 * 0x20 + 4 * k := by omega
  have hhi : 0x1000 + i / 8 * 0xE0 + i % 8 * 0x20 + 4 * k < 0xF000 := by omega
  have h0 : ∀ c < 0x1000, 0x1000 + i / 8 * 0xE0 + i % 8 * 0x20 + 4 * k ≠ c := by omega
  show idealWord serial _ = _
  unfold idealWord
  rw [if_neg (h0 _ (by decide)), if_neg (h0 _ (by decide)), if_neg (h0 _ (by decide)), if_neg (h0 _ (by decide)), hm]
  rw [if_pos (by simp [hlo, hhi])]
  by_cases hk1 : k = 1
  · subst hk1; rfl
  · rw [if_neg hk1, if_neg (by omega)]

theorem ideal_reserved (serial : Word64) (i : Nat) (h : calReserved (4 * i) = true) : tIdeal.rd serial (4 * i) = 0#32 := by
  show idealWord serial _ = _
  simp only [calReserved, Bool.or_eq_true, Bool.and_eq_true, decide_eq_true_eq] at h
  unfold idealWord
  repeat rw [if_neg (by first | omega | (simp; omega))]
  rfl

/-- The ideal image passes every plausibility check, of the hub with the serial number 1. -/
theorem calFailure_ideal (serial : Word64) (hs : serial = 1) (wr : Nat) (h : wr < 100000) :
    calFailure tIdeal serial wr = none := by
  subst hs
  have he : ∀ i ∈ (List.range 2048).filter (fun i => i % 8 < 7), i < 2048 ∧ i % 8 < 7 := by
    intro i hi; simpa using hi
  unfold calFailure
  have h3 := firstBad_eq_none ((List.range 2048).filter (fun i => i % 8 < 7)) (fun i => withinI (tIdeal.rd 1 (0x1000 + i / 8 * 0xE0 + i % 8 * 0x20 + 4 * 0)) 2147484)
    (fun i hi => by rw [ideal_entry 1 i 0 (he i hi).1 (he i hi).2 (by decide)]; decide)
  have h4 := firstBad_eq_none ((List.range 2048).filter (fun i => i % 8 < 7)) (fun i => gainOk (tIdeal.rd 1 (0x1000 + i / 8 * 0xE0 + i % 8 * 0x20 + 4 * 1)))
    (fun i hi => by rw [ideal_entry 1 i 1 (he i hi).1 (he i hi).2 (by decide)]; decide)
  have h5 := firstBad_eq_none ((List.range 2048).filter (fun i => i % 8 < 7)) (fun i => [2, 3, 4, 5, 6].all (fun k => withinI (tIdeal.rd 1 (0x1000 + i / 8 * 0xE0 + i % 8 * 0x20 + 4 * k)) 21475))
    (fun i hi => by
      rw [List.all_eq_true]
      intro k hk
      have hk : k < 7 ∧ k ≠ 1 := by simp at hk; omega
      rw [ideal_entry 1 i k (he i hi).1 (he i hi).2 hk.1, if_neg hk.2]; decide)
  have h10 := firstBad_eq_none (List.range 15872) (fun i => !calReserved (4 * i) || tIdeal.rd 1 (4 * i) == 0#32)
    (fun i _ => by
      cases h : calReserved (4 * i)
      · rfl
      · rw [ideal_reserved 1 i h]; rfl)
  simp only [h3, h4, h5, h10, Option.map_none]
  have h8 : firstBad (List.range 12) (fun e =>
      let x := if e < 4 then (tIdeal.rd 1 (0xF000 + 4 * e)).toNat else (tIdeal.rd 1 (0xF020 + 4 * (e - 4))).toNat
      decide (x % 65536 < 2 ^ (if e < 4 then 8 else 10)) && decide (x / 2 ^ 24 = 0)
        && decide (x / 65536 ≤ (if e < 4 then 24 else 40))) = none := by decide +kernel
  have h6 : firstBad (List.range 32) (fun g => decide ((tIdeal.rd 1 (0xF100 + 8 * g)).toNat ≤ 0x20000)
      && gainOk (tIdeal.rd 1 (0xF104 + 8 * g))) = none := by decide +kernel
  have h7 : firstBad (List.range 16) (fun j => gainOk (tIdeal.rd 1 (0xF200 + 8 * j))
      && withinI (tIdeal.rd 1 (0xF204 + 8 * j)) 4294967) = none := by decide +kernel
  simp only [h6, h7, h8, h, Option.map_none]
  rfl

/-- A hub whose signed commit is armed for the staged ideal image. -/
def tArmed (u : State) : State := { u with vt := { u.vt with armed := some (1, u.stageHash tIdeal) } }
theorem tArmed_armed (u : State) : (tArmed u).vt.armed = some (1, (tArmed u).stageHash tIdeal) := rfl

/-- A snapshot of a hub's own configuration and calibration epoch 1. -/
def tSnap (u : State) : SnapshotIn :=
  { loops := [], queue := [], furrows := [], doorbell := 0, epoch := 1, config := u.twinHash, start := 9, safe := false }
theorem tSnap_config (u : State) : u.twinHash = (tSnap u).config := rfl

theorem tReady_member : refusalOf (orderConds ((tReady false).checkConds tView)) = none := by decide +kernel

/-- Witnesses for the hypotheses of `DieLink`. -/
theorem witness_DieLink :
    (∃ (s : State),
        s.alive = true ∧ s.pw.inReset = false)
    ∧ (∃ (s : State),
        s.chainCheckOk = false)
    ∧ (∃ (s : State),
        s.chainCheckOk = true ∧ s.flag Reg.GL_REQ Fld.GL_REQ_go = false)
    ∧ (∃ (s : State),
        s.flag Reg.GLB_REQ Fld.GLB_REQ_go = true ∧ s.pw.reqTargets = [] ∧ s.pw.reqResult < 8)
    ∧ (∃ (s : State),
        s.flag Reg.GLB_REQ Fld.GLB_REQ_go = false) :=
  ⟨⟨State.reset, by decide +kernel⟩,
   ⟨tIn .hold [], by decide +kernel⟩,
   ⟨tIn .idle [], by decide +kernel⟩,
   ⟨{ tIn .idle [(GLB_REQ, GLB_REQ_go, 1)] with pw := { (tIn .idle []).pw with reqResult := 7 } }, by decide +kernel⟩,
   ⟨State.reset, by decide +kernel⟩⟩

/-- Witnesses for the hypotheses of `ConfigWrites`. -/
theorem witness_ConfigWrites :
    (∃ (s : State) (n : BitVec 8) (reg : BitVec 3) (val : Word),
        let off := Reg.IN_CFG n.toNat + 4 * reg.toNat
        let v := val &&& inMask n.toNat reg.toNat
        let keeps := ¬ (s.pended.inEn n.toNat = true ∧ (s.pended.wr off v).inEn n.toNat = false ∧ s.sampled n.toNat = true)
        s.inRun = false ∧ keeps)
    ∧ (∃ (s : State) (n : BitVec 8) (reg : BitVec 3) (val : Word),
        let off := Reg.IN_CFG n.toNat + 4 * reg.toNat
        let v := val &&& inMask n.toNat reg.toNat
        let keeps := ¬ (s.pended.inEn n.toNat = true ∧ (s.pended.wr off v).inEn n.toNat = false ∧ s.sampled n.toNat = true)
        let good := codesOk (s.pended.wr off v) n.toNat reg.toNat && State.inputOk s.pended (s.pended.wr off v) n.toNat
        let loses := s.pended.inEn n.toNat = true ∧ (s.pended.wr off v).inEn n.toNat = false ∧ s.captured n.toNat = true
        s.inRun = true ∧ keeps ∧ (¬ loses) ∧ good = true)
    ∧ (∃ (s : State) (n : BitVec 8) (reg : BitVec 3) (val : Word),
        let off := Reg.IN_CFG n.toNat + 4 * reg.toNat
        let v := val &&& inMask n.toNat reg.toNat
        let good := codesOk (s.pended.wr off v) n.toNat reg.toNat && State.inputOk s.pended (s.pended.wr off v) n.toNat
        let loses := s.pended.inEn n.toNat = true ∧ (s.pended.wr off v).inEn n.toNat = false ∧ s.captured n.toNat = true
        s.inRun = true ∧ (loses ∨ good = false))
    ∧ (∃ (s : State) (n : BitVec 8) (reg : BitVec 3) (val : Word),
        let off := Reg.IN_CFG n.toNat + 4 * reg.toNat
        let v := val &&& inMask n.toNat reg.toNat
        let keeps := ¬ (s.pended.inEn n.toNat = true ∧ (s.pended.wr off v).inEn n.toNat = false ∧ s.sampled n.toNat = true)
        ¬ keeps)
    ∧ (∃ (s : State) (val : Word),
        s.inRun = true ∧ (s.pended.wr Reg.FE_CTL (val &&& 3#32)).dieOver = [])
    ∧ (∃ (s : State) (val : Word),
        s.inRun = true ∧ (s.pended.wr Reg.FE_CTL (val &&& 3#32)).dieOver ≠ [])
    ∧ (∃ (s : State) (n : BitVec 8),
        s.chainOn = true ∧ s.inEn n.toNat = false)
    ∧ (∃ (s : State) (n : BitVec 8),
        s.chainOn = true ∧ s.inEn n.toNat = true ∧ s.dieEn (n.toNat / 128) = false)
    ∧ (∃ (s : State) (n : BitVec 8),
        s.inEn n.toNat = true ∧ s.dieEn (n.toNat / 128) = true ∧ s.sensing n.toNat = false ∧ s.pullOn n.toNat = false ∧ s.inMode
            n.toNat = 0)
    ∧ (∃ (s : State) (n : BitVec 8),
        s.inEn n.toNat = true ∧ s.dieEn (n.toNat / 128) = true ∧ s.sensing n.toNat = false ∧ s.pullOn n.toNat = false ∧
            (s.inMode n.toNat = 1 ∨ s.inMode n.toNat = 2)) :=
  ⟨⟨tIn .idle [], 255, 4, 0xFFFFFFFF#32, by decide +kernel⟩,
   ⟨tIn .run [], 255, 4, 0, by decide +kernel⟩,
   ⟨tIn .run [], 0, 0, 0xFFFFFFFF#32, by decide +kernel⟩,
   ⟨tHost (tIn .run [(IN_CFG 0, IN_CFG_en, 1)]) [(1, tFu .sample 0x101#32)], 0, 0, 0, by decide +kernel⟩,
   ⟨tIn .run [], 3#32, by decide +kernel⟩,
   ⟨tIn .run ((List.range 6).flatMap (fun k => [(IN_CFG k, IN_CFG_en, 1), (IN_EXC k, IN_EXC_rmin, 1)])), 1#32,
       by decide +kernel⟩,
   ⟨tIn .run [(IN_CFG 0, IN_CFG_en, 0)], 255, by decide +kernel⟩,
   ⟨tIn .run [(IN_CFG 255, IN_CFG_en, 1), (FE_CTL, FE_CTL_die_b_en, 0)], 255, by decide +kernel⟩,
   ⟨tIn .run [(IN_CFG 255, IN_CFG_en, 1), (FE_CTL, FE_CTL_die_b_en, 1), (IN_CFG 255, IN_CFG_mode, 0)], 255, by decide +kernel⟩,
   ⟨tIn .run [(IN_CFG 255, IN_CFG_en, 1), (FE_CTL, FE_CTL_die_b_en, 1), (IN_CFG 255, IN_CFG_mode, 2)], 255, by decide +kernel⟩⟩

/-- Witnesses for the hypotheses of `Blanking`. -/
theorem witness_Blanking :
    (∃ (s : State) (b : BitVec 2),
        let x := s.blank b.toNat
        s.alive = true ∧ s.flag (Reg.FE_BLANKCFG b.toNat) Fld.FE_BLANKCFG_en = true ∧ x.asserted = false ∧ x.active = false)
    ∧ (∃ (s : State) (b : BitVec 2) (w : Nat) (l : Nat),
        let x := s.blank b.toNat
        s.alive = true ∧ s.flag (Reg.FE_BLANKCFG b.toNat) Fld.FE_BLANKCFG_en = true ∧ x.asserted = false ∧ x.active = true ∧
            x.last = some l ∧ w + 2 ≤ l + 1)
    ∧ (∃ (s : State) (b : BitVec 2) (w : Nat) (l : Nat),
        let x := s.blank b.toNat
        s.alive = true ∧ s.flag (Reg.FE_BLANKCFG b.toNat) Fld.FE_BLANKCFG_en = true ∧ x.asserted = false ∧ x.active = true ∧
            x.last = some l ∧ l + 1 < w + 2)
    ∧ (∃ (s : State) (b : BitVec 2) (w : Nat),
        let x := s.blank b.toNat
        let ext := s.fget (Reg.FE_BLANKCFG b.toNat) Fld.FE_BLANKCFG_ext
        s.alive = true ∧ x.asserted = true ∧ w + ext ≤ x.first)
    ∧ (∃ (s : State) (b : BitVec 2) (w : Nat),
        let x := s.blank b.toNat
        let ext := s.fget (Reg.FE_BLANKCFG b.toNat) Fld.FE_BLANKCFG_ext
        s.alive = true ∧ x.asserted = true ∧ x.first < w + ext ∧ 0 < ext)
    ∧ (∃ (s : State) (b : BitVec 2) (w : Nat),
        let x := s.blank b.toNat
        let ext := s.fget (Reg.FE_BLANKCFG b.toNat) Fld.FE_BLANKCFG_ext
        s.alive = true ∧ x.asserted = true ∧ x.first < w ∧ ext = 0)
    ∧ (∃ (s : State) (b : BitVec 2) (l : Nat),
        let x := s.blank b.toNat
        x.active = true ∧ x.last = some l ∧ x.first ≤ l)
    ∧ (∃ (s : State) (b : BitVec 2),
        let x := s.blank b.toNat
        x.active = true ∧ x.longRaised = false ∧ s.blankLongLimit ≠ 0 ∧ s.blankLongLimit ≤ x.frames + 1) :=
  ⟨⟨{ tOn [(FE_BLANKCFG 3, FE_BLANKCFG_en, 1), (FE_BLANKCFG 3, FE_BLANKCFG_ext, 0), (FE_BLANKLONG, FE_BLANKLONG_long, 1)] with fe := { State.reset.fe with blanks := [(3, { BlankSt.init with asserted := false, active := false, first := 2, last := none })] } },
      3, by decide +kernel⟩,
   ⟨{ tOn [(FE_BLANKCFG 3, FE_BLANKCFG_en, 1), (FE_BLANKCFG 3, FE_BLANKCFG_ext, 1), (FE_BLANKLONG, FE_BLANKLONG_long, 1)] with fe := { State.reset.fe with blanks := [(3, { BlankSt.init with asserted := false, active := true, first := 2, last := some 9 })] } },
       3, 5, 9, by decide +kernel⟩,
   ⟨{ tOn [(FE_BLANKCFG 3, FE_BLANKCFG_en, 1), (FE_BLANKCFG 3, FE_BLANKCFG_ext, 1), (FE_BLANKLONG, FE_BLANKLONG_long, 1)] with fe := { State.reset.fe with blanks := [(3, { BlankSt.init with asserted := false, active := true, first := 2, last := some 2 })] } },
       3, 3, 2, by decide +kernel⟩,
   ⟨{ tOn [(FE_BLANKCFG 3, FE_BLANKCFG_en, 1), (FE_BLANKCFG 3, FE_BLANKCFG_ext, 1), (FE_BLANKLONG, FE_BLANKLONG_long, 1)] with fe := { State.reset.fe with blanks := [(3, { BlankSt.init with asserted := true, active := true, first := 2, last := none })] } },
       3, 1, by decide +kernel⟩,
   ⟨{ tOn [(FE_BLANKCFG 3, FE_BLANKCFG_en, 1), (FE_BLANKCFG 3, FE_BLANKCFG_ext, 1), (FE_BLANKLONG, FE_BLANKLONG_long, 1)] with fe := { State.reset.fe with blanks := [(3, { BlankSt.init with asserted := true, active := true, first := 2, last := none })] } },
       3, 2, by decide +kernel⟩,
   ⟨{ tOn [(FE_BLANKCFG 3, FE_BLANKCFG_en, 1), (FE_BLANKCFG 3, FE_BLANKCFG_ext, 0), (FE_BLANKLONG, FE_BLANKLONG_long, 1)] with fe := { State.reset.fe with blanks := [(3, { BlankSt.init with asserted := true, active := true, first := 2, last := none })] } },
       3, 3, by decide +kernel⟩,
   ⟨{ tOn [(FE_BLANKCFG 3, FE_BLANKCFG_en, 1), (FE_BLANKCFG 3, FE_BLANKCFG_ext, 1), (FE_BLANKLONG, FE_BLANKLONG_long, 1)] with fe := { State.reset.fe with blanks := [(3, { BlankSt.init with asserted := false, active := true, first := 2, last := some 2 })] } },
       3, 2, by decide +kernel⟩,
   ⟨{ tOn [(FE_BLANKCFG 3, FE_BLANKCFG_en, 1), (FE_BLANKCFG 3, FE_BLANKCFG_ext, 1), (FE_BLANKLONG, FE_BLANKLONG_long, 1)] with fe := { State.reset.fe with blanks := [(3, { BlankSt.init with asserted := true, active := true, first := 2, last := none })] } },
       3, by decide +kernel⟩⟩

/-- Witnesses for the hypotheses of `BrokenWires`. -/
theorem witness_BrokenWires :
    (∃ (s : State) (n : BitVec 8),
        let i := n.toNat
        let x := s.inSt i
        s.acquiring i = true ∧ s.inMode i = 0 ∧ x.complEp = true)
    ∧ (∃ (s : State) (n : BitVec 8),
        let i := n.toNat
        let x := s.inSt i
        s.acquiring i = true ∧ s.inMode i = 0 ∧ x.complEp = false)
    ∧ (∃ (s : State) (n : BitVec 8),
        let i := n.toNat
        s.acquiring i = true ∧ ((s.inPull i = 1 ∨ s.inPull i = 2)) ∧ ((s.inMode i = 0 ∨ s.inMode i = 1)))
    ∧ (∃ (s : State) (n : BitVec 8),
        let i := n.toNat
        s.acquiring i = true ∧ s.flag (Reg.IN_STAT i) Fld.IN_STAT_open = true)
    ∧ (∃ (s : State) (n : BitVec 8),
        let i := n.toNat
        s.acquiring i = true ∧ s.flag (Reg.IN_STAT i) Fld.IN_STAT_open = false ∧ s.floorDeclares i = true)
    ∧ (∃ (s : State) (n : BitVec 8),
        let i := n.toNat
        let x := s.inSt i
        s.acquiring i = true ∧ s.flag (Reg.IN_STAT i) Fld.IN_STAT_open = false ∧ s.floorDeclares i = false ∧ 2 ≤ x.tripRun)
    ∧ (∃ (s : State),
        s.alive = true) :=
  ⟨⟨{ tOn [(IN_CFG 255, IN_CFG_en, 1), (FE_CTL, FE_CTL_die_a_en, 1), (FE_CTL, FE_CTL_die_b_en, 1)] with fe := { State.reset.fe with ins := [(255, { InSt.init with complEp := true })] } },
      255, by decide +kernel⟩,
   ⟨tOn [(IN_CFG 255, IN_CFG_en, 1), (FE_CTL, FE_CTL_die_a_en, 1), (FE_CTL, FE_CTL_die_b_en, 1)], 255, by decide +kernel⟩,
   ⟨tOn [(IN_CFG 143, IN_CFG_en, 1), (FE_CTL, FE_CTL_die_a_en, 1), (FE_CTL, FE_CTL_die_b_en, 1), (IN_CFG 143, IN_CFG_pull, 2),
       (IN_CFG 143, IN_CFG_mode, 1)], 143, by decide +kernel⟩,
   ⟨tOn [(IN_CFG 0, IN_CFG_en, 1), (FE_CTL, FE_CTL_die_a_en, 1), (FE_CTL, FE_CTL_die_b_en, 1), (IN_STAT 0, IN_STAT_open, 1)], 0,
       by decide +kernel⟩,
   ⟨tOn [(IN_CFG 0, IN_CFG_en, 1), (FE_CTL, FE_CTL_die_a_en, 1), (FE_CTL, FE_CTL_die_b_en, 1), (IN_LIM 0, IN_LIM_floor_cnt, 1),
       (IN_STAT 0, IN_STAT_floor_run, 1)], 0, by decide +kernel⟩,
   ⟨{ tOn [(IN_CFG 0, IN_CFG_en, 1), (FE_CTL, FE_CTL_die_a_en, 1), (FE_CTL, FE_CTL_die_b_en, 1)] with fe := { State.reset.fe with ins := [(0, { InSt.init with tripRun := 2 })] } },
       0, by decide +kernel⟩,
   ⟨State.reset, by decide +kernel⟩⟩

/-- Witnesses for the hypotheses of `Modulators`. -/
theorem witness_Modulators :
    (∃ (s : State) (n : BitVec 8),
        let i := n.toNat
        let x := s.inSt i
        s.inRun = true ∧ s.running = true ∧ s.inEn i = true ∧ x.ovlEp = true)
    ∧ (∃ (s : State) (n : BitVec 8),
        let i := n.toNat
        s.inRun = true ∧ (s.running = false ∨ s.inEn i = false))
    ∧ (∃ (s : State),
        s.inRun = false)
    ∧ (∃ (s : State) (n : BitVec 8),
        let i := n.toNat
        let x := s.inSt i
        s.inRun = true ∧ s.running = true ∧ s.inEn i = true ∧ x.ovlEp = false)
    ∧ (∃ (s : State),
        s.pllLocked = true)
    ∧ (∃ (s : State),
        s.flag Reg.CV_CTL Fld.CV_CTL_retrim = false ∧ s.idleOpen = true)
    ∧ (∃ (s : State),
        s.flag Reg.CV_CTL Fld.CV_CTL_retrim = false ∧ s.idleOpen = false) :=
  ⟨⟨{ tOn [(IN_CFG 255, IN_CFG_en, 1), (FE_CTL, FE_CTL_die_a_en, 1), (FE_CTL, FE_CTL_die_b_en, 1)] with fe := { State.reset.fe with ins := [(255, { InSt.init with ovlEp := true })] } },
      255, by decide +kernel⟩,
   ⟨tIn .run [], 255, by decide +kernel⟩,
   ⟨State.reset, by decide +kernel⟩,
   ⟨tOn [(IN_CFG 255, IN_CFG_en, 1)], 255, by decide +kernel⟩,
   ⟨tIn .idle [(CV_STAT, CV_STAT_lock, 1)], by decide +kernel⟩,
   ⟨tIn .idle [], by decide +kernel⟩,
   ⟨tIn .run [], by decide +kernel⟩⟩

/-- Witnesses for the hypotheses of `TrimsAndSettling`. -/
theorem witness_TrimsAndSettling :
    (∃ (s : State) (figs : List (BitVec 16)),
        s.fe.trimA = true ∧ s.dieLink 0 = true ∧ figs.length = 128)
    ∧ (∃ (s : State) (figs : List (BitVec 16)),
        s.fe.trimB = true ∧ s.dieLink 1 = true ∧ figs.length = 128)
    ∧ (∃ (s : State),
        s.fe.trimA = false)
    ∧ (∃ (s : State),
        s.fe.trimB = false)
    ∧ (∃ (s : State) (n : BitVec 8),
        (s.inSt n.toNat).setEnd ≤ s.frameNo)
    ∧ (∃ (s : State) (n : BitVec 8),
        s.frameNo < (s.inSt n.toNat).setEnd) :=
  ⟨⟨tIn .startUp [(FE_STAT, FE_STAT_a_link, 1)], List.replicate 127 1400 ++ [1399], by decide +kernel⟩,
   ⟨{ tIn .startUp [(FE_STAT, FE_STAT_b_link, 1)] with fe := { State.reset.fe with trimA := false } }, 1399 :: List.replicate
       127 1400, by decide +kernel⟩,
   ⟨{ State.reset with fe := { State.reset.fe with trimA := false } }, by decide +kernel⟩,
   ⟨{ State.reset with fe := { State.reset.fe with trimB := false } }, by decide +kernel⟩,
   ⟨State.reset, 255, by decide +kernel⟩,
   ⟨{ State.reset with fe := { State.reset.fe with ins := [(255, { InSt.init with setEnd := 1 })] } }, 255, by decide +kernel⟩⟩

/-- Witnesses for the hypotheses of `GleanerRequests`. -/
theorem witness_GleanerRequests :
    (∃ (s : State) (i : BitVec 5),
        let e := i.toNat
        let k := s.fr.nextTick - 1
        let sub := s.fget (Reg.GL_SCHEDB e) Fld.GL_SCHEDB_sub
        let ready := s.inRun = true ∧ s.running = true ∧ s.schedValid e = true ∧ s.schedG ≠ 0 ∧ k % s.schedG = s.schedF e ∧
            s.fr.tickS ≤ k ∧ s.gl.running = none
        ready ∧ s.targetOk (s.schedTarget e) sub = true)
    ∧ (∃ (s : State) (i : BitVec 5),
        let e := i.toNat
        let k := s.fr.nextTick - 1
        let sub := s.fget (Reg.GL_SCHEDB e) Fld.GL_SCHEDB_sub
        let ready := s.inRun = true ∧ s.running = true ∧ s.schedValid e = true ∧ s.schedG ≠ 0 ∧ k % s.schedG = s.schedF e ∧
            s.fr.tickS ≤ k ∧ s.gl.running = none
        ready ∧ s.targetOk (s.schedTarget e) sub = false)
    ∧ (∃ (s : State) (j : BitVec 2),
        s.glOn = true ∧ s.flag (Reg.GL_EDGE j.toNat) Fld.GL_EDGE_en = true ∧ s.edgeSeen j.toNat = true ∧ kget? s.gl.timers
            j.toNat = none)
    ∧ (∃ (s : State) (j : BitVec 2) (d : Int),
        s.glOn = true ∧ s.flag (Reg.GL_EDGE j.toNat) Fld.GL_EDGE_en = true ∧ s.edgeSeen j.toNat = true ∧ kget? s.gl.timers
            j.toNat = some d)
    ∧ (∃ (s : State) (j : BitVec 2),
        s.edgeSeen j.toNat = false)
    ∧ (∃ (val : Word),
        BitField.get Fld.GL_EDGE_target val ≤ 0x5F)
    ∧ (∃ (val : Word),
        0x5F < BitField.get Fld.GL_EDGE_target val)
    ∧ (∃ (s : State) (val : Word),
        let v := val &&& 0x80000F7F#32
        BitField.get Fld.GL_REQ_target v ≤ 0x5F ∧ BitField.get Fld.GL_REQ_go v ≠ 0 ∧ s.flag Reg.GL_REQ Fld.GL_REQ_go = false ∧
            ((s.inIdle = true ∨ s.inRun = true)) ∧ s.pw.reqGlean = false)
    ∧ (∃ (s : State) (val : Word),
        let v := val &&& 0x80000F7F#32
        BitField.get Fld.GL_REQ_target v ≤ 0x5F ∧ BitField.get Fld.GL_REQ_go v ≠ 0 ∧ ((s.flag Reg.GL_REQ Fld.GL_REQ_go = true ∨
            s.pw.reqGlean = true ∨ (s.inIdle = false ∧ s.inRun = false))))
    ∧ (∃ (val : Word),
        let v := val &&& 0x80000F7F#32
        BitField.get Fld.GL_REQ_target v ≤ 0x5F ∧ BitField.get Fld.GL_REQ_go v = 0)
    ∧ (∃ (val : Word),
        let v := val &&& 0x80000F7F#32
        0x5F < BitField.get Fld.GL_REQ_target v) :=
  ⟨⟨{ tOn [(GL_CYCLE, GL_CYCLE_frames, 1), (GL_SCHEDB 31, GL_SCHEDB_valid, 1), (FE_STAT, FE_STAT_a_link, 1), (FE_STAT, FE_STAT_b_link, 1), (FE_CTL, FE_CTL_die_a_en, 1), (FE_CTL, FE_CTL_die_b_en, 1)] with fr := { State.reset.fr with nextTick := 1 } },
      31, by decide +kernel⟩,
   ⟨{ tOn [(GL_CYCLE, GL_CYCLE_frames, 1), (GL_SCHEDB 31, GL_SCHEDB_valid, 1)] with fr := { State.reset.fr with nextTick := 1 } },
       31, by decide +kernel⟩,
   ⟨{ tIn .run [(GL_EDGE 3, GL_EDGE_en, 1), (GL_EDGE 3, GL_EDGE_edge, 1)] with ce := { State.reset.ce with pwm := [(0, { isOn := false, duty := 1 })] } },
       3, by decide +kernel⟩,
   ⟨{ tIn .run [(GL_EDGE 3, GL_EDGE_en, 1), (GL_EDGE 3, GL_EDGE_edge, 1)] with ce := { State.reset.ce with pwm := [(0, { isOn := false, duty := 1 })] }, gl := { State.reset.gl with timers := [(3, 5)] } },
       3, 5, by decide +kernel⟩,
   ⟨tIn .run [(GL_EDGE 3, GL_EDGE_en, 1)], 3, by decide +kernel⟩,
   ⟨0x5F0#32, by decide +kernel⟩,
   ⟨0x600#32, by decide +kernel⟩,
   ⟨tIn .idle [], 0x8000005F#32, by decide +kernel⟩,
   ⟨tIn .idle [(GL_REQ, GL_REQ_go, 1)], 0x8000005F#32, by decide +kernel⟩,
   ⟨0x5F#32, by decide +kernel⟩,
   ⟨0x80000060#32, by decide +kernel⟩⟩

/-- Witnesses for the hypotheses of `GleanerConversions`. -/
theorem witness_GleanerConversions :
    (∃ (s : State) (j : BitVec 2) (t : Int),
        let clear := fun (u : State) => (u.nextEntry t).all (fun x => decide (t + convU ≤ x))
        let target := s.fget (Reg.GL_EDGE j.toNat) Fld.GL_EDGE_target
        let sub := s.fget (Reg.GL_EDGE j.toNat) Fld.GL_EDGE_sub
        let u1 := ({ s with gl := { s.gl with timers := kerase s.gl.timers j.toNat } }).glPend
        kget? s.gl.timers j.toNat = some t ∧ u1.gl.running = none ∧ u1.outranked j.toNat t = false ∧ clear u1 = true ∧
            u1.targetOk target sub = true)
    ∧ (∃ (s : State) (j : BitVec 2) (t : Int),
        let clear := fun (u : State) => (u.nextEntry t).all (fun x => decide (t + convU ≤ x))
        let target := s.fget (Reg.GL_EDGE j.toNat) Fld.GL_EDGE_target
        let sub := s.fget (Reg.GL_EDGE j.toNat) Fld.GL_EDGE_sub
        let u1 := ({ s with gl := { s.gl with timers := kerase s.gl.timers j.toNat } }).glPend
        kget? s.gl.timers j.toNat = some t ∧ u1.gl.running = none ∧ u1.outranked j.toNat t = false ∧ clear u1 = true ∧
            u1.targetOk target sub = false)
    ∧ (∃ (s : State) (j : BitVec 2) (t : Int),
        let clear := fun (u : State) => (u.nextEntry t).all (fun x => decide (t + convU ≤ x))
        let u1 := ({ s with gl := { s.gl with timers := kerase s.gl.timers j.toNat } }).glPend
        kget? s.gl.timers j.toNat = some t ∧ ((u1.gl.running ≠ none ∨ u1.outranked j.toNat t = true ∨ clear u1 = false)))
    ∧ (∃ (s : State) (t : Int),
        let clear := fun (u : State) => (u.nextEntry t).all (fun x => decide (t + convU ≤ x))
        let u2 := ((({ s with gl := { s.gl with reqDue := none } }).setFlag Reg.GL_REQ Fld.GL_REQ_go false)).glPend
        let rt := s.fget Reg.GL_REQ Fld.GL_REQ_target
        let rs := s.fget Reg.GL_REQ Fld.GL_REQ_sub
        s.gl.reqDue = some t ∧ s.pw.reqTargets = [] ∧ s.glOn = true ∧ s.gl.running = none ∧ u2.outranked 4 t = false ∧ clear u2
            = true ∧ u2.targetOk rt rs = true)
    ∧ (∃ (s : State) (t : Int),
        let clear := fun (u : State) => (u.nextEntry t).all (fun x => decide (t + convU ≤ x))
        let u2 := ((({ s with gl := { s.gl with reqDue := none } }).setFlag Reg.GL_REQ Fld.GL_REQ_go false)).glPend
        s.gl.reqDue = some t ∧ s.pw.reqTargets = [] ∧ ((s.glOn = false ∨ s.gl.running ≠ none ∨ u2.outranked 4 t = true ∨ clear
            u2 = false)))
    ∧ (∃ (s : State) (t : Int) (g : Nat) (rest : List Nat),
        let clear := fun (u : State) => (u.nextEntry t).all (fun x => decide (t + convU ≤ x))
        let u3 := ({ s with gl := { s.gl with reqDue := none } }).glPend
        s.gl.reqDue = some t ∧ s.pw.reqTargets = g :: rest ∧ s.glOn = true ∧ s.gl.running = none ∧ u3.outranked 4 t = false ∧
            clear u3 = true ∧ u3.targetOk g 0 = true)
    ∧ (∃ (s : State) (c : Conv),
        s.gl.running = some c ∧ c.target < 96 ∧ c.sub < 16) :=
  ⟨⟨{ tIn .idle [(FE_STAT, FE_STAT_a_link, 1), (FE_STAT, FE_STAT_b_link, 1), (FE_CTL, FE_CTL_die_a_en, 1), (FE_CTL, FE_CTL_die_b_en, 1)] with gl := { State.reset.gl with timers := [(3, 5)] } },
      3, 5, by decide +kernel⟩,
   ⟨{ tIn .idle [] with gl := { State.reset.gl with timers := [(3, 5)] } }, 3, 5, by decide +kernel⟩,
   ⟨{ tIn .idle [] with gl := { State.reset.gl with timers := [(3, 5)], running := some { target := 95, sub := 15, source := 2, edge := 0, start := 0 } } },
       3, 5, by decide +kernel⟩,
   ⟨{ tIn .idle [(FE_STAT, FE_STAT_a_link, 1), (FE_STAT, FE_STAT_b_link, 1), (FE_CTL, FE_CTL_die_a_en, 1), (FE_CTL, FE_CTL_die_b_en, 1)] with gl := { State.reset.gl with reqDue := some 5 } },
       5, by decide +kernel⟩,
   ⟨{ tIn .idle [(FE_STAT, FE_STAT_a_link, 1), (FE_STAT, FE_STAT_b_link, 1), (FE_CTL, FE_CTL_die_a_en, 1), (FE_CTL, FE_CTL_die_b_en, 1)] with gl := { State.reset.gl with reqDue := some 5, running := some { target := 95, sub := 15, source := 2, edge := 0, start := 0 } } },
       5, by decide +kernel⟩,
   ⟨{ tIn .idle [(FE_STAT, FE_STAT_a_link, 1), (FE_STAT, FE_STAT_b_link, 1), (FE_CTL, FE_CTL_die_a_en, 1), (FE_CTL, FE_CTL_die_b_en, 1)] with gl := { State.reset.gl with reqDue := some 5 }, pw := { (tIn .idle []).pw with reqTargets := [0x5D, 0x5F] } },
       5, 0x5D, [0x5F], by decide +kernel⟩,
   ⟨{ tIn .idle [] with gl := { State.reset.gl with running := some { target := 95, sub := 15, source := 2, edge := 0, start := 0 } } },
       { target := 95, sub := 15, source := 2, edge := 0, start := 0 }, by decide +kernel⟩⟩

/-- Witnesses for the hypotheses of `TimeCommands`. -/
theorem witness_TimeCommands :
    (∃ (s : State),
        s.freeRunHost = false)
    ∧ (∃ (s : State),
        s.freeRunHost = true ∧ s.inRun = false)
    ∧ (∃ (s : State),
        let delta := s.tbSet - s.now
        s.freeRunHost = true ∧ s.inRun = true ∧ s.runStepOk delta = true ∧ s.tb.step = none)
    ∧ (∃ (s : State) (p : StepPlan),
        s.tb.step = some p ∧ s.inRun = true ∧ s.running = true ∧ p.tick < s.fr.nextTick) :=
  ⟨⟨tMember .idle [], by decide +kernel⟩,
   ⟨tIn .idle [], by decide +kernel⟩,
   ⟨tIn .run [(TB_CTL, TB_CTL_run_step, 1), (TB_SET_NS, ⟨31, 0⟩, 160000000)], by decide +kernel⟩,
   ⟨{ tOn [] with tb := { State.reset.tb with step := some { tick := 0, delta := -5, cause := 1 } }, fr := { State.reset.fr with nextTick := 1 } },
       { tick := 0, delta := -5, cause := 1 }, by decide +kernel⟩⟩

/-- Witnesses for the hypotheses of `ClocksAndPps`. -/
theorem witness_ClocksAndPps :
    (∃ (s : State),
        s.flag Reg.TB_STAT Fld.TB_STAT_ref_ok = true)
    ∧ (∃ (s : State),
        s.alive = true ∧ s.flag Reg.TB_CTL Fld.TB_CTL_pps_out_en = true)
    ∧ (∃ (s : State) (st : Stamp) (falling : Bool),
        let t := s.stampTime st
        s.alive = true ∧ falling = s.flag Reg.TB_PPS Fld.TB_PPS_in_pol ∧ s.pw.headSel = true ∧ s.timeSrc = 2 ∧ ((s.tb.lockedOnce
            = false ∨ secDist t ≤ (s.fget Reg.TB_PPS Fld.TB_PPS_win : Int) * 1000 * nsU)))
    ∧ (∃ (s : State) (st : Stamp) (falling : Bool),
        let t := s.stampTime st
        s.alive = true ∧ falling = s.flag Reg.TB_PPS Fld.TB_PPS_in_pol ∧ s.tb.lockedOnce = true ∧ (s.fget Reg.TB_PPS
            Fld.TB_PPS_win : Int) * 1000 * nsU < secDist t)
    ∧ (∃ (s : State) (falling : Bool),
        falling ≠ s.flag Reg.TB_PPS Fld.TB_PPS_in_pol)
    ∧ (∃ (s : State) (falling : Bool),
        s.alive = true ∧ falling = s.flag Reg.TB_PPS Fld.TB_PPS_in_pol ∧ s.timeSrc ≠ 2)
    ∧ (∃ (s : State),
        s.alive = true ∧ s.pw.headSel = true ∧ s.timeSrc = 2 ∧ s.tb.ppsMissRun = false)
    ∧ (∃ (s : State),
        s.fget Reg.TB_STAT Fld.TB_STAT_state = 1 ∨ s.fget Reg.TB_STAT Fld.TB_STAT_state = 2) :=
  ⟨⟨tIn .idle [(TB_STAT, TB_STAT_ref_ok, 1)], by decide +kernel⟩,
   ⟨tIn .idle [(TB_CTL, TB_CTL_pps_out_en, 1)], by decide +kernel⟩,
   ⟨tIn .idle [(TB_CTL, TB_CTL_src, 2)], tStamp, false, by decide +kernel⟩,
   ⟨{ tIn .idle [(TB_CTL, TB_CTL_src, 2)] with tb := { State.reset.tb with lockedOnce := true } },
       { count := 125000000, frac := 0 }, false, by decide +kernel⟩,
   ⟨State.reset, true, by decide +kernel⟩,
   ⟨tIn .idle [(TB_PPS, TB_PPS_in_pol, 1)], true, by decide +kernel⟩,
   ⟨tIn .idle [(TB_CTL, TB_CTL_src, 2)], by decide +kernel⟩,
   ⟨tIn .idle [(TB_STAT, TB_STAT_state, 2)], by decide +kernel⟩⟩

/-- Witnesses for the hypotheses of `PtpMessages`. -/
theorem witness_PtpMessages :
    (∃ (s : State) (m : PtpSyncIn),
        s.ptpOn = true ∧ s.ptpFromGm m.hdr = true ∧ -7 ≤ m.logInt.toInt ∧ m.logInt.toInt ≤ 1 ∧ s.tb.mpds ≠ [])
    ∧ (∃ (s : State) (m : PtpSyncIn),
        let dom := s.fget Reg.TB_PTPCFG Fld.TB_PTPCFG_domain
        let trans := s.fget Reg.TB_PTPCFG Fld.TB_PTPCFG_transport
        s.ptpOn = true ∧ (m.hdr.domain.toNat ≠ dom ∨ b2n m.hdr.udp ≠ trans))
    ∧ (∃ (s : State) (m : PtpSyncIn),
        s.ptpOn = true ∧ s.ptpFromGm m.hdr = true ∧ -7 ≤ m.logInt.toInt ∧ m.logInt.toInt ≤ 1 ∧ s.tb.mpds = [])
    ∧ (∃ (s : State),
        s.ptpOn = true ∧ s.tb.gmOk = true)
    ∧ (∃ (s : State) (r : PtpResp) (li : BitVec 8) (t3 : Int) (t2 : Int) (t1 : Int),
        s.ptpOn = true ∧ s.ptpFromGm r.hdr = true ∧ -7 ≤ li.toInt ∧ li.toInt ≤ 5 ∧ s.tb.delayReq = some t3 ∧ s.tb.lastSync =
            some (t2, t1))
    ∧ (∃ (s : State) (r : PtpResp),
        let dom := s.fget Reg.TB_PTPCFG Fld.TB_PTPCFG_domain
        let trans := s.fget Reg.TB_PTPCFG Fld.TB_PTPCFG_transport
        s.ptpOn = true ∧ (r.hdr.domain.toNat ≠ dom ∨ b2n r.hdr.udp ≠ trans))
    ∧ (∃ (s : State) (a : Announce),
        let dom := s.fget Reg.TB_PTPCFG Fld.TB_PTPCFG_domain
        let trans := s.fget Reg.TB_PTPCFG Fld.TB_PTPCFG_transport
        s.ptpOn = true ∧ (a.hdr.domain.toNat ≠ dom ∨ b2n a.hdr.udp ≠ trans))
    ∧ (∃ (s : State) (a : Announce),
        let taken := s.tb.gm.all (fun g => g.hdr.source == a.hdr.source || lexLt (gmRank a) (gmRank g))
        s.ptpOn = true ∧ s.ptpHears a.hdr = true ∧ taken = true ∧ ((a.ptpTimescale = true ∨ s.flag Reg.TB_CTL Fld.TB_CTL_arb_ok
            = true)))
    ∧ (∃ (s : State) (a : Announce),
        s.ptpOn = true ∧ s.ptpHears a.hdr = true ∧ s.tb.gm = none ∧ a.ptpTimescale = false ∧ s.flag Reg.TB_CTL Fld.TB_CTL_arb_ok
            = false)
    ∧ (∃ (s : State) (a : Announce),
        let taken := s.tb.gm.all (fun g => g.hdr.source == a.hdr.source || lexLt (gmRank a) (gmRank g))
        s.ptpOn = true ∧ taken = false)
    ∧ (∃ (s : State),
        s.ptpOn = true ∧ s.tb.gm ≠ none) :=
  ⟨⟨{ tIn .idle [(TB_CTL, TB_CTL_src, 1)] with tb := { State.reset.tb with gm := some (tGm 1 0), gmOk := true, mpds := [0] } },
      { hdr := tHdr, rx := tStamp, origin := tPtp, corr := 0, logInt := 0xF9#8 }, by decide +kernel⟩,
   ⟨{ tIn .idle [(TB_CTL, TB_CTL_src, 1)] with tb := { State.reset.tb with gm := some (tGm 1 0), gmOk := true } },
       { hdr := { domain := 1, udp := false, source := 0 }, rx := tStamp, origin := tPtp, corr := 0, logInt := 1#8 },
       by decide +kernel⟩,
   ⟨{ tIn .idle [(TB_CTL, TB_CTL_src, 1)] with tb := { State.reset.tb with gm := some (tGm 1 0), gmOk := true } },
       { hdr := tHdr, rx := tStamp, origin := tPtp, corr := 0, logInt := 1#8 }, by decide +kernel⟩,
   ⟨{ tIn .idle [(TB_CTL, TB_CTL_src, 1)] with tb := { State.reset.tb with gmOk := true } }, by decide +kernel⟩,
   ⟨{ tIn .idle [(TB_CTL, TB_CTL_src, 1)] with tb := { State.reset.tb with gm := some (tGm 1 0), gmOk := true, delayReq := some 7, lastSync := some (2, 1) } },
       { hdr := tHdr, t4 := tPtp }, 5#8, 7, 2, 1, by decide +kernel⟩,
   ⟨{ tIn .idle [(TB_CTL, TB_CTL_src, 1)] with tb := { State.reset.tb with gm := some (tGm 1 0), gmOk := true } },
       { hdr := { domain := 1, udp := false, source := 0 }, t4 := tPtp }, by decide +kernel⟩,
   ⟨{ tIn .idle [(TB_CTL, TB_CTL_src, 1)] with tb := { State.reset.tb with gm := some (tGm 1 0), gmOk := true } },
       { tGm 1 0 with hdr := { domain := 1, udp := false, source := 0 } }, by decide +kernel⟩,
   ⟨{ tIn .idle [(TB_CTL, TB_CTL_src, 1)] with tb := { State.reset.tb with gm := some (tGm 1 1) } },
       { tGm 2 0 with hdr := { tHdr with source := 5 } }, by decide +kernel⟩,
   ⟨{ tIn .idle [(TB_CTL, TB_CTL_src, 1)] with tb := { State.reset.tb with gm := none } },
       { tGm 2 0 with ptpTimescale := false }, by decide +kernel⟩,
   ⟨{ tIn .idle [(TB_CTL, TB_CTL_src, 1)] with tb := { State.reset.tb with gm := some (tGm 1 0) } },
       { tGm 2 1 with hdr := { tHdr with source := 5 } }, by decide +kernel⟩,
   ⟨{ tIn .idle [(TB_CTL, TB_CTL_src, 1)] with tb := { State.reset.tb with gm := some (tGm 1 0) } }, by decide +kernel⟩⟩

/-- Witnesses for the hypotheses of `RingTime`. -/
theorem witness_RingTime :
    (∃ (s : State) (p : BitVec 2) (c : TimeCellIn),
        s.alive = true ∧ s.portUp p.toNat = true ∧ c.chk.line = true ∧ ((s.authOn = true → (s.port p.toNat).keys.isSome = true ∧
            c.chk.tag = true)) ∧ ((s.pw.headSel = true ∨ p = 2 ∨ s.timePort ≠ p.toNat + 1)))
    ∧ (∃ (s : State) (p : BitVec 2) (c : TimeCellIn) (t2 : Int) (trip : Int),
        let sent := PtpTime.val c.prevTx
        s.alive = true ∧ s.portUp p.toNat = true ∧ c.chk.line = true ∧ ((s.authOn = true → (s.port p.toNat).keys.isSome = true ∧
            c.chk.tag = true)) ∧ s.pw.headSel = false ∧ p.toNat < 2 ∧ s.timePort = p.toNat + 1 ∧ (s.stamps p.toNat).rcvd = some
            t2 ∧ linkTrip sent t2 (PtpTime.val c.lastRx) (s.stamps p.toNat).sent = some trip)
    ∧ (∃ (s : State) (p : BitVec 2) (c : TimeCellIn),
        s.alive = true ∧ s.portUp p.toNat = true ∧ c.chk.line = false)
    ∧ (∃ (s : State) (p : BitVec 2) (c : TimeCellIn),
        s.alive = true ∧ s.portUp p.toNat = true ∧ c.chk.line = true ∧ s.authOn = true ∧ c.chk.tag = false)
    ∧ (∃ (s : State),
        s.pw.headSel = true ∧ s.fget Reg.LN_STAT Fld.LN_STAT_state = 2) :=
  ⟨⟨tRing [], 1,
      { prevTx := { sec := 0, ns := 10, frac := 0 }, lastRx := { sec := 0, ns := 30, frac := 0 }, stepTick := 0, stepDelta := 0, stepFlag := false, holdover := false, chk := { line := true, tag := false } },
      by decide +kernel⟩,
   ⟨{ tRing [] with pw := { (tRing []).pw with headSel := false }, ln := { (tRing []).ln with position := 1 }, tb := { (tRing []).tb with linkU := { (tRing []).tb.linkU with sent := [20 * nsU], rcvd := some (12 * nsU) } } },
       0,
       { prevTx := { sec := 0, ns := 10, frac := 0 }, lastRx := { sec := 0, ns := 30, frac := 0 }, stepTick := 0, stepDelta := 0, stepFlag := false, holdover := false, chk := { line := true, tag := true } },
       12 * nsU, 12 * nsU, by decide +kernel⟩,
   ⟨tRing [], 1,
       { prevTx := { sec := 0, ns := 10, frac := 0 }, lastRx := { sec := 0, ns := 30, frac := 0 }, stepTick := 0, stepDelta := 0, stepFlag := false, holdover := false, chk := { line := false, tag := true } },
       by decide +kernel⟩,
   ⟨tRing [(LN_STAT, LN_STAT_auth_on, 1)], 1,
       { prevTx := { sec := 0, ns := 10, frac := 0 }, lastRx := { sec := 0, ns := 30, frac := 0 }, stepTick := 0, stepDelta := 0, stepFlag := false, holdover := false, chk := { line := true, tag := false } },
       by decide +kernel⟩,
   ⟨tRing [], by decide +kernel⟩⟩

/-- Witnesses for the hypotheses of `CauseLatching`. -/
theorem witness_CauseLatching :
    (∃ (s : State),
        s.alive = true ∧ s.hasCause 0 = false)
    ∧ (∃ (s : State),
        s.alive = true ∧ s.hasCause 0 = true)
    ∧ (∃ (s : State),
        s.alive = true ∧ s.hasCause 3 = false)
    ∧ (∃ (s : State),
        s.alive = true ∧ s.hasCause 4 = false)
    ∧ (∃ (s : State),
        s.alive = true ∧ s.hasCause 14 = false)
    ∧ (∃ (s : State),
        s.alive = true ∧ s.hasCause 16 = false)
    ∧ (∃ (s : State) (target : Byte) (mv : BitVec 16) (low : Nat) (high : Nat),
        s.alive = true ∧ s.hasCause 5 = false ∧ s.supplyWindow target.toNat = some (low, high) ∧ (mv.toNat < low ∨ high <
            mv.toNat))
    ∧ (∃ (s : State) (target : Byte) (mv : BitVec 16) (low : Nat) (high : Nat),
        s.alive = true ∧ s.supplyWindow target.toNat = some (low, high) ∧ low ≤ mv.toNat ∧ mv.toNat ≤ high)
    ∧ (∃ (s : State) (x : SensorRead),
        let limit : Int := 1000 * (s.rdN Reg.SV_TEMPLIM % 256 : Int)
        s.alive = true ∧ s.hasCause 6 = false ∧ 0x51 ≤ x.target.toNat ∧ x.target.toNat ≤ 0x59 ∧ limit < x.milliC.toInt)
    ∧ (∃ (s : State) (x : SensorRead),
        let limit : Int := 1000 * (s.rdN Reg.SV_TEMPLIM % 256 : Int)
        s.alive = true ∧ x.milliC.toInt ≤ limit)
    ∧ (∃ (s : State),
        s.alive = true ∧ s.hasCause 10 = false ∧ s.sv.pulls = false ∧ s.inRun = true)
    ∧ (∃ (s : State) (p : BitVec 3),
        s.alive = true ∧ s.hasCause 9 = false ∧ s.inRun = true ∧ s.sv.safe = false ∧ s.permInForce p.toNat = true ∧ s.permHolds
            p.toNat = false) :=
  ⟨⟨State.reset, by decide +kernel⟩,
   ⟨tIn .run [(SV_CAUSE, ⟨0, 0⟩, 1)], by decide +kernel⟩,
   ⟨tOn [], by decide +kernel⟩,
   ⟨State.reset, by decide +kernel⟩,
   ⟨State.reset, by decide +kernel⟩,
   ⟨State.reset, by decide +kernel⟩,
   ⟨State.reset, 0x49, 865, 736, 864, by decide +kernel⟩,
   ⟨State.reset, 0x49, 864, 736, 864, by decide +kernel⟩,
   ⟨State.reset, { target := 0x59, milliC := 125001 }, by decide +kernel⟩,
   ⟨State.reset, { target := 0x59, milliC := 0 }, by decide +kernel⟩,
   ⟨{ tIn .run [] with sv := { State.reset.sv with pulls := false } }, by decide +kernel⟩,
   ⟨tIn .run [(SV_PERMEN, SV_PERMEN_obs, 1)], 4, by decide +kernel⟩⟩

/-- Witnesses for the hypotheses of `SafeEntry`. -/
theorem witness_SafeEntry :
    ∃ (s : State),
        s.inRun = true ∧ s.role = 0 ∧ s.hasCause 0 = false ∧ s.sv.safe = false :=
  ⟨tIn .run [], by decide +kernel⟩

/-- Witnesses for the hypotheses of `ReleaseAndProofTest`. -/
theorem witness_ReleaseAndProofTest :
    (∃ (s : State),
        s.releaseOk = true ∧ s.isTwin = false)
    ∧ (∃ (s : State),
        s.releaseOk = true ∧ s.isTwin = true)
    ∧ (∃ (s : State),
        s.releaseOk = false)
    ∧ (∃ (s : State),
        s.sv.checkDue = true ∧ s.hasCause 10 = false)
    ∧ (∃ (s : State),
        s.idleOpen = true ∧ s.sv.ptest = false)
    ∧ (∃ (s : State),
        s.idleOpen = false)
    ∧ (∃ (s : State),
        s.sv.ptest = true) :=
  ⟨⟨{ tIn .run [] with sv := { State.reset.sv with safe := true } }, by decide +kernel⟩,
   ⟨{ tTwin 1 id [] with sv := { (tTwin 1 id []).sv with safe := true } }, by decide +kernel⟩,
   ⟨tIn .run [], by decide +kernel⟩,
   ⟨{ tIn .run [] with sv := { State.reset.sv with checkDue := true } }, by decide +kernel⟩,
   ⟨tIn .idle [], by decide +kernel⟩,
   ⟨tIn .run [], by decide +kernel⟩,
   ⟨{ tIn .idle [] with sv := { State.reset.sv with ptest := true } }, by decide +kernel⟩⟩

/-- Witnesses for the hypotheses of `Beacon`. -/
theorem witness_Beacon :
    (∃ (s : State),
        s.alive = true ∧ s.flag Reg.BC_CTL Fld.BC_CTL_en = false)
    ∧ (∃ (s : State) (e : BitVec 2),
        let n := e.toNat
        let x := s.engine n
        s.alive = true ∧ s.flag Reg.BC_CTL Fld.BC_CTL_en = true ∧ x.step < s.fget (Reg.BC_ENG n) Fld.BC_ENG_last)
    ∧ (∃ (s : State) (e : BitVec 2),
        let n := e.toNat
        let x := s.engine n
        s.alive = true ∧ s.flag Reg.BC_CTL Fld.BC_CTL_en = true ∧ s.fget (Reg.BC_ENG n) Fld.BC_ENG_last ≤ x.step ∧ s.flag
            (Reg.BC_ENG n) Fld.BC_ENG_once = false)
    ∧ (∃ (s : State) (e : BitVec 2),
        let n := e.toNat
        let x := s.engine n
        s.alive = true ∧ s.flag Reg.BC_CTL Fld.BC_CTL_en = true ∧ s.fget (Reg.BC_ENG n) Fld.BC_ENG_last ≤ x.step ∧ s.flag
            (Reg.BC_ENG n) Fld.BC_ENG_once = true)
    ∧ (∃ (s : State) (j : BitVec 3) (lamp : LampRead),
        let isOpen := lampOpen lamp (kgetD s.bc.sinks j.toNat 0)
        let short := s.lampShort lamp
        let g := s.fget (Reg.BC_OUT j.toNat) Fld.BC_OUT_grp
        s.alive = true ∧ g < 4 ∧ s.groupOn g = true ∧ 35 ≤ kgetD s.bc.sinks j.toNat 0 ∧ isOpen ≠ short) :=
  ⟨⟨State.reset, by decide +kernel⟩,
   ⟨{ tIn .idle [(BC_CTL, BC_CTL_en, 1), (BC_GRP 3, BC_GRP_en, 1), (BC_OUT 7, BC_OUT_grp, 3), (BC_ENG 3, BC_ENG_last, 1)] with bc := { State.reset.bc with sinks := [(7, 35)], engines := [(3, { step := 0, ms := 0, from' := 0, done := false })] } },
       3, by decide +kernel⟩,
   ⟨{ tIn .idle [(BC_CTL, BC_CTL_en, 1), (BC_GRP 3, BC_GRP_en, 1), (BC_OUT 7, BC_OUT_grp, 3), (BC_ENG 3, BC_ENG_last, 1)] with bc := { State.reset.bc with sinks := [(7, 35)], engines := [(3, { step := 1, ms := 0, from' := 0, done := false })] } },
       3, by decide +kernel⟩,
   ⟨{ tIn .idle [(BC_CTL, BC_CTL_en, 1), (BC_GRP 3, BC_GRP_en, 1), (BC_OUT 7, BC_OUT_grp, 3), (BC_ENG 3, BC_ENG_last, 1), (BC_ENG 3, BC_ENG_once, 1)] with bc := { State.reset.bc with sinks := [(7, 35)], engines := [(3, { step := 1, ms := 0, from' := 0, done := false })] } },
       3, by decide +kernel⟩,
   ⟨{ tIn .idle [(BC_CTL, BC_CTL_en, 1), (BC_GRP 3, BC_GRP_en, 1), (BC_OUT 7, BC_OUT_grp, 3), (BC_ENG 3, BC_ENG_last, 1)] with bc := { State.reset.bc with sinks := [(7, 35)], engines := [(3, { step := 0, ms := 0, from' := 0, done := false })] } },
       7, { ua := 0, mv := 5000 }, by decide +kernel⟩⟩

/-- Witnesses for the hypotheses of `Tick`. -/
theorem witness_Tick :
    (∃ (s : State) (inp : TickIn),
        let v := s.applyStep
        let n := v.fr.nextTick
        let last := v.pw.lastTick.any (fun l => decide (l ≤ n))
        let opened := ({ (v.advanceTo (v.tickTime n)) with fr := { v.fr with nextTick := n + 1 } }).wr64 Reg.FR_FRAME_LO
            (BitVec.ofNat 64 n)
        let ready := opened.noteOverrun.outputTick.spTick.supervisorTick.feCauses
        let ovr := ready.overrunOf n inp last
        let cut := ovr.any Overrun.cut
        s.inRun = true ∧ s.running = true ∧ last = false ∧ cut = true)
    ∧ (∃ (s : State) (inp : TickIn),
        let v := s.applyStep
        let n := v.fr.nextTick
        let last := v.pw.lastTick.any (fun l => decide (l ≤ n))
        let opened := ({ (v.advanceTo (v.tickTime n)) with fr := { v.fr with nextTick := n + 1 } }).wr64 Reg.FR_FRAME_LO
            (BitVec.ofNat 64 n)
        let ready := opened.noteOverrun.outputTick.spTick.supervisorTick.feCauses
        let ovr := ready.overrunOf n inp last
        let cut := ovr.any Overrun.cut
        s.inRun = true ∧ s.running = true ∧ last = false ∧ cut = false)
    ∧ (∃ (s : State),
        let v := s.applyStep
        let n := v.fr.nextTick
        let last := v.pw.lastTick.any (fun l => decide (l ≤ n))
        s.inRun = true ∧ s.running = true ∧ last = true)
    ∧ (∃ (s : State),
        s.tb.step = none)
    ∧ (∃ (s : State) (n : Nat) (inp : TickIn),
        let c := fun i => stepCycles inp i
        let c0 := (s.fr.overrun.map Overrun.carry).getD 0
        let front := c0 + c 0 + c 1 + c 2 + c 3
        let av := s.windowCycles n
        front + c 4 + c 5 ≤ av)
    ∧ (∃ (s : State) (n : Nat) (inp : TickIn),
        let c := fun i => stepCycles inp i
        let c0 := (s.fr.overrun.map Overrun.carry).getD 0
        let front := c0 + c 0 + c 1 + c 2 + c 3
        let av := s.windowCycles n
        front ≤ av ∧ av < front + c 4 + c 5)
    ∧ (∃ (s : State) (n : Nat) (inp : TickIn),
        let c := fun i => stepCycles inp i
        let c0 := (s.fr.overrun.map Overrun.carry).getD 0
        let front := c0 + c 0 + c 1 + c 2 + c 3
        let av := s.windowCycles n
        av < front)
    ∧ (∃ (s : State),
        s.fr.overrun = none)
    ∧ (∃ (s : State) (o : Overrun),
        s.fr.overrun = some o)
    ∧ (∃ (s : State),
        s.fr.hbPosted = true)
    ∧ (∃ (s : State),
        s.fr.hbPosted = false ∧ 1 ≤ s.fr.hbMissing)
    ∧ (∃ (s : State) (n : Nat) (ws : List InWords) (done : Nat → Bool) (x : Slot),
        let acq := s.acquire n ws
        let red := acq.2.reduce n acq.1 done
        x ∈ red.1 ∧ x.st % 2 = 0 ∧ x.st &&& (255 - stLEAD) ≠ stOVR ∧ ((s.inMode x.n ≠ 2 ∨ clearsVal x.st = true)))
    ∧ (∃ (s : State) (n : Nat) (ws : List InWords) (done : Nat → Bool) (x : Slot),
        let acq := s.acquire n ws
        let red := acq.2.reduce n acq.1 done
        x ∈ red.1 ∧ done (x.n / 8) = false)
    ∧ (∃ (s : State) (n : Nat) (l : Nat) (slots : List Slot) (sp : Word64),
        let p := s.processValue n slots l
        let x := s.loop l
        p.1 = none ∧ x.numericStop = false ∧ s.frozen = false ∧ s.loopSetpoint l = some sp ∧ x.started = false ∧ l < 32)
    ∧ (∃ (s : State) (n : Nat) (l : Nat) (slots : List Slot) (sp : Word64),
        let p := s.processValue n slots l
        let x := s.loop l
        p.1 = none ∧ x.numericStop = false ∧ s.frozen = false ∧ s.loopSetpoint l = some sp ∧ x.started = true ∧ l < 32 ∧
            x.holdRun < s.lctl l Fld.CE_LCTL_hold)
    ∧ (∃ (s : State) (n : Nat) (l : Nat) (slots : List Slot) (sp : Word64),
        let p := s.processValue n slots l
        let x := s.loop l
        p.1 = none ∧ x.numericStop = false ∧ s.frozen = false ∧ s.loopSetpoint l = some sp ∧ x.started = true ∧ l < 32 ∧ s.lctl
            l Fld.CE_LCTL_hold ≤ x.holdRun ∧ s.lctl l Fld.CE_LCTL_fail_safe = 1)
    ∧ (∃ (s : State) (n : Nat) (f : Nat) (fu : Furrow),
        kwf s.hi.furrows = true ∧ s.furrow? f = some fu ∧ fu.kind = .sample ∧ fu.from?.any (fun c => decide (c < n)) = true)
    ∧ (∃ (s : State) (n : Nat) (cal : Bool) (last : Bool),
        let full := decide (960 ≤ s.manifestCount)
        let closes := cal || last || s.vt.rotate || (decide (130752 ≤ s.queueFree) && (s.sealGrid n || full))
        s.vaultOk = true ∧ closes = true)
    ∧ (∃ (s : State) (n : Nat) (cal : Bool) (last : Bool),
        let full := decide (960 ≤ s.manifestCount)
        let closes := cal || last || s.vt.rotate || (decide (130752 ≤ s.queueFree) && (s.sealGrid n || full))
        s.vaultOk = true ∧ closes = false)
    ∧ (∃ (s : State),
        s.inRun = false)
    ∧ (∃ (s : State),
        s.running = false) :=
  ⟨⟨tOn [], { words := [], cycles := [5000000, 0, 0, 0, 0, 0], reduced := 0, vectorsFail := false, ecc := [] },
      by decide +kernel⟩,
   ⟨tOn [], { words := [], cycles := [0, 0, 0, 0, 0, 0], reduced := 0, vectorsFail := false, ecc := [] }, by decide +kernel⟩,
   ⟨{ tOn [] with pw := { (tOn []).pw with lastTick := some 0 } }, by decide +kernel⟩,
   ⟨tOn [], by decide +kernel⟩,
   ⟨tOn [], 1, { words := [], cycles := [0, 0, 0, 3999999, 0, 1], reduced := 0, vectorsFail := false, ecc := [] },
       by decide +kernel⟩,
   ⟨tOn [], 1, { words := [], cycles := [0, 0, 0, 4000000, 0, 1], reduced := 0, vectorsFail := false, ecc := [] },
       by decide +kernel⟩,
   ⟨tOn [], 1, { words := [], cycles := [0, 0, 0, 4000001, 0, 1], reduced := 0, vectorsFail := false, ecc := [] },
       by decide +kernel⟩,
   ⟨tOn [], by decide +kernel⟩,
   ⟨{ tOn [] with fr := { State.reset.fr with overrun := some { frame := 1, cut := true, carry := 5, cycles := [1, 2, 3, 4, 5, 6] } } },
       { frame := 1, cut := true, carry := 5, cycles := [1, 2, 3, 4, 5, 6] }, by decide +kernel⟩,
   ⟨{ tOn [] with fr := { State.reset.fr with hbPosted := true } }, by decide +kernel⟩,
   ⟨{ tOn [] with fr := { State.reset.fr with hbPosted := false, hbMissing := 1 } }, by decide +kernel⟩,
   ⟨tOn [(IN_CFG 9, IN_CFG_en, 1), (IN_CFG 9, IN_CFG_mode, 2)], 1, [], fun _ => false, (((tOn [(IN_CFG 9, IN_CFG_en, 1), (IN_CFG
       9, IN_CFG_mode, 2)]).acquire 1 []).2.reduce 1 ((tOn [(IN_CFG 9, IN_CFG_en, 1), (IN_CFG 9, IN_CFG_mode, 2)]).acquire 1
       []).1 (fun _ => false)).1.headD { n := 0, value := 0, st := 0, rprim := 0 }, by decide +kernel⟩,
   ⟨tOn [(IN_CFG 9, IN_CFG_en, 1), (IN_CFG 9, IN_CFG_mode, 2)], 1, [], fun _ => false, (((tOn [(IN_CFG 9, IN_CFG_en, 1), (IN_CFG
       9, IN_CFG_mode, 2)]).acquire 1 []).2.reduce 1 ((tOn [(IN_CFG 9, IN_CFG_en, 1), (IN_CFG 9, IN_CFG_mode, 2)]).acquire 1
       []).1 (fun _ => false)).1.headD { n := 0, value := 0, st := 0, rprim := 0 }, by decide +kernel⟩,
   ⟨{ tOn [(CE_LCTL 31, CE_LCTL_en, 1)] with ce := { State.reset.ce with loops := [(31, { LoopSt.init 0 with started := false, holdRun := 0 })] } },
       1, 31, [], 0, by decide +kernel⟩,
   ⟨{ tOn [(CE_LCTL 31, CE_LCTL_en, 1), (CE_LCTL 31, CE_LCTL_hold, 2)] with ce := { State.reset.ce with loops := [(31, { LoopSt.init 0 with started := true, holdRun := 1 })] } },
       1, 31, [], 0, by decide +kernel⟩,
   ⟨{ tOn [(CE_LCTL 31, CE_LCTL_en, 1), (CE_LCTL 31, CE_LCTL_hold, 1), (CE_LCTL 31, CE_LCTL_fail_safe, 1)] with ce := { State.reset.ce with loops := [(31, { LoopSt.init 0 with started := true, holdRun := 1 })] } },
       1, 31, [], 0, by decide +kernel⟩,
   ⟨tHost (tOn []) [(1, { tFu .sample 0x101#32 with from? := some 0 })], 1, 1, { tFu .sample 0x101#32 with from? := some 0 },
       by decide +kernel⟩,
   ⟨{ tOn [(VT_STAT, VT_STAT_state, 1)] with vt := { State.reset.vt with rotate := true } }, 1, false, false,
       by decide +kernel⟩,
   ⟨tOn [(VT_STAT, VT_STAT_state, 1), (VT_SEALCFG, VT_SEALCFG_n, 2)], 1, false, false, by decide +kernel⟩,
   ⟨State.reset, by decide +kernel⟩,
   ⟨State.reset, by decide +kernel⟩⟩

/-- Witnesses for the hypotheses of `AcquisitionStart`. -/
theorem witness_AcquisitionStart :
    ∃ (s : State),
        s.inRun = true ∧ s.running = false ∧ s.pw.waiting = false :=
  ⟨tIn .run [], by decide +kernel⟩

/-- Witnesses for the hypotheses of `LoopWrites`. -/
theorem witness_LoopWrites :
    (∃ (s : State) (off : BitVec 7),
        s.inRun = false ∧ off.toNat < 0x10 ∧ loopWritable off.toNat = true)
    ∧ (∃ (s : State) (off : BitVec 7),
        s.inRun = true ∧ off.toNat < 0x10 ∧ loopWritable off.toNat = true)
    ∧ (∃ (off : BitVec 7),
        off.toNat = 0x10)
    ∧ (∃ (off : BitVec 7),
        loopWritable off.toNat = false ∧ off.toNat ≠ 0x10)
    ∧ (∃ (off : BitVec 7),
        0x20 ≤ off.toNat ∧ off.toNat % 8 = 4 ∧ loopWritable off.toNat = true)
    ∧ (∃ (s : State) (off : BitVec 7),
        s.inRun = false ∧ 0x20 ≤ off.toNat ∧ off.toNat % 8 = 0 ∧ loopWritable off.toNat = true)
    ∧ (∃ (s : State) (off : BitVec 7),
        s.inRun = true ∧ 0x20 ≤ off.toNat ∧ off.toNat % 8 = 0 ∧ loopWritable off.toNat = true)
    ∧ (∃ (s : State) (l : BitVec 5),
        let copy := s.stagedOf l.toNat
        let c := copy.foldl (fun (s : State) e => s.wr e.1 e.2) s.pended
        s.inRun = true ∧ copy = [] ∧ State.loopsOk s.pended c (some l.toNat) = true)
    ∧ (∃ (s : State) (l : BitVec 5),
        let copy := s.stagedOf l.toNat
        let c := copy.foldl (fun (s : State) e => s.wr e.1 e.2) s.pended
        s.inRun = true ∧ copy ≠ [] ∧ State.loopsOk s.pended c (some l.toNat) = true)
    ∧ (∃ (s : State) (l : BitVec 5),
        let copy := s.stagedOf l.toNat
        let c := copy.foldl (fun (s : State) e => s.wr e.1 e.2) s.pended
        s.inRun = true ∧ State.loopsOk s.pended c (some l.toNat) = false)
    ∧ (∃ (s : State) (l : BitVec 5),
        s.fget (Reg.CE_LCTL l.toNat) Fld.CE_LCTL_sp_src = 1)
    ∧ (∃ (s : State) (l : BitVec 5),
        s.fget (Reg.CE_LCTL l.toNat) Fld.CE_LCTL_sp_src ≠ 1)
    ∧ (∃ (s : State),
        s.inRun = true ∧ State.loopsOk s.pended (s.ce.shadow.foldl (fun (s : State) e => s.wr e.1 e.2) s.pended) none = true)
    ∧ (∃ (s : State),
        s.inRun = true ∧ State.loopsOk s.pended (s.ce.shadow.foldl (fun (s : State) e => s.wr e.1 e.2) s.pended) none = false) :=
  ⟨⟨tIn .idle [], 0#7, by decide +kernel⟩,
   ⟨tIn .run [], 0xC#7, by decide +kernel⟩,
   ⟨0x10#7, by decide +kernel⟩,
   ⟨0x14, by decide +kernel⟩,
   ⟨0x3C, by decide +kernel⟩,
   ⟨tIn .idle [], 0x38, by decide +kernel⟩,
   ⟨tIn .run [], 0x38, by decide +kernel⟩,
   ⟨tIn .run [], 31, by decide +kernel⟩,
   ⟨{ tIn .run [] with ce := { State.reset.ce with staged := [(CE_LCTL 31, 0x02000000#32)] } }, 31, by decide +kernel⟩,
   ⟨{ tIn .run [] with ce := { State.reset.ce with staged := [(CE_LCTL 31, 0x00FFFFFF#32)] } }, 31, by decide +kernel⟩,
   ⟨tIn .idle [(CE_LCTL 31, CE_LCTL_sp_src, 1)], 31, by decide +kernel⟩,
   ⟨tIn .idle [(CE_LCTL 31, CE_LCTL_sp_src, 2)], 31, by decide +kernel⟩,
   ⟨tIn .run [], by decide +kernel⟩,
   ⟨{ tIn .run [(CE_LCTL 31, CE_LCTL_en, 1)] with ce := { State.reset.ce with shadow := [(CE_COEF_LO 0 + 4, 0x7FF00000#32)] } },
       by decide +kernel⟩⟩

/-- Witnesses for the hypotheses of `LoopsAndOutputs`. -/
theorem witness_LoopsAndOutputs :
    (∃ (s : State) (l : BitVec 5),
        let k := l.toNat
        let holds := s.running && s.loopEn k && (s.loop k).started && !(s.loop k).numericStop && decide (s.lctl k
            Fld.CE_LCTL_hold < (s.loop k).holdRun)
        holds = true ∧ s.lctl k Fld.CE_LCTL_fail_safe ≠ 1)
    ∧ (∃ (s : State) (l : BitVec 5),
        let k := l.toNat
        let holds := s.running && s.loopEn k && (s.loop k).started && !(s.loop k).numericStop && decide (s.lctl k
            Fld.CE_LCTL_hold < (s.loop k).holdRun)
        holds = true ∧ s.lctl k Fld.CE_LCTL_fail_safe = 1)
    ∧ (∃ (s : State) (l : BitVec 5),
        let k := l.toNat
        let holds := s.running && s.loopEn k && (s.loop k).started && !(s.loop k).numericStop && decide (s.lctl k
            Fld.CE_LCTL_hold < (s.loop k).holdRun)
        holds = false)
    ∧ (∃ (s : State) (o : BitVec 5) (pin : PinVolts) (level : Bool),
        let i := o.toNat
        let isOn := ((kget? s.ce.pwm (i - 16)).map PwmSt.isOn).getD false
        let fails := if i < 16 then decide (s.fget (Reg.CE_AOCFG i) Fld.CE_AOCFG_rb_tol * 1000 * 1048576 < (pin.uv * 1048576 -
            (s.fget (Reg.CE_AOCUR i) Fld.CE_AOCUR_code : Int) * pin.vref).natAbs) else level != (isOn != s.flag (Reg.CE_PWMCFG
            (i - 16)) Fld.CE_PWMCFG_pol)
        let judged := s.running && (decide (i < 16) || (decide (i < 24) && s.pwmEn (i - 16)))
        judged = true ∧ fails = false)
    ∧ (∃ (s : State) (o : BitVec 5) (pin : PinVolts) (level : Bool),
        let i := o.toNat
        let isOn := ((kget? s.ce.pwm (i - 16)).map PwmSt.isOn).getD false
        let fails := if i < 16 then decide (s.fget (Reg.CE_AOCFG i) Fld.CE_AOCFG_rb_tol * 1000 * 1048576 < (pin.uv * 1048576 -
            (s.fget (Reg.CE_AOCUR i) Fld.CE_AOCUR_code : Int) * pin.vref).natAbs) else level != (isOn != s.flag (Reg.CE_PWMCFG
            (i - 16)) Fld.CE_PWMCFG_pol)
        let judged := s.running && (decide (i < 16) || (decide (i < 24) && s.pwmEn (i - 16)))
        let c := kgetD s.ce.rbFail i 0
        judged = true ∧ fails = true ∧ c = 0)
    ∧ (∃ (s : State) (o : BitVec 5) (pin : PinVolts) (level : Bool),
        let i := o.toNat
        let isOn := ((kget? s.ce.pwm (i - 16)).map PwmSt.isOn).getD false
        let fails := if i < 16 then decide (s.fget (Reg.CE_AOCFG i) Fld.CE_AOCFG_rb_tol * 1000 * 1048576 < (pin.uv * 1048576 -
            (s.fget (Reg.CE_AOCUR i) Fld.CE_AOCUR_code : Int) * pin.vref).natAbs) else level != (isOn != s.flag (Reg.CE_PWMCFG
            (i - 16)) Fld.CE_PWMCFG_pol)
        let judged := s.running && (decide (i < 16) || (decide (i < 24) && s.pwmEn (i - 16)))
        let c := kgetD s.ce.rbFail i 0
        judged = true ∧ fails = true ∧ 1 ≤ c)
    ∧ (∃ (s : State) (o : BitVec 5),
        let i := o.toNat
        let judged := s.running && (decide (i < 16) || (decide (i < 24) && s.pwmEn (i - 16)))
        judged = false)
    ∧ (∃ (s : State) (j : BitVec 3),
        s.running = false ∨ s.pwmEn j.toNat = false)
    ∧ (∃ (s : State) (j : BitVec 3) (x : PwmSt),
        s.running = true ∧ s.pwmEn j.toNat = true ∧ kget? s.ce.pwm j.toNat = some x ∧ x.isOn = true ∧ onCycles x.duty
            (s.pwmCycles j.toNat) < s.pwmCycles j.toNat)
    ∧ (∃ (s : State) (j : BitVec 3) (x : PwmSt),
        s.running = true ∧ s.pwmEn j.toNat = true ∧ kget? s.ce.pwm j.toNat = some x ∧ (x.isOn = false ∨ s.pwmCycles j.toNat ≤
            onCycles x.duty (s.pwmCycles j.toNat)))
    ∧ (∃ (s : State) (es : List SharedIn),
        s.alive = true ∧ (es.map SharedIn.id).Nodup ∧ kwf s.ce.shared = true)
    ∧ (∃ (s : State),
        s.alive = false) :=
  ⟨⟨{ tOn [(CE_LCTL 31, CE_LCTL_en, 1)] with ce := { State.reset.ce with loops := [(31, { LoopSt.init 0 with started := true, holdRun := 1 })] } },
      31, by decide +kernel⟩,
   ⟨{ tOn [(CE_LCTL 31, CE_LCTL_en, 1), (CE_LCTL 31, CE_LCTL_fail_safe, 1)] with ce := { State.reset.ce with loops := [(31, { LoopSt.init 0 with started := true, holdRun := 1 })] } },
       31, by decide +kernel⟩,
   ⟨State.reset, 31, by decide +kernel⟩,
   ⟨tOn [], 15, { uv := 0, vref := 0 }, false, by decide +kernel⟩,
   ⟨tOn [], 15, { uv := 1000000, vref := 0 }, false, by decide +kernel⟩,
   ⟨{ tOn [(CE_PWMCFG 7, CE_PWMCFG_en, 1)] with ce := { State.reset.ce with rbFail := [(23, 1)] } }, 23, { uv := 0, vref := 0 },
       true, by decide +kernel⟩,
   ⟨State.reset, 24, by decide +kernel⟩,
   ⟨State.reset, 7, by decide +kernel⟩,
   ⟨{ tOn [(CE_PWMCFG 7, CE_PWMCFG_en, 1), (CE_PWMCFG 7, CE_PWMCFG_d, 1), (FR_PERIOD, FR_PERIOD_period, 160)] with ce := { State.reset.ce with pwm := [(7, { isOn := true, duty := 65534 })] } },
       7, { isOn := true, duty := 65534 }, by decide +kernel⟩,
   ⟨{ tOn [(CE_PWMCFG 7, CE_PWMCFG_en, 1)] with ce := { State.reset.ce with pwm := [(7, { isOn := true, duty := 65535 })] } },
       7, { isOn := true, duty := 65535 }, by decide +kernel⟩,
   ⟨{ tIn .idle [] with ce := { State.reset.ce with shared := [(255, { frame := 9, valid := true, value := 1 })] } },
       [{ id := 255, valid := true, value := 0 }], by decide +kernel⟩,
   ⟨tIn .fallow [], by decide +kernel⟩⟩

/-- Witnesses for the hypotheses of `CaptureCommands`. -/
theorem witness_CaptureCommands :
    (∃ (s : State) (u : BitVec 3),
        let k := u.toNat
        s.inRun = true ∧ s.unitEn k = true ∧ s.furrowFree k = true ∧ s.ustate k ≠ uArmed ∧ s.ustate k ≠ uCapturing ∧ (s.unit
            k).slipWait = false)
    ∧ (∃ (s : State) (u : BitVec 3),
        let k := u.toNat
        (s.inRun = true ∧ s.unitEn k = true ∧ s.furrowFree k = true → False))
    ∧ (∃ (s : State) (u : BitVec 3),
        let k := u.toNat
        s.inRun = true ∧ s.unitEn k = true ∧ s.furrowFree k = true ∧ ((s.ustate k = uArmed ∨ s.ustate k = uCapturing ∨ (s.unit
            k).slipWait = true)))
    ∧ (∃ (s : State) (u : BitVec 3),
        let k := u.toNat
        s.ustate k = uArmed ∧ s.unitStream k = false ∧ s.rdN (Reg.AQ_USLOTS k) ≤ (s.unit k).usedSlots)
    ∧ (∃ (s : State) (u : BitVec 3) (p : Plot),
        let k := u.toNat
        s.ustate k = uCapturing ∧ (s.unit k).plot = some p)
    ∧ (∃ (s : State) (u : BitVec 3),
        let k := u.toNat
        s.ustate k = uArmed ∧ s.unitEn k = true ∧ s.ucfg k Fld.AQ_UCFG_auto = true ∧ s.unitStream k = false ∧ (s.unit
            k).usedSlots < s.rdN (Reg.AQ_USLOTS k))
    ∧ (∃ (s : State) (u : BitVec 3),
        let k := u.toNat
        s.ustate k = uArmed ∨ s.ustate k = uCapturing) :=
  ⟨⟨tHost (tIn .run [(AQ_UCFG 7, AQ_UCFG_en, 1), (AQ_UCFG 7, AQ_UCFG_auto, 1), (AQ_UFURROW 7, AQ_UFURROW_index, 1), (AQ_USTAT 7,
      AQ_USTAT_state, 3)]) [(1, tFu .plot 0x101#32)], 7, by decide +kernel⟩,
   ⟨tIn .idle [], 7, by decide +kernel⟩,
   ⟨tHost (tOn [(AQ_UCFG 7, AQ_UCFG_en, 1), (AQ_UFURROW 7, AQ_UFURROW_index, 1), (AQ_USTAT 7, AQ_USTAT_state, 2)]) [(1, tFu
       .plot 0x101#32)], 7, by decide +kernel⟩,
   ⟨(tOn [(AQ_USTAT 7, AQ_USTAT_state, 1)]).wr (AQ_USLOTS 7) 0#32, 7, by decide +kernel⟩,
   ⟨{ tOn [(AQ_USTAT 7, AQ_USTAT_state, 2)] with aq := { State.reset.aq with units := [(7, { UnitSt.init with plot := some tPlot })] } },
       7, tPlot, by decide +kernel⟩,
   ⟨(tOn [(AQ_USTAT 7, AQ_USTAT_state, 1), (AQ_UCFG 7, AQ_UCFG_en, 1), (AQ_UCFG 7, AQ_UCFG_auto, 1)]).wr (AQ_USLOTS 7) 1#32, 7,
       by decide +kernel⟩,
   ⟨tHost (tIn .run [(AQ_UCFG 7, AQ_UCFG_en, 1), (AQ_UCFG 7, AQ_UCFG_auto, 1), (AQ_UFURROW 7, AQ_UFURROW_index, 1), (AQ_USTAT 7,
       AQ_USTAT_state, 2)]) [(1, tFu .plot 0x101#32)], 7, by decide +kernel⟩⟩

/-- Witnesses for the hypotheses of `PlotDelivery`. -/
theorem witness_PlotDelivery :
    (∃ (s : State) (u : BitVec 3) (p : Plot),
        let k := u.toNat
        (s.unit k).plot = some p ∧ s.ustate k = uCapturing ∧ Plot.complete p = true ∧ p.viol = none ∧ (s.unit k).held = [] ∧
            s.rdN (Reg.AQ_UCOUNT k) ≠ 0 ∧ s.rdN (Reg.AQ_UCOUNT k) ≤ (s.unit k).count + 1)
    ∧ (∃ (s : State) (u : BitVec 3) (p : Plot),
        let k := u.toNat
        (s.unit k).plot = some p ∧ s.ustate k = uCapturing ∧ Plot.complete p = true ∧ p.viol = none ∧ (s.unit k).held = [] ∧
            s.rdN (Reg.AQ_UCOUNT k) = 0)
    ∧ (∃ (s : State) (u : BitVec 3) (p : Plot),
        let k := u.toNat
        (s.unit k).plot = some p ∧ s.ustate k = uCapturing ∧ Plot.complete p = true ∧ p.viol.isSome = true ∧ s.ucfg k
            Fld.AQ_UCFG_stop_viol = true)
    ∧ (∃ (s : State) (u : BitVec 3) (p : Plot) (fi : Firing),
        let k := u.toNat
        (s.unit k).plot = some p ∧ s.ustate k = uCapturing ∧ Plot.complete p = true ∧ p.viol = none ∧ s.rdN (Reg.AQ_UCOUNT k) =
            0 ∧ s.unitStream k = false ∧ (s.unit k).usedSlots < s.rdN (Reg.AQ_USLOTS k) ∧ (s.unit k).held = [fi])
    ∧ (∃ (s : State) (u : BitVec 3),
        let k := u.toNat
        (s.unit k).plot.all (fun x => !Plot.complete x) = true)
    ∧ (∃ (s : State) (u : BitVec 3) (q : Part) (rest : List Part),
        let k := u.toNat
        (s.unit k).ready = q :: rest ∧ s.moverHeld = true)
    ∧ (∃ (s : State) (u : BitVec 3) (q : Part) (rest : List Part) (hit : EccHit),
        let k := u.toNat
        (s.unit k).ready = q :: rest ∧ s.moverHeld = false ∧ hit.fixed = true)
    ∧ (∃ (s : State) (u : BitVec 3) (q : Part) (rest : List Part) (hit : EccHit),
        let k := u.toNat
        (s.unit k).ready = q :: rest ∧ s.moverHeld = false ∧ q.last = true ∧ hit.fixed = false)
    ∧ (∃ (s : State) (u : BitVec 3),
        let k := u.toNat
        (s.unit k).ready = []) :=
  ⟨⟨{ tOn [(AQ_USTAT 7, AQ_USTAT_state, 2), (AQ_UCOUNT 7, ⟨31, 0⟩, 1)] with aq := { State.reset.aq with units := [(7, { UnitSt.init with plot := some tPlot, ready := [tPart] })] } },
      7, tPlot, by decide +kernel⟩,
   ⟨{ tOn [(AQ_USTAT 7, AQ_USTAT_state, 2), (AQ_UCOUNT 7, ⟨31, 0⟩, 0)] with aq := { State.reset.aq with units := [(7, { UnitSt.init with plot := some tPlot, ready := [tPart] })] } },
       7, tPlot, by decide +kernel⟩,
   ⟨{ tOn [(AQ_USTAT 7, AQ_USTAT_state, 2), (AQ_UCFG 7, AQ_UCFG_stop_viol, 1)] with aq := { State.reset.aq with units := [(7, { UnitSt.init with plot := some { tPlot with viol := some 0 } })] } },
       7, { tPlot with viol := some 0 }, by decide +kernel⟩,
   ⟨({ tOn [(AQ_USTAT 7, AQ_USTAT_state, 2)] with aq := { State.reset.aq with units := [(7, { UnitSt.init with plot := some tPlot, held := [{ cond := 3, tp := 5, j := 9, drillCh := 255, late := 0, isLate := false, tdet := 0 }] })] } }).wr
       (AQ_USLOTS 7) 1#32, 7, tPlot, { cond := 3, tp := 5, j := 9, drillCh := 255, late := 0, isLate := false, tdet := 0 },
       by decide +kernel⟩,
   ⟨State.reset, 7, by decide +kernel⟩,
   ⟨{ ({ tOn [] with aq := { State.reset.aq with units := [(7, { UnitSt.init with ready := [tPart] })] } }).wr VT_STAT 1#32 with vt := { State.reset.vt with parts := List.replicate 1016 { kind := 1, furrow := 1, sealNo := 0, pos := 0, length := 0, digest := [] } } },
       7, tPart, [], by decide +kernel⟩,
   ⟨{ tOn [(AQ_USTAT 7, AQ_USTAT_state, 2), (AQ_UCOUNT 7, ⟨31, 0⟩, 0)] with aq := { State.reset.aq with units := [(7, { UnitSt.init with plot := some tPlot, ready := [tPart] })] } },
       7, tPart, [], { fixed := true, row := 0, addr := 0 }, by decide +kernel⟩,
   ⟨{ tOn [(AQ_USTAT 7, AQ_USTAT_state, 2), (AQ_UCOUNT 7, ⟨31, 0⟩, 0)] with aq := { State.reset.aq with units := [(7, { UnitSt.init with plot := some tPlot, ready := [tPart] })] } },
       7, tPart, [], { fixed := false, row := 0, addr := 0 }, by decide +kernel⟩,
   ⟨State.reset, 7, by decide +kernel⟩⟩

/-- Witnesses for the hypotheses of `PinsAndDrill`. -/
theorem witness_PinsAndDrill :
    (∃ (s : State) (p : BitVec 2) (t : Stamp) (last : Int),
        let st := rawOf t.count.toNat t.frac.toNat
        s.alive = true ∧ s.flag (Reg.AQ_PINCFG p.toNat) Fld.AQ_PINCFG_en = true ∧ kget? s.aq.lastEdge p.toNat = some last ∧ st -
            last < 20 * nsU)
    ∧ (∃ (s : State) (p : BitVec 2),
        s.flag (Reg.AQ_PINCFG p.toNat) Fld.AQ_PINCFG_en = false)
    ∧ (∃ (s : State) (p : BitVec 2) (t : Stamp),
        let st := rawOf t.count.toNat t.frac.toNat
        s.alive = true ∧ s.flag (Reg.AQ_PINCFG p.toNat) Fld.AQ_PINCFG_en = true ∧ (kget? s.aq.lastEdge p.toNat).all (fun l =>
            decide (20 * nsU ≤ st - l)) = true)
    ∧ (∃ (s : State) (org : BitVec 6) (seq : Word) (tdet : PtpTime),
        let tact := PtpTime.val tdet + s.drillLatency
        s.alive = true ∧ s.aq.seen.contains (org.toNat, seq) = false ∧ s.now ≤ tact)
    ∧ (∃ (s : State) (org : BitVec 6) (seq : Word) (tdet : PtpTime),
        let tact := PtpTime.val tdet + s.drillLatency
        s.alive = true ∧ s.aq.seen.contains (org.toNat, seq) = false ∧ tact < s.now)
    ∧ (∃ (s : State) (org : BitVec 6) (seq : Word),
        s.aq.seen.contains (org.toNat, seq) = true)
    ∧ (∃ (s : State) (m : DrillMsg),
        nextDrill s.aq.drills = some m)
    ∧ (∃ (s : State),
        s.aq.drills = [])
    ∧ (∃ (s : State) (slot : BitVec 5),
        let n := s.ftInput slot.toNat
        s.running = true ∧ s.ftEn slot.toNat = true ∧ s.inEn n = true ∧ s.fe.pllStep = false)
    ∧ (∃ (s : State) (slot : BitVec 5),
        let n := s.ftInput slot.toNat
        s.running = false ∨ s.ftEn slot.toNat = false ∨ s.inEn n = false ∨ s.fe.pllStep = true)
    ∧ (∃ (s : State),
        s.alive = true ∧ s.pw.inReset = false ∧ s.pw.power ≠ .hold)
    ∧ (∃ (s : State),
        s.pw.inReset = true ∨ s.pw.power = .hold) :=
  ⟨⟨{ tIn .idle [(AQ_PINCFG 3, AQ_PINCFG_en, 1)] with aq := { State.reset.aq with lastEdge := [(3, 0)] } }, 3,
      { count := 9, frac := 0 }, 0, by decide +kernel⟩,
   ⟨State.reset, 3, by decide +kernel⟩,
   ⟨{ tIn .run [(AQ_PINCFG 3, AQ_PINCFG_en, 1)] with aq := { State.reset.aq with lastEdge := [(3, 0)] } }, 3,
       { count := 10, frac := 0 }, by decide +kernel⟩,
   ⟨State.reset, 47, 0, { sec := 0, ns := 0, frac := 0 }, by decide +kernel⟩,
   ⟨{ tIn .run [] with tb := { State.reset.tb with cnt := 500000000 } }, 47, 5, { sec := 0, ns := 0, frac := 0 },
       by decide +kernel⟩,
   ⟨{ State.reset with aq := { State.reset.aq with seen := [(47, 0)] } }, 47, 0, by decide +kernel⟩,
   ⟨{ State.reset with aq := { State.reset.aq with drills := [{ origin := 1, ch := 0, seq := 0, tp := 0, tact := 0 }] } },
       { origin := 1, ch := 0, seq := 0, tp := 0, tact := 0 }, by decide +kernel⟩,
   ⟨State.reset, by decide +kernel⟩,
   ⟨tOn [(DF_FTSEL 31, DF_FTSEL_en, 1), (DF_FTSEL 31, DF_FTSEL_input, 255), (IN_CFG 255, IN_CFG_en, 1)], 31, by decide +kernel⟩,
   ⟨State.reset, 31, by decide +kernel⟩,
   ⟨State.reset, by decide +kernel⟩,
   ⟨tIn .hold [], by decide +kernel⟩⟩

/-- Witnesses for the hypotheses of `TraceReads`. -/
theorem witness_TraceReads :
    (∃ (s : State) (e : EvRec),
        s.traceEntry (s.rd Reg.EV_TRPTR) = some e ∧ s.ev.trWord < 7)
    ∧ (∃ (s : State) (e : EvRec),
        s.traceEntry (s.rd Reg.EV_TRPTR) = some e ∧ s.ev.trWord = 7)
    ∧ (∃ (s : State),
        s.traceEntry (s.rd Reg.EV_TRPTR) = none)
    ∧ (∃ (w : BitVec 3),
        w ≠ 0 ∧ w ≠ 7)
    ∧ (∃ (s : State),
        s.ev.ffArmed = true)
    ∧ (∃ (s : State),
        s.alive = true ∧ s.inRun = true ∧ 256 ≤ s.evFree) :=
  ⟨⟨{ tIn .idle [(EV_TRCNT, ⟨0, 0⟩, 1)] with ev := { State.reset.ev with trace := [tEv], trWord := 6 } }, tEv,
      by decide +kernel⟩,
   ⟨{ tIn .idle [(EV_TRCNT, ⟨0, 0⟩, 1)] with ev := { State.reset.ev with trace := [tEv], trWord := 7 } }, tEv,
       by decide +kernel⟩,
   ⟨tIn .idle [(EV_TRPTR, ⟨31, 0⟩, 1)], by decide +kernel⟩,
   ⟨6, by decide +kernel⟩,
   ⟨{ State.reset with ev := { State.reset.ev with ffArmed := true } }, by decide +kernel⟩,
   ⟨tIn .run [], by decide +kernel⟩⟩

/-- Witnesses for the hypotheses of `SidePort`. -/
theorem witness_SidePort :
    (∃ (s : State),
        s.spMode = 1 ∧ s.spEn = true ∧ s.running = true ∧ s.sp.shifting = false ∧ s.sp.inhibit = false ∧ ((s.sv.safe = true ∨
            s.ce.ran = true ∨ s.fr.nextTick = s.fr.tickS + 1)))
    ∧ (∃ (s : State),
        s.sv.safe = false ∧ s.ce.ran = false ∧ s.fr.nextTick ≠ s.fr.tickS + 1)
    ∧ (∃ (s : State),
        s.alive = true ∧ s.spMode = 2)
    ∧ (∃ (s : State) (bits : List Bool),
        s.sp.obsSel = true ∧ bits.length ≠ 256 * s.obsStages)
    ∧ (∃ (s : State) (bits : List Bool),
        let all := s.sp.obsReg ++ bits
        let ws := wordsOfBits 8 (all.drop bits.length)
        let w0 := (ws.getD 0 0).toNat
        let good := decide (w0 / 2 ^ 24 = 0xC3) && obsCrc (ws.take 7) == ws.getD 7 0
        s.sp.obsSel = true ∧ bits.length = 256 * s.obsStages ∧ good = false)
    ∧ (∃ (s : State) (bits : List Bool),
        let all := s.sp.obsReg ++ bits
        let ws := wordsOfBits 8 (all.drop bits.length)
        let w0 := (ws.getD 0 0).toNat
        let good := decide (w0 / 2 ^ 24 = 0xC3) && obsCrc (ws.take 7) == ws.getD 7 0
        s.sp.obsSel = true ∧ bits.length = 256 * s.obsStages ∧ good = true)
    ∧ (∃ (s : State),
        s.sp.obsSel = false)
    ∧ (∃ (s : State) (f : Nat) (it : Item) (fu : Furrow),
        s.readsCame .transfer = true ∧ s.sp.xfer = some it.seq ∧ s.furrowOf? .side = some f ∧ s.furrow? f = some fu ∧
            Furrow.item? fu it.seq = some it ∧ xferIn it.desc = 0)
    ∧ (∃ (s : State) (f : Nat) (it : Item) (fu : Furrow),
        s.readsCame .transfer = true ∧ s.sp.xfer = some it.seq ∧ s.furrowOf? .side = some f ∧ s.furrow? f = some fu ∧
            Furrow.item? fu it.seq = some it ∧ 0 < xferIn it.desc) :=
  ⟨⟨{ tOn [(SP_CFG, SP_CFG_mode, 1), (SP_SPCFG, SP_SPCFG_sp_en, 1)] with ce := { State.reset.ce with ran := true } },
      by decide +kernel⟩,
   ⟨{ tOn [] with fr := { State.reset.fr with nextTick := 9, tickS := 3 } }, by decide +kernel⟩,
   ⟨tIn .idle [(SP_CFG, SP_CFG_mode, 2)], by decide +kernel⟩,
   ⟨{ tIn .idle [(SP_OBSCFG, SP_OBSCFG_chain, 1)] with sp := { State.reset.sp with obsSel := true } }, [true],
       by decide +kernel⟩,
   ⟨{ tIn .idle [(SP_OBSCFG, SP_OBSCFG_chain, 1)] with sp := { State.reset.sp with obsSel := true, obsReg := List.replicate 256 false } },
       List.replicate 256 true, by decide +kernel⟩,
   ⟨{ tIn .idle [(SP_OBSCFG, SP_OBSCFG_chain, 1)] with sp := { State.reset.sp with obsSel := true, obsReg := List.replicate 256 false } },
       ([0xC3000100#32, 0x80000042#32, 0#32, 0#32, 0#32, 0#32, 0#32, obsCrc [0xC3000100#32, 0x80000042#32, 0#32, 0#32, 0#32,
       0#32, 0#32]].flatMap (fun (w : Word) => msbBits 32 w.toNat)), by decide +kernel⟩,
   ⟨State.reset, by decide +kernel⟩,
   ⟨{ tHost (tIn .idle []) [(255, { tFu .side 0x1FF#32 with items := [tItem 0x40 tDesc] })] with sp := { State.reset.sp with xfer := some 0 } },
       255, tItem 0x40 tDesc, { tFu .side 0x1FF#32 with items := [tItem 0x40 tDesc] }, by decide +kernel⟩,
   ⟨{ tHost (tIn .idle []) [(255, { tFu .side 0x1FF#32 with items := [tItem 0x40 { tDesc with w6 := 9#32, w1 := 2048#32 }] })] with sp := { State.reset.sp with xfer := some 0 } },
       255, tItem 0x40 { tDesc with w6 := 9#32, w1 := 2048#32 },
       { tFu .side 0x1FF#32 with items := [tItem 0x40 { tDesc with w6 := 9#32, w1 := 2048#32 }] }, by decide +kernel⟩⟩

/-- Witnesses for the hypotheses of `FurrowNopAndFence`. -/
theorem witness_FurrowNopAndFence :
    (∃ (s : State) (f : BitVec 9) (fu : Furrow) (d : Desc),
        Fetches s f.toNat fu ∧ f.toNat ≠ 0 ∧ fu.kind ≠ .mgmt ∧ reservedZero 0 d = true)
    ∧ (∃ (s : State) (f : BitVec 9) (fu : Furrow) (op : Byte),
        Fetches s f.toNat fu ∧ f.toNat ≠ 0 ∧ opAllowed fu.kind op = false)
    ∧ (∃ (s : State) (f : BitVec 9) (fu : Furrow) (d : Desc) (t : Nat),
        let i := f.toNat
        let fs := s.fetched i fu 1 d none
        Fetches s f.toNat fu ∧ f.toNat ≠ 0 ∧ fu.kind ≠ .mgmt ∧ reservedZero 1 d = true ∧ fs.target? d.w2 = some t ∧ t ≠ i ∧
            (fs.furrow? t).any (fun g => Furrow.posted g d.w1) = true)
    ∧ (∃ (s : State) (f : BitVec 9) (fu : Furrow) (d : Desc) (t : Nat),
        let i := f.toNat
        let fs := s.fetched i fu 1 d none
        Fetches s f.toNat fu ∧ f.toNat ≠ 0 ∧ fu.kind ≠ .mgmt ∧ reservedZero 1 d = true ∧ fs.target? d.w2 = some t ∧ t ≠ i ∧
            (fs.furrow? t).any (fun g => Furrow.posted g d.w1) = false)
    ∧ (∃ (s : State) (f : BitVec 9) (fu : Furrow) (d : Desc),
        let i := f.toNat
        let fs := s.fetched i fu 1 d none
        Fetches s f.toNat fu ∧ f.toNat ≠ 0 ∧ fu.kind ≠ .mgmt ∧ reservedZero 1 d = true ∧ fs.target? d.w2 = none)
    ∧ (∃ (s : State) (fu : Furrow) (d : Desc),
        Fetches s 0 fu ∧ fu.kind = .mgmt ∧ reservedZero 0 d = true)
    ∧ (∃ (s : State) (fu : Furrow) (op : Byte),
        Fetches s 0 fu ∧ fu.kind = .mgmt ∧ opAllowed .mgmt op = false)
    ∧ (∃ (s : State) (f : BitVec 9) (fu : Furrow),
        s.furrow? f.toNat = some fu ∧ fu.items.find? (fun it => it.op == 0x01#8 && Item.isActive it) = none)
    ∧ (∃ (s : State) (f : BitVec 9) (fu : Furrow) (it : Item),
        let ready := (s.target? it.desc.w2).any (fun t => (s.furrow? t).any (fun g => Furrow.posted g it.desc.w1))
        s.furrow? f.toNat = some fu ∧ fu.items.find? (fun it => it.op == 0x01#8 && Item.isActive it) = some it ∧ ready = true)
    ∧ (∃ (s : State) (f : BitVec 9) (fu : Furrow) (it : Item),
        let ready := (s.target? it.desc.w2).any (fun t => (s.furrow? t).any (fun g => Furrow.posted g it.desc.w1))
        s.furrow? f.toNat = some fu ∧ fu.items.find? (fun it => it.op == 0x01#8 && Item.isActive it) = some it ∧ ready = false) :=
  ⟨⟨tHost (tIn .idle []) [(255, tFu .event 0x1FF#32)], 255, tFu .event 0x1FF#32, tDesc,
      (by simp only [fetches_iff]; decide +kernel)⟩,
   ⟨tHost (tIn .idle []) [(255, tFu .event 0x1FF#32)], 255, tFu .event 0x1FF#32, 0x7F#8,
       (by simp only [fetches_iff]; decide +kernel)⟩,
   ⟨tHost (tIn .idle []) [(1, { tFu .job 0x101#32 with nextPost := 1 }), (255, tFu .plot 0x1FF#32)], 255, tFu .plot 0x1FF#32,
       { tDesc with w2 := 0x101#32 }, 1, (by simp only [fetches_iff]; decide +kernel)⟩,
   ⟨tHost (tIn .idle []) [(1, { tFu .job 0x101#32 with nextPost := 0 }), (255, tFu .plot 0x1FF#32)], 255, tFu .plot 0x1FF#32,
       { tDesc with w2 := 0x101#32 }, 1, (by simp only [fetches_iff]; decide +kernel)⟩,
   ⟨tHost (tIn .idle []) [(255, tFu .plot 0x1FF#32)], 255, tFu .plot 0x1FF#32, { tDesc with w2 := 0x101#32 },
       (by simp only [fetches_iff]; decide +kernel)⟩,
   ⟨tHost (tIn .idle []) [(0, tFu .mgmt 0x100#32)], tFu .mgmt 0x100#32, tDesc, (by simp only [fetches_iff]; decide +kernel)⟩,
   ⟨tHost (tIn .idle []) [(0, tFu .mgmt 0x100#32)], tFu .mgmt 0x100#32, 0x10, (by simp only [fetches_iff]; decide +kernel)⟩,
   ⟨tHost (tIn .idle []) [(0, tFu .mgmt 0x100#32)], 0, tFu .mgmt 0x100#32, by decide +kernel⟩,
   ⟨tHost (tIn .idle []) [(1, { tFu .job 0x101#32 with nextPost := 1 }), (255,
       { tFu .plot 0x1FF#32 with items := [tItem 1 { tDesc with w2 := 0x101#32 }] })], 255,
       { tFu .plot 0x1FF#32 with items := [tItem 1 { tDesc with w2 := 0x101#32 }] }, tItem 1 { tDesc with w2 := 0x101#32 },
       by decide +kernel⟩,
   ⟨tHost (tIn .idle []) [(1, { tFu .job 0x101#32 with nextPost := 0 }), (255,
       { tFu .plot 0x1FF#32 with items := [tItem 1 { tDesc with w2 := 0x101#32 }] })], 255,
       { tFu .plot 0x1FF#32 with items := [tItem 1 { tDesc with w2 := 0x101#32 }] }, tItem 1 { tDesc with w2 := 0x101#32 },
       by decide +kernel⟩⟩

/-- Witnesses for the hypotheses of `BuffersAndSetpoints`. -/
theorem witness_BuffersAndSetpoints :
    (∃ (s : State) (f : BitVec 9) (fu : Furrow) (d : Desc),
        Fetches s f.toNat fu ∧ f.toNat ≠ 0 ∧ opAllowed fu.kind 0x10 = true ∧ reservedZero 0x10 d = true ∧ Desc.len d = 0)
    ∧ (∃ (s : State) (f : BitVec 9) (fu : Furrow) (d : Desc),
        Fetches s f.toNat fu ∧ f.toNat ≠ 0 ∧ opAllowed fu.kind 0x10 = true ∧ reservedZero 0x10 d = true ∧ Desc.len d ≠ 0 ∧
            bufAligned d = false)
    ∧ (∃ (s : State) (f : BitVec 9) (fu : Furrow) (d : Desc),
        Fetches s f.toNat fu ∧ f.toNat ≠ 0 ∧ opAllowed fu.kind 0x10 = true ∧ reservedZero 0x10 d = true ∧ Desc.len d ≠ 0 ∧
            bufAligned d = true ∧ s.inRun = true)
    ∧ (∃ (s : State) (f : BitVec 9) (fu : Furrow) (d : Desc),
        Fetches s f.toNat fu ∧ f.toNat ≠ 0 ∧ opAllowed fu.kind 0x10 = true ∧ reservedZero 0x10 d = true ∧ Desc.len d ≠ 0 ∧
            bufAligned d = true ∧ s.inRun = false ∧ fu.kind ≠ .event)
    ∧ (∃ (s : State) (f : BitVec 9) (fu : Furrow) (d : Desc),
        Fetches s f.toNat fu ∧ f.toNat ≠ 0 ∧ fu.kind = .event ∧ reservedZero 0x10 d = true ∧ Desc.len d ≠ 0 ∧ bufAligned d =
            true ∧ s.inRun = false)
    ∧ (∃ (s : State) (f : BitVec 9) (fu : Furrow) (d : Desc),
        Fetches s f.toNat fu ∧ f.toNat ≠ 0 ∧ fu.kind = .sample ∧ reservedZero 0x10 d = true ∧ Desc.len d ≠ 0 ∧ bufAligned d =
            true ∧ s.inRun = true)
    ∧ (∃ (s : State) (f : BitVec 9) (fu : Furrow) (d : Desc),
        let i := f.toNat
        let q := fu.nextFetch
        let ss := s.fetched i fu 0x20 d none
        let frame := (join64 d.w2 d.w3).toNat
        let value := join64 d.w4 d.w5
        let now := if s.running then s.frameNo else 0
        Fetches s f.toNat fu ∧ f.toNat ≠ 0 ∧ fu.kind = .setpoint ∧ reservedZero 0x20 d = true ∧ ((∀ x ∈ ss.ce.queue, ¬ (x.furrow
            = i ∧ x.seq = q))) ∧ s.sv.twin.applied = [] ∧ d.param.toNat ≤ 31 ∧ ss.setpointBad i d.param.toNat = false ∧ fFinite
            value = true ∧ frame ≤ now + 65536 ∧ ((s.running = true → now < frame)) ∧ ss.relays = false)
    ∧ (∃ (s : State) (f : BitVec 9) (fu : Furrow) (d : Desc),
        let i := f.toNat
        let q := fu.nextFetch
        let ss := s.fetched i fu 0x20 d none
        let frame := (join64 d.w2 d.w3).toNat
        let value := join64 d.w4 d.w5
        let now := if s.running then s.frameNo else 0
        Fetches s f.toNat fu ∧ f.toNat ≠ 0 ∧ fu.kind = .setpoint ∧ reservedZero 0x20 d = true ∧ ((∀ x ∈ ss.ce.queue, ¬ (x.furrow
            = i ∧ x.seq = q))) ∧ s.sv.twin.applied = [] ∧ d.param.toNat ≤ 31 ∧ ss.setpointBad i d.param.toNat = false ∧ fFinite
            value = true ∧ frame ≤ now + 65536 ∧ ((s.running = true → now < frame)) ∧ ss.relays = true)
    ∧ (∃ (s : State) (f : BitVec 9) (fu : Furrow) (d : Desc),
        let i := f.toNat
        let q := fu.nextFetch
        let ss := s.fetched i fu 0x20 d none
        let frame := (join64 d.w2 d.w3).toNat
        let value := join64 d.w4 d.w5
        let now := if s.running then s.frameNo else 0
        Fetches s f.toNat fu ∧ f.toNat ≠ 0 ∧ fu.kind = .setpoint ∧ reservedZero 0x20 d = true ∧ ((∀ x ∈ ss.ce.queue, ¬ (x.furrow
            = i ∧ x.seq = q))) ∧ s.sv.twin.applied = [] ∧ d.param.toNat ≤ 31 ∧ ss.setpointBad i d.param.toNat = false ∧ fFinite
            value = true ∧ s.running = true ∧ frame ≤ now)
    ∧ (∃ (s : State) (f : BitVec 9) (fu : Furrow) (d : Desc),
        let i := f.toNat
        let q := fu.nextFetch
        let ss := s.fetched i fu 0x20 d none
        Fetches s f.toNat fu ∧ f.toNat ≠ 0 ∧ fu.kind = .setpoint ∧ reservedZero 0x20 d = true ∧ ((∀ x ∈ ss.ce.queue, ¬ (x.furrow
            = i ∧ x.seq = q))) ∧ s.sv.twin.applied = [] ∧ 31 < d.param.toNat) :=
  ⟨⟨tHost (tIn .run []) [(255, tFu .sample 0x1FF#32)], 255, tFu .sample 0x1FF#32, tDesc,
      (by simp only [fetches_iff]; decide +kernel)⟩,
   ⟨tHost (tIn .run []) [(255, tFu .plot 0x1FF#32)], 255, tFu .plot 0x1FF#32, { tDesc with w1 := 63#32 },
       (by simp only [fetches_iff]; decide +kernel)⟩,
   ⟨tHost (tIn .run []) [(255, tFu .event 0x1FF#32)], 255, tFu .event 0x1FF#32, { tDesc with w1 := 64#32 },
       (by simp only [fetches_iff]; decide +kernel)⟩,
   ⟨tHost (tIn .idle []) [(255, tFu .seal 0x1FF#32)], 255, tFu .seal 0x1FF#32, { tDesc with w1 := 64#32 },
       (by simp only [fetches_iff]; decide +kernel)⟩,
   ⟨tHost (tIn .idle []) [(255, tFu .event 0x1FF#32)], 255, tFu .event 0x1FF#32, { tDesc with w1 := 64#32 },
       (by simp only [fetches_iff]; decide +kernel)⟩,
   ⟨tHost (tIn .run []) [(255, tFu .sample 0x1FF#32)], 255, tFu .sample 0x1FF#32, { tDesc with w1 := 64#32 },
       (by simp only [fetches_iff]; decide +kernel)⟩,
   ⟨tHost (tIn .run [(CE_LCTL 31, CE_LCTL_en, 1), (CE_LCTL 31, CE_LCTL_sp_src, 1), (CE_LCTL 31, CE_LCTL_sp_furrow, 255)]) [(255,
       tFu .setpoint 0x1FF#32)], 255, tFu .setpoint 0x1FF#32, { tDesc with param := 31, w2 := 65536#32 },
       (by simp only [fetches_iff]; decide +kernel)⟩,
   ⟨tHost (tIn .run [(CE_LCTL 31, CE_LCTL_en, 1), (CE_LCTL 31, CE_LCTL_sp_src, 1), (CE_LCTL 31, CE_LCTL_sp_furrow, 255),
       (SV_TWSTAT, SV_TWSTAT_role, 1), (SV_TWSTAT, SV_TWSTAT_p_ready, 1)]) [(255, tFu .setpoint 0x1FF#32)], 255, tFu .setpoint
       0x1FF#32, { tDesc with param := 31, w2 := 65536#32 }, (by simp only [fetches_iff]; decide +kernel)⟩,
   ⟨tHost (tIn .run [(CE_LCTL 31, CE_LCTL_en, 1), (CE_LCTL 31, CE_LCTL_sp_src, 1), (CE_LCTL 31, CE_LCTL_sp_furrow, 255),
       (FR_STAT, FR_STAT_running, 1)]) [(255, tFu .setpoint 0x1FF#32)], 255, tFu .setpoint 0x1FF#32,
       { tDesc with param := 31, w2 := 0#32 }, (by simp only [fetches_iff]; decide +kernel)⟩,
   ⟨tHost (tIn .run []) [(255, tFu .setpoint 0x1FF#32)], 255, tFu .setpoint 0x1FF#32, { tDesc with param := 32 },
       (by simp only [fetches_iff]; decide +kernel)⟩⟩

/-- Witnesses for the hypotheses of `JobsAndTransfers`. -/
theorem witness_JobsAndTransfers :
    (∃ (s : State) (f : Byte) (fu : Furrow) (d : Desc),
        Fetches s f.toNat fu ∧ f.toNat ≠ 0 ∧ fu.kind = .side ∧ d.flags &&& 0xFE#8 ≠ 0 ∧ s.hi.subreset = none)
    ∧ (∃ (s : State) (f : Byte) (fu : Furrow) (d : Desc) (c : Instr) (op : Byte) (comp : Bool),
        let pipe := fun (u : State) => if comp then u.bl.comp else u.bl.exp
        Fetches s f.toNat fu ∧ f.toNat ≠ 0 ∧ fu.kind = .job ∧ (c, op, comp) ∈ [(Instr.compress f d, 0x30#8, true), (.expand f d,
            0x31#8, false), (.verify f d, 0x32#8, false)] ∧ pipe s ≠ none)
    ∧ (∃ (s : State) (f : Byte) (fu : Furrow) (d : Desc) (c : Instr) (op : Byte) (comp : Bool),
        let i := f.toNat
        let pipe := fun (u : State) => if comp then u.bl.comp else u.bl.exp
        let alone := (kkeys s.hi.furrows).all (fun k => k == i || (s.furrow? k).all (fun g => (Furrow.runnable? g true).isNone
            && (Furrow.runnable? g false).isNone))
        Fetches s f.toNat fu ∧ f.toNat ≠ 0 ∧ fu.kind = .job ∧ (c, op, comp) ∈ [(Instr.compress f d, 0x30#8, true), (.expand f d,
            0x31#8, false), (.verify f d, 0x32#8, false)] ∧ pipe s = none ∧ s.hi.subreset = none ∧ alone = true ∧ s.jobBad i op
            d = false ∧ (Desc.srcLen d ≠ 0 ∨ (comp && optFinal d) = true))
    ∧ (∃ (s : State) (f : Byte) (fu : Furrow) (d : Desc) (c : Instr) (op : Byte) (comp : Bool),
        let i := f.toNat
        let pipe := fun (u : State) => if comp then u.bl.comp else u.bl.exp
        let alone := (kkeys s.hi.furrows).all (fun k => k == i || (s.furrow? k).all (fun g => (Furrow.runnable? g true).isNone
            && (Furrow.runnable? g false).isNone))
        Fetches s f.toNat fu ∧ f.toNat ≠ 0 ∧ fu.kind = .job ∧ (c, op, comp) ∈ [(Instr.compress f d, 0x30#8, true), (.expand f d,
            0x31#8, false), (.verify f d, 0x32#8, false)] ∧ pipe s = none ∧ s.hi.subreset = none ∧ alone = true ∧ (s.jobBad i op
            d = true ∨ (Desc.srcLen d = 0 ∧ (comp && optFinal d) = false)))
    ∧ (∃ (s : State) (f : Byte) (fu : Furrow) (d : Desc),
        Fetches s f.toNat fu ∧ f.toNat ≠ 0 ∧ fu.kind = .side ∧ d.flags &&& 0xFE#8 = 0 ∧ s.furrowOf? .side = some f.toNat ∧
            s.hi.subreset = none ∧ s.sp.xfer ≠ none)
    ∧ (∃ (s : State) (f : Byte) (fu : Furrow) (d : Desc),
        Fetches s f.toNat fu ∧ f.toNat ≠ 0 ∧ fu.kind = .side ∧ d.flags &&& 0xFE#8 = 0 ∧ s.furrowOf? .side = some f.toNat ∧
            s.hi.subreset = none ∧ s.sp.xfer = none ∧ xferReserved d = false ∧ d.w1 ≠ 0 ∧ s.xferBad d = false ∧ s.xferTooLong d
            = false ∧ s.sp.shifting = false ∧ s.xferFits d = true)
    ∧ (∃ (s : State) (f : Byte) (fu : Furrow) (d : Desc),
        Fetches s f.toNat fu ∧ f.toNat ≠ 0 ∧ fu.kind = .side ∧ d.flags &&& 0xFE#8 = 0 ∧ s.furrowOf? .side = some f.toNat ∧
            s.hi.subreset = none ∧ s.sp.xfer = none ∧ (xferReserved d = true ∨ d.w1 = 0 ∨ s.xferBad d = true ∨ s.xferTooLong d =
            true)) :=
  ⟨⟨tHost (tIn .idle []) [(255, tFu .side 0x1FF#32)], 255, tFu .side 0x1FF#32, { tDesc with flags := 0x80 },
      (by simp only [fetches_iff]; decide +kernel)⟩,
   ⟨{ tHost (tIn .idle []) [(255, tFu .job 0x1FF#32)] with bl := { State.reset.bl with comp := some (1, 0) } }, 255, tFu .job
       0x1FF#32, tDesc, .compress 255 tDesc, 0x30, true, (by simp only [fetches_iff]; decide +kernel)⟩,
   ⟨tHost (tIn .idle []) [(255, tFu .job 0x1FF#32)], 255, tFu .job 0x1FF#32,
       { tDesc with w1 := 64#32, w2 := 4096#32, w4 := 8192#32, w6 := 64#32 }, .compress 255
       ({ tDesc with w1 := 64#32, w2 := 4096#32, w4 := 8192#32, w6 := 64#32 }), 0x30, true,
       (by simp only [fetches_iff]; decide +kernel)⟩,
   ⟨tHost (tIn .idle []) [(255, tFu .job 0x1FF#32)], 255, tFu .job 0x1FF#32, tDesc, .verify 255 tDesc, 0x32, false,
       (by simp only [fetches_iff]; decide +kernel)⟩,
   ⟨{ tHost (tIn .idle []) [(255, tFu .side 0x1FF#32)] with sp := { State.reset.sp with xfer := some 7 } }, 255, tFu .side
       0x1FF#32, tDesc, (by simp only [fetches_iff]; decide +kernel)⟩,
   ⟨tHost (tIn .idle [(SP_CFG, SP_CFG_mode, 1)]) [(255, tFu .side 0x1FF#32)], 255, tFu .side 0x1FF#32,
       { tDesc with param := 1, w1 := 8#32, w2 := 4096#32, w4 := 4096#32 }, (by simp only [fetches_iff]; decide +kernel)⟩,
   ⟨tHost (tIn .idle []) [(255, tFu .side 0x1FF#32)], 255, tFu .side 0x1FF#32, tDesc,
       (by simp only [fetches_iff]; decide +kernel)⟩⟩

/-- Witnesses for the hypotheses of `ManagementItems`. -/
theorem witness_ManagementItems :
    (∃ (s : State) (fu : Furrow) (d : Desc) (f : Nat) (g : Furrow),
        let fs := fun (op : Byte) => s.fetched 0 fu op d none
        Fetches s 0 fu ∧ fu.kind = .mgmt ∧ reservedZero 0x81 d = true ∧ d.w1 ≠ 0x100#32 ∧ (fs 0x81).target? d.w1 = some f ∧ (fs
            0x81).furrow? f = some g)
    ∧ (∃ (s : State) (fu : Furrow) (d : Desc),
        Fetches s 0 fu ∧ fu.kind = .mgmt ∧ reservedZero 0x81 d = true ∧ d.w1 = 0x100#32)
    ∧ (∃ (s : State) (fu : Furrow) (d : Desc),
        let fs := fun (op : Byte) => s.fetched 0 fu op d none
        Fetches s 0 fu ∧ fu.kind = .mgmt ∧ reservedZero 0x81 d = true ∧ d.w1 ≠ 0x100#32 ∧ (fs 0x81).target? d.w1 = none)
    ∧ (∃ (s : State) (fu : Furrow) (d : Desc) (f : Nat) (g : Furrow),
        let fs := fun (op : Byte) => s.fetched 0 fu op d none
        Fetches s 0 fu ∧ fu.kind = .mgmt ∧ reservedZero 0x82 d = true ∧ (fs 0x82).target? d.w1 = some f ∧ (fs 0x82).furrow? f =
            some g ∧ g.failed = false)
    ∧ (∃ (s : State) (fu : Furrow) (d : Desc),
        let fs := fun (op : Byte) => s.fetched 0 fu op d none
        Fetches s 0 fu ∧ fu.kind = .mgmt ∧ reservedZero 0x82 d = true ∧ (fs 0x82).target? d.w1 = none)
    ∧ (∃ (s : State) (fu : Furrow) (d : Desc) (f : Nat) (g : Furrow),
        let fs := fun (op : Byte) => s.fetched 0 fu op d none
        Fetches s 0 fu ∧ fu.kind = .mgmt ∧ reservedZero 0x83 d = true ∧ (fs 0x83).target? d.w1 = some f ∧ (fs 0x83).furrow? f =
            some g ∧ g.stalled = true ∧ g.failed = false)
    ∧ (∃ (s : State) (fu : Furrow) (d : Desc),
        let fs := fun (op : Byte) => s.fetched 0 fu op d none
        Fetches s 0 fu ∧ fu.kind = .mgmt ∧ reservedZero 0x83 d = true ∧ (fs 0x83).target? d.w1 = none)
    ∧ (∃ (s : State) (fu : Furrow) (d : Desc),
        Fetches s 0 fu ∧ fu.kind = .mgmt ∧ reservedZero 0x84 d = true ∧ Desc.len d = 0)
    ∧ (∃ (s : State) (fu : Furrow) (d : Desc),
        Fetches s 0 fu ∧ fu.kind = .mgmt ∧ reservedZero 0x84 d = true ∧ Desc.len d ≠ 0 ∧ bufAligned d = false)
    ∧ (∃ (s : State) (fu : Furrow) (d : Desc) (x : Word64),
        Fetches s 0 fu ∧ fu.kind = .mgmt ∧ reservedZero 0x84 d = true ∧ bufAligned d = true ∧ 2048 ≤ Desc.len d ∧ s.hi.refuseAt
            = some x ∧ (x - Desc.addr d).toNat < 2048)
    ∧ (∃ (s : State) (fu : Furrow) (d : Desc) (x : Word64),
        Fetches s 0 fu ∧ fu.kind = .mgmt ∧ reservedZero 0x84 d = true ∧ bufAligned d = true ∧ 2048 ≤ Desc.len d ∧
            s.hi.refuseAt.all (fun x => decide (2048 ≤ (x - Desc.addr d).toNat)) = true)
    ∧ (∃ (s : State) (fu : Furrow) (d : Desc),
        Fetches s 0 fu ∧ fu.kind = .mgmt ∧ reservedZero 0x84 d = true ∧ bufAligned d = true ∧ Desc.len d ≠ 0 ∧ Desc.len d <
            2048) :=
  ⟨⟨tHost (tIn .idle []) [(0, tFu .mgmt 0x100#32), (255, tFu .plot 0x1FF#32)], tFu .mgmt 0x100#32,
      { tDesc with w1 := 0x1FF#32 }, 255, tFu .plot 0x1FF#32, (by simp only [fetches_iff]; decide +kernel)⟩,
   ⟨tHost (tIn .idle []) [(0, tFu .mgmt 0x100#32), (255, tFu .plot 0x1FF#32)], tFu .mgmt 0x100#32,
       { tDesc with w1 := 0x100#32 }, (by simp only [fetches_iff]; decide +kernel)⟩,
   ⟨tHost (tIn .idle []) [(0, tFu .mgmt 0x100#32), (255, tFu .plot 0x1FF#32)], tFu .mgmt 0x100#32,
       { tDesc with w1 := 0x2FF#32 }, (by simp only [fetches_iff]; decide +kernel)⟩,
   ⟨tHost (tIn .idle []) [(0, tFu .mgmt 0x100#32), (255, tFu .plot 0x1FF#32)], tFu .mgmt 0x100#32,
       { tDesc with w1 := 0x1FF#32 }, 255, tFu .plot 0x1FF#32, (by simp only [fetches_iff]; decide +kernel)⟩,
   ⟨tHost (tIn .idle []) [(0, tFu .mgmt 0x100#32), (255, tFu .plot 0x1FF#32)], tFu .mgmt 0x100#32,
       { tDesc with w1 := 0x2FF#32 }, (by simp only [fetches_iff]; decide +kernel)⟩,
   ⟨tHost (tIn .idle []) [(0, tFu .mgmt 0x100#32), (255, { tFu .job 0x1FF#32 with stalled := true })], tFu .mgmt 0x100#32,
       { tDesc with w1 := 0x1FF#32 }, 255, { tFu .job 0x1FF#32 with stalled := true },
       (by simp only [fetches_iff]; decide +kernel)⟩,
   ⟨tHost (tIn .idle []) [(0, tFu .mgmt 0x100#32), (255, tFu .plot 0x1FF#32)], tFu .mgmt 0x100#32,
       { tDesc with w1 := 0x2FF#32 }, (by simp only [fetches_iff]; decide +kernel)⟩,
   ⟨tHost (tIn .idle []) [(0, tFu .mgmt 0x100#32), (255, tFu .plot 0x1FF#32)], tFu .mgmt 0x100#32, tDesc,
       (by simp only [fetches_iff]; decide +kernel)⟩,
   ⟨tHost (tIn .idle []) [(0, tFu .mgmt 0x100#32), (255, tFu .plot 0x1FF#32)], tFu .mgmt 0x100#32, { tDesc with w1 := 63#32 },
       (by simp only [fetches_iff]; decide +kernel)⟩,
   ⟨{ tHost (tIn .idle []) [(0, tFu .mgmt 0x100#32), (255, tFu .plot 0x1FF#32)] with hi := { (tHost (tIn .idle []) [(0, tFu .mgmt 0x100#32), (255, tFu .plot 0x1FF#32)]).hi with refuseAt := some 64 } },
       tFu .mgmt 0x100#32, { tDesc with w1 := 2048#32 }, 64, (by simp only [fetches_iff]; decide +kernel)⟩,
   ⟨tHost (tIn .idle []) [(0, tFu .mgmt 0x100#32), (255, tFu .plot 0x1FF#32)], tFu .mgmt 0x100#32, { tDesc with w1 := 2048#32 },
       1, (by simp only [fetches_iff]; decide +kernel)⟩,
   ⟨tHost (tIn .idle []) [(0, tFu .mgmt 0x100#32), (255, tFu .plot 0x1FF#32)], tFu .mgmt 0x100#32, { tDesc with w1 := 1984#32 },
       (by simp only [fetches_iff]; decide +kernel)⟩⟩

/-- Witnesses for the hypotheses of `Create`. -/
theorem witness_Create :
    (∃ (s : State) (fu : Furrow) (d : Desc) (b : List Byte),
        let fs := (s.fetched 0 fu 0x80 d (some b)).readNow .block (Desc.addr d) 64
        Fetches s 0 fu ∧ fu.kind = .mgmt ∧ reservedZero 0x80 d = true ∧ blockFurrow fs (fitBytes 64 b) = none)
    ∧ (∃ (s : State) (fu : Furrow) (d : Desc) (b : List Byte) (nf : Furrow) (i : Nat),
        let fs := (s.fetched 0 fu 0x80 d (some b)).readNow .block (Desc.addr d) 64
        Fetches s 0 fu ∧ fu.kind = .mgmt ∧ reservedZero 0x80 d = true ∧ blockFurrow fs (fitBytes 64 b) = some nf ∧ (List.range
            256).find? (fun i => i != 0 && (fs.furrow? i).isNone) = none)
    ∧ (∃ (s : State) (fu : Furrow) (d : Desc) (b : List Byte) (nf : Furrow) (i : Nat),
        let fs := (s.fetched 0 fu 0x80 d (some b)).readNow .block (Desc.addr d) 64
        Fetches s 0 fu ∧ fu.kind = .mgmt ∧ reservedZero 0x80 d = true ∧ blockFurrow fs (fitBytes 64 b) = some nf ∧ (List.range
            256).find? (fun i => i != 0 && (fs.furrow? i).isNone) = some i ∧ (fs.kindFull nf.kind = true ∨ (nf.kind = .sample ∧
            s.inRun = true ∧ (fs.pended.setFurrow i nf).costOk = false)))
    ∧ (∃ (s : State) (fu : Furrow) (d : Desc) (b : List Byte) (nf : Furrow) (i : Nat),
        let fs := (s.fetched 0 fu 0x80 d (some b)).readNow .block (Desc.addr d) 64
        Fetches s 0 fu ∧ fu.kind = .mgmt ∧ reservedZero 0x80 d = true ∧ blockFurrow fs (fitBytes 64 b) = some nf ∧ fs.kindFull
            nf.kind = false ∧ (nf.kind ≠ .sample ∨ s.inRun = false ∨ (fs.pended.setFurrow i nf).costOk = true) ∧ (List.range
            256).find? (fun i => i != 0 && (fs.furrow? i).isNone) = some i) :=
  ⟨⟨tHost (tIn .idle []) [(0, tFu .mgmt 0x100#32)], tFu .mgmt 0x100#32, tDesc, [],
      (by simp only [fetches_iff]; decide +kernel)⟩,
   ⟨tHost (tIn .idle []) ((0, tFu .mgmt 0x100#32) :: (List.range 255).map (fun k => (k + 1, tFu .plot 0x1FF#32))), tFu .mgmt
       0x100#32, tDesc, [5, 15, 63], { tFu .seal 0 with lsize := 15, vector := 63, frames := 0, mask := 0, prod := 0 }, 1,
       (by simp only [fetches_iff]; decide +kernel)⟩,
   ⟨tHost (tIn .idle []) [(0, tFu .mgmt 0x100#32), (1, tFu .seal 0x101#32)], tFu .mgmt 0x100#32, tDesc, [5, 15, 63],
       { tFu .seal 0 with lsize := 15, vector := 63, frames := 0, mask := 0, prod := 0 }, 2,
       (by simp only [fetches_iff]; decide +kernel)⟩,
   ⟨tHost (tIn .idle []) [(0, tFu .mgmt 0x100#32)], tFu .mgmt 0x100#32, tDesc, [5, 15, 63],
       { tFu .seal 0 with lsize := 15, vector := 63, frames := 0, mask := 0, prod := 0 }, 1,
       (by simp only [fetches_iff]; decide +kernel)⟩⟩

/-- Witnesses for the hypotheses of `Subreset`. -/
theorem witness_Subreset :
    (∃ (s : State) (fu : Furrow) (d : Desc),
        let code := d.param.toNat % 256
        let index := d.param.toNat / 256
        let fs := s.fetched 0 fu 0x85 d none
        Fetches s 0 fu ∧ fu.kind = .mgmt ∧ reservedZero 0x85 d = true ∧ fs.subresetOk code index = false)
    ∧ (∃ (s : State) (fu : Furrow) (d : Desc),
        Fetches s 0 fu ∧ fu.kind = .mgmt ∧ reservedZero 0x85 d = true ∧ s.inIdle = false ∧ s.inRun = false)
    ∧ (∃ (s : State) (fu : Furrow) (d : Desc),
        let code := d.param.toNat % 256
        let index := d.param.toNat / 256
        let fs := s.fetched 0 fu 0x85 d none
        Fetches s 0 fu ∧ fu.kind = .mgmt ∧ reservedZero 0x85 d = true ∧ fs.subresetOk code index = true ∧ ((s.inIdle = true ∨
            s.inRun = true)))
    ∧ (∃ (s : State) (r : SubReset) (it : Item),
        s.hi.subreset = some r ∧ (s.furrow? 0).bind (fun fu => fu.items.find? (fun it => it.op == 0x85#8 && Item.isActive it)) =
            some it)
    ∧ (∃ (s : State),
        s.hi.subreset = none) :=
  ⟨⟨tHost (tIn .idle []) [(0, tFu .mgmt 0x100#32)], tFu .mgmt 0x100#32, { tDesc with param := 9 },
      (by simp only [fetches_iff]; decide +kernel)⟩,
   ⟨tHost (tIn .hold []) [(0, tFu .mgmt 0x100#32)], tFu .mgmt 0x100#32, { tDesc with param := 8 },
       (by simp only [fetches_iff]; decide +kernel)⟩,
   ⟨tHost (tIn .idle []) [(0, tFu .mgmt 0x100#32)], tFu .mgmt 0x100#32, { tDesc with param := 8 },
       (by simp only [fetches_iff]; decide +kernel)⟩,
   ⟨{ tHost (tIn .idle []) [(0, { tFu .mgmt 0x100#32 with items := [tItem 0x85 { tDesc with param := 1 }] })] with hi := { (tHost (tIn .idle []) [(0, { tFu .mgmt 0x100#32 with items := [tItem 0x85 { tDesc with param := 1 }] })]).hi with subreset := some { code := 1, index := 0, aborted := 2 } } },
       { code := 1, index := 0, aborted := 2 }, tItem 0x85 { tDesc with param := 1 }, by decide +kernel⟩,
   ⟨State.reset, by decide +kernel⟩⟩

/-- Witnesses for the hypotheses of `FailedAccesses`. -/
theorem witness_FailedAccesses :
    (∃ (s : State) (f : BitVec 9) (fu : Furrow) (addr : Word64),
        let i := f.toNat
        let fetch := addr == fu.descAddr fu.fetchSeq && s.mayFetch fu
        s.furrow? f.toNat = some fu ∧ fu.failed = false ∧ s.hostOpen = true ∧ fetch = true ∧ i = 0)
    ∧ (∃ (s : State) (f : BitVec 9) (fu : Furrow) (addr : Word64),
        let i := f.toNat
        let fetch := addr == fu.descAddr fu.fetchSeq && s.mayFetch fu
        s.furrow? f.toNat = some fu ∧ fu.failed = false ∧ s.hostOpen = true ∧ fetch = true ∧ i ≠ 0 ∧ ((fu.kind = .job ∨ fu.kind
            = .side ∨ fu.kind = .setpoint)) ∧ fu.items = [])
    ∧ (∃ (s : State) (f : BitVec 9) (fu : Furrow) (addr : Word64) (it : Item),
        let fetch := addr == fu.descAddr fu.fetchSeq && s.mayFetch fu
        s.furrow? f.toNat = some fu ∧ fu.failed = false ∧ s.hostOpen = true ∧ fetch = false ∧ ((fu.kind = .sample ∨ fu.kind =
            .plot ∨ fu.kind = .seal ∨ (fu.kind = .event ∧ s.inRun = true))) ∧ Furrow.buffer? fu = some it)
    ∧ (∃ (s : State) (f : BitVec 9) (fu : Furrow) (addr : Word64) (it : Item),
        let fetch := addr == fu.descAddr fu.fetchSeq && s.mayFetch fu
        s.furrow? f.toNat = some fu ∧ fu.failed = false ∧ s.hostOpen = true ∧ fetch = false ∧ fu.kind = .event ∧ s.inRun = false
            ∧ Furrow.buffer? fu = some it ∧ it.recs ≠ 0)
    ∧ (∃ (s : State) (f : BitVec 9) (fu : Furrow) (addr : Word64) (it : Item),
        let fetch := addr == fu.descAddr fu.fetchSeq && s.mayFetch fu
        s.furrow? f.toNat = some fu ∧ fu.failed = false ∧ s.hostOpen = true ∧ fetch = false ∧ fu.kind = .event ∧ s.inRun = false
            ∧ Furrow.buffer? fu = some it ∧ it.recs = 0)
    ∧ (∃ (s : State) (f : BitVec 9) (fu : Furrow) (addr : Word64),
        let fetch := addr == fu.descAddr fu.fetchSeq && s.mayFetch fu
        s.furrow? f.toNat = some fu ∧ fu.failed = false ∧ s.hostOpen = true ∧ fetch = false ∧ ((fu.kind = .sample ∨ fu.kind =
            .plot ∨ fu.kind = .seal ∨ fu.kind = .event)) ∧ Furrow.buffer? fu = none)
    ∧ (∃ (s : State) (f : BitVec 9) (fu : Furrow) (addr : Word64) (it : Item),
        let fetch := addr == fu.descAddr fu.fetchSeq && s.mayFetch fu
        s.furrow? f.toNat = some fu ∧ fu.failed = false ∧ s.hostOpen = true ∧ fetch = false ∧ ((fu.kind = .job ∨ fu.kind =
            .side)) ∧ fu.refusedItem? addr = some it)
    ∧ (∃ (s : State) (f : BitVec 9) (fu : Furrow) (addr : Word64) (it : Item),
        let fetch := addr == fu.descAddr fu.fetchSeq && s.mayFetch fu
        s.furrow? f.toNat = some fu ∧ fu.failed = false ∧ s.hostOpen = true ∧ fetch = false ∧ fu.kind = .job ∧ fu.refusedItem?
            addr = some it)
    ∧ (∃ (s : State) (f : BitVec 9) (fu : Furrow) (addr : Word64),
        let fetch := addr == fu.descAddr fu.fetchSeq && s.mayFetch fu
        s.furrow? f.toNat = some fu ∧ fu.failed = false ∧ s.hostOpen = true ∧ fetch = false ∧ ((fu.kind = .job ∨ fu.kind =
            .side)) ∧ fu.refusedItem? addr = none)
    ∧ (∃ (s : State) (f : BitVec 9) (fu : Furrow) (addr : Word64),
        let fetch := addr == fu.descAddr fu.fetchSeq && s.mayFetch fu
        s.furrow? f.toNat = some fu ∧ fu.failed = false ∧ s.hostOpen = true ∧ fetch = false ∧ fu.kind = .mgmt)
    ∧ (∃ (s : State) (f : BitVec 9) (fu : Furrow) (addr : Word64),
        let fetch := addr == fu.descAddr fu.fetchSeq && s.mayFetch fu
        s.furrow? f.toNat = some fu ∧ fu.failed = false ∧ s.hostOpen = true ∧ fetch = false ∧ fu.kind = .setpoint)
    ∧ (∃ (s : State) (f : BitVec 9) (fu : Furrow) (addr : Word64) (it : Item),
        s.furrow? f.toNat = some fu ∧ fu.kind = .sample ∧ Furrow.buffer? fu = some it ∧ it.refused = some addr ∧ fu.failed =
            false ∧ fu.blocks.head?.any (fun b => Block.len b ≤ Desc.len it.desc) = true)
    ∧ (∃ (s : State) (f : BitVec 9) (fu : Furrow),
        s.furrow? f.toNat = some fu ∧ fu.failed = false ∧ fu.nextPost ≠ 0 ∧ f.toNat < 256)
    ∧ (∃ (s : State) (f : BitVec 9) (fu : Furrow),
        s.furrow? f.toNat = some fu ∧ (fu.failed = true ∨ fu.nextPost = 0))
    ∧ (∃ (s : State) (f : BitVec 9) (fu : Furrow),
        s.furrow? f.toNat = some fu ∧ (fu.failed = true ∨ s.hostOpen = false))
    ∧ (∃ (s : State) (f : BitVec 9) (fu : Furrow),
        s.furrow? f.toNat = some fu ∧ s.inRun = true) :=
  ⟨⟨tHost (tIn .run []) [(0, tFu .mgmt 0x100#32)], 0, tFu .mgmt 0x100#32, 0, by decide +kernel⟩,
   ⟨tHost (tIn .run []) [(255, tFu .side 0x1FF#32)], 255, tFu .side 0x1FF#32, 0, by decide +kernel⟩,
   ⟨tHost (tIn .run []) [(255, { tFu .event 0x1FF#32 with items := [tItem 0x10 { tDesc with w1 := 64#32 }] })], 255,
       { tFu .event 0x1FF#32 with items := [tItem 0x10 { tDesc with w1 := 64#32 }] }, 4096, tItem 0x10
       { tDesc with w1 := 64#32 }, by decide +kernel⟩,
   ⟨tHost (tIn .idle []) [(255,
       { tFu .event 0x1FF#32 with items := [{ tItem 0x10 { tDesc with w1 := 64#32 } with recs := 1 }] })], 255,
       { tFu .event 0x1FF#32 with items := [{ tItem 0x10 { tDesc with w1 := 64#32 } with recs := 1 }] }, 4096,
       { tItem 0x10 { tDesc with w1 := 64#32 } with recs := 1 }, by decide +kernel⟩,
   ⟨tHost (tIn .idle []) [(255, { tFu .event 0x1FF#32 with items := [tItem 0x10 { tDesc with w1 := 64#32 }] })], 255,
       { tFu .event 0x1FF#32 with items := [tItem 0x10 { tDesc with w1 := 64#32 }] }, 4096, tItem 0x10
       { tDesc with w1 := 64#32 }, by decide +kernel⟩,
   ⟨tHost (tIn .idle []) [(255, tFu .seal 0x1FF#32)], 255, tFu .seal 0x1FF#32, 4096, by decide +kernel⟩,
   ⟨tHost (tIn .run []) [(255, { tFu .job 0x1FF#32 with items := [tItem 0x30 tDesc] })], 255,
       { tFu .job 0x1FF#32 with items := [tItem 0x30 tDesc] }, 4096, tItem 0x30 tDesc, by decide +kernel⟩,
   ⟨tHost (tIn .run []) [(255, { tFu .job 0x1FF#32 with items := [tItem 0x30 tDesc] })], 255,
       { tFu .job 0x1FF#32 with items := [tItem 0x30 tDesc] }, 4096, tItem 0x30 tDesc, by decide +kernel⟩,
   ⟨tHost (tIn .run []) [(255, tFu .side 0x1FF#32)], 255, tFu .side 0x1FF#32, 4096, by decide +kernel⟩,
   ⟨tHost (tIn .run []) [(0, tFu .mgmt 0x100#32)], 0, tFu .mgmt 0x100#32, 4096, by decide +kernel⟩,
   ⟨tHost (tIn .run []) [(255, tFu .setpoint 0x1FF#32)], 255, tFu .setpoint 0x1FF#32, 4096, by decide +kernel⟩,
   ⟨tHost (tIn .run []) [(255,
       { tFu .sample 0x1FF#32 with items := [{ tItem 0x10 { tDesc with w1 := 64#32 } with refused := some 4096#64 }], blocks := [{ furrow := 255, first := 1, frames := [], slots := 0, gap := false, twin := false, tick := 0, groups := 0, epoch := 0, sealNo := 0, pos := 0, entry := none }] })],
       255,
       { tFu .sample 0x1FF#32 with items := [{ tItem 0x10 { tDesc with w1 := 64#32 } with refused := some 4096#64 }], blocks := [{ furrow := 255, first := 1, frames := [], slots := 0, gap := false, twin := false, tick := 0, groups := 0, epoch := 0, sealNo := 0, pos := 0, entry := none }] },
       4096#64, { tItem 0x10 { tDesc with w1 := 64#32 } with refused := some 4096#64 }, by decide +kernel⟩,
   ⟨tHost (tIn .run []) [(255, { tFu .plot 0x1FF#32 with nextPost := 1 })], 255, { tFu .plot 0x1FF#32 with nextPost := 1 },
       by decide +kernel⟩,
   ⟨tHost (tIn .run []) [(255, tFu .plot 0x1FF#32)], 255, tFu .plot 0x1FF#32, by decide +kernel⟩,
   ⟨{ tIn .run [] with hi := { State.reset.hi with furrows := [(255, tFu .plot 0x1FF#32)] } }, 255, tFu .plot 0x1FF#32,
       by decide +kernel⟩,
   ⟨tHost (tIn .run []) [(255, { tFu .plot 0x1FF#32 with nextPost := 1 })], 255, { tFu .plot 0x1FF#32 with nextPost := 1 },
       by decide +kernel⟩⟩

/-- Witnesses for the hypotheses of `HostEngineStartStop`. -/
theorem witness_HostEngineStartStop :
    (∃ (s : State),
        s.flag Reg.HI_CTL Fld.HI_CTL_en = false ∧ s.hi.stopping = false)
    ∧ (∃ (s : State),
        s.inRun = true)
    ∧ (∃ (s : State),
        s.inRun = false ∧ s.flag Reg.HI_CTL Fld.HI_CTL_en = true ∧ kwf s.hi.furrows = true)
    ∧ (∃ (s : State),
        s.inRun = false ∧ s.flag Reg.HI_CTL Fld.HI_CTL_en = false)
    ∧ (∃ (s : State),
        s.flag Reg.HI_CTL Fld.HI_CTL_en = false ∧ s.hi.stopping = true)
    ∧ (∃ (s : State),
        s.pw.headSel = true ∧ s.alive = true ∧ s.pw.d0 = true)
    ∧ (∃ (s : State),
        s.pw.headSel = true ∧ s.alive = true ∧ s.pw.d0 = false)
    ∧ (∃ (s : State),
        s.alive = false)
    ∧ (∃ (s : State),
        s.pw.headSel = false ∧ s.alive = true) :=
  ⟨⟨tIn .idle [], by decide +kernel⟩,
   ⟨tIn .run [], by decide +kernel⟩,
   ⟨tHost (tIn .idle []) [(255, { tFu .job 0x1FF#32 with items := [tItem 0x30 tDesc] })], by decide +kernel⟩,
   ⟨tIn .idle [], by decide +kernel⟩,
   ⟨{ tIn .idle [] with hi := { State.reset.hi with stopping := true } }, by decide +kernel⟩,
   ⟨tHost (tIn .idle []) [], by decide +kernel⟩,
   ⟨tIn .idle [], by decide +kernel⟩,
   ⟨tIn .fallow [], by decide +kernel⟩,
   ⟨tMember .idle [], by decide +kernel⟩⟩

/-- Witnesses for the hypotheses of `Doorbell`. -/
theorem witness_Doorbell :
    (∃ (s : State),
        s.hostOpen = true ∧ s.hi.db.poll = false ∧ s.hi.db.idx = false ∧ ((∀ e ∈ s.hi.furrows, e.1 < 256)))
    ∧ (∃ (s : State),
        s.hostOpen = true ∧ (s.hi.db.poll || s.hi.db.idx) = true ∧ ((∀ e ∈ s.hi.furrows, e.1 < 256)))
    ∧ (∃ (s : State),
        s.hostOpen = true ∧ s.hi.furrows.any (fun e => decide (256 ≤ e.1)) = true ∧ s.hi.dbTwin.poll = false ∧ s.hi.dbTwin.idx =
            false)
    ∧ (∃ (s : State),
        s.hostOpen = false)
    ∧ (∃ (s : State) (partner : Bool) (c : Word64),
        let a := s.area partner
        let who := ReadBy.doorbell partner
        let came := s.readsCame who
        a.poll = true ∧ came = true ∧ c ≠ a.count)
    ∧ (∃ (s : State) (partner : Bool),
        let a := s.area partner
        a.poll = false)
    ∧ (∃ (s : State) (partner : Bool) (ind : List Word) (k : Nat) (v : Word) (fu : Furrow),
        let a := s.area partner
        let who := ReadBy.doorbell partner
        let came := s.readsCame who
        let base := if partner then 256 else 0
        let i := base + k
        a.idx = true ∧ came = true ∧ k < 256 ∧ ind[k]? = some v ∧ s.furrow? i = some fu ∧ 0 ≤ (v - fu.prod).toInt ∧ (v -
            fu.nextPost).toNat ≤ 2 ^ fu.lsize)
    ∧ (∃ (s : State) (partner : Bool) (ind : List Word) (k : Nat) (v : Word) (fu : Furrow),
        let a := s.area partner
        let who := ReadBy.doorbell partner
        let came := s.readsCame who
        let base := if partner then 256 else 0
        let i := base + k
        a.idx = true ∧ came = true ∧ k < 256 ∧ ind[k]? = some v ∧ s.furrow? i = some fu ∧ ((v - fu.prod).toInt < 0 ∨ 2 ^
            fu.lsize < (v - fu.nextPost).toNat) ∧ kget? s.hi.ignored i ≠ some v)
    ∧ (∃ (s : State) (partner : Bool) (v : Word) (fu : Furrow),
        let a := s.area partner
        let who := ReadBy.doorbell partner
        let came := s.readsCame who
        let base := if partner then 256 else 0
        a.idx = true ∧ came = true ∧ s.furrow? base = some fu ∧ (v - fu.prod).toInt < 0 ∧ kget? s.hi.ignored base ≠ some v)
    ∧ (∃ (s : State) (partner : Bool) (v : Word) (fu : Furrow),
        let a := s.area partner
        let who := ReadBy.doorbell partner
        let came := s.readsCame who
        let base := if partner then 256 else 0
        a.idx = true ∧ came = true ∧ s.furrow? base = some fu ∧ (v - fu.prod).toInt < 0 ∧ kget? s.hi.ignored base = some v)
    ∧ (∃ (s : State) (partner : Bool),
        let a := s.area partner
        a.idx = false) :=
  ⟨⟨tHost (tIn .idle []) [(0, tFu .mgmt 0x100#32)], by decide +kernel⟩,
   ⟨{ tHost (tIn .idle []) [(0, tFu .mgmt 0x100#32)] with hi := { (tHost (tIn .idle []) [(0, tFu .mgmt 0x100#32)]).hi with db := { State.reset.hi.db with poll := true, idx := false, next := 7, failRun := false } } },
       by decide +kernel⟩,
   ⟨tHost (tIn .idle []) [(256, tFu .plot 0x1FF#32)], by decide +kernel⟩,
   ⟨tIn .idle [], by decide +kernel⟩,
   ⟨{ tHost (tIn .idle []) [(0, tFu .mgmt 0x100#32)] with hi := { (tHost (tIn .idle []) [(0, tFu .mgmt 0x100#32)]).hi with db := { State.reset.hi.db with poll := true, idx := false, next := 7, failRun := false } } },
       false, 5, by decide +kernel⟩,
   ⟨State.reset, true, by decide +kernel⟩,
   ⟨{ tHost (tIn .idle []) [(256, tFu .plot 0x1FF#32)] with hi := { (tHost (tIn .idle []) [(256, tFu .plot 0x1FF#32)]).hi with dbTwin := { State.reset.hi.db with poll := false, idx := true, next := 7, failRun := false } } },
       true, [16], 0, 16, tFu .plot 0x1FF#32, by decide +kernel⟩,
   ⟨{ tHost (tIn .idle []) [(256, tFu .plot 0x1FF#32)] with hi := { (tHost (tIn .idle []) [(256, tFu .plot 0x1FF#32)]).hi with dbTwin := { State.reset.hi.db with poll := false, idx := true, next := 7, failRun := false } } },
       true, [17], 0, 17, tFu .plot 0x1FF#32, by decide +kernel⟩,
   ⟨{ tHost (tIn .idle []) [(0, tFu .mgmt 0x100#32)] with hi := { (tHost (tIn .idle []) [(0, tFu .mgmt 0x100#32)]).hi with db := { State.reset.hi.db with poll := false, idx := true, next := 7, failRun := false } } },
       false, 0, tFu .mgmt 0x100#32, by decide +kernel⟩,
   ⟨{ tHost (tIn .idle []) [(0, tFu .mgmt 0x100#32)] with hi := { (tHost (tIn .idle []) [(0, tFu .mgmt 0x100#32)]).hi with db := { State.reset.hi.db with poll := false, idx := true, next := 7, failRun := false }, ignored := [(0, 0#32)] } },
       false, 0, tFu .mgmt 0x100#32, by decide +kernel⟩,
   ⟨State.reset, true, by decide +kernel⟩⟩

/-- Witnesses for the hypotheses of `Tunnel`. -/
theorem witness_Tunnel :
    (∃ (s : State) (m : BitVec 6) (order : Word),
        let others := s.ln.early.all (fun e => e.1 != m.toNat)
        s.pw.headSel = true ∧ s.alive = true ∧ others = true ∧ order = kgetD s.ln.orders m.toNat 0)
    ∧ (∃ (s : State) (m : BitVec 6) (order : Word),
        s.pw.headSel = true ∧ s.alive = true ∧ s.ln.early.all (fun e => !(e.1 == m.toNat && e.2.1 == kgetD s.ln.orders m.toNat
            0)) = true ∧ 0 < (order - kgetD s.ln.orders m.toNat 0).toInt)
    ∧ (∃ (s : State) (m : BitVec 6) (order : Word),
        s.pw.headSel = true ∧ s.alive = true ∧ (order - kgetD s.ln.orders m.toNat 0).toInt < 0)
    ∧ (∃ (s : State) (m : BitVec 6) (addr : Word64) (order : Word) (other : _),
        s.pw.headSel = true ∧ s.alive = true ∧ order = kgetD s.ln.orders m.toNat 0 ∧ s.ln.early = [(m.toNat, order + 1,
            .dmaWrite addr other)])
    ∧ (∃ (s : State) (len : BitVec 13),
        s.pw.headSel = true ∧ s.alive = true ∧ s.ln.readWait = [] ∧ s.ln.reads.length < 64 ∧ s.pw.d0 = true ∧ 1 ≤ len.toNat ∧
            len.toNat ≤ 4096)
    ∧ (∃ (s : State) (len : BitVec 13),
        s.pw.headSel = true ∧ s.alive = true ∧ (64 ≤ s.ln.reads.length ∨ s.pw.d0 = false) ∧ 1 ≤ len.toNat ∧ len.toNat ≤ 4096)
    ∧ (∃ (s : State) (tag : BitVec 4) (f : Byte),
        s.pw.headSel = true ∧ s.alive = true ∧ s.ln.reads.any (fun r => r.who == .member f.toNat tag.toNat) = true)
    ∧ (∃ (s : State) (tag : BitVec 4) (f : Byte),
        s.pw.headSel = true ∧ s.alive = true ∧ s.ln.reads.any (fun r => r.who == .member f.toNat tag.toNat) = false)
    ∧ (∃ (s : State) (m : BitVec 6),
        let others := s.ln.early.all (fun e => e.1 != m.toNat)
        s.pw.headSel = true ∧ s.alive = true ∧ m.toNat < 48 ∧ others = true)
    ∧ (∃ (s : State) (m : BitVec 6) (addr : Word64) (order : Word) (data : List Byte),
        s.pw.headSel = true ∧ s.alive = true ∧ m.toNat < 48 ∧ s.ln.early.all (fun e => !(e.1 == m.toNat && e.2.1 == kgetD
            s.ln.orders m.toNat 0)) = true ∧ order + 1 ≠ kgetD s.ln.orders m.toNat 0 ∧ (s.ln.early.filter (fun e => e.1 ==
            m.toNat)).getLast? = some (m.toNat, order, .dmaWrite addr data))
    ∧ (∃ (s : State) (tag : BitVec 4) (r : ReadReq),
        s.pw.headSel = false ∧ s.alive = true ∧ s.ln.reads.find? (fun r => r.tag == tag.toNat) = some r) :=
  ⟨⟨{ tHost (tIn .idle []) [] with ln := { State.reset.ln with early := [(46, 1, .dmaWrite 4096 [])] } }, 47, 0,
      by decide +kernel⟩,
   ⟨{ tHost (tIn .idle []) [] with ln := { State.reset.ln with early := [(47, 1, .dmaWrite 4096 [])] } }, 47, 2,
       by decide +kernel⟩,
   ⟨{ tHost (tIn .idle []) [] with ln := { State.reset.ln with orders := [(47, 2)] } }, 47, 1, by decide +kernel⟩,
   ⟨{ tHost (tIn .idle []) [] with ln := { State.reset.ln with early := [(47, 1, .dmaWrite 4096 [])] } }, 47, 4096#64, 0, [],
       by decide +kernel⟩,
   ⟨tHost (tIn .idle []) [], 4096, by decide +kernel⟩,
   ⟨{ tHost (tIn .idle []) [] with ln := { State.reset.ln with reads := List.replicate 64 { who := .member 47 15, addr := 0, len := 4, tag := 0 } } },
       1, by decide +kernel⟩,
   ⟨{ tHost (tIn .idle []) [] with ln := { State.reset.ln with reads := [{ who := .member 47 15, addr := 0, len := 4, tag := 15 }] } },
       15, 47, by decide +kernel⟩,
   ⟨{ tHost (tIn .idle []) [] with ln := { State.reset.ln with reads := [{ who := .member 47 15, addr := 0, len := 4, tag := 15 }] } },
       15, 46, by decide +kernel⟩,
   ⟨{ tHost (tIn .idle []) [] with ln := { State.reset.ln with early := [(46, 1, .dmaWrite 4096 [])] } }, 47,
       by decide +kernel⟩,
   ⟨{ tHost (tIn .idle []) [] with ln := { State.reset.ln with early := [(47, 1, .dmaWrite 4096 [])] } }, 47, 4096, 1, [],
       by decide +kernel⟩,
   ⟨{ tMember .idle [] with ln := { State.reset.ln with reads := [{ who := .block, addr := 0, len := 4, tag := 15 }] } }, 15,
       { who := .block, addr := 0, len := 4, tag := 15 }, by decide +kernel⟩⟩

/-- Witnesses for the hypotheses of `RegisterWrites`. -/
theorem witness_RegisterWrites :
    (∃ (s : State) (off : BitVec 20) (r : RegRow),
        s.served = true ∧ off.toNat % 4 = 0 ∧ s.multiAt off.toNat = none ∧ ownRule off.toNat = false ∧ regRow? off.toNat = some
            r ∧ s.idleOpen = true)
    ∧ (∃ (s : State) (off : BitVec 20) (val : Word) (r : RegRow),
        let a := off.toNat
        s.served = true ∧ off.toNat % 4 = 0 ∧ s.multiAt off.toNat = none ∧ ownRule off.toNat = false ∧ regRow? off.toNat = some
            r ∧ s.idleOpen = false ∧ (val ^^^ s.rd a) &&& r.rwl = 0)
    ∧ (∃ (s : State) (off : BitVec 20) (val : Word) (r : RegRow),
        let a := off.toNat
        s.served = true ∧ off.toNat % 4 = 0 ∧ s.multiAt off.toNat = none ∧ ownRule off.toNat = false ∧ regRow? off.toNat = some
            r ∧ s.idleOpen = false ∧ (val ^^^ s.rd a) &&& r.rwl ≠ 0)
    ∧ (∃ (s : State) (val : Word),
        s.served = true ∧ val.toNat < 2 ^ 14 ∧ s.idleOpen = true)
    ∧ (∃ (s : State) (val : Word),
        s.served = true ∧ val.toNat < 2 ^ 14 ∧ s.inRun = true ∧ s.m ≠ val.toNat)
    ∧ (∃ (s : State) (off : BitVec 20),
        let a := off.toNat
        s.served = true ∧ a % 8 = 0)
    ∧ (∃ (s : State) (off : BitVec 20),
        let a := off.toNat
        s.served = true ∧ 0x1000 ≤ a ∧ a < 0x8000 ∧ a % 4 = 0)
    ∧ (∃ (s : State) (off : BitVec 20) (n : Nat),
        let a := off.toNat
        s.served = true ∧ s.multiAt a = some (a, n) ∧ regRow? a ≠ none ∧ a % 4 = 0)
    ∧ (∃ (s : State) (off : BitVec 20),
        let a := off.toNat
        s.served = true ∧ wellAligned a (accWidth false) = false) :=
  ⟨⟨tIn .idle [], 0x2000#20, (regRow? 0x2000).get (by decide +kernel),
      by decide +kernel, by decide +kernel, by decide +kernel, by decide +kernel, rfl, by decide +kernel⟩,
   ⟨tIn .run [], 0x2000#20, 160#32, (regRow? 0x2000).get (by decide +kernel),
       by decide +kernel, by decide +kernel, by decide +kernel, by decide +kernel, rfl, by decide +kernel, by decide +kernel⟩,
   ⟨tIn .run [], 0x2000#20, 161#32, (regRow? 0x2000).get (by decide +kernel),
       by decide +kernel, by decide +kernel, by decide +kernel, by decide +kernel, rfl, by decide +kernel, by decide +kernel⟩,
   ⟨tIn .idle [], 16383#32, by decide +kernel⟩,
   ⟨tIn .run [], 16383#32, by decide +kernel⟩,
   ⟨tIn .idle [], 0xFFFF8#20, by decide +kernel⟩,
   ⟨tIn .idle [], 0x7FFC#20, by decide +kernel⟩,
   ⟨tIn .idle [], 0x2004#20, 2, by decide +kernel⟩,
   ⟨tIn .idle [], 0x2002#20, by decide +kernel⟩⟩

/-- Witnesses for the hypotheses of `UnimplementedOffsets`. -/
theorem witness_UnimplementedOffsets :
    ∃ (s : State) (off : BitVec 20) (o : BitVec 26),
        s.served = true ∧ off.toNat % 4 = 0 ∧ ((regRow? off.toNat = none ∨ 0x80000 ≤ off.toNat)) ∧ (¬ (0x60000 ≤ off.toNat ∧
            off.toNat < 0x6F800 ∧ ¬ (0x60100 ≤ off.toNat ∧ off.toNat < 0x60150))) ∧ s.pw.headSel = true ∧ o.toNat = off.toNat :=
  ⟨tIn .idle [], 0xFFFFC#20, 0xFFFFC#26, by decide +kernel⟩

/-- Witnesses for the hypotheses of `MalformedAndMultiWord`. -/
theorem witness_MalformedAndMultiWord :
    (∃ (s : State) (off : BitVec 20) (width : Nat),
        let a := off.toNat
        s.served = true ∧ wellAligned a width = false)
    ∧ (∃ (s : State) (off : BitVec 20) (n : Nat),
        let a := off.toNat
        s.served = true ∧ s.multiAt a = some (a, n) ∧ s.multiAt (a + 4) = some (a, n) ∧ regRow? a ≠ none ∧ regRow? (a + 4) ≠
            none ∧ a % 8 = 0)
    ∧ (∃ (s : State) (off : BitVec 20) (n : Nat) (b : Nat) (val : Word) (r : RegRow),
        let a := off.toNat
        s.served = true ∧ s.multiAt a = some (b, n) ∧ a ≠ b ∧ a % 4 = 0 ∧ ((inBlock a (Reg.CE_LCTL 0) 0x80 32 = false ∨ a % 0x80
            = 0x1C)) ∧ ((hiAlign a = none ∨ s.hiOpen = true)) ∧ regRow? a = some r ∧ s.rwlRefused r a val = true)
    ∧ (∃ (s : State) (off : BitVec 20) (n : Nat) (b : Nat) (val : Word) (r : RegRow),
        let a := off.toNat
        s.served = true ∧ s.multiAt a = some (b, n) ∧ a ≠ b ∧ a % 4 = 0 ∧ ((inBlock a (Reg.CE_LCTL 0) 0x80 32 = false ∨ a % 0x80
            = 0x1C)) ∧ ((hiAlign a = none ∨ s.hiOpen = true)) ∧ regRow? a = some r ∧ s.rwlRefused r a val = false ∧ r.rw |||
            r.rwl ≠ 0)
    ∧ (∃ (s : State) (off : BitVec 20) (n : Nat) (b : Nat) (r : RegRow),
        let a := off.toNat
        s.served = true ∧ s.multiAt a = some (b, n) ∧ a ≠ b ∧ a % 4 = 0 ∧ regRow? a = some r ∧ inBlock a (Reg.CE_LCTL 0) 0x80 32
            = true ∧ a % 0x80 ≠ 0x1C)
    ∧ (∃ (s : State) (off : BitVec 20) (n : Nat) (b : Nat),
        let a := off.toNat
        s.served = true ∧ s.multiAt a = some (b, n) ∧ a ≠ b ∧ a % 4 = 0 ∧ regRow? a ≠ none ∧ hiAlign a ≠ none ∧ s.hiOpen =
            false)
    ∧ (∃ (s : State) (off : BitVec 20) (n : Nat) (val : Word) (r : RegRow),
        let a := off.toNat
        let wordOf := fun (i : Nat) => if i = 0 then val else s.stagedWord (a + 4 * i)
        let plain := inBlock a (Reg.CE_LCTL 0) 0x80 32 = false ∧ inBlock a (Reg.CE_COEF_LO 0) 8 512 = false ∧ a ≠ Reg.TB_RATE_LO
            ∧ inBlock a (Reg.AQ_UCMD 0) 0x200 8 = false
        let aligned := (hiAlign a).all (fun k => s.hiOpen && val.toNat % k == 0)
        let refused := (List.range n).any (fun i => (regRow? (a + 4 * i)).any (fun r => s.rwlRefused r (a + 4 * i) (wordOf i)))
        s.served = true ∧ s.multiAt a = some (a, n) ∧ a % 4 = 0 ∧ regRow? a ≠ none ∧ plain ∧ aligned = true ∧ refused = false)
    ∧ (∃ (s : State) (off : BitVec 20) (n : Nat) (val : Word) (r : RegRow),
        let a := off.toNat
        let wordOf := fun (i : Nat) => if i = 0 then val else s.stagedWord (a + 4 * i)
        let plain := inBlock a (Reg.CE_LCTL 0) 0x80 32 = false ∧ inBlock a (Reg.CE_COEF_LO 0) 8 512 = false ∧ a ≠ Reg.TB_RATE_LO
            ∧ inBlock a (Reg.AQ_UCMD 0) 0x200 8 = false
        let aligned := (hiAlign a).all (fun k => s.hiOpen && val.toNat % k == 0)
        let refused := (List.range n).any (fun i => (regRow? (a + 4 * i)).any (fun r => s.rwlRefused r (a + 4 * i) (wordOf i)))
        s.served = true ∧ s.multiAt a = some (a, n) ∧ a % 4 = 0 ∧ regRow? a ≠ none ∧ plain ∧ aligned = true ∧ refused = true)
    ∧ (∃ (s : State) (off : BitVec 20) (n : Nat) (val : Word),
        let a := off.toNat
        let aligned := (hiAlign a).all (fun k => s.hiOpen && val.toNat % k == 0)
        s.served = true ∧ s.multiAt a = some (a, n) ∧ a % 4 = 0 ∧ regRow? a ≠ none ∧ aligned = false)
    ∧ (∃ (s : State) (off : BitVec 20) (n : Nat),
        let a := off.toNat
        s.served = true ∧ s.multiAt a = some (a, n) ∧ a % 4 = 0 ∧ regRow? a ≠ none ∧ inBlock a (Reg.CE_LCTL 0) 0x80 32 = true ∧
            a % 0x80 = 0x18)
    ∧ (∃ (s : State) (off : BitVec 20) (n : Nat),
        let a := off.toNat
        s.served = true ∧ s.multiAt a = some (a, n) ∧ a % 4 = 0 ∧ regRow? a ≠ none ∧ inBlock a (Reg.CE_LCTL 0) 0x80 32 = true ∧
            a % 0x80 ≠ 0x18)
    ∧ (∃ (s : State) (off : BitVec 20) (n : Nat),
        let a := off.toNat
        s.served = true ∧ s.multiAt a = some (a, n) ∧ a % 4 = 0 ∧ regRow? a ≠ none ∧ inBlock a (Reg.CE_COEF_LO 0) 8 512 = true)
    ∧ (∃ (s : State) (off : BitVec 20),
        let a := off.toNat
        s.served = true ∧ a = Reg.TB_RATE_LO)
    ∧ (∃ (s : State) (off : BitVec 20) (n : Nat),
        let a := off.toNat
        s.served = true ∧ s.multiAt a = some (a, n) ∧ a % 4 = 0 ∧ regRow? a ≠ none ∧ inBlock a (Reg.AQ_UCMD 0) 0x200 8 = true) :=
  ⟨⟨tIn .idle [], 0x2002#20, 4, by decide +kernel⟩,
   ⟨tIn .idle [], 0x800#20, 2, by decide +kernel⟩,
   ⟨tIn .run [], 0x2008#20, 2, 0x2004, 1#32, (regRow? 0x2008).get (by decide +kernel),
       by decide +kernel, by decide +kernel, by decide +kernel, by decide +kernel, by decide +kernel, by decide +kernel, rfl, by decide +kernel⟩,
   ⟨tIn .idle [], 0x2008#20, 2, 0x2004, 1#32, (regRow? 0x2008).get (by decide +kernel),
       by decide +kernel, by decide +kernel, by decide +kernel, by decide +kernel, by decide +kernel, by decide +kernel, rfl, by decide +kernel, by decide +kernel⟩,
   ⟨tIn .run [], 0x20024#20, 2, 0x20020, (regRow? 0x20024).get (by decide +kernel),
       by decide +kernel, by decide +kernel, by decide +kernel, by decide +kernel, rfl, by decide +kernel, by decide +kernel⟩,
   ⟨tIn .run [(HI_CTL, HI_CTL_en, 1)], 0x28014#20, 2, 0x28010, by decide +kernel⟩,
   ⟨tIn .idle [], 0x2004#20, 2, 1#32, (regRow? 0x2004).get (by decide +kernel), by decide +kernel⟩,
   ⟨tIn .run [], 0x2004#20, 2, 1#32, (regRow? 0x2004).get (by decide +kernel), by decide +kernel⟩,
   ⟨tIn .idle [], 0x28010#20, 2, 1#32, by decide +kernel⟩,
   ⟨tIn .idle [], 0x20018#20, 2, by decide +kernel⟩,
   ⟨tIn .run [], 0x20020#20, 2, by decide +kernel⟩,
   ⟨tIn .idle [], 0x21800#20, 2, by decide +kernel⟩,
   ⟨tIn .idle [], 0x1040#20, by decide +kernel⟩,
   ⟨tIn .idle [(AQ_UCOND_A 0 0, AQ_UCOND_A_type, 6)], 0x18884#20, 2, by decide +kernel⟩⟩

/-- Witnesses for the hypotheses of `SetupTunnel`. -/
theorem witness_SetupTunnel :
    (∃ (s : State) (off : BitVec 20),
        s.served = true ∧ s.pw.headSel = false ∧ off.toNat % 4 = 0)
    ∧ (∃ (s : State) (off : BitVec 20),
        s.served = true ∧ s.pw.headSel = false ∧ off.toNat % 4 ≠ 0)
    ∧ (∃ (s : State),
        s.served = true ∧ s.pw.headSel = false ∧ s.flag Reg.MB_STAT Fld.MB_STAT_busy = true)
    ∧ (∃ (s : State) (val : Word),
        s.served = true ∧ s.pw.headSel = false ∧ s.flag Reg.MB_STAT Fld.MB_STAT_busy = false ∧ vaultServices.contains
            (BitField.get Fld.MB_CMD_service val) = true)
    ∧ (∃ (s : State) (tag : BitVec 16),
        s.served = true ∧ s.pw.headSel = true ∧ s.ln.setups.any (fun p => p.1 == tag.toNat) = false ∧ s.vt.memberReq = some
            tag.toNat)
    ∧ (∃ (s : State) (o : BitVec 26),
        let hub := o.toNat / 2 ^ 20
        let a := o.toNat % 2 ^ 20
        s.served = true ∧ s.pw.headSel = true ∧ hub = 0 ∧ wellAligned a 4 = true)
    ∧ (∃ (s : State) (o : BitVec 26),
        let hub := o.toNat / 2 ^ 20
        let a := o.toNat % 2 ^ 20
        s.served = true ∧ s.pw.headSel = true ∧ hub = 0 ∧ wellAligned a 8 = true)
    ∧ (∃ (s : State) (o : BitVec 26) (width : Nat),
        let a := o.toNat % 2 ^ 20
        s.served = true ∧ s.pw.headSel = true ∧ ((width = 4 ∨ width = 8)) ∧ wellAligned a width = false)
    ∧ (∃ (s : State) (o : BitVec 26),
        let hub := o.toNat / 2 ^ 20
        let a := o.toNat % 2 ^ 20
        s.served = true ∧ s.pw.headSel = true ∧ hub ≠ 0 ∧ s.reachable hub = false ∧ wellAligned a 8 = true)
    ∧ (∃ (s : State) (o : BitVec 26),
        let hub := o.toNat / 2 ^ 20
        let a := o.toNat % 2 ^ 20
        s.served = true ∧ s.pw.headSel = true ∧ hub ≠ 0 ∧ s.reachable hub = false ∧ wellAligned a 4 = true)
    ∧ (∃ (s : State) (o : BitVec 26),
        let hub := o.toNat / 2 ^ 20
        let a := o.toNat % 2 ^ 20
        s.served = true ∧ s.pw.headSel = true ∧ hub ≠ 0 ∧ s.reachable hub = true ∧ wellAligned a 4 = true)
    ∧ (∃ (s : State) (o : BitVec 26),
        let hub := o.toNat / 2 ^ 20
        let a := o.toNat % 2 ^ 20
        s.served = true ∧ s.pw.headSel = true ∧ hub ≠ 0 ∧ s.reachable hub = true ∧ wellAligned a 8 = true)
    ∧ (∃ (s : State) (tag : BitVec 16),
        s.served = true ∧ s.pw.headSel = true ∧ s.ln.setups.any (fun p => p.1 == tag.toNat) = true ∧ s.hi.hiTag ≠ some
            tag.toNat)
    ∧ (∃ (s : State) (tag : BitVec 16),
        s.served = true ∧ s.pw.headSel = true ∧ s.ln.setups.any (fun p => p.1 == tag.toNat) = true ∧ s.hi.hiTag = some
            tag.toNat) :=
  ⟨⟨tMember .idle [], 0xFFFFC#20, by decide +kernel⟩,
   ⟨tMember .idle [], 2#20, by decide +kernel⟩,
   ⟨tMember .idle [(MB_STAT, MB_STAT_busy, 1)], by decide +kernel⟩,
   ⟨tMember .idle [], 1, by decide +kernel⟩,
   ⟨{ tIn .idle [] with vt := { State.reset.vt with memberReq := some 5 } }, 5, by decide +kernel⟩,
   ⟨tRing [], 0xFFFFC#26, by decide +kernel⟩,
   ⟨tIn .idle [], 8, by decide +kernel⟩,
   ⟨tIn .idle [], 4, 8, by decide +kernel⟩,
   ⟨tIn .idle [], 0x2F00008, by decide +kernel⟩,
   ⟨tIn .idle [], 0x2F00004, by decide +kernel⟩,
   ⟨tRing [(LN_MAP 3, LN_MAP_present, 1), (LN_MAP 3, LN_MAP_reachable, 1)], 0x300004, by decide +kernel⟩,
   ⟨tRing [(LN_MAP 3, LN_MAP_present, 1), (LN_MAP 3, LN_MAP_reachable, 1)], 0x300008, by decide +kernel⟩,
   ⟨{ tRing [] with ln := { (tRing []).ln with setups := [(65535, 1)] } }, 65535, by decide +kernel⟩,
   ⟨{ tRing [] with ln := { (tRing []).ln with setups := [(65535, 1)] }, hi := { (tRing []).hi with hiTag := some 65535 } },
       65535, by decide +kernel⟩⟩

/-- Witnesses for the hypotheses of `Calibration`. -/
theorem witness_Calibration :
    (∃ (s : State) (b : Bank),
        s.cal.commit = none ∧ s.cal.inForce = some b)
    ∧ (∃ (s : State),
        s.cal.commit = none ∧ s.cal.inForce = none)
    ∧ (∃ (s : State),
        s.cal.commit ≠ none)
    ∧ (∃ (s : State) (val : Word),
        let a := BitField.get Fld.CAL_STGPTR_word val * 4
        s.cal.commit = none ∧ a < 0xF800)
    ∧ (∃ (val : Word),
        let a := BitField.get Fld.CAL_STGPTR_word val * 4
        0xF800 ≤ a)
    ∧ (∃ (s : State) (img : Image),
        let p := s.rdN Reg.CAL_STGPTR
        s.cal.commit = none ∧ s.cal.staging = some img ∧ p < 0xF800)
    ∧ (∃ (s : State),
        s.cal.staging = none)
    ∧ (∃ (s : State) (img : Image),
        s.cal.staging = some img ∧ s.cal.hashDue = true)
    ∧ (∃ (s : State) (img : Image),
        s.vt.armed = some (1, s.stageHash img) ∧ s.vaultOk = true ∧ s.cal.staging = some img ∧ s.cal.commit = none ∧
            s.vt.extended = false)
    ∧ (∃ (s : State),
        s.vt.armed = none)
    ∧ (∃ (s : State) (img : Image) (r : Nat × Nat),
        s.cal.commit = some img ∧ calFailure img s.pw.serial s.cal.wrcnt.toNat = some r)
    ∧ (∃ (s : State) (img : Image),
        s.cal.commit = some img ∧ calFailure img s.pw.serial s.cal.wrcnt.toNat = none ∧ s.commitWaits = false)
    ∧ (∃ (s : State) (img : Image),
        s.cal.commit = some img ∧ calFailure img s.pw.serial s.cal.wrcnt.toNat = none ∧ s.commitWaits = true)
    ∧ (∃ (s : State),
        s.cal.staging = none ∨ s.cal.hashDue = false) :=
  ⟨⟨tIn .idle [], { img := { ideal := true, words := [] }, epoch := 1, origin := false, time := 0 }, by decide +kernel⟩,
   ⟨{ tIn .idle [(CAL_STGPTR, ⟨31, 0⟩, 0xF7FC)] with cal := { State.reset.cal with inForce := none } }, by decide +kernel⟩,
   ⟨{ tIn .idle [(CAL_STGPTR, ⟨31, 0⟩, 0xF7FC)] with cal := { State.reset.cal with commit := some tIdeal } },
       by decide +kernel⟩,
   ⟨tIn .idle [], 0xF7FC#32, by decide +kernel⟩,
   ⟨0xF800#32, by decide +kernel⟩,
   ⟨{ tIn .idle [(CAL_STGPTR, ⟨31, 0⟩, 0xF7FC)] with cal := { State.reset.cal with staging := some tIdeal } }, tIdeal,
       by decide +kernel⟩,
   ⟨tIn .idle [], by decide +kernel⟩,
   ⟨{ tIn .idle [(CAL_STGPTR, ⟨31, 0⟩, 0xF7FC)] with cal := { State.reset.cal with staging := some tIdeal, hashDue := true } },
       tIdeal, by decide +kernel⟩,
   ⟨tArmed { tIn .idle [(VT_STAT, VT_STAT_state, 1)] with cal := { State.reset.cal with staging := some tIdeal } }, tIdeal,
       tArmed_armed _, by decide +kernel, by decide +kernel, by decide +kernel, by decide +kernel⟩,
   ⟨tIn .idle [], by decide +kernel⟩,
   ⟨{ { tIn .idle [(CAL_STGPTR, ⟨31, 0⟩, 0xF7FC)] with cal := { State.reset.cal with commit := some { ideal := false, words := [] } } } with pw := { (tIn .idle []).pw with serial := 1 } },
       { ideal := false, words := [] }, (1, 0), rfl, by decide +kernel⟩,
   ⟨{ { tIn .idle [(CAL_STGPTR, ⟨31, 0⟩, 0xF7FC)] with cal := { State.reset.cal with commit := some tIdeal } } with pw := { (tIn .idle []).pw with serial := 1 } },
       tIdeal, rfl, calFailure_ideal _ (by decide +kernel) _ (by decide +kernel), by decide +kernel⟩,
   ⟨{ { tOn [] with cal := { State.reset.cal with commit := some tIdeal } } with pw := { (tOn []).pw with serial := 1 }, fr := { State.reset.fr with tickS := 3, nextTick := 9 } },
       tIdeal, rfl, calFailure_ideal _ (by decide +kernel) _ (by decide +kernel), by decide +kernel⟩,
   ⟨State.reset, by decide +kernel⟩⟩

/-- Witnesses for the hypotheses of `SealsAndJobs`. -/
theorem witness_SealsAndJobs :
    (∃ (s : State),
        s.vt.unsigned = [] ∨ s.vaultInError = true)
    ∧ (∃ (s : State) (f : Nat) (q : Word) (fu : Furrow) (it : Item) (src : List Byte) (out : List (Byte × Nat)) (err : Option
        (Nat × Nat)),
        let bytes := out.map Prod.fst
        let len := Desc.srcLen it.desc
        let bs := fitBytes len src
        let exps := s.readsCame (.job false) = true ∧ s.bl.exp = some (f, q) ∧ s.furrow? f = some fu ∧ Furrow.item? fu q = some
            it ∧ expandAll it.desc bs = (out, err)
        let kept := bytes.take (Desc.dstLen it.desc)
        exps ∧ it.op ≠ 0x32 ∧ Desc.dstLen it.desc < out.length ∧ kept ≠ [])
    ∧ (∃ (s : State) (f : Nat) (q : Word) (fu : Furrow) (it : Item) (src : List Byte) (out : List (Byte × Nat)) (err : Option
        (Nat × Nat)) (e : Nat × Nat),
        let len := Desc.srcLen it.desc
        let bs := fitBytes len src
        let exps := s.readsCame (.job false) = true ∧ s.bl.exp = some (f, q) ∧ s.furrow? f = some fu ∧ Furrow.item? fu q = some
            it ∧ expandAll it.desc bs = (out, err)
        exps ∧ it.op ≠ 0x32 ∧ out.length ≤ Desc.dstLen it.desc ∧ out ≠ [] ∧ err = some e)
    ∧ (∃ (s : State) (f : Nat) (q : Word) (fu : Furrow) (it : Item) (src : List Byte) (dst : List Byte) (out : List (Byte ×
        Nat)) (err : Option (Nat × Nat)) (i : Nat),
        let bytes := out.map Prod.fst
        let len := Desc.srcLen it.desc
        let bs := fitBytes len src
        let exps := s.readsCame (.job false) = true ∧ s.bl.exp = some (f, q) ∧ s.furrow? f = some fu ∧ Furrow.item? fu q = some
            it ∧ expandAll it.desc bs = (out, err)
        exps ∧ it.op = 0x32 ∧ err = none ∧ firstDiff bytes (fitBytes (Desc.dstLen it.desc) dst) 0 = some i)
    ∧ (∃ (s : State) (f : Nat) (q : Word) (fu : Furrow) (it : Item) (src : List Byte) (dst : List Byte) (out : List (Byte ×
        Nat)) (err : Option (Nat × Nat)) (e : Nat × Nat),
        let bytes := out.map Prod.fst
        let len := Desc.srcLen it.desc
        let bs := fitBytes len src
        let exps := s.readsCame (.job false) = true ∧ s.bl.exp = some (f, q) ∧ s.furrow? f = some fu ∧ Furrow.item? fu q = some
            it ∧ expandAll it.desc bs = (out, err)
        exps ∧ it.op = 0x32 ∧ err = some e ∧ firstDiff bytes ((fitBytes (Desc.dstLen it.desc) dst).take bytes.length) 0 = none)
    ∧ (∃ (s : State) (f : Nat) (q : Word) (fu : Furrow) (it : Item) (src : List Byte),
        let len := Desc.srcLen it.desc
        let freed := (s.readsDone (.job true)).freePipe true
        let st := kgetD freed.bl.streams f (Stream.new (optFormat it.desc))
        let bs := fitBytes len src
        let run := compressItem st it.desc bs
        let comp := s.readsCame (.job true) = true ∧ s.bl.comp = some (f, q) ∧ s.furrow? f = some fu ∧ Furrow.item? fu q = some
            it
        comp ∧ run.1.length ≤ Desc.dstLen it.desc ∧ optFinal it.desc = false ∧ freed.bl.compDrop = false)
    ∧ (∃ (s : State) (f : Nat) (q : Word) (fu : Furrow) (it : Item) (src : List Byte),
        let len := Desc.srcLen it.desc
        let freed := (s.readsDone (.job true)).freePipe true
        let st := kgetD freed.bl.streams f (Stream.new (optFormat it.desc))
        let bs := fitBytes len src
        let run := compressItem st it.desc bs
        let comp := s.readsCame (.job true) = true ∧ s.bl.comp = some (f, q) ∧ s.furrow? f = some fu ∧ Furrow.item? fu q = some
            it
        comp ∧ run.1.length ≤ Desc.dstLen it.desc ∧ (optFinal it.desc = true ∨ freed.bl.compDrop = true))
    ∧ (∃ (s : State) (f : Nat) (q : Word) (fu : Furrow) (it : Item) (src : List Byte),
        let len := Desc.srcLen it.desc
        let freed := (s.readsDone (.job true)).freePipe true
        let st := kgetD freed.bl.streams f (Stream.new (optFormat it.desc))
        let bs := fitBytes len src
        let run := compressItem st it.desc bs
        let comp := s.readsCame (.job true) = true ∧ s.bl.comp = some (f, q) ∧ s.furrow? f = some fu ∧ Furrow.item? fu q = some
            it
        comp ∧ Desc.dstLen it.desc < run.1.length)
    ∧ (∃ (s : State) (f : Nat) (q : Word) (fu : Furrow) (it : Item) (src : List Byte) (fault : List Byte),
        let len := Desc.srcLen it.desc
        let freed := (s.readsDone (.job true)).freePipe true
        let st := kgetD freed.bl.streams f (Stream.new (optFormat it.desc))
        let bs := fitBytes len src
        let run := compressItem st it.desc bs
        let comp := s.readsCame (.job true) = true ∧ s.bl.comp = some (f, q) ∧ s.furrow? f = some fu ∧ Furrow.item? fu q = some
            it
        comp ∧ faulty run.1 fault ≠ run.1 ∧ (selfCheck st.format (optFinal it.desc) (st.written ++ faulty run.1 fault)
            run.2.taken).isSome = true)
    ∧ (∃ (s : State),
        s.bl.comp = none)
    ∧ (∃ (s : State) (r : SealRec) (rest : List SealRec),
        s.vt.unsigned = r :: rest ∧ s.vaultInError = false ∧ s.furrowOf? .seal = none)
    ∧ (∃ (s : State) (r : SealRec) (rest : List SealRec) (f : Nat),
        s.vt.unsigned = r :: rest ∧ s.vaultInError = false ∧ s.furrowOf? .seal = some f)
    ∧ (∃ (s : State) (f : Nat) (q : Word) (fu : Furrow) (it : Item) (src : List Byte) (out : List (Byte × Nat)),
        let len := Desc.srcLen it.desc
        let held := s.readsCame (.job false) = true ∧ s.bl.exp = some (f, q) ∧ s.furrow? f = some fu ∧ Furrow.item? fu q = some
            it ∧ expandAll it.desc (fitBytes len src) = (out, none)
        held ∧ it.op ≠ 0x32 ∧ out ≠ [] ∧ out.length ≤ Desc.dstLen it.desc)
    ∧ (∃ (s : State) (f : Nat) (q : Word) (fu : Furrow) (it : Item) (src : List Byte) (out : List (Byte × Nat)),
        let len := Desc.srcLen it.desc
        let held := s.readsCame (.job false) = true ∧ s.bl.exp = some (f, q) ∧ s.furrow? f = some fu ∧ Furrow.item? fu q = some
            it ∧ expandAll it.desc (fitBytes len src) = (out, none)
        held ∧ it.op ≠ 0x32 ∧ out = [])
    ∧ (∃ (s : State) (f : Nat) (q : Word) (fu : Furrow) (it : Item) (src : List Byte) (dst : List Byte) (out : List (Byte ×
        Nat)),
        let bytes := out.map Prod.fst
        let len := Desc.srcLen it.desc
        let held := s.readsCame (.job false) = true ∧ s.bl.exp = some (f, q) ∧ s.furrow? f = some fu ∧ Furrow.item? fu q = some
            it ∧ expandAll it.desc (fitBytes len src) = (out, none)
        held ∧ it.op = 0x32 ∧ bytes = fitBytes (Desc.dstLen it.desc) dst)
    ∧ (∃ (s : State),
        s.bl.exp = none)
    ∧ (∃ (s : State) (f : Nat) (q : Word) (fu : Furrow) (it : Item),
        let len := Desc.srcLen it.desc
        let freed := (s.readsDone (.job true)).freePipe true
        s.readsCame (.job true) = true ∧ s.bl.comp = some (f, q) ∧ s.furrow? f = some fu ∧ Furrow.item? fu q = some it ∧ len = 0
            ∧ optFinal it.desc = true ∧ freed.bl.streams = [(f, Stream.new 1)] ∧ 8 ≤ Desc.dstLen it.desc) :=
  ⟨⟨State.reset, by decide +kernel⟩,
   ⟨{ tHost (tIn .idle []) [(255, { tFu .job 0x1FF#32 with items := [tItem 0x31 { tDesc with w1 := 7#32, w6 := 1#32 }] })] with bl := { State.reset.bl with exp := some (255, 0) } },
       255, 0, { tFu .job 0x1FF#32 with items := [tItem 0x31 { tDesc with w1 := 7#32, w6 := 1#32 }] }, tItem 0x31
       { tDesc with w1 := 7#32, w6 := 1#32 }, [1, 2, 0, 0xFD, 0xFF, 65, 66], [(65, 48), (66, 56)], none, by decide +kernel⟩,
   ⟨{ tHost (tIn .idle []) [(255, { tFu .job 0x1FF#32 with items := [tItem 0x31 { tDesc with w1 := 6#32, w6 := 1#32 }] })] with bl := { State.reset.bl with exp := some (255, 0) } },
       255, 0, { tFu .job 0x1FF#32 with items := [tItem 0x31 { tDesc with w1 := 6#32, w6 := 1#32 }] }, tItem 0x31
       { tDesc with w1 := 6#32, w6 := 1#32 }, [1, 2, 0, 0xFD, 0xFF, 65], [(65, 48)], some (5, 6), (5, 6), by decide +kernel⟩,
   ⟨{ tHost (tIn .idle []) [(255, { tFu .job 0x1FF#32 with items := [tItem 0x32 { tDesc with w1 := 6#32, w6 := 1#32 }] })] with bl := { State.reset.bl with exp := some (255, 0) } },
       255, 0, { tFu .job 0x1FF#32 with items := [tItem 0x32 { tDesc with w1 := 6#32, w6 := 1#32 }] }, tItem 0x32
       { tDesc with w1 := 6#32, w6 := 1#32 }, [1, 1, 0, 0xFE, 0xFF, 65], [66], [(65, 48)], none, 0, by decide +kernel⟩,
   ⟨{ tHost (tIn .idle []) [(255, { tFu .job 0x1FF#32 with items := [tItem 0x32 { tDesc with w1 := 6#32, w6 := 1#32 }] })] with bl := { State.reset.bl with exp := some (255, 0) } },
       255, 0, { tFu .job 0x1FF#32 with items := [tItem 0x32 { tDesc with w1 := 6#32, w6 := 1#32 }] }, tItem 0x32
       { tDesc with w1 := 6#32, w6 := 1#32 }, [1, 2, 0, 0xFD, 0xFF, 65], [65], [(65, 48)], some (5, 6), (5, 6),
       by decide +kernel⟩,
   ⟨{ tHost (tIn .idle []) [(255, { tFu .job 0x1FF#32 with items := [tItem 0x30 { tDesc with param := 1, w1 := 3#32, w6 := 2#32 }] })] with bl := { State.reset.bl with comp := some (255, 0) } },
       255, 0, { tFu .job 0x1FF#32 with items := [tItem 0x30 { tDesc with param := 1, w1 := 3#32, w6 := 2#32 }] }, tItem 0x30
       { tDesc with param := 1, w1 := 3#32, w6 := 2#32 }, [1, 2, 3], by decide +kernel⟩,
   ⟨{ tHost (tIn .idle []) [(255, { tFu .job 0x1FF#32 with items := [tItem 0x30 { tDesc with param := 5, w6 := 9#32 }] })] with bl := { State.reset.bl with comp := some (255, 0) } },
       255, 0, { tFu .job 0x1FF#32 with items := [tItem 0x30 { tDesc with param := 5, w6 := 9#32 }] }, tItem 0x30
       { tDesc with param := 5, w6 := 9#32 }, [], by decide +kernel⟩,
   ⟨{ tHost (tIn .idle []) [(255, { tFu .job 0x1FF#32 with items := [tItem 0x30 { tDesc with param := 1, w1 := 3#32, w6 := 1#32 }] })] with bl := { State.reset.bl with comp := some (255, 0) } },
       255, 0, { tFu .job 0x1FF#32 with items := [tItem 0x30 { tDesc with param := 1, w1 := 3#32, w6 := 1#32 }] }, tItem 0x30
       { tDesc with param := 1, w1 := 3#32, w6 := 1#32 }, [1, 2, 3], by decide +kernel⟩,
   ⟨{ tHost (tIn .idle []) [(255, { tFu .job 0x1FF#32 with items := [tItem 0x30 { tDesc with param := 1, w1 := 3#32, w6 := 2#32 }] })] with bl := { State.reset.bl with comp := some (255, 0) } },
       255, 0, { tFu .job 0x1FF#32 with items := [tItem 0x30 { tDesc with param := 1, w1 := 3#32, w6 := 2#32 }] }, tItem 0x30
       { tDesc with param := 1, w1 := 3#32, w6 := 2#32 }, [1, 2, 3], [1], by decide +kernel⟩,
   ⟨State.reset, by decide +kernel⟩,
   ⟨{ tIn .idle [] with vt := { State.reset.vt with unsigned := [{ sealNo := 1, body := [], notices := [], key := [] }] } },
       { sealNo := 1, body := [], notices := [], key := [] }, [], by decide +kernel⟩,
   ⟨{ tHost (tIn .idle []) [(255, tFu .seal 0x1FF#32)] with vt := { State.reset.vt with unsigned := [{ sealNo := 1, body := [], notices := [], key := [] }] } },
       { sealNo := 1, body := [], notices := [], key := [] }, [], 255, by decide +kernel⟩,
   ⟨{ tHost (tIn .idle []) [(255, { tFu .job 0x1FF#32 with items := [tItem 0x31 { tDesc with w1 := 6#32, w6 := 1#32 }] })] with bl := { State.reset.bl with exp := some (255, 0) } },
       255, 0, { tFu .job 0x1FF#32 with items := [tItem 0x31 { tDesc with w1 := 6#32, w6 := 1#32 }] }, tItem 0x31
       { tDesc with w1 := 6#32, w6 := 1#32 }, [1, 1, 0, 0xFE, 0xFF, 65], [(65, 48)], by decide +kernel⟩,
   ⟨{ tHost (tIn .idle []) [(255, { tFu .job 0x1FF#32 with items := [tItem 0x31 { tDesc with w1 := 5#32, w6 := 1#32 }] })] with bl := { State.reset.bl with exp := some (255, 0) } },
       255, 0, { tFu .job 0x1FF#32 with items := [tItem 0x31 { tDesc with w1 := 5#32, w6 := 1#32 }] }, tItem 0x31
       { tDesc with w1 := 5#32, w6 := 1#32 }, [1, 0, 0, 0xFF, 0xFF], [], by decide +kernel⟩,
   ⟨{ tHost (tIn .idle []) [(255, { tFu .job 0x1FF#32 with items := [tItem 0x32 { tDesc with w1 := 6#32, w6 := 1#32 }] })] with bl := { State.reset.bl with exp := some (255, 0) } },
       255, 0, { tFu .job 0x1FF#32 with items := [tItem 0x32 { tDesc with w1 := 6#32, w6 := 1#32 }] }, tItem 0x32
       { tDesc with w1 := 6#32, w6 := 1#32 }, [1, 1, 0, 0xFE, 0xFF, 65], [65], [(65, 48)], by decide +kernel⟩,
   ⟨State.reset, by decide +kernel⟩,
   ⟨{ tHost (tIn .idle []) [(255, { tFu .job 0x1FF#32 with items := [tItem 0x30 { tDesc with param := 5, w6 := 8#32 }] })] with bl := { State.reset.bl with comp := some (255, 0), streams := [(255, Stream.new 1)] } },
       255, 0, { tFu .job 0x1FF#32 with items := [tItem 0x30 { tDesc with param := 5, w6 := 8#32 }] }, tItem 0x30
       { tDesc with param := 5, w6 := 8#32 }, by decide +kernel⟩⟩

/-- Witnesses for the hypotheses of `LanesAndPorts`. -/
theorem witness_LanesAndPorts :
    (∃ (s : State) (l : BitVec 4) (port : BitVec 2) (i : Nat),
        let p := port.toNat
        let left := s.inService p - 2 ^ i
        lanePort l.toNat = some (p, i) ∧ (s.inService p).testBit i = true ∧ left = 0)
    ∧ (∃ (l : BitVec 4),
        lanePort l.toNat = none)
    ∧ (∃ (s : State) (l : BitVec 4) (port : BitVec 2) (i : Nat),
        let p := port.toNat
        let again := p < 2 ∧ 3 ≤ s.pstate p ∧ (s.lanesEn p).testBit i = true ∧ (s.inService p).testBit i = false ∧ s.laneTested
            l.toNat = false ∧ (s.port p).loops.getLsbD i = false
        lanePort l.toNat = some (p, i) ∧ (¬ again))
    ∧ (∃ (s : State) (port : BitVec 2),
        let p := port.toNat
        let ready := s.alive = true ∧ s.pw.inReset = false ∧ p < 3 ∧ s.lanesEn p ≠ 0 ∧ s.pstate p < 2
        ¬ ready)
    ∧ (∃ (s : State) (port : BitVec 2),
        let p := port.toNat
        let ready := s.alive = true ∧ s.pw.inReset = false ∧ p < 3 ∧ s.lanesEn p ≠ 0 ∧ s.pstate p < 2
        ready ∧ p = 2)
    ∧ (∃ (s : State) (port : BitVec 2),
        let p := port.toNat
        p < 2 ∧ s.pstate p ≠ 1)
    ∧ (∃ (s : State) (port : BitVec 2) (i : Nat) (t : TrainIn),
        let p := port.toNat
        let okv := (List.range 2).filter (fun i => (s.lanesEn p).testBit i && t.lanesOk.getLsbD i)
        p < 2 ∧ s.pstate p = 1 ∧ okv = [])
    ∧ (∃ (s : State) (port : BitVec 2) (i : Nat) (t : TrainIn),
        let p := port.toNat
        let okv := (List.range 2).filter (fun i => (s.lanesEn p).testBit i && t.lanesOk.getLsbD i)
        let fig := fun (i : Nat) => if i = 0 then (⟨t.width0, t.height0⟩ : EyeFig) else ⟨t.width1, t.height1⟩
        let falls := s.fget (Reg.LN_PCFG p) Fld.LN_PCFG_rate = 0 ∧ t.rate = 2 ∧ okv.any (fun i => eyeBad (fig i)) = true
        p < 2 ∧ s.pstate p = 1 ∧ okv ≠ [] ∧ (¬ falls))
    ∧ (∃ (s : State) (port : BitVec 2) (i : Nat) (t : TrainIn),
        let p := port.toNat
        let okv := (List.range 2).filter (fun i => (s.lanesEn p).testBit i && t.lanesOk.getLsbD i)
        let fig := fun (i : Nat) => if i = 0 then (⟨t.width0, t.height0⟩ : EyeFig) else ⟨t.width1, t.height1⟩
        let falls := s.fget (Reg.LN_PCFG p) Fld.LN_PCFG_rate = 0 ∧ t.rate = 2 ∧ okv.any (fun i => eyeBad (fig i)) = true
        p < 2 ∧ s.pstate p = 1 ∧ okv ≠ [] ∧ falls)
    ∧ (∃ (port : BitVec 2) (t : TrainIn),
        let p := port.toNat
        p = 2 ∧ t.lanesOk.getLsbD 0 = true)
    ∧ (∃ (t : TrainIn),
        t.lanesOk.getLsbD 0 = false)
    ∧ (∃ (s : State) (port : BitVec 2),
        let p := port.toNat
        p < 3 ∧ s.pstate p = 0)
    ∧ (∃ (s : State) (port : BitVec 2),
        let p := port.toNat
        p < 2 ∧ s.portUp p = true ∧ s.hubs < 2)
    ∧ (∃ (s : State) (port : BitVec 2),
        let p := port.toNat
        p = 2 ∧ s.portUp 2 = true)
    ∧ (∃ (s : State) (port : BitVec 2),
        let p := port.toNat
        p < 2 ∧ s.portUp p = true ∧ 2 ≤ s.hubs ∧ s.ringState = 2 ∧ s.ln.cuts = [] ∧ s.pw.headSel = false)
    ∧ (∃ (s : State) (port : BitVec 2),
        let p := port.toNat
        p < 2 ∧ s.portUp p = true ∧ 2 ≤ s.hubs ∧ s.ringState = 3 ∧ s.ln.cuts.contains (s.linkOf p) = false)
    ∧ (∃ (s : State) (port : BitVec 2),
        let p := port.toNat
        p < 2 ∧ s.rdN Reg.LN_RETRYTHR < (s.port p).replaysInSecond)
    ∧ (∃ (s : State) (l : BitVec 4) (w : Byte) (h : Byte),
        let low := w.toNat < 16 ∨ h.toNat < 10
        s.alive = true ∧ l.toNat < 10 ∧ low ∧ s.ln.eyeLow.contains l.toNat = true)
    ∧ (∃ (s : State) (l : BitVec 4) (w : Byte) (h : Byte),
        let low := w.toNat < 16 ∨ h.toNat < 10
        s.alive = true ∧ l.toNat < 10 ∧ (¬ low) ∧ (w.toNat < 20 ∨ h.toNat < 12))
    ∧ (∃ (s : State) (l : BitVec 4) (port : BitVec 2) (i : Nat),
        let p := port.toNat
        let left := s.inService p - 2 ^ i
        lanePort l.toNat = some (p, i) ∧ p < 2 ∧ (s.inService p).testBit i = true ∧ left ≠ 0)
    ∧ (∃ (s : State) (l : BitVec 4) (port : BitVec 2) (i : Nat),
        let p := port.toNat
        lanePort l.toNat = some (p, i) ∧ p < 2 ∧ 3 ≤ s.pstate p ∧ (s.lanesEn p).testBit i = true ∧ (s.inService p).testBit i =
            false ∧ s.laneTested l.toNat = false ∧ (s.port p).loops.getLsbD i = false)
    ∧ (∃ (s : State) (t : TrainIn),
        s.alive = true ∧ t.lanesOk.getLsbD 0 = true)
    ∧ (∃ (s : State) (port : BitVec 2),
        let p := port.toNat
        let ready := s.alive = true ∧ s.pw.inReset = false ∧ p < 3 ∧ s.lanesEn p ≠ 0 ∧ s.pstate p < 2
        ready ∧ p < 2)
    ∧ (∃ (s : State) (port : BitVec 2) (t : TrainIn),
        let p := port.toNat
        p < 2 ∧ s.pstate p = 1 ∧ s.lanesEn p = 3 ∧ t.lanesOk = 3 ∧ eyeBad ⟨t.width0, t.height0⟩ = false ∧ eyeBad ⟨t.width1,
            t.height1⟩ = false ∧ t.skew.toNat ≤ 4 ∧ t.rate ≠ 0)
    ∧ (∃ (s : State) (port : BitVec 2),
        let p := port.toNat
        p < 2 ∧ s.pstate p ≠ 0 ∧ s.portUp p = false)
    ∧ (∃ (s : State) (port : BitVec 2),
        let p := port.toNat
        p < 2 ∧ s.portUp p = true ∧ 2 ≤ s.hubs ∧ s.ringState = 2 ∧ s.ln.cuts = [] ∧ s.pw.headSel = true)
    ∧ (∃ (s : State) (port : BitVec 2),
        let p := port.toNat
        p < 3 ∧ ((s.replay p).port p).replaysOfOldest < 16)
    ∧ (∃ (s : State) (port : BitVec 2),
        let p := port.toNat
        p < 3 ∧ 16 ≤ ((s.replay p).port p).replaysOfOldest)
    ∧ (∃ (s : State) (port : BitVec 2),
        let p := port.toNat
        p < 3 ∧ (s.port p).replaysInSecond ≤ s.rdN Reg.LN_RETRYTHR)
    ∧ (∃ (s : State) (port : BitVec 2),
        let p := port.toNat
        p = 2 ∧ s.rdN Reg.LN_RETRYTHR < (s.port p).replaysInSecond)
    ∧ (∃ (s : State) (l : BitVec 4) (w : Byte) (h : Byte),
        let low := w.toNat < 16 ∨ h.toNat < 10
        s.alive = true ∧ l.toNat < 10 ∧ low ∧ s.ln.eyeLow.contains l.toNat = false)
    ∧ (∃ (s : State) (l : BitVec 4) (w : Byte) (h : Byte),
        let low := w.toNat < 16 ∨ h.toNat < 10
        s.alive = true ∧ l.toNat < 10 ∧ (¬ low) ∧ 20 ≤ w.toNat ∧ 12 ≤ h.toNat) :=
  ⟨⟨tRing [(LN_PSTAT 1, LN_PSTAT_in_service, 2)], 8, 1, 1, by decide +kernel⟩,
   ⟨4, by decide +kernel⟩,
   ⟨tRing [], 8, 1, 1, by decide +kernel⟩,
   ⟨State.reset, 3, by decide +kernel⟩,
   ⟨tRing [], 2, by decide +kernel⟩,
   ⟨tRing [], 1, by decide +kernel⟩,
   ⟨tRing [(LN_PSTAT 1, LN_PSTAT_state, 1)], 1, 0,
       { width0 := 20, height0 := 12, width1 := 20, height1 := 12, lanesOk := 0, skew := 4, rate := 1 }, by decide +kernel⟩,
   ⟨tRing [(LN_PSTAT 1, LN_PSTAT_state, 1)], 1, 0,
       { width0 := 20, height0 := 12, width1 := 20, height1 := 12, lanesOk := 2, skew := 4, rate := 1 }, by decide +kernel⟩,
   ⟨tRing [(LN_PSTAT 1, LN_PSTAT_state, 1)], 1, 0,
       { width0 := 19, height0 := 12, width1 := 20, height1 := 12, lanesOk := 3, skew := 4, rate := 2 }, by decide +kernel⟩,
   ⟨2, { width0 := 20, height0 := 12, width1 := 20, height1 := 12, lanesOk := 1, skew := 4, rate := 1 }, by decide +kernel⟩,
   ⟨{ width0 := 20, height0 := 12, width1 := 20, height1 := 12, lanesOk := 0, skew := 4, rate := 1 }, by decide +kernel⟩,
   ⟨State.reset, 2, by decide +kernel⟩,
   ⟨{ tRing [] with ln := { (tRing []).ln with map := [(0, 0)] } }, 1, by decide +kernel⟩,
   ⟨tRing [(SV_TWSTAT, SV_TWSTAT_lane, 1)], 2, by decide +kernel⟩,
   ⟨{ tRing [] with pw := { (tRing []).pw with headSel := false } }, 1, by decide +kernel⟩,
   ⟨tRing [(LN_STAT, LN_STAT_state, 3)], 1, by decide +kernel⟩,
   ⟨tPort 1 { PortSt.init with replaysInSecond := 8 } [(LN_RETRYTHR, ⟨31, 0⟩, 7)], 1, by decide +kernel⟩,
   ⟨{ tRing [] with ln := { (tRing []).ln with eyeLow := [9] } }, 9, 15, 10, by decide +kernel⟩,
   ⟨tRing [], 9, 19, 12, by decide +kernel⟩,
   ⟨tRing [], 8, 1, 1, by decide +kernel⟩,
   ⟨tRing [(LN_PSTAT 1, LN_PSTAT_in_service, 1)], 8, 1, 1, by decide +kernel⟩,
   ⟨tRing [], { width0 := 20, height0 := 12, width1 := 20, height1 := 12, lanesOk := 3, skew := 4, rate := 1 },
       by decide +kernel⟩,
   ⟨tRing [(LN_PSTAT 1, LN_PSTAT_state, 0)], 1, by decide +kernel⟩,
   ⟨tRing [(LN_PSTAT 1, LN_PSTAT_state, 1)], 1,
       { width0 := 20, height0 := 12, width1 := 20, height1 := 12, lanesOk := 3, skew := 4, rate := 1 }, by decide +kernel⟩,
   ⟨tRing [(LN_PSTAT 1, LN_PSTAT_state, 1)], 1, by decide +kernel⟩,
   ⟨tRing [], 1, by decide +kernel⟩,
   ⟨tPort 2 { PortSt.init with replaysOfOldest := 15 } [], 2, by decide +kernel⟩,
   ⟨tPort 1
       { PortSt.init with replaysOfOldest := 15, replay := [(0, { typ := 10, src := 0, dst := 1, first := true, last := true, turned := false, payload := [], via := 2 })] }
       [], 1, by decide +kernel⟩,
   ⟨tPort 1 { PortSt.init with replaysInSecond := 7 } [(LN_RETRYTHR, ⟨31, 0⟩, 7)], 1, by decide +kernel⟩,
   ⟨tPort 2 { PortSt.init with replaysInSecond := 8 } [(LN_RETRYTHR, ⟨31, 0⟩, 7)], 2, by decide +kernel⟩,
   ⟨tRing [], 9, 15, 10, by decide +kernel⟩,
   ⟨tRing [], 9, 20, 12, by decide +kernel⟩⟩

/-- Witnesses for the hypotheses of `Cells`. -/
theorem witness_Cells :
    (∃ (s : State) (port : BitVec 2),
        let p := port.toNat
        s.alive = true ∧ p = 2)
    ∧ (∃ (s : State) (port : BitVec 2),
        let p := port.toNat
        s.alive = false ∨ 2 < p ∨ (p < 2 ∧ s.inService p = 0))
    ∧ (∃ (s : State) (port : BitVec 2) (cell : CellRx) (skipped : Word64),
        let p := port.toNat
        let bs := (cellOfLanes cell (s.lanesOn p)).1
        let good := (cellOfLanes cell (s.lanesOn p)).2 = true ∧ ofLe (bs.drop 260) = (crc32c (bs.take 260)).toNat
        let x := cellOf p s.payloadLen bs
        let slot := (s.port p).rxSlots + skipped
        let r := s.modPort p (fun x => { x with rxSlots := slot + 1, badRun := if skipped = 0 then x.badRun else 0 })
        let v := r.modPort p (fun x => { x with badRun := 0 })
        let on := p < 3 ∧ s.portUp p = true ∧ (s.port p).delineated = true
        let tag := v.tagOk p x.1.typ slot (bs.take (4 + s.payloadLen)) (slice bs (4 + s.payloadLen) 16)
        on ∧ good ∧ s.authOn = true ∧ tag = false ∧ (v.tagError p).portUp p = false)
    ∧ (∃ (s : State) (port : BitVec 2) (cell : CellRx) (skipped : Word64),
        let p := port.toNat
        let bs := (cellOfLanes cell (s.lanesOn p)).1
        let good := (cellOfLanes cell (s.lanesOn p)).2 = true ∧ ofLe (bs.drop 260) = (crc32c (bs.take 260)).toNat
        let x := cellOf p s.payloadLen bs
        let slot := (s.port p).rxSlots + skipped
        let r := s.modPort p (fun x => { x with rxSlots := slot + 1, badRun := if skipped = 0 then x.badRun else 0 })
        let v := r.modPort p (fun x => { x with badRun := 0 })
        let on := p < 3 ∧ s.portUp p = true ∧ (s.port p).delineated = true
        let tag := v.tagOk p x.1.typ slot (bs.take (4 + s.payloadLen)) (slice bs (4 + s.payloadLen) 16)
        let sound := s.authOn = false ∨ tag = true
        on ∧ good ∧ sound ∧ 0xD < x.1.typ)
    ∧ (∃ (s : State) (port : BitVec 2) (cell : CellRx) (skipped : Word64),
        let p := port.toNat
        let bs := (cellOfLanes cell (s.lanesOn p)).1
        let good := (cellOfLanes cell (s.lanesOn p)).2 = true ∧ ofLe (bs.drop 260) = (crc32c (bs.take 260)).toNat
        let x := cellOf p s.payloadLen bs
        let slot := (s.port p).rxSlots + skipped
        let r := s.modPort p (fun x => { x with rxSlots := slot + 1, badRun := if skipped = 0 then x.badRun else 0 })
        let v := r.modPort p (fun x => { x with badRun := 0 })
        let on := p < 3 ∧ s.portUp p = true ∧ (s.port p).delineated = true
        let tag := v.tagOk p x.1.typ slot (bs.take (4 + s.payloadLen)) (slice bs (4 + s.payloadLen) 16)
        let sound := s.authOn = false ∨ tag = true
        on ∧ good ∧ sound ∧ (x.1.typ < 3 ∨ x.1.typ = 0xD))
    ∧ (∃ (s : State) (port : BitVec 2) (cell : CellRx) (skipped : Word64),
        let p := port.toNat
        let bs := (cellOfLanes cell (s.lanesOn p)).1
        let good := (cellOfLanes cell (s.lanesOn p)).2 = true ∧ ofLe (bs.drop 260) = (crc32c (bs.take 260)).toNat
        let x := cellOf p s.payloadLen bs
        let slot := (s.port p).rxSlots + skipped
        let r := s.modPort p (fun x => { x with rxSlots := slot + 1, badRun := if skipped = 0 then x.badRun else 0 })
        let v := r.modPort p (fun x => { x with badRun := 0 })
        let y := v.modPort p (fun x => { x with authRun := 0 })
        let w := y.modPort p (fun x => { x with rxSeq := x.rxSeq + 1, naked := false, acceptedSince := x.acceptedSince + 1 })
        let on := p < 3 ∧ s.portUp p = true ∧ (s.port p).delineated = true
        let tag := v.tagOk p x.1.typ slot (bs.take (4 + s.payloadLen)) (slice bs (4 + s.payloadLen) 16)
        let plain := 3 ≤ x.1.typ ∧ x.1.typ < 0xD ∧ (s.authOn = true → tag = true)
        on ∧ good ∧ plain ∧ x.2 = (s.port p).rxSeq ∧ y.noRoom p x.1 = false ∧ 64 ≤ ((w.routeCell p x.1).port p).acceptedSince)
    ∧ (∃ (s : State) (port : BitVec 2),
        let p := port.toNat
        2 < p ∨ (s.port p).delineated = false)
    ∧ (∃ (s : State) (port : BitVec 2) (chk : CellCheck) (c : LinkCtlIn),
        let p := port.toNat
        let listens := s.alive = true ∧ p < 3 ∧ (p = 2 ∨ s.inService p ≠ 0) ∧ (s.port p).delineated = true
        let known := c.src.toNat < 48 ∨ c.src = 0x3E
        let agreed := s.authOn = false ∨ ((s.port p).keys ≠ none ∧ chk.tag = true)
        listens ∧ chk.line = true ∧ agreed ∧ known ∧ s.portUp p = true)
    ∧ (∃ (s : State) (port : BitVec 2) (chk : CellCheck) (c : LinkCtlIn),
        let p := port.toNat
        let listens := s.alive = true ∧ p < 3 ∧ (p = 2 ∨ s.inService p ≠ 0) ∧ (s.port p).delineated = true
        let known := c.src.toNat < 48 ∨ c.src = 0x3E
        listens ∧ chk.line = true ∧ s.portUp p = false ∧ known ∧ (s.port p).hello = false ∧ (s.port p).keyBlocked = false)
    ∧ (∃ (s : State) (port : BitVec 2) (chk : CellCheck) (c : LinkCtlIn),
        let p := port.toNat
        let listens := s.alive = true ∧ p < 3 ∧ (p = 2 ∨ s.inService p ≠ 0) ∧ (s.port p).delineated = true
        let known := c.src.toNat < 48 ∨ c.src = 0x3E
        listens ∧ chk.line = true ∧ s.portUp p = false ∧ known ∧ ((s.port p).hello = true ∨ (s.port p).keyBlocked = true))
    ∧ (∃ (s : State) (port : BitVec 2) (chk : CellCheck),
        let p := port.toNat
        let listens := s.alive = true ∧ p < 3 ∧ (p = 2 ∨ s.inService p ≠ 0) ∧ (s.port p).delineated = true
        listens ∧ chk.line = true ∧ s.portUp p = true ∧ s.authOn = true ∧ ((s.port p).keys = none ∨ chk.tag = false))
    ∧ (∃ (s : State) (port : BitVec 2) (chk : CellCheck) (c : LinkCtlIn),
        let p := port.toNat
        let listens := s.alive = true ∧ p < 3 ∧ (p = 2 ∨ s.inService p ≠ 0) ∧ (s.port p).delineated = true
        let known := c.src.toNat < 48 ∨ c.src = 0x3E
        let agreed := s.authOn = false ∨ ((s.port p).keys ≠ none ∧ chk.tag = true)
        listens ∧ chk.line = true ∧ agreed ∧ (¬ known))
    ∧ (∃ (s : State) (port : BitVec 2) (chk : CellCheck),
        let p := port.toNat
        let listens := s.alive = true ∧ p < 3 ∧ (p = 2 ∨ s.inService p ≠ 0) ∧ (s.port p).delineated = true
        listens ∧ chk.line = false)
    ∧ (∃ (s : State) (port : BitVec 2),
        let p := port.toNat
        s.alive = false ∨ 2 < p ∨ (s.port p).delineated = false ∨ (p < 2 ∧ s.inService p = 0))
    ∧ (∃ (s : State) (d : Delineation),
        let dp := d.port.toNat
        s.alive = false ∨ 2 < dp ∨ d.far = true)
    ∧ (∃ (s : State) (d : Delineation),
        let dp := d.port.toNat
        dp < 3 ∧ d.good.reverse.take 8 = List.replicate 8 false ∧ (d.far = true ∨ (s.port dp).delineated = true) ∧ ((s.port
            dp).keys = none ∨ (s.port dp).agree = none))
    ∧ (∃ (s : State) (d : Delineation) (k : List Byte × List Byte) (g : Agree),
        let dp := d.port.toNat
        dp < 3 ∧ d.good.reverse.take 8 = List.replicate 8 false ∧ d.far = true ∧ (s.port dp).keys = some k ∧ (s.port dp).agree =
            some g)
    ∧ (∃ (s : State) (d : Delineation),
        let dp := d.port.toNat
        2 < dp ∨ (d.far = false ∧ (s.port dp).delineated = false))
    ∧ (∃ (s : State) (port : BitVec 2),
        let p := port.toNat
        2 < p ∨ (s.port p).hello = true ∨ 3 ≤ s.pstate p)
    ∧ (∃ (s : State) (port : BitVec 2) (cell : CellRx),
        let p := port.toNat
        let bs := (cellOfLanes cell (s.lanesOn p)).1
        let good := (cellOfLanes cell (s.lanesOn p)).2 = true ∧ ofLe (bs.drop 260) = (crc32c (bs.take 260)).toNat
        let on := p < 3 ∧ s.portUp p = true ∧ (s.port p).delineated = true
        on ∧ (¬ good))
    ∧ (∃ (s : State) (port : BitVec 2) (cell : CellRx) (skipped : Word64),
        let p := port.toNat
        let bs := (cellOfLanes cell (s.lanesOn p)).1
        let good := (cellOfLanes cell (s.lanesOn p)).2 = true ∧ ofLe (bs.drop 260) = (crc32c (bs.take 260)).toNat
        let x := cellOf p s.payloadLen bs
        let slot := (s.port p).rxSlots + skipped
        let r := s.modPort p (fun x => { x with rxSlots := slot + 1, badRun := if skipped = 0 then x.badRun else 0 })
        let v := r.modPort p (fun x => { x with badRun := 0 })
        let on := p < 3 ∧ s.portUp p = true ∧ (s.port p).delineated = true
        let tag := v.tagOk p x.1.typ slot (bs.take (4 + s.payloadLen)) (slice bs (4 + s.payloadLen) 16)
        on ∧ good ∧ s.authOn = true ∧ tag = false ∧ (v.tagError p).portUp p = true)
    ∧ (∃ (s : State) (port : BitVec 2) (cell : CellRx) (skipped : Word64),
        let p := port.toNat
        let bs := (cellOfLanes cell (s.lanesOn p)).1
        let good := (cellOfLanes cell (s.lanesOn p)).2 = true ∧ ofLe (bs.drop 260) = (crc32c (bs.take 260)).toNat
        let x := cellOf p s.payloadLen bs
        let slot := (s.port p).rxSlots + skipped
        let r := s.modPort p (fun x => { x with rxSlots := slot + 1, badRun := if skipped = 0 then x.badRun else 0 })
        let v := r.modPort p (fun x => { x with badRun := 0 })
        let y := v.modPort p (fun x => { x with authRun := 0 })
        let on := p < 3 ∧ s.portUp p = true ∧ (s.port p).delineated = true
        let tag := v.tagOk p x.1.typ slot (bs.take (4 + s.payloadLen)) (slice bs (4 + s.payloadLen) 16)
        let plain := 3 ≤ x.1.typ ∧ x.1.typ < 0xD ∧ (s.authOn = true → tag = true)
        on ∧ good ∧ plain ∧ ((x.2 ≠ (s.port p).rxSeq ∨ y.noRoom p x.1 = true)))
    ∧ (∃ (s : State) (port : BitVec 2) (cell : CellRx) (skipped : Word64),
        let p := port.toNat
        let bs := (cellOfLanes cell (s.lanesOn p)).1
        let good := (cellOfLanes cell (s.lanesOn p)).2 = true ∧ ofLe (bs.drop 260) = (crc32c (bs.take 260)).toNat
        let x := cellOf p s.payloadLen bs
        let slot := (s.port p).rxSlots + skipped
        let r := s.modPort p (fun x => { x with rxSlots := slot + 1, badRun := if skipped = 0 then x.badRun else 0 })
        let v := r.modPort p (fun x => { x with badRun := 0 })
        let y := v.modPort p (fun x => { x with authRun := 0 })
        let w := y.modPort p (fun x => { x with rxSeq := x.rxSeq + 1, naked := false, acceptedSince := x.acceptedSince + 1 })
        let on := p < 3 ∧ s.portUp p = true ∧ (s.port p).delineated = true
        let tag := v.tagOk p x.1.typ slot (bs.take (4 + s.payloadLen)) (slice bs (4 + s.payloadLen) 16)
        let plain := 3 ≤ x.1.typ ∧ x.1.typ < 0xD ∧ (s.authOn = true → tag = true)
        on ∧ good ∧ plain ∧ x.2 = (s.port p).rxSeq ∧ y.noRoom p x.1 = false ∧ ((w.routeCell p x.1).port p).acceptedSince < 64)
    ∧ (∃ (s : State) (port : BitVec 2) (chk : CellCheck) (c : LinkCtlIn),
        let p := port.toNat
        s.alive = true ∧ p < 2 ∧ s.inService p ≠ 0 ∧ s.portUp p = true ∧ (s.port p).delineated = true ∧ s.authOn = false ∧
            c.src.toNat < 48 ∧ chk.line = true ∧ c.hold = false ∧ c.release = false ∧ c.nak = false)
    ∧ (∃ (s : State) (port : BitVec 2) (chk : CellCheck) (c : LinkCtlIn),
        let p := port.toNat
        s.alive = true ∧ p < 2 ∧ s.inService p ≠ 0 ∧ (s.port p).delineated = true ∧ s.authOn = false ∧ 48 ≤ c.src.toNat ∧ c.src
            ≠ 0x3E ∧ chk.line = true)
    ∧ (∃ (s : State) (port : BitVec 2) (chk : CellCheck),
        let p := port.toNat
        s.alive = true ∧ p < 2 ∧ s.inService p ≠ 0 ∧ (s.port p).delineated = true ∧ chk.line = false)
    ∧ (∃ (s : State) (d : Delineation),
        s.alive = true ∧ d.port.toNat < 3 ∧ d.far = false ∧ d.good.reverse.take 6 = List.replicate 6 true)
    ∧ (∃ (d : Delineation),
        d.good.reverse.take 6 ≠ List.replicate 6 true)
    ∧ (∃ (s : State) (d : Delineation) (k : List Byte × List Byte) (g : Agree),
        d.port.toNat < 3 ∧ d.far = false ∧ (s.port d.port.toNat).delineated = true ∧ d.good.reverse.take 8 = List.replicate 8
            false ∧ (s.port d.port.toNat).keys = some k ∧ (s.port d.port.toNat).agree = some g)
    ∧ (∃ (d : Delineation),
        d.good.reverse.take 8 ≠ List.replicate 8 false)
    ∧ (∃ (s : State) (port : BitVec 2),
        let p := port.toNat
        p < 3 ∧ (s.port p).hello = false ∧ s.pstate p < 3) :=
  ⟨⟨tRing [], 2, by decide +kernel⟩,
   ⟨tRing [], 3, by decide +kernel⟩,
   ⟨tPort 1 { PortSt.init with delineated := true, authRun := 15 } [(LN_STAT, LN_STAT_auth_on, 1)], 1, (fun (b : List Byte) =>
       tCell (b ++ leBytes 4 (crc32c b).toNat)) (fitBytes 260 (leBytes 4 0x30010000)), 0, by decide +kernel⟩,
   ⟨tPort 1 { PortSt.init with delineated := true } [], 1, (fun (b : List Byte) => tCell (b ++ leBytes 4 (crc32c b).toNat))
       (fitBytes 260 (leBytes 4 0xE0010000)), 0, by decide +kernel⟩,
   ⟨tPort 1 { PortSt.init with delineated := true } [], 1, (fun (b : List Byte) => tCell (b ++ leBytes 4 (crc32c b).toNat))
       (fitBytes 260 (leBytes 4 0xD0010000)), 0, by decide +kernel⟩,
   ⟨tPort 1 { PortSt.init with delineated := true, acceptedSince := 63 } [], 1, (fun (b : List Byte) => tCell (b ++ leBytes 4
       (crc32c b).toNat)) (fitBytes 260 (leBytes 4 0x30010000)), 0, by decide +kernel⟩,
   ⟨tRing [], 3, by decide +kernel⟩,
   ⟨tPort 1 { PortSt.init with delineated := true } [], 1, { line := true, tag := true }, tCtl, by decide +kernel⟩,
   ⟨tPort 1 { PortSt.init with delineated := true } [(LN_PSTAT 1, LN_PSTAT_state, 1)], 1, { line := true, tag := true }, tCtl,
       by decide +kernel⟩,
   ⟨tPort 1 { PortSt.init with delineated := true, hello := true } [(LN_PSTAT 1, LN_PSTAT_state, 1)], 1,
       { line := true, tag := true }, tCtl, by decide +kernel⟩,
   ⟨tPort 1 { PortSt.init with delineated := true } [(LN_STAT, LN_STAT_auth_on, 1)], 1, { line := true, tag := true },
       by decide +kernel⟩,
   ⟨tPort 1 { PortSt.init with delineated := true } [], 1, { line := true, tag := true }, { tCtl with src := 48 },
       by decide +kernel⟩,
   ⟨tPort 1 { PortSt.init with delineated := true } [], 1, { line := false, tag := true }, by decide +kernel⟩,
   ⟨tRing [], 3, by decide +kernel⟩,
   ⟨tRing [], { port := 1, good := List.replicate 6 true, far := true }, by decide +kernel⟩,
   ⟨tPort 1 { PortSt.init with delineated := true } [], { port := 1, good := List.replicate 8 false, far := false },
       by decide +kernel⟩,
   ⟨tPort 1 { PortSt.init with keys := some ([1], [2]), agree := some tAgree } [],
       { port := 1, good := List.replicate 8 false, far := true }, ([1], [2]), tAgree, by decide +kernel⟩,
   ⟨tRing [], { port := 1, good := List.replicate 8 false, far := false }, by decide +kernel⟩,
   ⟨tRing [], 1, by decide +kernel⟩,
   ⟨tPort 1 { PortSt.init with delineated := true, rxSeq := 0 } [], 1, tCell [], by decide +kernel⟩,
   ⟨tPort 1 { PortSt.init with delineated := true } [(LN_STAT, LN_STAT_auth_on, 1)], 1, (fun (b : List Byte) => tCell (b ++
       leBytes 4 (crc32c b).toNat)) (fitBytes 260 (leBytes 4 0x30010000)), 0, by decide +kernel⟩,
   ⟨tPort 1 { PortSt.init with delineated := true, rxSeq := 1 } [], 1, (fun (b : List Byte) => tCell (b ++ leBytes 4 (crc32c
       b).toNat)) (fitBytes 260 (leBytes 4 0xC0010000)), 0, by decide +kernel⟩,
   ⟨tPort 1 { PortSt.init with delineated := true, rxSeq := 0 } [], 1, (fun (b : List Byte) => tCell (b ++ leBytes 4 (crc32c
       b).toNat)) (fitBytes 260 (leBytes 4 0x30010000)), 0, by decide +kernel⟩,
   ⟨tPort 1 { PortSt.init with delineated := true, rxSeq := 0 } [], 1, { line := true, tag := true }, tCtl, by decide +kernel⟩,
   ⟨tPort 1 { PortSt.init with delineated := true, rxSeq := 0 } [], 1, { line := true, tag := true }, { tCtl with src := 48 },
       by decide +kernel⟩,
   ⟨tPort 1 { PortSt.init with delineated := true, rxSeq := 0 } [], 1, { line := false, tag := true }, by decide +kernel⟩,
   ⟨tRing [], { port := 1, good := List.replicate 6 true, far := false }, by decide +kernel⟩,
   ⟨{ port := 1, good := List.replicate 5 true, far := false }, by decide +kernel⟩,
   ⟨tPort 1 { PortSt.init with delineated := true, keys := some ([1], [2]), agree := some tAgree } [],
       { port := 1, good := List.replicate 8 false, far := false }, ([1], [2]), tAgree, by decide +kernel⟩,
   ⟨{ port := 1, good := List.replicate 7 false, far := false }, by decide +kernel⟩,
   ⟨tRing [(LN_PSTAT 1, LN_PSTAT_state, 2)], 1, by decide +kernel⟩⟩

/-- Witnesses for the hypotheses of `RingFormation`. -/
theorem witness_RingFormation :
    (∃ (s : State) (port : BitVec 2),
        let q := port.toNat
        s.alive = true ∧ s.pw.headSel = false ∧ q < 2 ∧ s.portUp (1 - q) = false)
    ∧ (∃ (s : State) (port : BitVec 2),
        let q := port.toNat
        s.alive = false ∨ 1 < q ∨ (s.pw.headSel = true ∧ s.ln.censusOut = false))
    ∧ (∃ (s : State) (down : List CensusEntry),
        let heads := s.alive = true ∧ s.pw.headSel = true ∧ s.ln.censusOut = true
        heads ∧ s.ln.census = some down ∧ s.ln.censusLate = true)
    ∧ (∃ (s : State) (down : List CensusEntry),
        let heads := s.alive = true ∧ s.pw.headSel = true ∧ s.ln.censusOut = true
        heads ∧ s.ln.census = some down ∧ s.ln.censusLate = false)
    ∧ (∃ (s : State),
        let heads := s.alive = true ∧ s.pw.headSel = true ∧ s.ln.censusOut = true
        heads ∧ s.ln.census = none ∧ s.ln.censusLate = true)
    ∧ (∃ (s : State),
        let heads := s.alive = true ∧ s.pw.headSel = true ∧ s.ln.censusOut = true
        heads ∧ s.portUp 0 = true)
    ∧ (∃ (s : State),
        let heads := s.alive = true ∧ s.pw.headSel = true ∧ s.ln.censusOut = true
        heads ∧ s.portUp 0 = false)
    ∧ (∃ (s : State),
        s.pw.headSel = true ∧ s.ln.censusOut = true ∧ s.ln.censusLate = true)
    ∧ (∃ (s : State),
        s.pw.headSel = true ∧ s.ln.censusOut = true ∧ s.ln.censusLate = false ∧ s.portUp 0 = false)
    ∧ (∃ (s : State) (ms : List MapEntry) (e : MapEntry),
        s.alive = true ∧ s.pw.headSel = false ∧ ms.find? (fun e => e.serial == s.pw.serial) = none)
    ∧ (∃ (s : State),
        s.pw.headSel = true ∨ s.alive = false)
    ∧ (∃ (s : State) (serial : Word64) (strap : BitVec 6),
        let free := ((List.range 48).find? (fun a => a != 0 && !(kkeys s.ln.map).contains a)).getD 0x3E
        s.pw.headSel = true ∧ 2 ≤ s.ringState ∧ strap = 0 ∧ s.placeOf serial = none ∧ free < 48)
    ∧ (∃ (s : State) (serial : Word64) (strap : BitVec 6) (b : Nat) (o : Nat),
        s.pw.headSel = true ∧ 2 ≤ s.ringState ∧ strap ≠ 0 ∧ strap.toNat < 48 ∧ b ≠ strap.toNat ∧ s.placeOf serial = none ∧ kget?
            s.ln.map b = some o)
    ∧ (∃ (s : State) (strap : BitVec 6),
        s.pw.headSel = false ∨ s.ringState < 2 ∨ 48 ≤ strap.toNat)
    ∧ (∃ (s : State) (serial : Word64) (strap : BitVec 6),
        let free := ((List.range 48).find? (fun a => a != 0 && !(kkeys s.ln.map).contains a)).getD 0x3E
        strap = 0 ∧ s.placeOf serial = none ∧ 48 ≤ free)
    ∧ (∃ (s : State) (addr : BitVec 6),
        let present := s.pw.headSel = true ∧ addr.toNat < 48 ∧ s.flag (Reg.LN_MAP addr.toNat) Fld.LN_MAP_present = true
        let partner := s.isTwin = true ∧ addr.toNat = s.sv.twin.partnerAddr
        (¬ partner) ∧ (¬ present))
    ∧ (∃ (s : State) (addr : BitVec 6),
        let partner := s.isTwin = true ∧ addr.toNat = s.sv.twin.partnerAddr
        let adopts := s.inRun = true ∧ s.role = 1 ∧ s.pReady = false ∧ s.sv.twin.tookOver = true
        partner ∧ (¬ adopts))
    ∧ (∃ (s : State) (addr : BitVec 6),
        let partner := s.isTwin = true ∧ addr.toNat = s.sv.twin.partnerAddr
        let adopts := s.inRun = true ∧ s.role = 1 ∧ s.pReady = false ∧ s.sv.twin.tookOver = true
        partner ∧ adopts)
    ∧ (∃ (s : State) (p : RingParams),
        let waits := s.inRun = true ∧ s.pw.waiting = true ∧ p.started = true
        s.alive = true ∧ s.pw.inReset = false ∧ s.pw.headSel = false ∧ waits ∧ (s.noteRing p).agreesWith p = false)
    ∧ (∃ (s : State),
        s.alive = false ∨ s.pw.inReset = true)
    ∧ (∃ (s : State),
        s.idleOpen = true)
    ∧ (∃ (s : State),
        s.idleOpen = false)
    ∧ (∃ (s : State) (port : BitVec 2),
        let q := port.toNat
        s.alive = true ∧ s.pw.headSel = false ∧ q < 2 ∧ s.portUp (1 - q) = true)
    ∧ (∃ (s : State),
        s.alive = true ∧ s.pw.headSel = true ∧ s.ln.censusOut = true ∧ s.ln.census = none ∧ s.ln.censusLate = false)
    ∧ (∃ (s : State),
        s.pw.headSel = true ∧ s.ln.censusOut = true ∧ s.ln.censusLate = false ∧ s.portUp 0 = true)
    ∧ (∃ (s : State),
        s.ln.censusOut = false)
    ∧ (∃ (s : State) (ms : List MapEntry) (e : MapEntry),
        s.alive = true ∧ s.pw.headSel = false ∧ ms.find? (fun e => e.serial == s.pw.serial) = some e)
    ∧ (∃ (s : State) (addr : BitVec 6),
        let present := s.pw.headSel = true ∧ addr.toNat < 48 ∧ s.flag (Reg.LN_MAP addr.toNat) Fld.LN_MAP_present = true
        let partner := s.isTwin = true ∧ addr.toNat = s.sv.twin.partnerAddr
        present ∧ (¬ partner))
    ∧ (∃ (s : State) (p : RingParams),
        let waits := s.inRun = true ∧ s.pw.waiting = true ∧ p.started = true
        s.alive = true ∧ s.pw.inReset = false ∧ s.pw.headSel = false ∧ (¬ waits))
    ∧ (∃ (s : State) (p : RingParams),
        s.inRun = true ∧ s.pw.inReset = false ∧ s.pw.headSel = false ∧ s.pw.waiting = true ∧ p.started = true ∧ (s.noteRing
            p).agreesWith p = true) :=
  ⟨⟨tMember .idle [(LN_PSTAT 1, LN_PSTAT_state, 3)], 1, by decide +kernel⟩,
   ⟨tRing [], 2, by decide +kernel⟩,
   ⟨{ tRing [] with ln := { (tRing []).ln with censusOut := true, censusLate := true, census := some [{ serial := 2, strap := 47, headSel := false, addr := 47 }] } },
       [{ serial := 2, strap := 47, headSel := false, addr := 47 }], by decide +kernel⟩,
   ⟨{ tRing [] with ln := { (tRing []).ln with censusOut := true, census := some [] } }, [], by decide +kernel⟩,
   ⟨{ tRing [] with ln := { (tRing []).ln with censusOut := true, censusLate := true } }, by decide +kernel⟩,
   ⟨{ tRing [] with ln := { (tRing []).ln with censusOut := true } }, by decide +kernel⟩,
   ⟨{ tRing [(LN_PSTAT 0, LN_PSTAT_state, 0)] with ln := { (tRing []).ln with censusOut := true } }, by decide +kernel⟩,
   ⟨{ tRing [] with ln := { (tRing []).ln with censusOut := true, censusLate := true } }, by decide +kernel⟩,
   ⟨{ tRing [(LN_PSTAT 0, LN_PSTAT_state, 0)] with ln := { (tRing []).ln with censusOut := true } }, by decide +kernel⟩,
   ⟨tMember .idle [], [{ serial := 9, addr := 47, position := 3, assigned := true }],
       { serial := 1, addr := 47, position := 3, assigned := true }, by decide +kernel⟩,
   ⟨tRing [], by decide +kernel⟩,
   ⟨tRing [], 9, 0, by decide +kernel⟩,
   ⟨tRing [], 9, 47, 3, 3, by decide +kernel⟩,
   ⟨tRing [], 48, by decide +kernel⟩,
   ⟨{ tRing [] with ln := { (tRing []).ln with map := (List.range 48).map (fun a => (a, a)) } }, 9, 0, by decide +kernel⟩,
   ⟨tRing [], 47, by decide +kernel⟩,
   ⟨tTwin 2 (fun t => { t with partnerAddr := 47 }) [], 47, by decide +kernel⟩,
   ⟨tTwin 1 (fun t => { t with partnerAddr := 47, tookOver := true }) [], 47, by decide +kernel⟩,
   ⟨{ tMember .run [] with pw := { (tMember .run []).pw with waiting := true } }, tParams 161, by decide +kernel⟩,
   ⟨tIn .off [], by decide +kernel⟩,
   ⟨tRing [], by decide +kernel⟩,
   ⟨tIn .run [], by decide +kernel⟩,
   ⟨tMember .idle [(LN_PSTAT 0, LN_PSTAT_state, 3)], 1, by decide +kernel⟩,
   ⟨{ tRing [] with ln := { (tRing []).ln with censusOut := true } }, by decide +kernel⟩,
   ⟨{ tRing [] with ln := { (tRing []).ln with censusOut := true } }, by decide +kernel⟩,
   ⟨tRing [], by decide +kernel⟩,
   ⟨{ tRing [] with pw := { (tRing []).pw with headSel := false } },
       [{ serial := 1, addr := 47, position := 3, assigned := true }],
       { serial := 1, addr := 47, position := 3, assigned := true }, by decide +kernel⟩,
   ⟨tRing [(LN_MAP 47, LN_MAP_present, 1)], 47, by decide +kernel⟩,
   ⟨tMember .idle [], tParams 160, by decide +kernel⟩,
   ⟨{ tMember .run [] with pw := { (tMember .run []).pw with waiting := true } }, tParams 160, by decide +kernel⟩⟩

/-- Witnesses for the hypotheses of `Rerouting`. -/
theorem witness_Rerouting :
    (∃ (s : State) (x : BitVec 6) (y : BitVec 6) (port : BitVec 2) (r : Reroute),
        let q := port.toNat
        let k := s.cutDir x.toNat y.toNat
        let link := if k = 1 then (x.toNat, y.toNat) else (y.toNat, x.toNat)
        let b := s.noteBreak link
        let v := (b.joinReroute k x.toNat y.toNat).noticePassed k
        let n := { v with ln := { v.ln with reroutes := kset v.ln.reroutes k { r with noticed := true } } }
        let takes := s.alive = true ∧ q < 2 ∧ 2 ≤ s.hubs
        takes ∧ b.firstCut link = true ∧ kget? v.ln.reroutes k = some r ∧ n.ln.position = x.toNat)
    ∧ (∃ (s : State) (x : BitVec 6) (y : BitVec 6) (port : BitVec 2),
        let q := port.toNat
        let k := s.cutDir x.toNat y.toNat
        let link := if k = 1 then (x.toNat, y.toNat) else (y.toNat, x.toNat)
        let b := s.noteBreak link
        let takes := s.alive = true ∧ q < 2 ∧ 2 ≤ s.hubs
        takes ∧ b.firstCut link = false ∧ b.ln.position ≠ x.toNat)
    ∧ (∃ (s : State) (port : BitVec 2),
        let q := port.toNat
        s.alive = false ∨ 1 < q)
    ∧ (∃ (s : State) (port : BitVec 2) (r : Reroute),
        let q := port.toNat
        kget? s.ln.reroutes (1 - q) = some r ∧ r.x = s.ln.position ∧ r.noticed = false)
    ∧ (∃ (s : State) (port : BitVec 2) (r : Reroute),
        let q := port.toNat
        kget? s.ln.reroutes (1 - q) = some r ∧ r.x ≠ s.ln.position)
    ∧ (∃ (s : State) (m : RouteMark),
        let healed := (m.up.toNat, m.down.toNat)
        s.ln.cuts = [healed] ∧ s.pw.headSel = false)
    ∧ (∃ (s : State) (x : BitVec 6) (y : BitVec 6) (m : RouteMark),
        let k := s.cutDir x.toNat y.toNat
        let link := if k = 1 then (x.toNat, y.toNat) else (y.toNat, x.toNat)
        let healed := (m.up.toNat, m.down.toNat)
        s.ln.cuts = [healed, link] ∧ healed ≠ link)
    ∧ (∃ (s : State) (x : BitVec 6) (y : BitVec 6) (port : BitVec 2) (r : Reroute),
        let q := port.toNat
        let k := s.cutDir x.toNat y.toNat
        let link := if k = 1 then (x.toNat, y.toNat) else (y.toNat, x.toNat)
        let b := s.noteBreak link
        let v := (b.joinReroute k x.toNat y.toNat).noticePassed k
        let n := { v with ln := { v.ln with reroutes := kset v.ln.reroutes k { r with noticed := true } } }
        let flushing := crossed n.hubs (farther n.hubs n.ln.position k) y.toNat k
        let takes := s.alive = true ∧ q < 2 ∧ 2 ≤ s.hubs
        takes ∧ b.firstCut link = true ∧ kget? v.ln.reroutes k = some r ∧ n.ln.position ≠ x.toNat ∧ flushing = true ∧ n.portUp
            (1 - q) = true)
    ∧ (∃ (s : State) (x : BitVec 6) (y : BitVec 6) (port : BitVec 2) (r : Reroute),
        let q := port.toNat
        let k := s.cutDir x.toNat y.toNat
        let link := if k = 1 then (x.toNat, y.toNat) else (y.toNat, x.toNat)
        let b := s.noteBreak link
        let v := (b.joinReroute k x.toNat y.toNat).noticePassed k
        let n := { v with ln := { v.ln with reroutes := kset v.ln.reroutes k { r with noticed := true } } }
        let flushing := crossed n.hubs (farther n.hubs n.ln.position k) y.toNat k
        s.alive = true ∧ q < 2 ∧ 2 ≤ s.hubs ∧ b.firstCut link = true ∧ kget? v.ln.reroutes k = some r ∧ n.ln.position = x.toNat
            ∧ flushing = false ∧ (n.port k).replay = [] ∧ (n.port k).queue = [])
    ∧ (∃ (s : State) (x : BitVec 6) (y : BitVec 6) (port : BitVec 2),
        let q := port.toNat
        let k := s.cutDir x.toNat y.toNat
        let link := if k = 1 then (x.toNat, y.toNat) else (y.toNat, x.toNat)
        let b := s.noteBreak link
        s.alive = true ∧ q < 2 ∧ 2 ≤ s.hubs ∧ b.firstCut link = false ∧ b.ln.position = x.toNat)
    ∧ (∃ (s : State),
        s.hubs < 2)
    ∧ (∃ (s : State) (port : BitVec 2),
        let q := port.toNat
        kget? s.ln.reroutes (1 - q) = none)
    ∧ (∃ (s : State) (port : BitVec 2) (r : Reroute),
        let q := port.toNat
        kget? s.ln.reroutes (1 - q) = some r ∧ r.x = s.ln.position ∧ r.noticed = true)
    ∧ (∃ (s : State) (port : BitVec 2),
        let q := port.toNat
        kget? s.ln.reroutes q = none)
    ∧ (∃ (s : State) (port : BitVec 2) (r : Reroute),
        let q := port.toNat
        kget? s.ln.reroutes q = some r ∧ r.y = s.ln.position)
    ∧ (∃ (s : State) (port : BitVec 2) (r : Reroute),
        let q := port.toNat
        kget? s.ln.reroutes q = some r ∧ r.y ≠ s.ln.position)
    ∧ (∃ (s : State) (m : RouteMark),
        let healed := (m.up.toNat, m.down.toNat)
        s.ln.cuts.contains healed = false ∧ s.ln.heldDst = [])
    ∧ (∃ (s : State) (m : RouteMark),
        let healed := (m.up.toNat, m.down.toNat)
        s.ln.cuts = [healed] ∧ s.pw.headSel = true) :=
  ⟨⟨{ tRing [] with ln := { (tRing []).ln with position := 2, ports := [(1, { PortSt.init with replay := [(5, { typ := 10, src := 2, dst := 3, first := true, last := true, turned := false, payload := [], via := 2 }), (6, { typ := 10, src := 2, dst := 3, first := true, last := true, turned := false, payload := [], via := 2 })] })] } },
      2, 3, 1, { x := 2, y := 3, holdsOwn := true, noticed := false, flushed := false, held := [] }, by decide +kernel⟩,
   ⟨{ tRing [(LN_STAT, LN_STAT_state, 3)] with ln := { (tRing []).ln with position := 1, cuts := [(2, 3)] } }, 0, 1, 1,
       by decide +kernel⟩,
   ⟨State.reset, 2, by decide +kernel⟩,
   ⟨{ tRing [] with ln := { (tRing []).ln with position := 2, reroutes := [(0, { x := 2, y := 3, holdsOwn := true, noticed := false, flushed := false, held := [] })] } },
       1, { x := 2, y := 3, holdsOwn := true, noticed := false, flushed := false, held := [] }, by decide +kernel⟩,
   ⟨{ tRing [] with ln := { (tRing []).ln with position := 1, reroutes := [(0, { x := 2, y := 3, holdsOwn := true, noticed := false, flushed := false, held := [] })] } },
       1, { x := 2, y := 3, holdsOwn := true, noticed := false, flushed := false, held := [] }, by decide +kernel⟩,
   ⟨{ tMember .idle [(LN_STAT, LN_STAT_state, 3)] with ln := { (tRing []).ln with cuts := [(2, 3)] } },
       { src := 0, up := 2, down := 3 }, by decide +kernel⟩,
   ⟨{ tRing [(LN_STAT, LN_STAT_state, 4)] with ln := { (tRing []).ln with cuts := [(2, 3), (0, 1)] } }, 0, 1,
       { src := 0, up := 2, down := 3 }, by decide +kernel⟩,
   ⟨{ tRing [] with ln := { (tRing []).ln with position := 3, reroutes := [] } }, 0, 3, 0,
       { x := 0, y := 3, holdsOwn := false, noticed := false, flushed := false, held := [] }, by decide +kernel⟩,
   ⟨{ tRing [] with ln := { (tRing []).ln with position := 2, reroutes := [] } }, 2, 3, 1,
       { x := 2, y := 3, holdsOwn := true, noticed := false, flushed := false, held := [] }, by decide +kernel⟩,
   ⟨{ tRing [(LN_STAT, LN_STAT_state, 3)] with ln := { (tRing []).ln with position := 0, cuts := [(2, 3)] } }, 0, 1, 1,
       by decide +kernel⟩,
   ⟨State.reset, by decide +kernel⟩,
   ⟨tRing [], 1, by decide +kernel⟩,
   ⟨{ tRing [] with ln := { (tRing []).ln with position := 2, reroutes := [(0, tReroute 2 3)] } }, 1, tReroute 2 3,
       by decide +kernel⟩,
   ⟨tRing [], 1, by decide +kernel⟩,
   ⟨{ tRing [] with ln := { (tRing []).ln with position := 3, reroutes := [(1, tReroute 2 3)] } }, 1, tReroute 2 3,
       by decide +kernel⟩,
   ⟨{ tRing [] with ln := { (tRing []).ln with position := 2, reroutes := [(1, tReroute 2 3)] } }, 1, tReroute 2 3,
       by decide +kernel⟩,
   ⟨tRing [], { src := 0, up := 2, down := 3 }, by decide +kernel⟩,
   ⟨{ tRing [(LN_STAT, LN_STAT_state, 3)] with ln := { (tRing []).ln with cuts := [(2, 3)] } },
       { src := 0, up := 2, down := 3 }, by decide +kernel⟩⟩

/-- Witnesses for the hypotheses of `TestsAndKeys`. -/
theorem witness_TestsAndKeys :
    (∃ (s : State) (i : BitVec 4) (val : Word),
        let l := i.toNat
        let otherUp := (lanePort l).any (fun e => (s.inService e.1).testBit (1 - e.2))
        let eligible := (l = 4 ∧ s.fget Reg.TB_CTL Fld.TB_CTL_src ≠ 1) ∨ (l = 9 ∧ (s.isTwin = false ∨ s.inRun = false)) ∨ (4 < l
            ∧ l < 9 ∧ (s.inRun = false ∨ otherUp = true))
        let listed := BitField.get Fld.LN_TEST_mode val ≤ 4 ∧ BitField.get Fld.LN_TEST_pattern val ≤ 5
        l < 10 ∧ (¬ (eligible ∧ listed)))
    ∧ (∃ (i : BitVec 4),
        let l := i.toNat
        9 < l)
    ∧ (∃ (s : State) (i : BitVec 4) (val : Word),
        let l := i.toNat
        let otherUp := (lanePort l).any (fun e => (s.inService e.1).testBit (1 - e.2))
        let eligible := (l = 4 ∧ s.fget Reg.TB_CTL Fld.TB_CTL_src ≠ 1) ∨ (l = 9 ∧ (s.isTwin = false ∨ s.inRun = false)) ∨ (4 < l
            ∧ l < 9 ∧ (s.inRun = false ∨ otherUp = true))
        let listed := BitField.get Fld.LN_TEST_mode val ≤ 4 ∧ BitField.get Fld.LN_TEST_pattern val ≤ 5
        let anew := if BitField.get Fld.LN_TEST_run val = 1 ∧ s.flag (Reg.LN_TEST l) Fld.LN_TEST_run = false then
            { s with ln := { s.ln with lastErr := kerase s.ln.lastErr l } } else s
        let set := anew.wr (Reg.LN_TEST l) (val &&& 0xFF00FFFF#32 &&& ~~~(1#32 <<< 23))
        eligible ∧ listed ∧ set.laneTested l = s.laneTested l)
    ∧ (∃ (s : State) (i : BitVec 4) (val : Word) (p : Nat) (j : Nat),
        let l := i.toNat
        let otherUp := (lanePort l).any (fun e => (s.inService e.1).testBit (1 - e.2))
        let eligible := (l = 4 ∧ s.fget Reg.TB_CTL Fld.TB_CTL_src ≠ 1) ∨ (l = 9 ∧ (s.isTwin = false ∨ s.inRun = false)) ∨ (4 < l
            ∧ l < 9 ∧ (s.inRun = false ∨ otherUp = true))
        let listed := BitField.get Fld.LN_TEST_mode val ≤ 4 ∧ BitField.get Fld.LN_TEST_pattern val ≤ 5
        let anew := if BitField.get Fld.LN_TEST_run val = 1 ∧ s.flag (Reg.LN_TEST l) Fld.LN_TEST_run = false then
            { s with ln := { s.ln with lastErr := kerase s.ln.lastErr l } } else s
        let set := anew.wr (Reg.LN_TEST l) (val &&& 0xFF00FFFF#32 &&& ~~~(1#32 <<< 23))
        let out := set.laneOut l 0 false
        eligible ∧ listed ∧ s.laneTested l = false ∧ set.laneTested l = true ∧ lanePort l = some (p, j) ∧ p < 2 ∧ 3 ≤ out.pstate
            p)
    ∧ (∃ (s : State) (i : BitVec 4) (val : Word) (p : Nat) (j : Nat),
        let l := i.toNat
        let otherUp := (lanePort l).any (fun e => (s.inService e.1).testBit (1 - e.2))
        let eligible := (l = 4 ∧ s.fget Reg.TB_CTL Fld.TB_CTL_src ≠ 1) ∨ (l = 9 ∧ (s.isTwin = false ∨ s.inRun = false)) ∨ (4 < l
            ∧ l < 9 ∧ (s.inRun = false ∨ otherUp = true))
        let listed := BitField.get Fld.LN_TEST_mode val ≤ 4 ∧ BitField.get Fld.LN_TEST_pattern val ≤ 5
        let anew := if BitField.get Fld.LN_TEST_run val = 1 ∧ s.flag (Reg.LN_TEST l) Fld.LN_TEST_run = false then
            { s with ln := { s.ln with lastErr := kerase s.ln.lastErr l } } else s
        let set := anew.wr (Reg.LN_TEST l) (val &&& 0xFF00FFFF#32 &&& ~~~(1#32 <<< 23))
        let out := set.laneOut l 0 false
        eligible ∧ listed ∧ s.laneTested l = false ∧ set.laneTested l = true ∧ lanePort l = some (p, j) ∧ (p = 2 ∨ out.pstate p
            < 3))
    ∧ (∃ (s : State) (i : BitVec 4) (val : Word) (p : Nat) (j : Nat),
        let l := i.toNat
        let otherUp := (lanePort l).any (fun e => (s.inService e.1).testBit (1 - e.2))
        let eligible := (l = 4 ∧ s.fget Reg.TB_CTL Fld.TB_CTL_src ≠ 1) ∨ (l = 9 ∧ (s.isTwin = false ∨ s.inRun = false)) ∨ (4 < l
            ∧ l < 9 ∧ (s.inRun = false ∨ otherUp = true))
        let listed := BitField.get Fld.LN_TEST_mode val ≤ 4 ∧ BitField.get Fld.LN_TEST_pattern val ≤ 5
        let anew := if BitField.get Fld.LN_TEST_run val = 1 ∧ s.flag (Reg.LN_TEST l) Fld.LN_TEST_run = false then
            { s with ln := { s.ln with lastErr := kerase s.ln.lastErr l } } else s
        let set := anew.wr (Reg.LN_TEST l) (val &&& 0xFF00FFFF#32 &&& ~~~(1#32 <<< 23))
        eligible ∧ listed ∧ s.laneTested l = true ∧ set.laneTested l = false ∧ lanePort l = some (p, j) ∧ p < 2 ∧ s.pstate p =
            4)
    ∧ (∃ (s : State) (i : BitVec 4) (val : Word) (p : Nat) (j : Nat),
        let l := i.toNat
        let otherUp := (lanePort l).any (fun e => (s.inService e.1).testBit (1 - e.2))
        let eligible := (l = 4 ∧ s.fget Reg.TB_CTL Fld.TB_CTL_src ≠ 1) ∨ (l = 9 ∧ (s.isTwin = false ∨ s.inRun = false)) ∨ (4 < l
            ∧ l < 9 ∧ (s.inRun = false ∨ otherUp = true))
        let listed := BitField.get Fld.LN_TEST_mode val ≤ 4 ∧ BitField.get Fld.LN_TEST_pattern val ≤ 5
        let anew := if BitField.get Fld.LN_TEST_run val = 1 ∧ s.flag (Reg.LN_TEST l) Fld.LN_TEST_run = false then
            { s with ln := { s.ln with lastErr := kerase s.ln.lastErr l } } else s
        let set := anew.wr (Reg.LN_TEST l) (val &&& 0xFF00FFFF#32 &&& ~~~(1#32 <<< 23))
        eligible ∧ listed ∧ s.laneTested l = true ∧ set.laneTested l = false ∧ lanePort l = some (p, j) ∧ (p = 2 ∨ s.pstate p ≠
            4))
    ∧ (∃ (s : State) (i : BitVec 4),
        let l := i.toNat
        let mode := s.fget (Reg.LN_TEST l) Fld.LN_TEST_mode
        lanePort l = none ∨ s.flag (Reg.LN_TEST l) Fld.LN_TEST_run = false ∨ mode ≠ 4)
    ∧ (∃ (s : State) (i : BitVec 4) (p : Nat) (j : Nat),
        let l := i.toNat
        lanePort l = some (p, j) ∧ (s.inService p).testBit j = false)
    ∧ (∃ (s : State) (i : BitVec 4),
        let l := i.toNat
        let mode := s.fget (Reg.LN_TEST l) Fld.LN_TEST_mode
        let checks := 4 ≤ l ∧ l < 10 ∧ s.flag (Reg.LN_TEST l) Fld.LN_TEST_run = true ∧ (mode = 2 ∨ mode = 3)
        ¬ checks)
    ∧ (∃ (s : State) (i : BitVec 4) (t : Word64),
        let l := i.toNat
        let mode := s.fget (Reg.LN_TEST l) Fld.LN_TEST_mode
        let checks := 4 ≤ l ∧ l < 10 ∧ s.flag (Reg.LN_TEST l) Fld.LN_TEST_run = true ∧ (mode = 2 ∨ mode = 3)
        checks ∧ kget? s.ln.lastErr l = some t ∧ (s.tb.cnt - t).toNat < secondCounts)
    ∧ (∃ (s : State) (port : BitVec 2),
        let q := port.toNat
        2 < q ∨ s.agreeing q = false)
    ∧ (∃ (s : State) (port : BitVec 2) (msg : List Byte) (a : Agree),
        let q := port.toNat
        let m := fitBytes 384 msg
        let proven := s.mayAgree && !a.priv.isEmpty && !a.partner.isEmpty && slice m 0 1 == [2#8] && Config.ecVerify
            (offerPublic a.partner) (offersInOrder a.offer a.partner) (slice m 0x20 96)
        q < 3 ∧ s.agreeing q = true ∧ (s.port q).agree = some a ∧ proven = false)
    ∧ (∃ (port : BitVec 2),
        let q := port.toNat
        2 < q)
    ∧ (∃ (i : BitVec 4),
        let l := i.toNat
        l < 4)
    ∧ (∃ (s : State) (i : BitVec 4) (val : Word),
        let l := i.toNat
        l = 4 ∧ s.fget Reg.TB_CTL Fld.TB_CTL_src ≠ 1 ∧ BitField.get Fld.LN_TEST_mode val ≤ 4 ∧ BitField.get Fld.LN_TEST_pattern
            val ≤ 5)
    ∧ (∃ (s : State) (i : BitVec 4) (p : Nat) (j : Nat),
        let l := i.toNat
        let mode := s.fget (Reg.LN_TEST l) Fld.LN_TEST_mode
        lanePort l = some (p, j) ∧ s.flag (Reg.LN_TEST l) Fld.LN_TEST_run = true ∧ mode = 4 ∧ (s.inService p).testBit j = true)
    ∧ (∃ (s : State) (i : BitVec 4) (t : Word64),
        let l := i.toNat
        let mode := s.fget (Reg.LN_TEST l) Fld.LN_TEST_mode
        4 ≤ l ∧ l < 10 ∧ s.flag (Reg.LN_TEST l) Fld.LN_TEST_run = true ∧ ((mode = 2 ∨ mode = 3)) ∧ (kget? s.ln.lastErr l).all
            (fun t => decide (secondCounts ≤ (s.tb.cnt - t).toNat)) = true)
    ∧ (∃ (s : State) (port : BitVec 2) (engine : Byte) (a : Agree),
        let q := port.toNat
        q < 3 ∧ s.agreeing q = true ∧ (s.port q).agree = some a ∧ engine ≠ 0)
    ∧ (∃ (s : State) (port : BitVec 2),
        let q := port.toNat
        s.agreeing q = false) :=
  ⟨⟨tRing [], 9, 0xB6000000#32, by decide +kernel⟩,
   ⟨10, by decide +kernel⟩,
   ⟨tRing [], 8, 0xC5000000#32, by decide +kernel⟩,
   ⟨tRing [], 8, 0xB1000000#32, 1, 1, by decide +kernel⟩,
   ⟨tRing [], 9, 0xB1000000#32, 2, 0, by decide +kernel⟩,
   ⟨tRing [(LN_TEST 8, LN_TEST_run, 1), (LN_TEST 8, LN_TEST_mode, 3), (LN_PSTAT 1, LN_PSTAT_state, 4)], 8, 0#32, 1, 1,
       by decide +kernel⟩,
   ⟨tRing [(LN_TEST 8, LN_TEST_run, 1), (LN_TEST 8, LN_TEST_mode, 3)], 8, 0#32, 1, 1, by decide +kernel⟩,
   ⟨tRing [], 4, by decide +kernel⟩,
   ⟨tRing [(LN_TEST 9, LN_TEST_run, 1), (LN_TEST 9, LN_TEST_mode, 4)], 9, 2, 0, by decide +kernel⟩,
   ⟨tRing [], 9, by decide +kernel⟩,
   ⟨{ tRing [(LN_TEST 9, LN_TEST_run, 1), (LN_TEST 9, LN_TEST_mode, 3)] with ln := { (tRing []).ln with lastErr := [(9, 0)] } },
       9, 0, by decide +kernel⟩,
   ⟨tRing [], 3, by decide +kernel⟩,
   ⟨tPort 2 { PortSt.init with agree := some tAgree } [], 2, [], tAgree, by decide +kernel⟩,
   ⟨3, by decide +kernel⟩,
   ⟨3, by decide +kernel⟩,
   ⟨tIn .idle [], 4, 0x00050004#32, by decide +kernel⟩,
   ⟨tRing [(LN_TEST 8, LN_TEST_run, 1), (LN_TEST 8, LN_TEST_mode, 4)], 8, 1, 1, by decide +kernel⟩,
   ⟨tRing [(LN_TEST 9, LN_TEST_run, 1), (LN_TEST 9, LN_TEST_mode, 3)], 9, 0, by decide +kernel⟩,
   ⟨tPort 2 { PortSt.init with agree := some tAgree } [], 2, 1, tAgree, by decide +kernel⟩,
   ⟨tRing [], 2, by decide +kernel⟩⟩

/-- Witnesses for the hypotheses of `VaultServices`. -/
theorem witness_VaultServices :
    (∃ (s : State),
        s.serving 0x01 = true ∧ s.mbLen = 0)
    ∧ (∃ (s : State),
        s.serving 0x02 = true ∧ s.mbLen = 0)
    ∧ (∃ (s : State),
        s.serving 0x03 = true ∧ s.mbLen = 0)
    ∧ (∃ (s : State),
        s.userAsks 0x32 ∧ ((s.inIdle = true ∨ s.inRun = true)))
    ∧ (∃ (s : State),
        s.userAsks 0x32 ∧ s.inIdle = false ∧ s.inRun = false)
    ∧ (∃ (s : State),
        s.asks 0x11 96 ∧ (s.vt.lockout = true ∨ s.vt.user = none))
    ∧ (∃ (s : State),
        let op := ofLe (slice (s.mbReq 176) 4 2)
        s.asks 0x20 176 ∧ (op = 0 ∨ 8 < op))
    ∧ (∃ (s : State),
        let scope := (s.mbReq 177).getD 176 0
        s.asks 0x24 177 ∧ 2 < scope.toNat)
    ∧ (∃ (s : State),
        s.userAsks 0x30 ∧ (s.cal.inForce = none ∨ s.vt.sealKey = none))
    ∧ (∃ (s : State),
        s.asks 0x01 0)
    ∧ (∃ (s : State),
        s.asks 0x02 0)
    ∧ (∃ (s : State),
        s.asks 0x03 0)
    ∧ (∃ (s : State),
        s.asks 0x10 192 ∧ s.vt.owner = none)
    ∧ (∃ (s : State) (k : List Byte),
        s.asks 0x11 96 ∧ s.vt.lockout = false ∧ s.vt.user = some k)
    ∧ (∃ (s : State),
        s.userAsks 0x12)
    ∧ (∃ (s : State),
        let op := ofLe (slice (s.mbReq 176) 4 2)
        s.asks 0x20 176 ∧ 1 ≤ op ∧ op ≤ 8)
    ∧ (∃ (s : State),
        s.asks 0x22 272)
    ∧ (∃ (s : State),
        s.asks 0x23 176)
    ∧ (∃ (s : State),
        let scope := (s.mbReq 177).getD 176 0
        s.asks 0x24 177 ∧ scope.toNat ≤ 2)
    ∧ (∃ (s : State),
        s.asks 0x25 176)
    ∧ (∃ (s : State) (b : Bank) (k : List Byte),
        s.userAsks 0x30 ∧ s.cal.inForce = some b ∧ s.vt.sealKey = some k)
    ∧ (∃ (s : State),
        s.userAsks 0x31)
    ∧ (∃ (s : State),
        s.userAsks 0x33)
    ∧ (∃ (s : State),
        s.serving 0x20 = true ∧ s.vaultInError = false ∧ s.mbLen ≠ 176)
    ∧ (∃ (s : State),
        s.serving 0x20 = true ∧ s.vaultInError = true)
    ∧ (∃ (s : State),
        s.serving 0x31 = true ∧ s.vaultOk = true ∧ s.vt.session = false)
    ∧ (∃ (s : State),
        s.asks 0x10 192 ∧ s.vt.owner ≠ none)
    ∧ (∃ (s : State),
        s.asks 0x21 272 ∧ s.tokenOk (s.mbReq 176) 5 = false)
    ∧ (∃ (s : State),
        s.serving 0x01 = false)
    ∧ (∃ (s : State),
        s.flag Reg.MB_STAT Fld.MB_STAT_busy = false) :=
  ⟨⟨(tVault .idle 1 0 []).fput VT_STAT VT_STAT_state 3, by decide +kernel⟩,
   ⟨(tVault .idle 2 0 []).fput VT_STAT VT_STAT_state 3, by decide +kernel⟩,
   ⟨(tVault .idle 3 0 []).fput VT_STAT VT_STAT_state 3, by decide +kernel⟩,
   ⟨{ tVault .run 0x32 0 [] with vt := { (tVault .run 0x32 0 []).vt with session := true } },
       (by simp only [State.userAsks, State.asks]; decide +kernel)⟩,
   ⟨{ tVault .hold 0x32 0 [] with vt := { (tVault .hold 0x32 0 []).vt with session := true } },
       (by simp only [State.userAsks, State.asks]; decide +kernel)⟩,
   ⟨tVault .idle 0x11 96 [], (by simp only [State.asks]; decide +kernel)⟩,
   ⟨tVault .idle 0x20 176 [], (by simp only [State.asks]; decide +kernel)⟩,
   ⟨tVault .idle 0x24 177 [(44, 3)], (by simp only [State.asks]; decide +kernel)⟩,
   ⟨{ tVault .idle 0x30 0 [] with vt := { (tVault .idle 0x30 0 []).vt with session := true, sealKey := none } },
       (by simp only [State.userAsks, State.asks]; decide +kernel)⟩,
   ⟨tVault .idle 1 0 [], (by simp only [State.asks]; decide +kernel)⟩,
   ⟨tVault .idle 2 0 [], (by simp only [State.asks]; decide +kernel)⟩,
   ⟨tVault .idle 3 0 [], (by simp only [State.asks]; decide +kernel)⟩,
   ⟨tVault .idle 0x10 192 [], (by simp only [State.asks]; decide +kernel)⟩,
   ⟨{ tVault .idle 0x11 96 [] with vt := { (tVault .idle 0x11 96 []).vt with user := some [1] } }, [1],
       (by simp only [State.asks]; decide +kernel)⟩,
   ⟨{ tVault .idle 0x12 0 [] with vt := { (tVault .idle 0x12 0 []).vt with session := true } },
       (by simp only [State.userAsks, State.asks]; decide +kernel)⟩,
   ⟨tVault .idle 0x20 176 [(1, 8)], (by simp only [State.asks]; decide +kernel)⟩,
   ⟨tVault .idle 0x22 272 [], (by simp only [State.asks]; decide +kernel)⟩,
   ⟨tVault .idle 0x23 176 [], (by simp only [State.asks]; decide +kernel)⟩,
   ⟨tVault .idle 0x24 177 [(44, 2)], (by simp only [State.asks]; decide +kernel)⟩,
   ⟨tVault .idle 0x25 176 [], (by simp only [State.asks]; decide +kernel)⟩,
   ⟨{ tVault .idle 0x30 0 [] with vt := { (tVault .idle 0x30 0 []).vt with session := true, sealKey := some [1] } },
       { img := { ideal := true, words := [] }, epoch := 1, origin := false, time := 0 }, [1],
       (by simp only [State.userAsks, State.asks]; decide +kernel)⟩,
   ⟨{ tVault .idle 0x31 0 [] with vt := { (tVault .idle 0x31 0 []).vt with session := true } },
       (by simp only [State.userAsks, State.asks]; decide +kernel)⟩,
   ⟨{ tVault .idle 0x33 0 [] with vt := { (tVault .idle 0x33 0 []).vt with session := true } },
       (by simp only [State.userAsks, State.asks]; decide +kernel)⟩,
   ⟨tVault .idle 0x20 175 [], by decide +kernel⟩,
   ⟨(tVault .idle 0x20 176 []).fput VT_STAT VT_STAT_state 3, by decide +kernel⟩,
   ⟨tVault .idle 0x31 0 [], by decide +kernel⟩,
   ⟨{ tVault .idle 0x10 192 [] with vt := { (tVault .idle 0x10 192 []).vt with owner := some [1] } },
       (by simp only [State.asks]; decide +kernel)⟩,
   ⟨tVault .idle 0x21 272 [], (by simp only [State.asks]; decide +kernel)⟩,
   ⟨State.reset, by decide +kernel⟩,
   ⟨State.reset, by decide +kernel⟩⟩

/-- Witnesses for the hypotheses of `Microcode`. -/
theorem witness_Microcode :
    (∃ (s : State),
        let len := ofLe (slice (s.mbReq 192) 4 4)
        UcodeAsks s 1 192 ∧ (s.vt.ucode ≠ none ∨ len < 4096 ∨ 524288 < len ∨ len % 16 ≠ 0))
    ∧ (∃ (s : State),
        let n := ofLe (slice (s.mbReq 16) 8 4)
        UcodeAsks s 2 (16 + n) ∧ s.vt.ucode = none)
    ∧ (∃ (s : State) (x : UcodeSession),
        let n := ofLe (slice (s.mbReq 16) 8 4)
        let r := s.mbReq s.mbLen
        let body := x.image.length
        UcodeAsks s 2 (16 + n) ∧ s.vt.ucode = some x ∧ (ofLe (slice r 4 4) ≠ body ∨ ofLe (slice r 8 4) < 16 ∨ 28656 < ofLe
            (slice r 8 4) ∨ ofLe (slice r 8 4) % 16 ≠ 0 ∨ x.length < ofLe (slice r 4 4) + ofLe (slice r 8 4)))
    ∧ (∃ (s : State) (x : UcodeSession),
        let body := x.image.length
        UcodeAsks s 3 16 ∧ s.vt.ucode = some x ∧ body ≠ x.length)
    ∧ (∃ (s : State) (x : UcodeSession),
        let body := x.image.length
        UcodeAsks s 3 16 ∧ s.vt.ucode = some x ∧ body = x.length ∧ sha384 x.image ≠ x.digest)
    ∧ (∃ (s : State) (x : UcodeSession) (load : Byte),
        let body := x.image.length
        UcodeAsks s 3 16 ∧ s.vt.ucode = some x ∧ body = x.length ∧ sha384 x.image = x.digest ∧ load ≠ 0)
    ∧ (∃ (s : State),
        s.serving 0x26 = true ∧ s.vaultInError = false ∧ s.inIdle = false)
    ∧ (∃ (s : State),
        s.serving 0x26 = true ∧ s.vaultInError = true)
    ∧ (∃ (s : State),
        s.serving 0x26 = false)
    ∧ (∃ (s : State),
        let len := ofLe (slice (s.mbReq 192) 4 4)
        UcodeAsks s 1 192 ∧ s.vt.ucode = none ∧ 4096 ≤ len ∧ len ≤ 524288 ∧ len % 16 = 0)
    ∧ (∃ (s : State) (x : UcodeSession),
        let n := ofLe (slice (s.mbReq 16) 8 4)
        let r := s.mbReq s.mbLen
        let body := x.image.length
        UcodeAsks s 2 (16 + n) ∧ s.vt.ucode = some x ∧ ofLe (slice r 4 4) = body ∧ ofLe (slice r 8 4) = n ∧ 16 ≤ n ∧ n ≤ 28656 ∧
            n % 16 = 0 ∧ body + n ≤ x.length)
    ∧ (∃ (s : State),
        UcodeAsks s 3 16 ∧ s.vt.ucode = none) :=
  ⟨⟨tVault .idle 0x26 192 [(0, 1), (1, 4095)], (by simp only [ucodeAsks_iff]; decide +kernel)⟩,
   ⟨tVault .idle 0x26 32 [(0, 2), (1, 0), (2, 16)], (by simp only [ucodeAsks_iff]; decide +kernel)⟩,
   ⟨{ tVault .idle 0x26 32 [(0, 2), (1, 16), (2, 16)] with vt := { (tVault .idle 0x26 32 [(0, 2), (1, 16), (2, 16)]).vt with ucode := some { length := 4096, digest := [], image := [] } } },
       { length := 4096, digest := [], image := [] }, (by simp only [ucodeAsks_iff]; decide +kernel)⟩,
   ⟨{ tVault .idle 0x26 16 [(0, 3)] with vt := { (tVault .idle 0x26 16 [(0, 3)]).vt with ucode := some { length := 4096, digest := [], image := [] } } },
       { length := 4096, digest := [], image := [] }, (by simp only [ucodeAsks_iff]; decide +kernel)⟩,
   ⟨{ tVault .idle 0x26 16 [(0, 3)] with vt := { (tVault .idle 0x26 16 [(0, 3)]).vt with ucode := some { length := 0, digest := [], image := [] } } },
       { length := 0, digest := [], image := [] }, (by simp only [ucodeAsks_iff]; decide +kernel)⟩,
   ⟨{ tVault .idle 0x26 16 [(0, 3)] with vt := { (tVault .idle 0x26 16 [(0, 3)]).vt with ucode := some { length := 0, digest := sha384 [], image := [] } } },
       { length := 0, digest := sha384 [], image := [] }, 7, (by simp only [ucodeAsks_iff]; decide +kernel)⟩,
   ⟨tVault .run 0x26 16 [], by decide +kernel⟩,
   ⟨(tVault .idle 0x26 16 []).fput VT_STAT VT_STAT_state 3, by decide +kernel⟩,
   ⟨State.reset, by decide +kernel⟩,
   ⟨tVault .idle 0x26 192 [(0, 1), (1, 524288)], (by simp only [ucodeAsks_iff]; decide +kernel)⟩,
   ⟨{ tVault .idle 0x26 32 [(0, 2), (1, 0), (2, 16)] with vt := { (tVault .idle 0x26 32 [(0, 2), (1, 0), (2, 16)]).vt with ucode := some { length := 4096, digest := [], image := [] } } },
       { length := 4096, digest := [], image := [] }, (by simp only [ucodeAsks_iff]; decide +kernel)⟩,
   ⟨tVault .idle 0x26 16 [(0, 3)], (by simp only [ucodeAsks_iff]; decide +kernel)⟩⟩

/-- Witnesses for the hypotheses of `VaultWatch`. -/
theorem witness_VaultWatch :
    (∃ (s : State),
        s.alive = false)
    ∧ (∃ (s : State),
        s.pw.power = .off)
    ∧ (∃ (s : State) (x : TamperIn),
        let bits := x.bits
        bits ≠ 0 ∧ s.pw.power = .fallow)
    ∧ (∃ (s : State),
        s.vt.memberReq ≠ none)
    ∧ (∃ (s : State),
        s.vt.memberReq = none)
    ∧ (∃ (x : TamperIn),
        let bits := x.bits
        bits = 0)
    ∧ (∃ (s : State) (x : TamperIn),
        let bits := x.bits
        bits ≠ 0 ∧ s.alive = true) :=
  ⟨⟨tIn .fallow [], by decide +kernel⟩,
   ⟨tIn .off [], by decide +kernel⟩,
   ⟨tIn .fallow [], { bits := 8, seconds := 5 }, by decide +kernel⟩,
   ⟨{ State.reset with vt := { State.reset.vt with memberReq := some 47 } }, by decide +kernel⟩,
   ⟨State.reset, by decide +kernel⟩,
   ⟨{ bits := 0, seconds := 5 }, by decide +kernel⟩,
   ⟨tIn .run [], { bits := 1, seconds := 5 }, by decide +kernel⟩⟩

/-- Witnesses for the hypotheses of `TamperLog`. -/
theorem witness_TamperLog :
    (∃ (s : State) (x : TamperIn),
        x.bits ≠ 0 ∧ s.pw.power = .fallow)
    ∧ (∃ (s : State) (x : TamperIn),
        x.bits ≠ 0 ∧ s.alive = true)
    ∧ (∃ (s : State) (x : TamperIn),
        x.bits ≠ 0 ∧ s.asks 0x25 176) :=
  ⟨⟨tIn .fallow [], { bits := 8, seconds := 5 }, by decide +kernel⟩,
   ⟨tIn .run [], { bits := 1, seconds := 5 }, by decide +kernel⟩,
   ⟨tVault .idle 0x25 176 [], { bits := 1, seconds := 5 }, (by simp only [State.asks]; decide +kernel)⟩⟩

/-- Witnesses for the hypotheses of `RunControl`. -/
theorem witness_RunControl :
    (∃ (s : State),
        s.pw.inReset = false ∧ s.idleOpen = true)
    ∧ (∃ (s : State),
        s.pw.inReset = false ∧ s.inIdle = true ∧ s.pw.checking = true)
    ∧ (∃ (s : State),
        s.pw.inReset = true ∨ (s.inIdle = false ∧ s.pw.power ≠ .hold))
    ∧ (∃ (s : State),
        s.pw.inReset = false ∧ s.pw.power = .hold)
    ∧ (∃ (s : State) (v : RingView) (hp : RingParams),
        let cs := orderConds (s.checkConds v)
        s.inIdle = true ∧ s.pw.checking = true ∧ refusalOf cs = none ∧ s.headRuns = some hp)
    ∧ (∃ (s : State) (v : RingView),
        let cs := orderConds (s.checkConds v)
        s.inIdle = true ∧ s.pw.checking = true ∧ refusalOf cs = none ∧ s.pw.headSel = false ∧ s.headRuns = none)
    ∧ (∃ (s : State),
        s.pw.checking = false)
    ∧ (∃ (s : State),
        s.inRun = true ∧ s.pw.lastTick ≠ none)
    ∧ (∃ (s : State),
        let t := s.now + slotU - (s.fr.epoch : Int) * secU
        let n := ((t + s.periodU - 1) / s.periodU).toNat
        s.inRun = true ∧ s.pw.lastTick = none ∧ n ≤ s.fr.tickS)
    ∧ (∃ (s : State) (v : RingView) (r : Nat × Nat × Nat),
        let cs := orderConds (s.checkConds v)
        s.inIdle = true ∧ s.pw.checking = true ∧ refusalOf cs = some r)
    ∧ (∃ (s : State) (v : RingView),
        let cs := orderConds (s.checkConds v)
        s.inIdle = true ∧ s.pw.checking = true ∧ refusalOf cs = none ∧ s.pw.headSel = false ∧ s.pw.headParams = none)
    ∧ (∃ (s : State) (v : RingView),
        let cs := orderConds (s.checkConds v)
        s.inIdle = true ∧ s.pw.checking = true ∧ refusalOf cs = none ∧ s.pw.headSel = true)
    ∧ (∃ (s : State),
        s.inIdle = false)
    ∧ (∃ (s : State),
        s.inRun = false)
    ∧ (∃ (s : State),
        let t := s.now + slotU - (s.fr.epoch : Int) * secU
        let n := ((t + s.periodU - 1) / s.periodU).toNat
        s.inRun = true ∧ s.pw.lastTick = none ∧ s.pw.waiting = false ∧ s.fr.tickS < n)
    ∧ (∃ (s : State),
        s.inRun = true ∧ s.pw.lastTick = none ∧ s.pw.waiting = true) :=
  ⟨⟨tIn .idle [], by decide +kernel⟩,
   ⟨tReady true, by decide +kernel⟩,
   ⟨State.reset, by decide +kernel⟩,
   ⟨tIn .hold [], by decide +kernel⟩,
   ⟨{ tReady false with pw := { (tReady false).pw with headParams := some (tParams 160) } }, tView, tParams 160,
       by decide +kernel⟩,
   ⟨tReady false, tView, by decide +kernel, by decide +kernel, tReady_member, by decide +kernel, by decide +kernel⟩,
   ⟨tIn .idle [], by decide +kernel⟩,
   ⟨{ tIn .run [] with pw := { (tIn .run []).pw with lastTick := some 9 } }, by decide +kernel⟩,
   ⟨{ tIn .run [] with fr := { (tIn .run []).fr with tickS := 9 } }, by decide +kernel⟩,
   ⟨(tReady true).fput HI_CTL HI_CTL_en 0, tView, (15, 2, 0xFFFF), by decide +kernel⟩,
   ⟨tReady false, tView, by decide +kernel, by decide +kernel, tReady_member, by decide +kernel, by decide +kernel⟩,
   ⟨tReady true, tView, by decide +kernel⟩,
   ⟨State.reset, by decide +kernel⟩,
   ⟨State.reset, by decide +kernel⟩,
   ⟨tIn .run [], by decide +kernel⟩,
   ⟨{ tIn .run [] with pw := { (tIn .run []).pw with waiting := true } }, by decide +kernel⟩⟩

/-- Witnesses for the hypotheses of `FramePeriod`. -/
theorem witness_FramePeriod :
    ∃ (s : State),
        ((s.m = 0 ∨ 16000 < s.m)) ∧ s.inIdle = true ∧ s.pw.checking = true :=
  ⟨(tReady true).fput FR_PERIOD FR_PERIOD_period 16001, by decide +kernel⟩

/-- Witnesses for the hypotheses of `EnterRun`. -/
theorem witness_EnterRun :
    (∃ (s : State) (v : RingView),
        let ready := s.inIdle = true ∧ s.pw.checking = true ∧ refusalOf (orderConds (s.checkConds v)) = none
        ready ∧ s.pw.headSel = true)
    ∧ (∃ (s : State) (v : RingView),
        let ready := s.inIdle = true ∧ s.pw.checking = true ∧ refusalOf (orderConds (s.checkConds v)) = none
        ready ∧ s.pw.headSel = false ∧ s.pw.headParams = none ∧ s.isTwin = false) :=
  ⟨⟨tReady true, tView, by decide +kernel⟩,
   ⟨tReady false, tView, by decide +kernel⟩⟩

/-- Witnesses for the hypotheses of `TwinComparison`. -/
theorem witness_TwinComparison :
    (∃ (s : State) (a : TwinFrameIn) (b : TwinFrameIn),
        let told := s.modTwin (fun t => { t with theirs := some b, activeSafe := t.activeSafe || b.cause != 0 })
        let hears := s.isTwin = true ∧ s.inRun = true ∧ s.role ≠ 5
        let on := hears ∧ b.leaving = false ∧ s.sv.twin.mine = some a ∧ s.sv.twin.compared = false ∧ s.sv.twin.held = false
        on ∧ a.frame = b.frame ∧ told.twinDiff a b = none)
    ∧ (∃ (s : State) (a : TwinFrameIn) (b : TwinFrameIn) (o : Nat) (c : Nat),
        let told := s.modTwin (fun t => { t with theirs := some b, activeSafe := t.activeSafe || b.cause != 0 })
        let hears := s.isTwin = true ∧ s.inRun = true ∧ s.role ≠ 5
        let on := hears ∧ b.leaving = false ∧ s.sv.twin.mine = some a ∧ s.sv.twin.compared = false ∧ s.sv.twin.held = false
        on ∧ a.frame = b.frame ∧ told.twinDiff a b = some (o, c))
    ∧ (∃ (s : State) (a : TwinFrameIn) (b : TwinFrameIn),
        let hears := s.isTwin = true ∧ s.inRun = true ∧ s.role ≠ 5
        let on := hears ∧ b.leaving = false ∧ s.sv.twin.mine = some a ∧ s.sv.twin.compared = false ∧ s.sv.twin.held = false
        on ∧ a.frame ≠ b.frame)
    ∧ (∃ (s : State),
        s.isTwin = false)
    ∧ (∃ (s : State),
        s.inRun = false ∨ s.role = 5)
    ∧ (∃ (s : State) (b : TwinFrameIn),
        let hears := s.isTwin = true ∧ s.inRun = true ∧ s.role ≠ 5
        hears ∧ b.leaving = false ∧ (s.sv.twin.mine = none ∨ s.sv.twin.compared = true ∨ s.sv.twin.held = true))
    ∧ (∃ (s : State) (b : TwinFrameIn),
        let hears := s.isTwin = true ∧ s.inRun = true ∧ s.role ≠ 5
        hears ∧ b.leaving = true ∧ s.role ≠ 1)
    ∧ (∃ (s : State) (b : TwinFrameIn),
        let hears := s.isTwin = true ∧ s.inRun = true ∧ s.role ≠ 5
        hears ∧ b.leaving = true ∧ s.role = 1)
    ∧ (∃ (s : State),
        s.inRun = false ∨ s.sv.twin.compared = true ∨ s.sv.twin.held = true)
    ∧ (∃ (s : State) (a : TwinFrameIn),
        s.sv.twin.mine = some a ∧ s.twinRuns a.frame.toNat = false)
    ∧ (∃ (s : State) (n : Nat) (frame : Word64),
        s.sv.twin.mismatchFrame = some n ∧ frame.toNat ≠ n ∧ frame.toNat ≠ n + 1)
    ∧ (∃ (s : State) (n : Nat),
        s.sv.twin.mismatchFrame = some n ∧ (s.inRun = false ∨ (s.role ≠ 1 ∧ s.role ≠ 2)))
    ∧ (∃ (s : State) (n : Nat),
        let mine := s.sv.twin.myReport.getD (s.twinFault n false)
        let theirs := s.sv.twin.theirReport.getD true
        let pair := s.inRun = true ∧ (s.role = 1 ∨ s.role = 2) ∧ s.sv.twin.mismatchFrame = some n
        pair ∧ mine = false ∧ theirs = true ∧ s.role = 1)
    ∧ (∃ (s : State) (a : TwinFrameIn),
        s.inRun = true ∧ s.sv.twin.mine = some a ∧ s.sv.twin.compared = false ∧ s.sv.twin.held = false ∧ s.twinRuns
            a.frame.toNat = true)
    ∧ (∃ (s : State),
        s.sv.twin.mine = none)
    ∧ (∃ (s : State) (n : Nat) (frame : Word64),
        s.sv.twin.mismatchFrame = some n ∧ (frame.toNat = n ∨ frame.toNat = n + 1))
    ∧ (∃ (s : State),
        s.sv.twin.mismatchFrame = none)
    ∧ (∃ (s : State) (n : Nat),
        let mine := s.sv.twin.myReport.getD (s.twinFault n false)
        let theirs := s.sv.twin.theirReport.getD true
        let pair := s.inRun = true ∧ (s.role = 1 ∨ s.role = 2) ∧ s.sv.twin.mismatchFrame = some n
        pair ∧ mine = theirs)
    ∧ (∃ (s : State) (n : Nat),
        let mine := s.sv.twin.myReport.getD (s.twinFault n false)
        let theirs := s.sv.twin.theirReport.getD true
        let pair := s.inRun = true ∧ (s.role = 1 ∨ s.role = 2) ∧ s.sv.twin.mismatchFrame = some n
        pair ∧ mine = true ∧ theirs = false)
    ∧ (∃ (s : State) (n : Nat),
        let mine := s.sv.twin.myReport.getD (s.twinFault n false)
        let theirs := s.sv.twin.theirReport.getD true
        let pair := s.inRun = true ∧ (s.role = 1 ∨ s.role = 2) ∧ s.sv.twin.mismatchFrame = some n
        pair ∧ mine = false ∧ theirs = true ∧ s.role = 2)
    ∧ (∃ (s : State),
        s.inRun = true ∧ ((s.role = 1 ∨ s.role = 2)) ∧ s.sv.twin.gap ≠ none)
    ∧ (∃ (s : State),
        s.sv.twin.gap = none) :=
  ⟨⟨tTwin 1 (fun t => { t with mine := some (tFrame 5 0) }) [], tFrame 5 0, tFrame 5 0, by decide +kernel⟩,
   ⟨tTwin 1 (fun t => { t with mine := some ({ tFrame 5 0 with inputs := [{ input := 255, value := 0, status := 1 }] }) }) [],
       { tFrame 5 0 with inputs := [{ input := 255, value := 0, status := 1 }] }, tFrame 5 0, 255, 1, by decide +kernel⟩,
   ⟨tTwin 1 (fun t => { t with mine := some (tFrame 5 0) }) [], tFrame 5 0, { tFrame 6 0 with cause := 4 }, by decide +kernel⟩,
   ⟨State.reset, by decide +kernel⟩,
   ⟨State.reset, by decide +kernel⟩,
   ⟨tTwin 4 id [], tFrame 6 0, by decide +kernel⟩,
   ⟨tTwin 2 id [], { tFrame 6 0 with leaving := true }, by decide +kernel⟩,
   ⟨tTwin 1 id [], { tFrame 6 0 with leaving := true }, by decide +kernel⟩,
   ⟨State.reset, by decide +kernel⟩,
   ⟨tTwin 1 (fun t => { t with mine := some (tFrame 5 0) }) [], tFrame 5 0, by decide +kernel⟩,
   ⟨tTwin 2 (fun t => { t with mismatchFrame := some 5 }) [], 5, 7, by decide +kernel⟩,
   ⟨tTwin 4 (fun t => { t with mismatchFrame := some 5 }) [], 5, by decide +kernel⟩,
   ⟨tTwin 1 (fun t => { t with mismatchFrame := some 5, myReport := some false, theirReport := some true }) [], 5,
       by decide +kernel⟩,
   ⟨tTwin 2 (fun t => { t with mine := some (tFrame 5 0) }) [], tFrame 5 0, by decide +kernel⟩,
   ⟨State.reset, by decide +kernel⟩,
   ⟨tTwin 2 (fun t => { t with mismatchFrame := some 5 }) [], 5, 6, by decide +kernel⟩,
   ⟨State.reset, by decide +kernel⟩,
   ⟨tTwin 2 (fun t => { t with mismatchFrame := some 5, myReport := some true, theirReport := some true }) [], 5,
       by decide +kernel⟩,
   ⟨tTwin 2 (fun t => { t with mismatchFrame := some 5, myReport := some true, theirReport := some false }) [], 5,
       by decide +kernel⟩,
   ⟨tTwin 2 (fun t => { t with mismatchFrame := some 5, myReport := some false, theirReport := some true }) [], 5,
       by decide +kernel⟩,
   ⟨tTwin 2 (fun t => { t with gap := some 5 }) [], by decide +kernel⟩,
   ⟨State.reset, by decide +kernel⟩⟩

/-- Witnesses for the hypotheses of `TwinFailoverAndRejoin`. -/
theorem witness_TwinFailoverAndRejoin :
    (∃ (s : State),
        s.alive = true ∧ s.sv.ilkO = true ∧ s.pw.twinPri = false ∧ s.now - s.sv.twin.claimAt ≤ 2000 * nsU)
    ∧ (∃ (s : State),
        s.alive = true ∧ s.inRun = true ∧ s.role = 2 ∧ s.sv.twin.held = false)
    ∧ (∃ (s : State),
        let active := s.isTwin = true ∧ s.inRun = true ∧ s.role = 1
        active ∧ s.sv.ilkI = false ∧ s.sv.ilkO = false ∧ s.sv.twin.failing = false)
    ∧ (∃ (s : State),
        let active := s.isTwin = true ∧ s.inRun = true ∧ s.role = 1
        active ∧ s.sv.ilkI = false ∧ s.sv.ilkO = false ∧ s.sv.twin.failing = true ∧ s.sv.twin.partnerFurrows = [] ∧
            s.sv.twin.partnerGone = false)
    ∧ (∃ (s : State),
        s.sv.ilkI = true)
    ∧ (∃ (s : State),
        let active := s.isTwin = true ∧ s.inRun = true ∧ s.role = 1
        ¬ active ∨ s.sv.ilkO = true)
    ∧ (∃ (s : State),
        s.alive = false)
    ∧ (∃ (s : State),
        s.alive = true ∧ (s.sv.ilkO = false ∨ s.pw.twinPri = true ∨ 2000 * nsU < s.now - s.sv.twin.claimAt))
    ∧ (∃ (s : State),
        s.alive = true ∧ (s.inRun = false ∨ s.role ≠ 2 ∨ s.sv.twin.held = true))
    ∧ (∃ (s : State),
        s.inRun = false ∨ (s.role ≠ 2 ∧ s.role ≠ 4))
    ∧ (∃ (s : State) (frame : Word64),
        s.inRun = true ∧ s.role = 4 ∧ s.sv.twin.activeSafe = true ∧ s.frameNo < frame.toNat)
    ∧ (∃ (s : State) (frame : Word64),
        s.inRun = false ∨ frame.toNat ≤ s.frameNo ∨ (s.role = 2 ∧ s.sv.safe = false) ∨ (s.role = 4 ∧ s.sv.twin.activeSafe =
            false) ∨ (s.role ≠ 2 ∧ s.role ≠ 4))
    ∧ (∃ (s : State) (snap : SnapshotIn),
        let epoch := (s.cal.inForce.map Bank.epoch).getD 0
        let takes := s.inRun = true ∧ s.role = 4 ∧ (snap.epoch = 0 ∨ epoch = snap.epoch)
        takes)
    ∧ (∃ (s : State),
        s.inRun = false ∨ s.role ≠ 4)
    ∧ (∃ (s : State),
        s.inRun = true ∧ s.role = 4 ∧ s.sv.twin.joinAt ≠ none)
    ∧ (∃ (s : State),
        let enough := s.fget Reg.SV_TWCFG Fld.SV_TWCFG_agree ≤ s.sv.twin.agreeRun ∧ s.sv.twin.joinAt ≠ none
        s.inRun = false ∨ ¬ enough ∨ (s.role ≠ 1 ∧ s.role ≠ 4))
    ∧ (∃ (s : State),
        s.role = 1 ∧ s.sv.twin.snapshotSent = false)
    ∧ (∃ (s : State),
        s.inRun = true ∧ ((s.role = 2 ∨ s.role = 4)))
    ∧ (∃ (s : State) (frame : Word64),
        s.inRun = true ∧ s.role = 2 ∧ s.sv.safe = true ∧ s.frameNo < frame.toNat)
    ∧ (∃ (s : State),
        let active := s.isTwin = true ∧ s.inRun = true ∧ s.role = 1
        ¬ active)
    ∧ (∃ (s : State) (snap : SnapshotIn),
        let epoch := (s.cal.inForce.map Bank.epoch).getD 0
        s.inRun = true ∧ s.role = 4 ∧ snap.epoch ≠ 0 ∧ epoch ≠ snap.epoch)
    ∧ (∃ (s : State) (snap : SnapshotIn),
        let epoch := (s.cal.inForce.map Bank.epoch).getD 0
        s.inRun = true ∧ s.role = 4 ∧ epoch = snap.epoch ∧ s.twinHash = snap.config ∧ snap.loops = [])
    ∧ (∃ (s : State),
        let enough := s.fget Reg.SV_TWCFG Fld.SV_TWCFG_agree ≤ s.sv.twin.agreeRun ∧ s.sv.twin.joinAt ≠ none
        s.inRun = true ∧ enough ∧ s.role = 4 ∧ s.rd Reg.SV_CAUSE = 2)
    ∧ (∃ (s : State),
        let enough := s.fget Reg.SV_TWCFG Fld.SV_TWCFG_agree ≤ s.sv.twin.agreeRun ∧ s.sv.twin.joinAt ≠ none
        s.inRun = true ∧ enough ∧ s.role = 1 ∧ s.sv.twin.snapshotSent = true)
    ∧ (∃ (s : State),
        s.inRun = true ∧ s.role = 4 ∧ s.sv.twin.joinAt = none) :=
  ⟨⟨{ State.reset with sv := { State.reset.sv with ilkO := true, twin := { State.reset.sv.twin with claimAt := -2000 * nsU } } },
      by decide +kernel⟩,
   ⟨tTwin 2 id [], by decide +kernel⟩,
   ⟨tTwin 1 id [], by decide +kernel⟩,
   ⟨tTwin 1 (fun t => { t with failing := true }) [], by decide +kernel⟩,
   ⟨{ State.reset with sv := { State.reset.sv with ilkI := true } }, by decide +kernel⟩,
   ⟨State.reset, by decide +kernel⟩,
   ⟨tIn .off [], by decide +kernel⟩,
   ⟨State.reset, by decide +kernel⟩,
   ⟨State.reset, by decide +kernel⟩,
   ⟨State.reset, by decide +kernel⟩,
   ⟨tTwin 4 (fun t => { t with activeSafe := true }) [], 1, by decide +kernel⟩,
   ⟨tTwin 1 id [], 1, by decide +kernel⟩,
   ⟨tTwin 4 id [], tSnap (tTwin 4 id []), by decide +kernel⟩,
   ⟨tTwin 2 id [], by decide +kernel⟩,
   ⟨tTwin 4 (fun t => { t with joinAt := some 1 }) [], by decide +kernel⟩,
   ⟨tTwin 4 id [], by decide +kernel⟩,
   ⟨tTwin 1 id [], by decide +kernel⟩,
   ⟨tTwin 4 id [], by decide +kernel⟩,
   ⟨{ tTwin 2 id [] with sv := { (tTwin 2 id []).sv with safe := true } }, 1, by decide +kernel⟩,
   ⟨State.reset, by decide +kernel⟩,
   ⟨tTwin 4 id [],
       { loops := [], queue := [], furrows := [], doorbell := 0, epoch := 2, config := [], start := 9, safe := false },
       by decide +kernel⟩,
   ⟨tTwin 4 id [], tSnap (tTwin 4 id []),
       by decide +kernel, by decide +kernel, by decide +kernel, tSnap_config _, by decide +kernel⟩,
   ⟨tTwin 4 (fun t => { t with agreeRun := 3, joinAt := some 1 }) [(SV_TWCFG, SV_TWCFG_agree, 3), (SV_CAUSE, ⟨1, 1⟩, 1)],
       by decide +kernel⟩,
   ⟨tTwin 1 (fun t => { t with agreeRun := 3, joinAt := some 1, snapshotSent := true }) [(SV_TWCFG, SV_TWCFG_agree, 3)],
       by decide +kernel⟩,
   ⟨tTwin 4 id [], by decide +kernel⟩⟩

/-- Witnesses for the hypotheses of `PowerStates`. -/
theorem witness_PowerStates :
    (∃ (s : State),
        (s.pw.power = .off ∨ s.pw.power = .fallow))
    ∧ (∃ (s : State),
        s.pw.power ≠ .fallow ∨ s.pw.fallowValid = false)
    ∧ (∃ (s : State),
        s.alive = false)
    ∧ (∃ (s : State),
        s.pw.power ≠ .fallow)
    ∧ (∃ (s : State),
        s.idleOpen = false)
    ∧ (∃ (s : State),
        s.pw.power ≠ .hold)
    ∧ (∃ (s : State),
        s.pw.power = .off ∧ s.vt.ucodeStored = s.vt.ucodeActive)
    ∧ (∃ (s : State),
        s.alive = true)
    ∧ (∃ (s : State),
        s.pw.power = .fallow ∧ s.pw.fallowValid = true ∧ s.vt.ucodeStored = s.vt.ucodeActive)
    ∧ (∃ (s : State),
        s.idleOpen = true)
    ∧ (∃ (s : State),
        s.inRun = true)
    ∧ (∃ (s : State),
        s.pw.power = .hold) :=
  ⟨⟨tIn .off [], by decide +kernel⟩,
   ⟨tIn .fallow [], by decide +kernel⟩,
   ⟨tIn .off [], by decide +kernel⟩,
   ⟨tIn .idle [], by decide +kernel⟩,
   ⟨tIn .hold [], by decide +kernel⟩,
   ⟨tIn .idle [], by decide +kernel⟩,
   ⟨tIn .off [], by decide +kernel⟩,
   ⟨State.reset, by decide +kernel⟩,
   ⟨{ tIn .fallow [] with pw := { (tIn .fallow []).pw with fallowValid := true } }, by decide +kernel⟩,
   ⟨tIn .idle [], by decide +kernel⟩,
   ⟨tIn .run [], by decide +kernel⟩,
   ⟨tIn .hold [], by decide +kernel⟩⟩

/-- Witnesses for the hypotheses of `Resets`. -/
theorem witness_Resets :
    (∃ (s : State),
        s.pw.power = .startUp ∧ s.pw.inReset = false ∧ ((s.fe.trimA = true → s.dieLink 0 = false)) ∧ ((s.fe.trimB = true →
            s.dieLink 1 = false)))
    ∧ (∃ (s : State),
        s.pw.power ≠ .startUp)
    ∧ (∃ (s : State),
        s.pw.inReset = true ∨ (s.fe.trimA = true ∧ s.dieLink 0 = true) ∨ (s.fe.trimB = true ∧ s.dieLink 1 = true))
    ∧ (∃ (s : State),
        s.alive = false)
    ∧ (∃ (s : State),
        s.alive = true ∧ s.pw.headSel = true ∧ s.pw.inReset = true)
    ∧ (∃ (s : State),
        s.pw.headSel = true ∧ (s.inIdle = true ∨ s.inRun = true ∨ s.pw.power = .hold) ∧ s.pw.inReset = false ∧ s.pw.perst =
            false)
    ∧ (∃ (s : State),
        s.pw.headSel = false ∨ s.pw.inReset = true ∨ s.pw.power = .startUp ∨ s.pw.perst = true)
    ∧ (∃ (s : State),
        s.pw.headSel = false ∨ s.pw.inReset = true ∨ s.pw.perst = true)
    ∧ (∃ (s : State),
        s.alive = true ∧ s.pw.inReset = true ∧ s.vt.ucodeStored = s.vt.ucodeActive)
    ∧ (∃ (s : State),
        s.pw.headSel = false)
    ∧ (∃ (s : State),
        s.pw.headSel = true ∧ s.pw.power = .startUp ∧ s.pw.inReset = false)
    ∧ (∃ (s : State),
        s.pw.headSel = true ∧ s.inIdle = true ∧ s.pw.inReset = false ∧ s.pw.perst = false)
    ∧ (∃ (s : State),
        s.pw.headSel = true ∧ s.alive = true ∧ s.pw.inReset = false ∧ s.pw.perst = false) :=
  ⟨⟨{ tIn .startUp [(FE_STAT, FE_STAT_b_link, 1)] with fe := { State.reset.fe with trimB := false } }, by decide +kernel⟩,
   ⟨tIn .idle [], by decide +kernel⟩,
   ⟨tIn .startUp [(FE_STAT, FE_STAT_a_link, 1)], by decide +kernel⟩,
   ⟨tIn .off [], by decide +kernel⟩,
   ⟨{ tIn .idle [] with pw := { (tIn .idle []).pw with inReset := true } }, by decide +kernel⟩,
   ⟨tIn .run [], by decide +kernel⟩,
   ⟨State.reset, by decide +kernel⟩,
   ⟨tMember .idle [], by decide +kernel⟩,
   ⟨{ tIn .idle [] with pw := { (tIn .idle []).pw with inReset := true } }, by decide +kernel⟩,
   ⟨tMember .idle [], by decide +kernel⟩,
   ⟨State.reset, by decide +kernel⟩,
   ⟨tIn .idle [], by decide +kernel⟩,
   ⟨State.reset, by decide +kernel⟩⟩

/-- Witnesses for the hypotheses of `StepRunsFrontCommand`. -/
theorem witness_StepRunsFrontCommand :
    (∃ (s : State) (c : Instr) (rest : List Instr),
        s.pending = c :: rest)
    ∧ (∃ (s : State),
        s.pending = [] ∧ s.alive = true)
    ∧ (∃ (s : State),
        s.pending = [] ∧ s.alive = false) :=
  ⟨⟨{ State.reset with pending := [.retrim, .rejoin] }, .retrim, [.rejoin], by decide +kernel⟩,
   ⟨State.reset, by decide +kernel⟩,
   ⟨tIn .off [], by decide +kernel⟩⟩

/-- Witnesses for the hypotheses of `ResetState`. -/
theorem witness_ResetState :
    ∃ (a : _),
        a ≠ Reg.GLB_RSTCAUSE :=
  ⟨4, by decide +kernel⟩

/-- Witnesses for the hypotheses of the second part of `FramePeriod`, at both ends of the range. -/
theorem witness_FramePeriod_range :
    (∃ (s : State) (v : RingView), s.m = 1 ∧ (s.checkConds v).any (fun c => c.cls == 2 && c.det == 1) = true)
    ∧ (∃ (s : State) (v : RingView), s.m = 16000 ∧ (s.checkConds v).any (fun c => c.cls == 2 && c.det == 1) = true) :=
  ⟨⟨tSet [(FR_PERIOD, FR_PERIOD_period, 1)] State.reset, tView, by decide +kernel⟩,
   ⟨tSet [(FR_PERIOD, FR_PERIOD_period, 16000)] State.reset, tView, by decide +kernel⟩⟩

/-- A hub in Run, out of safe state, that drives its first output enable. -/
def tDriven : State := { tIn .run [(SV_CTL, SV_CTL_oen_en, 1)] with sv := { State.reset.sv with safe := false, oen := 1 } }

/-- Witnesses for the hypotheses of `OutputEnables`: a step outside Run, one in safe state, one with an enable high after it. -/
theorem witness_OutputEnables :
    (∃ s t : State, s.oenOk ∧ step s = .next t ∧ t.inRun = false)
    ∧ (∃ s t : State, s.oenOk ∧ step s = .next t ∧ t.sv.safe = true)
    ∧ (∃ s t : State, s.oenOk ∧ step s = .next t ∧ t.isTwin = true ∧ t.sv.ilkO = false)
    ∧ (∃ s t : State, s.oenOk ∧ step s = .next t ∧ t.sv.oen.getLsbD 0 = true) :=
  ⟨⟨State.reset, { State.reset with tb := { State.reset.tb with cnt := 1 } }, by unfold State.oenOk; decide +kernel, rfl, by decide⟩,
   ⟨{ tIn .run [] with sv := { State.reset.sv with safe := true } }
     , { tIn .run [] with sv := { State.reset.sv with safe := true }, tb := { State.reset.tb with cnt := 1 } }
     , by unfold State.oenOk; decide +kernel, rfl, by decide⟩,
   ⟨tTwin 2 id [], { tTwin 2 id [] with tb := { State.reset.tb with cnt := 1 } }, by unfold State.oenOk; decide +kernel, rfl
     , by decide +kernel, by decide⟩,
   ⟨tDriven, { tDriven with tb := { State.reset.tb with cnt := 1 } }, by unfold State.oenOk; decide +kernel, rfl, by decide⟩⟩

/-! ## Well-formedness refuses -/

def tTick : TickIn := { words := [], cycles := [0, 0, 0, 0, 0, 0], reduced := 0, vectorsFail := false, ecc := [] }
def tWords (n : BitVec 8) : InWords := { input := n, words := [], beyondRail := false }
def tBadPtp : PtpTime := { sec := 0, ns := 1000000000, frac := 0 }
def tTime (prev last : PtpTime) : TimeCellIn :=
  { prevTx := prev, lastRx := last, stepTick := 0, stepDelta := 0, stepFlag := false, holdover := false, chk := { line := true, tag := true } }

/-- Accesses: an access that R6 forbids is no register write, one that it allows is not malformed, and the words of multi-word
values are told apart (R8). -/
theorem test_wf_refuses_access :
    (Instr.registerWrite .setup 0x2002#20 ⟨0, none⟩).wf = false ∧ (Instr.malformedAccess true 0x2000#20 4).wf = false
    ∧ (Instr.malformedAccess true 0x2000#20 8).wf = false ∧ (Instr.malformedAccess true 0x2004#20 8).wf = true
    ∧ (Instr.lowWordReadLatch ⟨0x2008#20, false⟩).wf = false ∧ (Instr.lowWordReadLatch ⟨0x2004#20, false⟩).wf = true
    ∧ (Instr.upperWordWriteStage 0x2004#20 0).wf = false ∧ (Instr.upperWordWriteStage 0x2008#20 0).wf = true
    ∧ (Instr.lowWordWriteCommit 0x2008#20 ⟨0, none⟩).wf = false ∧ (Instr.setupRequest true 2#20 ⟨0, none⟩ 0).wf = false
    ∧ (Instr.inConfigWrite 0 5 0).wf = false ∧ (Instr.lnTestWrite 10 0).wf = false := by decide

/-- What the frame brings: six step times, an input once, three reset words at most, 128 figures of a trim, 253 words of a tap. -/
theorem test_wf_refuses_frame :
    (Instr.tick { tTick with cycles := [] }).wf = false ∧ (Instr.tick { tTick with words := [tWords 1, tWords 1] }).wf = false
    ∧ (Instr.tick { tTick with words := [tWords 1, tWords 2] }).wf = true ∧ (Instr.modOverload 0 0 3 true).wf = false
    ∧ (Instr.trimComplete .a []).wf = false ∧ (Instr.fastTapSample 0 0 []).wf = false
    ∧ (Instr.outputReadbackCheck 24 ⟨0, 0⟩ false).wf = false ∧ (Instr.outputReadbackCheck 23 ⟨0, 0⟩ false).wf = true
    ∧ (Instr.permissiveLost 5).wf = false ∧ (Instr.tamperDetect ⟨0, 0⟩).wf = false := by decide

/-- Times name a nanosecond of their second. -/
theorem test_wf_refuses_times :
    (Instr.ptpSync { hdr := tHdr, rx := tStamp, origin := tBadPtp, corr := 0, logInt := 0 }).wf = false
    ∧ (Instr.ptpDelayResp { hdr := tHdr, t4 := tBadPtp } 0 0).wf = false ∧ (Instr.timeCellSend 3 tStamp).wf = false
    ∧ (Instr.timeCell 0 tStamp (tTime tBadPtp tPtp)).wf = false ∧ (Instr.timeCell 0 tStamp (tTime tPtp tBadPtp)).wf = false
    ∧ (Instr.timeCell 3 tStamp (tTime tPtp tPtp)).wf = false ∧ (Instr.timeCell 2 tStamp (tTime tPtp tPtp)).wf = true
    ∧ (Instr.drillMessage 48 0 0 tPtp tPtp).wf = false ∧ (Instr.drillMessage 47 0 0 tBadPtp tPtp).wf = false
    ∧ (Instr.drillMessage 47 0 0 tPtp tBadPtp).wf = false ∧ (Instr.drillMessage 47 0 0 tPtp tPtp).wf = true := by decide

/-- Ports are three, lanes 4 to 9, hubs 0 to 47, members 1 to 47. -/
theorem test_wf_refuses_link :
    (Instr.laneDown 3 0).wf = false ∧ (Instr.laneDown 10 0).wf = false ∧ (Instr.laneDown 4 3).wf = false
    ∧ (Instr.laneRetrain 10 none).wf = false ∧ (Instr.portTraining 3).wf = false
    ∧ (Instr.portDown 3).wf = false ∧ (Instr.linkControlSend 3).wf = false
    ∧ (Instr.linkControlCell 3 tCtl { line := true, tag := true }).wf = false
    ∧ (Instr.sequencedCell 3 (tCell []) 0).wf = false ∧ (Instr.replayTimeout 3).wf = false
    ∧ (Instr.laneRetryHigh 3).wf = false ∧ (Instr.delineationFound { port := 3, good := [], far := false }).wf = false ∧ (Instr.delineationLost { port := 3, good := [], far := false }).wf = false
    ∧ (Instr.eyeSweep 3 0 0).wf = false ∧ (Instr.lnTestInject 3).wf = false ∧ (Instr.prbsError 3 0 0 true).wf = false
    ∧ (Instr.keyAgreementOffer 3 []).wf = false ∧ (Instr.keyAgreementConfirm 3 ⟨[], 0⟩).wf = false
    ∧ (Instr.keyAgreementTimeout 3).wf = false ∧ (Instr.helloTimeout 3).wf = false
    ∧ (Instr.pcieLinkTrained 3 ⟨1, []⟩).wf = false ∧ (Instr.pcieLinkTrained 4 ⟨4, []⟩).wf = false := by decide

theorem test_wf_refuses_ring :
    (Instr.census [] 2).wf = false ∧ (Instr.addressMap [{ serial := 0, addr := 0, position := 0, assigned := true }]).wf = false
    ∧ (Instr.addressMap [{ serial := 0, addr := 48, position := 0, assigned := true }]).wf = false
    ∧ (Instr.ringParameters (tParams 0)).wf = false ∧ (Instr.ringParameters (tParams 16001)).wf = false
    ∧ (Instr.ringParameters (tParams 16000)).wf = true ∧ (Instr.cutNotice 48 0 0 0).wf = false
    ∧ (Instr.cutNotice 0 48 0 0).wf = false ∧ (Instr.cutNotice 0 0 0 2).wf = false ∧ (Instr.ringFlush 2).wf = false
    ∧ (Instr.tail 2).wf = false ∧ (Instr.routeMarker { src := 48, up := 0, down := 1 }).wf = false ∧ (Instr.hubJoined 0 0 48).wf = false
    ∧ (Instr.hubLeft 48 []).wf = false ∧ (Instr.dmaWriteHeader 0 0 0 [0]).wf = false
    ∧ (Instr.dmaWriteHeader 1 0 0 []).wf = false ∧ (Instr.dmaReadRequest 1 0 0 0).wf = false
    ∧ (Instr.dmaReadRequest 1 0 4097 0).wf = false ∧ (Instr.dmaReadRequest 48 0 4 0).wf = false
    ∧ (Instr.interruptRequest 1 64).wf = false ∧ (Instr.interruptRequest 0 0).wf = false
    ∧ (Instr.consistencyCheckDone { tView with members := [{ position := 0, cells := 0, bytes := 0, publishes := []
                                                             consumes := [] }] }).wf = false
    ∧ (Instr.create tDesc (some [])).wf = false
    ∧ (Instr.producerIndexReadDone false (some [])).wf = false := by decide

/-! ## Worked examples of the spec -/

/-- R60, R61 (worked example of the strain gauges): code 17,387 costs 2,001 µA at 350 ohms, code 17,386 costs 2,000 µA. -/
theorem test_gauge_budget :
    (tIn .idle [(IN_CFG 0, IN_CFG_en, 1), (IN_EXC 0, IN_EXC_rmin, 350), (IN_EXC 0, IN_EXC_amp, 17387)]).budgetCurrent 0 = 2001
    ∧ (tIn .idle [(IN_CFG 0, IN_CFG_en, 1), (IN_EXC 0, IN_EXC_rmin, 350), (IN_EXC 0, IN_EXC_amp, 17386)]).budgetCurrent 0 = 2000 := by
  decide +kernel

/-- R255 (worked example of the bath): duty 27,592 of 4,000,000 cycles is on for 1,684,108. -/
theorem test_pwm_on_time : onCycles 27592 4000000 = 1684108 := by decide +kernel

/-- R146 to R148 (worked example of the bath): the quotient of the two resistances rounds to 0x2634_D4FD. -/
theorem test_ratio_code :
    quant (fdiv (fofRat 1193952584 1000000) (fofRat 1000002820 1000000)) f4 29 = (0x2634D4FD, false) := by decide +kernel

/-- The largest plot records (worked example of chapter 9): 32 inputs make rows of 160 bytes, four slots rows of 20. -/
theorem test_plot_rows : rowBytes 32 = 160 ∧ rowBytes 4 = 20 := by decide

/-- DF_RESPINFO at m = 1 (worked example of chapter 5). -/
theorem test_respinfo :
    (tIn .idle [(FR_PERIOD, FR_PERIOD_period, 1)]).hostWord (DF_RESPINFO 11) = 0x0C7F0C7F#32
    ∧ (tIn .idle [(FR_PERIOD, FR_PERIOD_period, 1)]).hostWord (DF_RESPINFO 0) = 0x00010001#32 := by decide +kernel

/-- R35 (worked example of chapter 2): a group of eight inputs costs 6 cycles of acquire and 72 of reduce on response 2, 704 on
response 8; a furrow of
all 256 inputs that ends a block of 16 frames costs 460 and 471 cycles. -/
def tGroup (resp : Nat) : State :=
  tSet [(FR_PERIOD, FR_PERIOD_period, 1), (IN_CFG 0, IN_CFG_en, 1), (IN_CFG 0, IN_CFG_mode, 2), (IN_FILT 0, IN_FILT_resp, resp)]
    (tIn .idle [])
theorem test_group_cost : (tGroup 2).groupCost 0 = 6 + 72 ∧ (tGroup 8).groupCost 0 = 6 + 704 ∧ furrowCost 256 16 = 460 + 471 := by decide +kernel

/-! ## Single commands -/

/-- What a command leaves, seen through a function. -/
def tAfter {α : Type} (s : State) (c : Instr) (f : State → α) : Option α :=
  match exec c s with
  | .next t => some (f t)
  | _ => none

/-- SV_CMD.safe (R395, R396): cause 0 is latched and first, SAFE_STATE is raised, the enables fall. -/
theorem test_safe_command :
    tAfter { tOn [] with sv := { State.reset.sv with oen := 15 } } .svSafeCmd
      (fun t => (t.rd SV_CAUSE, t.sv.safe, t.sv.oen, t.rd (EV_OCC 35))) = some (1, true, 0, 1) := by decide +kernel

/-- A second cause leaves the first cause standing (R396). -/
theorem test_second_cause :
    tAfter (tIn .run [(SV_FIRST, SV_FIRST_valid, 1), (SV_FIRST, SV_FIRST_cause, 1)]) .lockstepMismatch
      (fun t => (t.rd SV_CAUSE, t.fget SV_FIRST SV_FIRST_cause)) = some (8, 1) := by decide +kernel

/-- In Run a write to the frame period is discarded and noted (R3); in Idle it is taken, its reserved bits dropped. -/
theorem test_period_write :
    tAfter (tIn .run []) (.registerWrite .setup 0x2000#20 ⟨16#32, none⟩) (fun t => (t.m, t.flag GLB_STAT GLB_STAT_acc_err)) = some (160, true)
    ∧ tAfter (tIn .idle []) (.registerWrite .setup 0x2000#20 ⟨0xFFFF0010#32, none⟩) (fun t => (t.rd FR_PERIOD, t.flag GLB_STAT GLB_STAT_acc_err))
      = some (16#32, false) := by decide +kernel

/-- BLANK_ASSERT (R69): blanking of the group starts two clocks after the pin's word. -/
theorem test_blank_assert :
    tAfter (tOn [(FE_BLANKCFG 3, FE_BLANKCFG_en, 1)]) (.blankAssert 3 7) (fun t => ((t.blank 3).active, (t.blank 3).first))
      = some (true, 9) := by decide +kernel

/-- GL_EDGE_WRITE (R110): the word of the worked example of chapter 4 is delay 100, on, falling edge, PWM0, target 0x42. -/
theorem test_edge_write :
    tAfter (tIn .idle []) (.glEdgeWrite 0 0x0064C420#32) (fun t => (t.fget (GL_EDGE 0) GL_EDGE_target, t.fget (GL_EDGE 0) GL_EDGE_delay
      , t.fget (GL_EDGE 0) GL_EDGE_edge, t.flag (GL_EDGE 0) GL_EDGE_en)) = some (0x42, 100, 1, true) := by decide +kernel

/-- Hold and Run: RUN_ENABLE in Idle starts the check and no more (R473); the check's end brings the entry to Run in safe state. -/
theorem test_run_enable :
    tAfter (tIn .idle []) .runEnable (fun t => (t.pw.checking, t.inIdle)) = some (true, true) := by decide +kernel

/-- A step takes the command at the front of the queue and leaves the rest. -/
theorem test_queue :
    (match step { tIn .run [] with pending := [.svSafeCmd, .runDisable] } with
      | .next t => some (t.pending, t.sv.safe)
      | _ => none) = some ([.runDisable], true) := by decide +kernel

/-- No word spells a command: the rows of the table give no bits. -/
theorem test_no_words (nbits w : Nat) : decodeTableWord nbits w = none := rfl

/-- Words that follow the state as they are read: DF_STAT.ft_count counts the enabled slots, TB_STAT.pps_seen tells of an edge in
the last 1.5 s, and SV_PERM reads 0 at reset. -/
theorem test_live_reads :
    (tIn .idle [(DF_FTSEL 0, DF_FTSEL_en, 1), (DF_FTSEL 31, DF_FTSEL_en, 1)]).hostWord DF_STAT = 2#32
      ∧ (let s := tIn .idle []
         let at_ (c : Nat) := { s with tb := { s.tb with ppsLast := some 0, cnt := BitVec.ofNat 64 c } }
         (at_ 750000000).ppsSeen = true ∧ (at_ 750000001).ppsSeen = false ∧ s.ppsSeen = false)
      ∧ State.reset.hostWord SV_PERM = 0#32 := by decide +kernel

/-- PLOT_PART_HANDOFF (R201): corrected errors count in AQ_ECCCNT, uncorrectable ones in AQ_ECCUNC, each error of a read. -/
theorem test_ecc_counts :
    (let s := { tOn [] with aq := { State.reset.aq with units := [(7, { UnitSt.init with ready := [tPart] })] } }
     let f (b : Bool) := tAfter s (.plotPartHandoff 7 [{ fixed := b, row := 0, addr := 0 }, { fixed := b, row := 1, addr := 4 }]) (fun t => (t.rd AQ_ECCCNT, t.rd AQ_ECCUNC))
     f true = some (2#32, 0#32) ∧ f false = some (0#32, 2#32)) := by decide +kernel

/-- AES-256 (the example of FIPS 197 with a key and a block that count up) and GMAC (the first AES-256 case of the GCM
specification: key, initialisation vector and data of zeros and nothing). -/
theorem test_gmac :
    aesBlock ((List.range 32).map (fun i => BitVec.ofNat 8 i)) ((List.range 16).map (fun i => BitVec.ofNat 8 (17 * i)))
      = beBytes 16 0x8EA2B7CA516745BFEAFC49904B496089
    ∧ gmac (zeros 32) (zeros 12) [] = beBytes 16 0x530F8AFBC74536B9A963B4F1C4CB738B := by decide +kernel

/-- CRC-32C of the nine digits (the published check value of the code). -/
theorem test_crc32c :
    crc32c [0x31, 0x32, 0x33, 0x34, 0x35, 0x36, 0x37, 0x38, 0x39] = 0xE3069283#32 := by decide +kernel

/-- R301: a complement bit follows 24 identical bits, and starts a new run; a receiver that finds a 25th is told so. -/
theorem test_stuffing :
    (stuff false 0 (List.replicate 26 true)).1 = List.replicate 24 true ++ [false, true, true]
    ∧ (unstuff false 0 (List.replicate 24 true ++ [false, true])) = (List.replicate 24 true ++ [true], true)
    ∧ (unstuff false 0 (List.replicate 25 true)).2 = false := by decide +kernel

/-- R300: a single bit comes back after 39 bits and after 58; the descrambler recovers what was sent. -/
theorem test_scrambler :
    ((scramble 0 (true :: List.replicate 60 false)).1.zipIdx.filter Prod.fst).map Prod.snd = [0, 39, 58]
    ∧ descramble 0 (scramble 0 (bitsOf [0xAB, 0xCD])).1 = bitsOf [0xAB, 0xCD] := by decide +kernel

end Sys2Proof.Tests
end

section
/-! SUPPORT. Aligned 32-bit accesses of the host to the setup space: the window access that each command comes to, and what that access
does at an unimplemented offset (R6, R7, R24). -/

namespace Sys2Proof.Machine

theorem exec_registerWrite (bar : Bar) (off : BitVec 20) (d : WriteData) (s : State) :
    exec (.registerWrite bar off d) s = fin (registerWrite bar off d s) := (rfl)

theorem exec_bar4Access (write : Bool) (off : BitVec 26) (width : Nat) (val : Word64) (s : State) :
    exec (.bar4Access write off width val) s = fin (bar4Access write off width val s) := (rfl)

/-! ## The commands as window accesses -/

theorem wellAligned_four_iff (a : Nat) : wellAligned a 4 = true ↔ a % 4 = 0 := by
  simp [wellAligned]

/-- An aligned 32-bit write to a served setup space is one write of the window (R6). -/
theorem registerWrite_setup32 (s : State) (off : BitVec 20) (v : Word) (hserved : s.served = true) (halign : off.toNat % 4 = 0) :
    registerWrite .setup off ⟨v, none⟩ s = s.hostWrite off.toNat v := by
  have hwf : wellAligned off.toNat (accWidth false) = true := (wellAligned_four_iff _).2 halign
  simp [registerWrite, hserved, hwf, State.upperFirst, State.barWrite]

/-- An aligned 32-bit access in slot 0 of BAR4 is one access of the head's own window (R24). -/
theorem bar4Access_own32 (s : State) (write : Bool) (o : BitVec 26) (v : Word64) (hserved : s.served = true)
    (hhead : s.pw.headSel = true) (hslot : o.toNat < 2 ^ 20) (halign : o.toNat % 4 = 0) :
    bar4Access write o 4 v s = if write then s.hostWrite o.toNat (lo32 v) else s.hostRead o.toNat := by
  have hhub : o.toNat / 2 ^ 20 = 0 := Nat.div_eq_of_lt hslot
  have hoff : o.toNat % 2 ^ 20 = o.toNat := Nat.mod_eq_of_lt hslot
  have hwf : wellAligned o.toNat 4 = true := (wellAligned_four_iff _).2 halign
  simp only [bar4Access, State.slotAccess, hhub, hoff, hwf, hserved, hhead, Bool.not_true, Bool.or_self, Bool.false_eq_true, if_false,
    if_true]

/-! ## Unimplemented offsets (R7) -/

/-- No register stands in the reserved range (R478). -/
theorem regRow?_reserved {a : Nat} (hlow : 0x80000 ≤ a) (hhigh : a < 2 ^ 20) : regRow? a = none := by
  have hrows : windowRows a = [] := by
    simp only [windowRows]
    repeat rw [if_neg (by omega)]
    rw [if_pos (by omega)]
  simp [regRow?, hrows]

theorem ne_of_regRow?_none {a b : Nat} (hnone : regRow? a = none) (hb : (regRow? b).isSome = true) : a ≠ b := by
  rintro rfl
  simp [hnone] at hb

/-- In the CAL window an unimplemented offset outside the image mirror reads 0 (R7, R153). -/
theorem State.calReg_unimplemented (s : State) {a : Nat} (hnone : regRow? a = none)
    (hmirror : ¬ (a < 0x6F800 ∧ (a < 0x60100 ∨ 0x60150 ≤ a))) : s.calReg a = 0 := by
  have hstat : a ≠ Reg.CAL_STAT := ne_of_regRow?_none hnone (by decide)
  have hcnt : a ≠ Reg.CAL_WRCNT := ne_of_regRow?_none hnone (by decide)
  simp [State.calReg, hstat, hcnt, hmirror, hnone]

theorem State.hostWord_unimplemented (s : State) {a : Nat} (hsetup : a < 2 ^ 20) (hnone : regRow? a = none)
    (hmirror : ¬ (0x60000 ≤ a ∧ a < 0x6F800 ∧ ¬ (0x60100 ≤ a ∧ a < 0x60150))) : s.hostWord a = 0 := by
  have hmail : ¬ 0x200000 ≤ a := by omega
  by_cases hcal : 0x60000 ≤ a ∧ a < 0x70000
  · have hword : s.calReg a = 0 := s.calReg_unimplemented hnone (by omega)
    simp [State.hostWord, hmail, hcal, hword]
  · simp [State.hostWord, hmail, hcal, hnone]

theorem State.hostWrite_unimplemented (s : State) {a : Nat} (v : Word) (hnone : regRow? a = none) : s.hostWrite a v = s := by
  simp [State.hostWrite, hnone]

theorem State.hostRead_unimplemented (s : State) {a : Nat} (hnone : regRow? a = none) :
    s.hostRead a = { s with rdata := s.hostWord a } := by
  simp [State.hostRead, hnone]

end Sys2Proof.Machine
end

section
/-! PROOF. Accesses to unimplemented offsets and to the reserved range (R7). -/

namespace Sys2Proof.Machine

/-- Settles O37: each access comes to one access of the window, which finds no register there. -/
theorem unimplementedOffsets : Obligations.UnimplementedOffsets := by
  intro s off o v hserved halign hunimpl hmirror
  have hnone : regRow? off.toNat = none := hunimpl.elim id (fun hlow => regRow?_reserved hlow off.isLt)
  refine ⟨Becomes.of (exec_registerWrite _ _ _ _) ?_, fun hhead ho => ⟨?_, ?_⟩⟩
  · rw [registerWrite_setup32 s off _ hserved halign, s.hostWrite_unimplemented _ hnone]
  all_goals
    refine Becomes.of (exec_bar4Access _ _ _ _ _) ?_
    rw [bar4Access_own32 s _ o v hserved hhead (ho ▸ off.isLt) (ho ▸ halign), ho]
  · have hword : s.hostWord off.toNat = 0 := s.hostWord_unimplemented off.isLt hnone hmirror
    simp [s.hostRead_unimplemented hnone, hword]
  · simp [s.hostWrite_unimplemented _ hnone]

end Sys2Proof.Machine
end

section
/-! SUPPORT. The outcome of the consistency check (R474): the class of each condition of the table, and which failing condition is
the one reported. -/

namespace Sys2Proof.Machine

/-! ## The classes of *Consistency check details* -/

theorem mem_condsBudget {s : State} {c : Cond} (h : c ∈ s.condsBudget) : c.cls = 1 ∧ c.det ≤ 6 := by
  simp only [State.condsBudget, List.mem_cons, List.not_mem_nil, or_false] at h
  rcases h with rfl | rfl | rfl | rfl | rfl | rfl <;> simp

/-- Of the class of filter and rate, detail 1 alone is about the frame period (R30). -/
theorem mem_condsRate {s : State} {c : Cond} (h : c ∈ s.condsRate) :
    c.cls = 2 ∧ (c = { cls := 2, det := 1, bad := noIndex (s.m = 0 || 16000 < s.m) } ∨ 2 ≤ c.det) := by
  simp only [State.condsRate, List.mem_cons, List.not_mem_nil, or_false] at h
  rcases h with rfl | rfl | rfl | rfl | rfl <;> simp

theorem cls_condsInputs {s : State} : ∀ c ∈ s.condsInputs, 3 ≤ c.cls := by
  simp [State.condsInputs, inputRules]

theorem cls_condsAcq {s : State} : ∀ c ∈ s.condsAcq, c.cls = 7 := by
  simp [State.condsAcq, State.condsUnit, triggerRules]

theorem cls_condsControl {s : State} {v : RingView} : ∀ c ∈ s.condsControl v, c.cls = 8 := by
  cases hhead : s.pw.headSel <;> simp [State.condsControl, State.condsLoop, State.condsOutput, State.condsShared, hhead]

theorem cls_condsTime {s : State} : ∀ c ∈ s.condsTime, c.cls = 9 := by
  simp [State.condsTime]

theorem cls_condsRing {s : State} {v : RingView} : ∀ c ∈ s.condsRing v, c.cls = 10 := by
  simp [State.condsRing]

theorem cls_condsVault {s : State} : ∀ c ∈ s.condsVault, c.cls = 11 := by
  simp [State.condsVault]

theorem cls_condsTwin {s : State} {v : RingView} : ∀ c ∈ s.condsTwin v, c.cls = 12 := by
  cases htwin : s.isTwin <;> simp [State.condsTwin, htwin]

theorem cls_condsSide {s : State} : ∀ c ∈ s.condsSide, c.cls = 13 := by
  simp [State.condsSide]

theorem cls_condsBeacon {s : State} : ∀ c ∈ s.condsBeacon, c.cls = 14 := by
  cases hon : s.flag Reg.BC_CTL Fld.BC_CTL_en <;> simp [State.condsBeacon, hon]

theorem cls_condsHost {s : State} {v : RingView} : ∀ c ∈ s.condsHost v, c.cls = 15 := by
  simp [State.condsHost]

/-- Beside the budget and the rate, every condition of the check has a higher class. -/
theorem mem_checkConds {s : State} {v : RingView} {c : Cond} (h : c ∈ s.checkConds v) :
    c ∈ s.condsBudget ∨ c ∈ s.condsRate ∨ 3 ≤ c.cls := by
  simp only [State.checkConds, State.allConds, List.mem_append, or_assoc] at h
  rcases h with h | h | h | h | h | h | h | h | h | h | h | h | h
  · exact .inl h
  · exact .inr (.inl h)
  all_goals refine .inr (.inr ?_)
  · exact cls_condsInputs c h
  · simp [cls_condsAcq c h]
  · simp [cls_condsControl c h]
  · simp [cls_condsTime c h]
  · simp [cls_condsRing c h]
  · simp [cls_condsVault c h]
  · simp [cls_condsTwin c h]
  · simp [cls_condsSide c h]
  · simp [cls_condsBeacon c h]
  · simp [cls_condsHost c h]
  · split at h
    · simp [List.mem_singleton.1 h]
    · simp at h

theorem mem_checkConds_of_budget {s : State} (v : RingView) {c : Cond} (h : c ∈ s.condsBudget) : c ∈ s.checkConds v := by
  simp [State.checkConds, State.allConds, h]

/-- The condition of R30. -/
theorem periodCond_mem_checkConds (s : State) (v : RingView) :
    { cls := 2, det := 1, bad := noIndex (s.m = 0 || 16000 < s.m) } ∈ s.checkConds v := by
  simp [State.checkConds, State.allConds, State.condsRate]

/-- No other condition has class 2 and detail 1. -/
theorem eq_periodCond {s : State} {v : RingView} {c : Cond} (h : c ∈ s.checkConds v) (hcls : c.cls = 2) (hdet : c.det = 1) :
    c = { cls := 2, det := 1, bad := noIndex (s.m = 0 || 16000 < s.m) } := by
  rcases mem_checkConds h with hb | hr | hlater
  · have := mem_condsBudget hb
    omega
  · exact (mem_condsRate hr).2.resolve_right (by omega)
  · omega

/-! ## Which condition is reported -/

/-- The place of a condition in the order of class and detail. -/
def Cond.place (c : Cond) : Nat := c.cls * 256 + c.det

theorem mem_insertBy {α : Type} {le : α → α → Bool} {a x : α} {l : List α} : x ∈ insertBy le a l ↔ x = a ∨ x ∈ l := by
  induction l with
  | nil => simp only [insertBy, List.mem_cons]
  | cons b t ih =>
    rw [insertBy]
    split
    · rw [List.mem_cons]
    · rw [List.mem_cons, ih, List.mem_cons, or_left_comm]

theorem mem_sortBy {α : Type} {le : α → α → Bool} {x : α} {l : List α} : x ∈ sortBy le l ↔ x ∈ l := by
  induction l with
  | nil => exact Iff.rfl
  | cons a t ih =>
    have hinsert : x ∈ sortBy le (a :: t) ↔ x = a ∨ x ∈ sortBy le t := mem_insertBy
    rw [hinsert, ih, List.mem_cons]

theorem pairwise_insertBy {α : Type} {le : α → α → Bool} (htotal : ∀ a b, le a b = true ∨ le b a = true)
    (htrans : ∀ a b c, le a b = true → le b c = true → le a c = true) (a : α) {l : List α}
    (hl : l.Pairwise (fun x y => le x y = true)) : (insertBy le a l).Pairwise (fun x y => le x y = true) := by
  induction l with
  | nil => exact List.pairwise_singleton _ a
  | cons b t ih =>
    obtain ⟨hfirst, hrest⟩ := List.pairwise_cons.1 hl
    rw [insertBy]
    split
    next hab =>
      refine List.pairwise_cons.2 ⟨fun x hx => ?_, hl⟩
      rcases List.mem_cons.1 hx with rfl | hx
      · exact hab
      · exact htrans a b x hab (hfirst x hx)
    next hab =>
      refine List.pairwise_cons.2 ⟨fun x hx => ?_, ih hrest⟩
      rcases mem_insertBy.1 hx with rfl | hx
      · exact (htotal x b).resolve_left hab
      · exact hfirst x hx

theorem pairwise_sortBy {α : Type} {le : α → α → Bool} (htotal : ∀ a b, le a b = true ∨ le b a = true)
    (htrans : ∀ a b c, le a b = true → le b c = true → le a c = true) (l : List α) :
    (sortBy le l).Pairwise (fun x y => le x y = true) := by
  induction l with
  | nil => exact List.Pairwise.nil
  | cons a t ih => exact pairwise_insertBy htotal htrans a ih

theorem mem_orderConds {cs : List Cond} {c : Cond} : c ∈ orderConds cs ↔ c ∈ cs := mem_sortBy

theorem orderConds_pairwise (cs : List Cond) : (orderConds cs).Pairwise (fun a b => a.place ≤ b.place) := by
  have hpair := pairwise_sortBy (le := fun a b : Cond => decide (a.place ≤ b.place))
    (fun a b => by simpa using Nat.le_total a.place b.place) (fun a b c => by simpa using Nat.le_trans) cs
  exact hpair.imp of_decide_eq_true

/-- R474: where a condition fails, the one reported fails too, and no failing condition comes before it. -/
theorem refusalOf_orderConds {cs : List Cond} {c : Cond} (hc : c ∈ cs) (hbad : c.bad ≠ []) :
    ∃ d ∈ cs, d.bad ≠ [] ∧ (∀ e ∈ cs, e.bad ≠ [] → d.place ≤ e.place)
      ∧ refusalOf (orderConds cs) = some (d.cls, d.det, lowest d.bad) := by
  have hsome : ((orderConds cs).find? (fun c => !c.bad.isEmpty)).isSome := by
    rw [List.find?_isSome]
    exact ⟨c, mem_orderConds.2 hc, by simpa using hbad⟩
  obtain ⟨d, hd⟩ := Option.isSome_iff_exists.1 hsome
  obtain ⟨hfails, front, rest, hsplit, hfront⟩ := List.find?_eq_some_iff_append.1 hd
  refine ⟨d, mem_orderConds.1 (List.mem_of_find?_eq_some hd), by simpa using hfails, fun e he hebad => ?_, by simp [refusalOf, hd]⟩
  have hpair := orderConds_pairwise cs
  have hplace : e ∈ front ∨ e = d ∨ e ∈ rest := by simpa [hsplit] using mem_orderConds.2 he
  rcases hplace with hin | rfl | hin
  · exact absurd (hfront e hin) (by simpa using hebad)
  · exact Nat.le_refl _
  · rw [hsplit, List.pairwise_append] at hpair
    exact (List.pairwise_cons.1 hpair.2.1).1 e hin

/-! ## The refusal -/

@[simp] theorem State.setEnstat_pw (s : State) (state cls det idx : Nat) : (s.setEnstat state cls det idx).pw = s.pw := (rfl)

@[simp] theorem State.setEnstat_lo (s : State) (state cls det idx : Nat) :
    (s.setEnstat state cls det idx).rd Reg.GLB_ENSTAT_LO = word state := by
  rw [State.setEnstat, State.rd_wr_ne _ _ (by decide), State.rd_wr_same]

@[simp] theorem State.setEnstat_hi (s : State) (state cls det idx : Nat) :
    (s.setEnstat state cls det idx).rd Reg.GLB_ENSTAT_HI = word (2 ^ 24 * cls + 2 ^ 16 * det + idx % 2 ^ 16) := State.rd_wr_same _ _ _

theorem exec_consistencyCheckDone (v : RingView) (s : State) :
    exec (.consistencyCheckDone v) s = fin (consistencyCheckDone v s) := (rfl)

/-- A check that fails leaves the hub in Idle, with the refusal in GLB_ENSTAT (R474). -/
theorem consistencyCheckDone_refused {s : State} {v : RingView} {cls det idx : Nat} (hidle : s.inIdle = true)
    (hcheck : s.pw.checking = true) (href : refusalOf (orderConds (s.checkConds v)) = some (cls, det, idx)) :
    consistencyCheckDone v s
      = ({ s with pw := { s.pw with checking := false } }).noteBudget.setEnstat enRefused cls det idx := by
  simp [consistencyCheckDone, hidle, hcheck, href]

/-- The class stands in the top byte of GLB_ENSTAT_HI. -/
theorem enstat_class {cls det : Nat} (idx : Nat) (hcls : cls < 256) (hdet : det < 256) :
    (word (2 ^ 24 * cls + 2 ^ 16 * det + idx % 2 ^ 16)).toNat / 2 ^ 24 = cls := by
  rw [word, BitVec.toNat_ofNat]
  omega

end Sys2Proof.Machine
end

section
/-! PROOF. The frame period: its length, and its refusal at enable (R30). -/

namespace Sys2Proof.Machine

theorem State.periodU_eq (s : State) : s.periodU * 2 = (s.m : Int) * 125000 * nsU := by
  simp only [State.periodU, slotU, nsU]
  omega

/-- With no failing condition of class 1, a period outside 1 to 16,000 is what the check reports (R30, R474). -/
theorem refusal_period {s : State} (v : RingView) (hm : s.m = 0 ∨ 16000 < s.m) (hbudget : ∀ c ∈ s.condsBudget, c.bad = []) :
    refusalOf (orderConds (s.checkConds v)) = some (2, 1, 0xFFFF) := by
  have hfails : noIndex (s.m = 0 || 16000 < s.m) = [0xFFFF] := by simp [noIndex, hm]
  have hperiod := periodCond_mem_checkConds s v
  rw [hfails] at hperiod
  obtain ⟨d, hd, hdbad, hleast, href⟩ := refusalOf_orderConds hperiod (by simp)
  have hplace : d.cls * 256 + d.det ≤ 513 := hleast _ hperiod (by simp)
  rcases mem_checkConds hd with hb | hr | hlater
  · exact absurd (hbudget d hb) hdbad
  · obtain ⟨hcls, rfl | hdet⟩ := mem_condsRate hr
    · rw [href, hfails]
      rfl
    · omega
  · omega

/-- A failing condition of class 1 is reported before every other class (R474). -/
theorem refusal_budget {s : State} (v : RingView) {c : Cond} (hc : c ∈ s.condsBudget) (hbad : c.bad ≠ []) :
    ∃ det idx, det ≤ 6 ∧ refusalOf (orderConds (s.checkConds v)) = some (1, det, idx) := by
  have hmem := mem_checkConds_of_budget v hc
  obtain ⟨d, hd, -, hleast, href⟩ := refusalOf_orderConds hmem hbad
  have hplace : d.cls * 256 + d.det ≤ c.cls * 256 + c.det := hleast c hmem hbad
  obtain ⟨hccls, hcdet⟩ := mem_condsBudget hc
  rcases mem_checkConds hd with hb | hr | hlater
  · obtain ⟨hcls, hdet⟩ := mem_condsBudget hb
    exact ⟨d.det, _, hdet, by rw [href, hcls]⟩
  · have := (mem_condsRate hr).1
    omega
  · omega

/-- Settles O52: the period's condition is the only one of class 2 and detail 1, and only class 1 comes before it. -/
theorem framePeriod : Obligations.FramePeriod := by
  intro s v
  refine ⟨s.periodU_eq, fun hlow hhigh c hc hcls hdet => ?_, fun hm hidle hcheck => ?_⟩
  · have hok : ¬ (s.m = 0 ∨ 16000 < s.m) := by omega
    simp [eq_periodCond hc hcls hdet, noIndex, hok]
  · by_cases hbudget : ∀ c ∈ s.condsBudget, c.bad = []
    · have hall : s.condsBudget.all (fun c => c.bad.isEmpty) = true := by simpa using hbudget
      refine Ends.of (exec_consistencyCheckDone v s) ?_
      rw [consistencyCheckDone_refused hidle hcheck (refusal_period v hm hbudget)]
      refine ⟨hidle, State.setEnstat_lo .., fun _ => State.setEnstat_hi .., fun hnot => ?_⟩
      simp [hall] at hnot
    · have hnot : s.condsBudget.all (fun c => c.bad.isEmpty) ≠ true := by simpa using hbudget
      obtain ⟨c, hc, hbad⟩ : ∃ c ∈ s.condsBudget, c.bad ≠ [] := by simpa using hbudget
      obtain ⟨det, idx, hdet, href⟩ := refusal_budget v hc hbad
      refine Ends.of (exec_consistencyCheckDone v s) ?_
      rw [consistencyCheckDone_refused hidle hcheck href]
      refine ⟨hidle, State.setEnstat_lo .., fun hall => absurd hall hnot, fun _ => ?_⟩
      rw [State.setEnstat_hi, enstat_class idx (by omega) (by omega)]

end Sys2Proof.Machine
end

section
/-! SUPPORT. The tamper log (R388): what appends an entry to it, what leaves it as it is, and a service that the vault answers at
once. -/

namespace Sys2Proof.Machine

/-! ## What leaves the log as it is -/

/-- The tamper log, its count and the Fallow second counter stand. -/
structure TamperLogKept (s t : State) : Prop where
  log : t.vt.log = s.vt.log
  count : t.vt.logCount = s.vt.logCount
  second : t.vt.second = s.vt.second

@[simp] theorem State.freeNotices_vt (s : State) (ns : List Notice) : (s.freeNotices ns).vt = s.vt := by
  have hback : ∀ u : State, u.noteBacklog.vt = u.vt := fun u => by
    unfold State.noteBacklog
    exact ite_both (fun v : State => v.vt = u.vt) _ _ _ rfl rfl
  rw [State.freeNotices, hback, State.foldl_field State.vt _ State.freePart (fun _ _ => rfl)]

@[simp] theorem State.sumRestart_vt (s : State) : s.sumRestart.vt = s.vt := by
  unfold State.sumRestart
  exact ite_both (fun v : State => v.vt = s.vt) _ _ _ rfl rfl

theorem State.startChain_tamperLog (s : State) : TamperLogKept s s.startChain := by
  constructor <;> simp [State.startChain]

/-- A new chain starts only where the vault works. -/
theorem State.startChain_if_tamperLog (s : State) : TamperLogKept s (if s.vaultOk then s.startChain else s) :=
  ite_both (TamperLogKept s) _ _ _ s.startChain_tamperLog ⟨rfl, rfl, rfl⟩

theorem State.mbDone_log (s : State) (status : Nat) (resp : List Byte) : (s.mbDone status resp).vt.log = s.vt.log := by
  simp only [State.mbDone]
  split
  · rw [(LinkOnly.sendMessage _ _ _ _).vt]
    rfl
  · rfl

theorem State.refuseAuth_log (s : State) (code : Nat) : (s.refuseAuth code).vt.log = s.vt.log := by
  rw [State.refuseAuth, State.raiseF_vt _ _ _ _ _ _ _ (by decide)]
  rfl

/-! ## A detection -/

/-- An entry has been appended: the log holds it behind the newest 15 of those before, the count has gone on, and the Fallow second
counter stands at the entry's second. -/
structure TamperLogged (s u : State) (e : TamperEntry) : Prop where
  log : u.vt.log = s.vt.log.drop (s.vt.log.length - 15) ++ [e]
  count : u.vt.logCount = s.vt.logCount + 1
  second : u.vt.second = e.second

theorem State.logTamper_logged (s : State) (bits : BitVec 4) (t : Int) :
    TamperLogged s (s.logTamper bits t) { bits := bits, second := s.vt.second, time := t } := by
  refine ⟨?_, rfl, rfl⟩
  have hdrop : s.vt.log.length - 15 ≤ s.vt.log.length := Nat.sub_le _ _
  simp [State.logTamper, List.drop_append_of_le_length hdrop]

theorem TamperLogged.kept {s t u : State} {e : TamperEntry} (h : TamperLogged s t e) (k : TamperLogKept t u) : TamperLogged s u e :=
  ⟨k.log.trans h.log, k.count.trans h.count, k.second.trans h.second⟩

section
variable {s u : State} {e : TamperEntry}

theorem TamperLogged.newest (h : TamperLogged s u e) : u.vt.log.getLast? = some e := by
  simp [h.log]

theorem TamperLogged.of_room (h : TamperLogged s u e) (hroom : s.vt.log.length < 16) : u.vt.log = s.vt.log ++ [e] := by
  have hnone : s.vt.log.length - 15 = 0 := by omega
  rw [h.log, hnone, List.drop_zero]

theorem TamperLogged.of_full (h : TamperLogged s u e) (hfull : s.vt.log.length = 16) : u.vt.log = s.vt.log.drop 1 ++ [e] := by
  rw [h.log, hfull]

end

/-- In Fallow the seconds that have passed are counted first, and the entry's time is 0. -/
theorem tamperDetect_fallow {s : State} {x : TamperIn} (hbits : x.bits ≠ 0) (hpower : s.pw.power = .fallow) :
    TamperLogged s (tamperDetect x s) { bits := x.bits, second := s.vt.second + x.seconds, time := 0 } := by
  have hentry := (s.fallowSeconds x.seconds).tamperErase.logTamper_logged x.bits 0
  simp only [tamperDetect, hbits, hpower, decide_false, Bool.false_or, beq_self_eq_true, if_true]
  exact ⟨hentry.log, hentry.count, hentry.second⟩

/-- While the hub is powered, what follows the entry leaves the log as it is. -/
theorem tamperDetect_powered {s : State} {x : TamperIn} (hbits : x.bits ≠ 0) (halive : s.alive = true) :
    TamperLogged s (tamperDetect x s) { bits := x.bits, second := s.vt.second, time := s.now } := by
  obtain ⟨hoff, hfallow⟩ : (s.pw.power == .off) = false ∧ (s.pw.power == .fallow) = false := by simpa [State.alive] using halive
  have hentry := s.tamperErase.logTamper_logged x.bits s.now
  have hlogged : TamperLogged s (s.tamperErase.logTamper x.bits s.now) { bits := x.bits, second := s.vt.second, time := s.now } :=
    ⟨hentry.log, hentry.count, hentry.second⟩
  simp only [tamperDetect, hbits, hoff, hfallow, decide_false, Bool.or_self, Bool.false_eq_true, if_false]
  refine hlogged.kept ?_
  obtain ⟨hlog, hcount, hsecond⟩ := State.startChain_if_tamperLog _
  refine ⟨hlog.trans ?_, hcount.trans ?_, hsecond.trans ?_⟩ <;> simp

/-! ## TAMPER_CLEAR -/

/-- A service other than STATUS and MICROCODE that the working vault serves runs at once, past the end of any microcode session. -/
theorem State.service_of_asks {s : State} {code len : Nat} (inKeyless inError : Bool) (act : State → State) (hasks : s.asks code len)
    (hcode : code ≠ 0x01 ∧ code ≠ 0x26) : s.service code len inKeyless inError act = act s.endUcode := by
  obtain ⟨hserving, hok, hlen⟩ := hasks
  have hstate : s.endUcode.vaultState = vtOperational := eq_of_beq hok
  have hlen' : s.endUcode.mbLen = len := hlen
  simp [State.service, hserving, hcode, hstate, hlen', vtOperational, vtKeyless, vtError]

theorem tamperClear_log {s : State} (hasks : s.asks 0x25 176) :
    (tamperClear s).vt.log = if s.tokenOk (s.mbReq 176) 8 && tokenDigest (s.mbReq 176) == zeros 48 then [] else s.vt.log := by
  rw [tamperClear, State.service_of_asks _ _ _ hasks (by decide)]
  have hreq : s.endUcode.mbReq 176 = s.mbReq 176 := rfl
  have htoken : s.endUcode.tokenOk (s.mbReq 176) 8 = s.tokenOk (s.mbReq 176) 8 := rfl
  rw [State.withToken, hreq, htoken]
  split
  · rw [State.mbDone_log]
  · rw [State.mbDone_log, State.refuseAuth_log]
    rfl

theorem exec_tamperDetect (x : TamperIn) (s : State) : exec (.tamperDetect x) s = fin (tamperDetect x s) := (rfl)

theorem exec_tamperClear (s : State) : exec .tamperClear s = fin (tamperClear s) := (rfl)

end Sys2Proof.Machine
end

section
/-! PROOF. The tamper log (R388). -/

namespace Sys2Proof.Machine

/-- Settles O50: a detection appends its entry in Fallow and while powered, and TAMPER_CLEAR empties the log under its token. -/
theorem tamperLog_keeps_newest : Obligations.TamperLog := by
  intro s x hbits
  refine ⟨fun hpower => Ends.of (exec_tamperDetect x s) ?_, fun halive => Ends.of (exec_tamperDetect x s) ?_,
    fun hasks => Ends.of (exec_tamperClear s) (tamperClear_log hasks)⟩
  · have hlogged := tamperDetect_fallow hbits hpower
    exact ⟨hlogged.count, hlogged.second, hlogged.newest, hlogged.of_room, hlogged.of_full⟩
  · have hlogged := tamperDetect_powered hbits halive
    exact ⟨hlogged.count, hlogged.second, hlogged.newest, hlogged.of_room, hlogged.of_full⟩

end Sys2Proof.Machine
end

section
/-! SUPPORT. From a statement's form back to the meaning, and reads of registers that an operation leaves alone. -/

namespace Sys2Proof.Machine

/-- What a command becomes is what its meaning answers. -/
theorem Becomes.supervise_eq {i : Instr} {s u v : State} (h : Becomes i s u) (hexec : exec i s = fin v) :
    supervise v = supervise u := by
  rw [Becomes, hexec, fin_next] at h
  exact Host.Outcome.next.inj h

/-- What a command ends in agrees with what its meaning answers, but for the gated enables. -/
theorem Ends.exists_supervise_eq {i : Instr} {s v : State} {P : State → Prop} (h : Ends i s P) (hexec : exec i s = fin v) :
    ∃ u, P u ∧ supervise v = supervise u := by
  obtain ⟨u, hbecomes, hu⟩ := h
  exact ⟨u, hu, hbecomes.supervise_eq hexec⟩

theorem State.flag_congr {s u : State} {a : Nat} (h : u.rd a = s.rd a) (f : BitField) : u.flag a f = s.flag a f := by
  rw [State.flag, State.fget, h]
  rfl

theorem State.rd64_of_words {s u : State} {a b : Nat} (h : u.rd a = s.rd b) (h4 : u.rd (a + 4) = s.rd (b + 4)) : u.rd64 a = s.rd64 b := by
  rw [State.rd64, h, h4, State.rd64]

theorem State.fget_congr {s u : State} {a : Nat} (h : u.rd a = s.rd a) (f : BitField) : u.fget a f = s.fget a f := by
  rw [State.fget, h]
  rfl

/-- Lighting the sinks changes what the beacon driver holds of them, and two words (R417, R420). -/
theorem State.lightSinks_eq (s : State) : ∃ m w1 w2 w3,
    s.lightSinks = ((({ s with bc := { s.bc with sinks := m } }.wr Reg.BC_STAT w1).wr Reg.BC_STAT w2).wr Reg.BC_SCALE w3) :=
  ⟨_, _, _, _, rfl⟩

end Sys2Proof.Machine
end

section
/-! PROOF. The output enables under every command and step (R392). -/

namespace Sys2Proof.Machine

theorem exec_eq_fin (c : Instr) (s : State) : ∃ v, exec c s = fin v := by
  cases c <;> exact ⟨_, rfl⟩

/-- The gate of R392 is shut in safe state, outside Run, and on a twin without its interlock. -/
theorem State.oenAllowed_shut {s : State}
    (hshut : s.sv.safe = true ∨ s.inRun = false ∨ (s.isTwin = true ∧ s.sv.ilkO = false)) : s.oenAllowed = 0 := by
  unfold State.oenAllowed
  rcases hshut with h | h | ⟨h, h'⟩ <;> simp [*]

theorem State.oenOk.low {s : State} (h : s.oenOk)
    (hshut : s.sv.safe = true ∨ s.inRun = false ∨ (s.isTwin = true ∧ s.sv.ilkO = false)) : s.sv.oen = 0 := by
  rw [← h, State.oenAllowed_shut hshut]
  exact BitVec.and_zero

theorem State.oenOk.enabled {s : State} (h : s.oenOk) {i : Nat} (hon : s.sv.oen.getLsbD i = true) :
    (s.fget Reg.SV_CTL Fld.SV_CTL_oen_en).testBit i = true := by
  have hbit : (s.sv.oen &&& s.oenAllowed).getLsbD i = true := h.symm ▸ hon
  have hallowed : s.oenAllowed.getLsbD i = true := (by simpa using hbit : _ ∧ _).2
  unfold State.oenAllowed at hallowed
  split at hallowed
  · exact (Bool.and_eq_true_iff.mp (BitVec.getLsbD_ofNat .. ▸ hallowed)).2
  · simp at hallowed

theorem idleTick_oenOk {s : State} (h : s.oenOk) : (idleTick s).oenOk :=
  ite_both State.oenOk _ _ _ h h

/-- Settles O59: whatever a command does, `supervise` gates its result, and the counter's tick leaves the supervisor alone. -/
theorem outputEnables : Obligations.OutputEnables := by
  have gated (c : Instr) (s : State) : ∃ t, exec c s = .next t ∧ t.oenOk := by
    obtain ⟨v, hv⟩ := exec_eq_fin c s
    exact ⟨supervise v, hv, supervise_gated v⟩
  refine ⟨fun c s => ?_, fun s => ?_⟩
  · obtain ⟨t, hexec, hok⟩ := gated c s
    exact ⟨t, hexec, hok, fun hshut => hok.low (hshut.imp_right .inl)⟩
  · obtain ⟨t, hstep, hok⟩ : ∃ t, step s = .next t ∧ (s.oenOk → t.oenOk) := by
      unfold step
      split
      · obtain ⟨t, hexec, hok⟩ := gated _ _
        exact ⟨t, hexec, fun _ => hok⟩
      · exact ⟨_, rfl, idleTick_oenOk⟩
    exact ⟨t, hstep, fun hs => ⟨hok hs, (hok hs).low, fun i _ => (hok hs).enabled⟩⟩

end Sys2Proof.Machine
end

section
/-! PROOF. A step, and the state that reset leaves (R471, R480). -/

namespace Sys2Proof.Machine

/-- Settles O58: the three cases are the branches of `step` and of the idle tick. -/
theorem stepRunsFrontCommand : Obligations.StepRunsFrontCommand := by
  intro s c rest
  refine ⟨fun hfront => ?_, fun hempty halive => ?_, fun hempty hdead => ?_⟩
  · simp only [step, hfront]
  · simp [step, idleTick, hempty, halive]
  · simp [step, idleTick, hempty, hdead]

/-- The one register that reset leaves beside its reset word is listed; every other is not (R471). -/
theorem State.reset_rd (a : Nat) (ha : a ≠ Reg.GLB_RSTCAUSE) : State.reset.rd a = resetWord a := by
  have hunlisted : kget? [(Reg.GLB_RSTCAUSE, (1 : Word))] a = none := by simp [kget?, ha.symm]
  simp only [State.rd, State.reset, regRead, hunlisted]

/-- Settles O60: reset lists one register, whose reset word differs, and the rest is read off. -/
theorem resetState : Obligations.ResetState := by
  have hregs : State.reset.regsOk := (regsWf_iff _).mpr (by decide)
  have hm : State.reset.m = 160 := by decide
  refine ⟨BitVec.zero_and, hregs, rfl, rfl, rfl, rfl, rfl, by decide, rfl, rfl, rfl, State.reset_rd, hm⟩

end Sys2Proof.Machine
end

section
/-! PROOF. Checks on request (R485). -/

namespace Sys2Proof.Machine

/-- An idle hub at reset in which an earlier request still shows as one of the gleaner's. -/
def staleGleanerRequest : State :=
  { State.reset with pw := { State.reset.pw with power := .idle, reqGlean := true } }

/-- Refutes O1: LINK_CHECK_REQ clears the mark of a gleaner request, which the statement leaves standing. -/
theorem not_dieLink : ¬ Obligations.DieLink := by
  intro h
  have hbecomes := ((h.2 staleGleanerRequest true true).1 (by decide +kernel)).supervise_eq (v := linkCheckReq true true staleGleanerRequest) rfl
  have hmark : (linkCheckReq true true staleGleanerRequest).pw.reqGlean = true := congrArg (·.pw.reqGlean) hbecomes
  exact absurd hmark (by decide +kernel)

end Sys2Proof.Machine
end

section
/-! PROOF. Input and die configuration, and what the front end drives (R50, R51, R61, R85, R88). -/

namespace Sys2Proof.Machine

/-- The judgement of a write to an input's configuration (R88, R235, R272), its conditions as propositions. -/
theorem inConfigWrite_eq (n : BitVec 8) (reg : BitVec 3) (val : Word) (s : State) :
    let off := Reg.IN_CFG n.toNat + 4 * reg.toNat
    let v := val &&& inMask n.toNat reg.toNat
    let c := s.pended.wr off v
    inConfigWrite n reg val s =
      if s.pended.inEn n.toNat = true ∧ c.inEn n.toNat = false ∧ s.sampled n.toNat = true then s.accErr true off
      else if s.inRun = false then s.wr off v
      else if s.pended.inEn n.toNat = true ∧ c.inEn n.toNat = false ∧ s.captured n.toNat = true then s.accErr true off
      else if (codesOk c n.toNat reg.toNat && State.inputOk s.pended c n.toNat) = true then
        ({ s with fe := { s.fe with pend := s.fe.pend ++ [(off, v)] } }).wr Reg.FR_BUDGET (word c.windowCost)
      else s.accErr true off := by
  simp only [inConfigWrite, Bool.and_eq_true, Bool.not_eq_true', and_assoc]

theorem State.excDrive_disabled {s : State} {n : Nat} (h : s.inEn n = false ∨ s.dieEn (n / 128) = false) (w : Nat) :
    s.excDrive n w = .highZ := by
  rcases h with h | h <;> simp [State.excDrive, h]

/-- With no sense and no pull current an enabled input is driven by its mode in every word (R51). -/
theorem State.excDrive_enabled {s : State} {n : Nat} (hen : s.inEn n = true) (hdie : s.dieEn (n / 128) = true)
    (hsense : s.sensing n = false) (hpull : s.pullOn n = false) (w : Nat) :
    (s.inMode n = 0 → s.excDrive n w = .excited (!s.negative n w) (s.inAmp n))
      ∧ (s.inMode n = 1 ∨ s.inMode n = 2 → s.excDrive n w = .held) := by
  have hwindow : s.inWindow n w = false := by simp [State.inWindow, hpull]
  refine ⟨fun hmode => ?_, fun hmode => ?_⟩
  · simp [State.excDrive, hen, hdie, hsense, hwindow, hmode]
  · rcases hmode with hmode | hmode <;> simp [State.excDrive, hen, hdie, hsense, hwindow, hmode]

/-- Settles O2: each clause is one branch of the write's judgement, or one branch of the driver's. -/
theorem configWrites : Obligations.ConfigWrites := by
  intro s n reg val off v keeps good loses
  have hwrite := inConfigWrite_eq n reg val s
  refine ⟨fun hrun hkeeps => Becomes.of rfl ?_, fun hrun hkeeps hholds hgood => Becomes.of rfl ?_, fun hrun hbad => Becomes.of rfl ?_,
    fun hcuts => Becomes.of rfl ?_, fun hrun => Becomes.of rfl ?_, fun hrun hfits => Becomes.of rfl ?_,
    fun hrun hover => Becomes.of rfl ?_, fun hchain hen w => ⟨State.excDrive_disabled (.inl hen) w, ?_⟩,
    fun _ _ hdie w => State.excDrive_disabled (.inr hdie) w, fun hen hdie hsense hpull w => State.excDrive_enabled hen hdie hsense hpull w⟩
  · rw [hwrite, if_neg hkeeps, if_pos hrun]
  · rw [hwrite, if_neg hkeeps, if_neg (by simp [hrun]), if_neg hholds, if_pos hgood]
  · rw [hwrite, if_neg (by simp [hrun] : ¬ s.inRun = false)]
    split
    · rfl
    · split
      · rfl
      · rename_i hholds
        have hbadCodes : good = false := hbad.resolve_left hholds
        exact if_neg (Bool.eq_false_iff.mp hbadCodes)
  · rw [hwrite, if_pos (Classical.not_not.mp hcuts)]
  · simp [feCtlWrite, hrun]
  · simp [feCtlWrite, hrun, hfits]
  · simp [feCtlWrite, hrun, hover]
  · simp [State.inputDrive, hen, hchain]

end Sys2Proof.Machine
end

section
/-! PROOF. Blanking (R69). -/

namespace Sys2Proof.Machine

/-- An idle hub that watches blanking pin 0 and whose register map lists FE_BLANKSTAT twice, which no write leaves. -/
def blankStatTwice : State :=
  { State.reset with
    regs := [(Reg.FE_BLANKCFG 0, BitField.put Fld.FE_BLANKCFG_en 1 0), (Reg.FE_BLANKSTAT, 0), (Reg.FE_BLANKSTAT, 2)]
    pw := { State.reset.pw with power := .idle } }

/-- Refutes O3: BLANK_ASSERT writes FE_BLANKSTAT twice, the first time with its reset word, which unlists the register; the one write
of the statement leaves the second entry of a map that lists it twice. -/
theorem not_blanking : ¬ Obligations.Blanking := by
  intro h
  have hbecomes := ((h blankStatTwice 0 0 0).1 (by decide +kernel) (by decide +kernel) (by decide +kernel)
    (by decide +kernel)).supervise_eq (v := blankAssert 0 0 blankStatTwice) rfl
  have hregs := congrArg (fun s : State => s.regs.length) hbecomes
  revert hregs
  decide +kernel

end Sys2Proof.Machine
end

section
/-! PROOF. Broken wires and leads (R66, R73 to R79). -/

namespace Sys2Proof.Machine

/-- Settles O4: each clause is one branch of the command's condition; the events are the last thing that it does. -/
theorem brokenWires : Obligations.BrokenWires := by
  intro s n peak g i x declared
  refine ⟨fun hacq hmode hep => Becomes.of rfl ?_, fun hacq hmode hep => Ends.of rfl ?_, fun hacq hpull hmode => Becomes.of rfl ?_,
    fun hacq hopen => Becomes.of rfl ?_, fun hacq hopen hfloor => Ends.of rfl ?_, fun hacq hopen hfloor hrun => Ends.of rfl ?_,
    fun halive => Becomes.of rfl ?_⟩
  · simp [excCompliance, hacq, hmode, hep, i, x]
  · simpa [excCompliance, hacq, hmode, hep, i, x] using raise_blank _ 9 i 0 (by decide)
  · have hpull' : (s.inPull i == 1 || s.inPull i == 2) = true := by simpa using hpull
    have hmode' : (s.inMode i == 0 || s.inMode i == 1) = true := by simpa using hmode
    simp [headlandWindow, hacq, hpull', hmode', i, x, State.modIn]
  · simp [openWire, hacq, State.judgeOpen, hopen, i]
  · simpa [openWire, hacq, State.judgeOpen, hopen, hfloor, i] using raise_blank declared 8 i 1 (by decide)
  · simpa [openWire, hacq, State.judgeOpen, hopen, hfloor, show 2 ≤ (s.inSt n.toNat).tripRun from hrun, i] using raise_blank declared 8 i 2 (by decide)
  · rw [leadStale, if_pos halive]
    rfl
end Sys2Proof.Machine
end

section
/-! PROOF. Modulators (R93 to R100). -/

namespace Sys2Proof.Machine

/-- Settles O5: each clause is one branch of the command; an event is the last thing that it does. -/
theorem modulators : Obligations.Modulators := by
  intro s n w r upper i x marked
  refine ⟨fun hrun hframes hen hep => Becomes.of rfl ?_, fun hrun hoff => Becomes.of rfl ?_, fun hrun => Becomes.of rfl ?_,
    fun hrun hframes hen hep => Ends.of rfl ?_, fun hlock => Ends.of rfl ⟨s.pllUnlock.raise 13 0 1, raise_blank _ 13 0 1 (by decide), ?_⟩,
    fun hclear hidle => Becomes.of rfl ?_, fun hclear hidle => Becomes.of rfl ?_⟩
  · simp [modOverload, hrun, hframes, hen, hep, i, x, marked]
  · have hout : (s.running && s.inEn i) = false := by rcases hoff with h | h <;> simp [h]
    simp [modOverload, hrun, hout, i, x]
  · simp [modOverload, hrun]
  · have hfresh : (s.inSt n.toNat).ovlEp = false := hep
    simp only [modOverload, hrun, hframes, hen, hfresh, i, Bool.not_true, Bool.and_self, Bool.false_eq_true, if_false]
    exact raise_blank _ 16 i 0 (by decide)
  · simpa [modPllLockLoss, hlock] using raise_blank _ 14 0 1 (by decide)
  · simp [retrim, hclear, hidle]
  · simp [retrim, hclear, hidle]

end Sys2Proof.Machine
end

section
/-! PROOF. Trims and settle counts (R97 to R100, R130 to R134). -/

namespace Sys2Proof.Machine

/-! ## The figures of a trim -/

/-- The figures of a trim, one after another from modulator `b` on, as the last command of a die's trim brings them. -/
def State.takeFigures (s : State) (b k : Nat) (figs : List (BitVec 16)) : State :=
  (figs.zipIdx k).foldl (fun s p => s.idleFigure (b + p.2) p.1) s

/-- What one figure leaves: its word stands, an occurrence counts where it is below the limit, and beside it only trim_low and what
an event changes are touched. -/
theorem State.idleFigure_spec (s : State) (n : Nat) (fig : BitVec 16) (hn : n < 256) :
    (s.idleFigure n fig).fe = s.fe
    ∧ (∀ a, eventReg a = false → a ≠ Reg.CV_STAT → a ≠ Reg.CAL_IDLE n → (s.idleFigure n fig).rd a = s.rd a)
    ∧ (∀ f : BitField, f.hi < 3 ∨ 3 < f.lo → (s.idleFigure n fig).flag Reg.CV_STAT f = s.flag Reg.CV_STAT f)
    ∧ (s.idleFigure n fig).rd (Reg.CAL_IDLE n) = fig.setWidth 32
    ∧ (s.idleFigure n fig).rd (Reg.EV_OCC 23) = s.rd (Reg.EV_OCC 23) + (if fig.toNat < idleLimit then 1 else 0) := by
  have hev : eventReg (Reg.CAL_IDLE n) = false := by simp [eventReg, Reg.CAL_IDLE]; omega
  have hstat : Reg.CAL_IDLE n ≠ Reg.CV_STAT := by simp only [Reg.CAL_IDLE, Reg.CV_STAT]; omega
  have hocc : Reg.EV_OCC 23 ≠ Reg.CAL_IDLE n := by simp only [Reg.CAL_IDLE, Reg.EV_OCC]; omega
  have hflag : ∀ f : BitField, (s.wr (Reg.CAL_IDLE n) (fig.setWidth 32)).flag Reg.CV_STAT f = s.flag Reg.CV_STAT f := 
    State.flag_congr (State.rd_wr_ne s _ hstat.symm)
  unfold State.idleFigure
  by_cases hlow : fig.toNat < idleLimit
  · simp only [hlow, if_true]
    refine ⟨by simp, fun a ha h1 h2 => ?_, fun f hf => ?_, ?_, ?_⟩
    · rw [State.raiseD_rd _ _ _ _ _ _ _ (by decide) ha, State.rd_setFlag_ne _ _ _ h1, State.rd_wr_ne _ _ h2]
    · rw [State.raiseD_flag _ _ _ _ _ _ _ _ (by decide) (by decide),
        State.flag_setFlag_disjoint _ _ _ _ (by decide) (by simpa [or_comm] using hf), hflag]
    · rw [State.raiseD_rd _ _ _ _ _ _ _ (by decide) hev, State.rd_setFlag_ne _ _ _ hstat, State.rd_wr_same]
    · rw [State.raiseD_occ _ _ _ _ _ _ (by decide), State.rd_setFlag_ne _ _ _ (by decide), State.rd_wr_ne _ _ hocc]
  · simp only [hlow, if_false]
    exact ⟨rfl, fun a _ _ h2 => State.rd_wr_ne _ _ h2, fun f _ => hflag f, State.rd_wr_same _ _ _, by simp [State.rd_wr_ne _ _ hocc]⟩

/-- The figures of the modulators from `b + k` on have been taken. -/
structure FiguresTaken (b k : Nat) (figs : List (BitVec 16)) (s u : State) : Prop where
  fe : u.fe = s.fe
  rd : ∀ a, eventReg a = false → a ≠ Reg.CV_STAT → (∀ i, i < figs.length → a ≠ Reg.CAL_IDLE (b + k + i)) → u.rd a = s.rd a
  flag : ∀ f : BitField, f.hi < 3 ∨ 3 < f.lo → u.flag Reg.CV_STAT f = s.flag Reg.CV_STAT f
  idle : ∀ i, i < figs.length → u.rd (Reg.CAL_IDLE (b + k + i)) = (figs.getD i 0).setWidth 32
  occ : u.rd (Reg.EV_OCC 23) = s.rd (Reg.EV_OCC 23) + word (figs.filter (fun g => decide (g.toNat < idleLimit))).length

theorem State.takeFigures_taken (b k : Nat) (figs : List (BitVec 16)) (s : State) (hroom : b + k + figs.length ≤ 256) :
    FiguresTaken b k figs s (s.takeFigures b k figs) := by
  induction figs generalizing s k with
  | nil => exact ⟨rfl, fun _ _ _ _ => rfl, fun _ _ => rfl, fun i hi => absurd hi (Nat.not_lt_zero i), by simp [State.takeFigures, word]⟩
  | cons g t ih =>
    simp only [List.length_cons] at hroom
    obtain ⟨hfe, hrd, hflag, hidle, hocc⟩ := s.idleFigure_spec (b + k) g (by omega)
    have htail := ih (k + 1) (s.idleFigure (b + k) g) (by omega)
    have hshift : ∀ i, b + (k + 1) + i = b + k + (i + 1) := fun i => by omega
    have hev : eventReg (Reg.CAL_IDLE (b + k)) = false := by simp [eventReg, Reg.CAL_IDLE]; omega
    refine ⟨htail.fe.trans hfe, fun a ha h1 h2 => ?_, fun f hf => (htail.flag f hf).trans (hflag f hf), fun i hi => ?_, ?_⟩
    · refine (htail.rd a ha h1 fun i hi => ?_).trans (hrd a ha h1 (h2 0 (by simp)))
      rw [hshift]
      exact h2 (i + 1) (by simpa using hi)
    · cases i with
      | zero =>
        refine (htail.rd _ hev (by simp only [Reg.CAL_IDLE, Reg.CV_STAT]; omega) fun i _ => ?_).trans hidle
        simp only [Reg.CAL_IDLE]; omega
      | succ i =>
        have := htail.idle i (by simpa using hi)
        rwa [hshift] at this
    · refine htail.occ.trans ?_
      rw [hocc]
      by_cases hlow : g.toNat < idleLimit
      · simp only [hlow, decide_true, List.filter_cons_of_pos, List.length_cons, word, BitVec.ofNat_add, if_true, BitVec.ofNat_eq_ofNat]
        ac_rfl
      · simp [hlow]

/-! ## The end of a die's trim -/

/-- What follows the note of a die's end: its figures, the busy and quality bits, and with the second die the end of the request. -/
def State.endTrim (s : State) (d : Nat) (figs : List (BitVec 16)) : State :=
  let v := s.takeFigures (128 * d) 0 (figs.take 128)
  let u := (v.setFlag Reg.CV_STAT Fld.CV_STAT_trim_low (v.anyIdleLow d)).noteTrim
  if u.fe.trimA || u.fe.trimB then u else u.setFlag Reg.CV_CTL Fld.CV_CTL_retrim false

theorem trimComplete_a {s : State} (figs : List (BitVec 16)) (htrim : s.fe.trimA = true) (hlink : s.dieLink 0 = true) :
    trimComplete .a figs s
      = ({ s with fe := { s.fe with trimA := false } }.setFlag Reg.CV_STAT Fld.CV_STAT_trim_a_done true).endTrim 0 figs := by
  simp only [trimComplete, dieNo, htrim, hlink, if_true, Bool.not_true, Bool.or_self, Bool.false_eq_true, if_false]
  rfl

theorem trimComplete_b {s : State} (figs : List (BitVec 16)) (htrim : s.fe.trimB = true) (hlink : s.dieLink 1 = true) :
    trimComplete .b figs s
      = ({ s with fe := { s.fe with trimB := false } }.setFlag Reg.CV_STAT Fld.CV_STAT_trim_b_done true).endTrim 1 figs := by
  simp only [trimComplete, dieNo, htrim, hlink, Bool.not_true, Bool.or_self, Bool.false_eq_true, if_false, Nat.one_ne_zero]
  rfl

theorem State.anyIdleLow_congr {s u : State} (h : ∀ i, u.rd (Reg.CAL_IDLE i) = s.rd (Reg.CAL_IDLE i)) (d : Nat) :
    u.anyIdleLow d = s.anyIdleLow d := by
  have hwords : (fun n => (n / 128 == d || u.rdN (Reg.CAL_IDLE n) != 0) && decide (u.rdN (Reg.CAL_IDLE n) < idleLimit))
      = fun n => (n / 128 == d || s.rdN (Reg.CAL_IDLE n) != 0) && decide (s.rdN (Reg.CAL_IDLE n) < idleLimit) := by
    funext n
    rw [State.rdN, State.rdN, h]
  exact congrArg (List.any (List.range 256)) hwords

theorem State.dieLink_congr {s u : State} (h : u.rd Reg.FE_STAT = s.rd Reg.FE_STAT) (d : Nat) : u.dieLink d = s.dieLink d := by
  simp only [State.dieLink, State.flag, State.fget, h]

theorem eventReg_calIdle {i : Nat} (hi : i < 256) : eventReg (Reg.CAL_IDLE i) = false := by
  simp [eventReg, Reg.CAL_IDLE]; omega

/-- What the end of a die's trim leaves (R97 to R100). -/
structure TrimEnded (d : Nat) (figs : List (BitVec 16)) (s u : State) : Prop where
  fe : u.fe = s.fe
  done : ∀ f : BitField, 3 < f.lo → u.flag Reg.CV_STAT f = s.flag Reg.CV_STAT f
  busy : u.flag Reg.CV_STAT Fld.CV_STAT_trim_busy = ((s.fe.trimA && s.dieLink 0) || (s.fe.trimB && s.dieLink 1))
  retrim : u.flag Reg.CV_CTL Fld.CV_CTL_retrim = (s.flag Reg.CV_CTL Fld.CV_CTL_retrim && (s.fe.trimA || s.fe.trimB))
  idle : ∀ i, i < 128 → u.rd (Reg.CAL_IDLE (128 * d + i)) = (figs.getD i 0).setWidth 32
  others : ∀ i, i < 256 → i / 128 ≠ d → u.rd (Reg.CAL_IDLE i) = s.rd (Reg.CAL_IDLE i)
  low : u.flag Reg.CV_STAT Fld.CV_STAT_trim_low = u.anyIdleLow d
  occ : u.rd (Reg.EV_OCC 23) = s.rd (Reg.EV_OCC 23) + word (figs.filter (fun g => decide (g.toNat < idleLimit))).length

theorem State.endTrim_ended (s : State) {d : Nat} {figs : List (BitVec 16)} (hd : d < 2) (hlen : figs.length = 128) :
    TrimEnded d figs s (s.endTrim d figs) := by
  have htake : figs.take 128 = figs := by rw [← hlen, List.take_length]
  have hfigs := s.takeFigures_taken (128 * d) 0 figs (by omega)
  unfold State.endTrim
  simp only [htake]
  generalize s.takeFigures (128 * d) 0 figs = v at hfigs ⊢
  have hlink : v.rd Reg.FE_STAT = s.rd Reg.FE_STAT :=
    hfigs.rd _ (by decide) (by decide) fun i _ => by simp only [Reg.FE_STAT, Reg.CAL_IDLE]; omega
  have hctl : v.rd Reg.CV_CTL = s.rd Reg.CV_CTL :=
    hfigs.rd _ (by decide) (by decide) fun i _ => by simp only [Reg.CV_CTL, Reg.CAL_IDLE]; omega
  generalize hu : (v.setFlag Reg.CV_STAT Fld.CV_STAT_trim_low (v.anyIdleLow d)).noteTrim = u
  have hfe : u.fe = s.fe := by rw [← hu]; exact hfigs.fe
  have hrd : ∀ a, a ≠ Reg.CV_STAT → u.rd a = v.rd a := fun a ha => by
    rw [← hu, State.noteTrim, State.rd_setFlag_ne _ _ _ ha, State.rd_setFlag_ne _ _ _ ha]
  have hbusy : u.flag Reg.CV_STAT Fld.CV_STAT_trim_busy = ((s.fe.trimA && s.dieLink 0) || (s.fe.trimB && s.dieLink 1)) := by
    rw [← hu, State.noteTrim, State.flag_setFlag_same _ _ _ (by decide) (by decide), State.setFlag_fe, hfigs.fe,
      State.dieLink_congr (State.rd_setFlag_ne v _ _ (by decide)), State.dieLink_congr (State.rd_setFlag_ne v _ _ (by decide)),
      State.dieLink_congr hlink, State.dieLink_congr hlink]
  have hlow : u.flag Reg.CV_STAT Fld.CV_STAT_trim_low = v.anyIdleLow d := by
    rw [← hu, State.noteTrim, State.flag_setFlag_disjoint _ _ _ _ (by decide) (by decide),
      State.flag_setFlag_same _ _ _ (by decide) (by decide)]
  have hdone : ∀ f : BitField, 3 < f.lo → u.flag Reg.CV_STAT f = s.flag Reg.CV_STAT f := fun f hf => by
    rw [← hu, State.noteTrim, State.flag_setFlag_disjoint _ _ _ _ (by decide) (.inl (Nat.lt_trans (by decide) hf)),
      State.flag_setFlag_disjoint _ _ _ _ (by decide) (.inl hf), hfigs.flag f (.inr hf)]
  have hidle : ∀ i, i < 128 → v.rd (Reg.CAL_IDLE (128 * d + i)) = (figs.getD i 0).setWidth 32 := fun i hi => by
    simpa using hfigs.idle i (by omega)
  have hothers : ∀ i, i < 256 → i / 128 ≠ d → v.rd (Reg.CAL_IDLE i) = s.rd (Reg.CAL_IDLE i) := fun i hi hne =>
    hfigs.rd _ (eventReg_calIdle hi) (by simp only [Reg.CAL_IDLE, Reg.CV_STAT]; omega) fun j hj => by
      simp only [Reg.CAL_IDLE]; omega
  have key : ∀ w : State, w.fe = u.fe → (∀ a, a ≠ Reg.CV_CTL → w.rd a = u.rd a) →
      w.flag Reg.CV_CTL Fld.CV_CTL_retrim = (s.flag Reg.CV_CTL Fld.CV_CTL_retrim && (s.fe.trimA || s.fe.trimB)) →
      TrimEnded d figs s w := fun w hwfe hwrd hwretrim => by
    have hcal : ∀ i, w.rd (Reg.CAL_IDLE i) = v.rd (Reg.CAL_IDLE i) := fun i =>
      (hwrd _ (by simp only [Reg.CAL_IDLE, Reg.CV_CTL]; omega)).trans (hrd _ (by simp only [Reg.CAL_IDLE, Reg.CV_STAT]; omega))
    have hstat : ∀ f, w.flag Reg.CV_STAT f = u.flag Reg.CV_STAT f := 
      State.flag_congr (hwrd Reg.CV_STAT (by decide))
    exact ⟨hwfe.trans hfe, fun f hf => (hstat f).trans (hdone f hf), (hstat _).trans hbusy, hwretrim,
      fun i hi => (hcal _).trans (hidle i hi), fun i hi hne => (hcal i).trans (hothers i hi hne),
      by rw [hstat, hlow, State.anyIdleLow_congr hcal], by rw [hwrd _ (by decide), hrd _ (by decide), hfigs.occ]⟩
  rw [hfe]
  split
  · rename_i hmore
    refine key u rfl (fun _ _ => rfl) ?_
    rw [hmore, Bool.and_true]
    exact State.flag_congr ((hrd _ (by decide)).trans hctl) _
  · rename_i hlast
    refine key _ rfl (fun a ha => State.rd_setFlag_ne _ _ _ ha) ?_
    rw [State.flag_setFlag_same _ _ _ (by decide) (by decide), Bool.eq_false_iff.mpr hlast, Bool.and_false]

/-- Settles O6: a trim that ends is its figures and the bits of CV_STAT and CV_CTL; every other clause is one branch of its command. -/
theorem trimsAndSettling : Obligations.TrimsAndSettling := by
  refine ⟨?_, fun s => ⟨Becomes.of rfl rfl, Becomes.of rfl rfl, Becomes.of rfl rfl, Becomes.of rfl rfl⟩⟩
  intro s n figs low
  refine ⟨fun htrim hlink hlen => Ends.of (v := trimComplete .a figs s) rfl ?_, fun htrim hlink hlen => Ends.of (v := trimComplete .b figs s) rfl ?_, fun htrim => Becomes.of rfl ?_, fun htrim => Becomes.of rfl ?_,
    fun hend => Becomes.of rfl ?_, fun hend => Becomes.of rfl ?_⟩
  · rw [trimComplete_a figs htrim hlink]
    generalize hw : ({ s with fe := { s.fe with trimA := false } }.setFlag Reg.CV_STAT Fld.CV_STAT_trim_a_done true) = w
    have hstat : ∀ a, a ≠ Reg.CV_STAT → w.rd a = s.rd a := fun a ha => hw ▸ State.rd_setFlag_ne _ _ _ ha
    have hfe : w.fe = { s.fe with trimA := false } := hw ▸ rfl
    have hdone : w.flag Reg.CV_STAT Fld.CV_STAT_trim_a_done = true := hw ▸ State.flag_setFlag_same _ _ _ (by decide) (by decide) _
    have hend := w.endTrim_ended (d := 0) (by decide) hlen
    refine ⟨by rw [hend.fe, hfe], by rw [hend.fe, hfe], (hend.done _ (by decide)).trans hdone, ?_, ?_,
      fun i hi => ⟨by simpa using hend.idle i hi, ?_⟩, hend.low, hend.occ.trans (by rw [hstat _ (by decide)])⟩
    · simp [hend.busy, hfe, State.dieLink_congr (hstat _ (by decide))]
    · simp only [hend.retrim, hfe, State.flag_congr (hstat Reg.CV_CTL (by decide)), Bool.false_or]
    · rw [hend.others (128 + i) (by omega) (by omega), hstat _ (by simp only [Reg.CAL_IDLE, Reg.CV_STAT]; omega)]
  · rw [trimComplete_b figs htrim hlink]
    generalize hw : ({ s with fe := { s.fe with trimB := false } }.setFlag Reg.CV_STAT Fld.CV_STAT_trim_b_done true) = w
    have hstat : ∀ a, a ≠ Reg.CV_STAT → w.rd a = s.rd a := fun a ha => hw ▸ State.rd_setFlag_ne _ _ _ ha
    have hfe : w.fe = { s.fe with trimB := false } := hw ▸ rfl
    have hdone : w.flag Reg.CV_STAT Fld.CV_STAT_trim_b_done = true := hw ▸ State.flag_setFlag_same _ _ _ (by decide) (by decide) _
    have hend := w.endTrim_ended (d := 1) (by decide) hlen
    refine ⟨by rw [hend.fe, hfe], by rw [hend.fe, hfe], (hend.done _ (by decide)).trans hdone, ?_, ?_,
      fun i hi => ⟨by simpa using hend.idle i hi, ?_⟩, hend.low, hend.occ.trans (by rw [hstat _ (by decide)])⟩
    · simp [hend.busy, hfe, State.dieLink_congr (hstat _ (by decide))]
    · simp only [hend.retrim, hfe, State.flag_congr (hstat Reg.CV_CTL (by decide)), Bool.or_false]
    · rw [hend.others i (by omega) (by omega), hstat _ (by simp only [Reg.CAL_IDLE, Reg.CV_STAT]; omega)]
  · simp [trimComplete, dieNo, htrim]
  · simp [trimComplete, dieNo, htrim]
  · simp only [settleCountExpire, if_pos hend, State.modIn]
  · rw [settleCountExpire, if_neg (by omega)]

end Sys2Proof.Machine
end

section
/-! SUPPORT. The gleaner's requests: what showing a waiting request and asking for a conversion leave. -/

namespace Sys2Proof.Machine

theorem kset_ne_nil {α : Type} (m : KMap α) (k : Nat) (v : α) : kset m k v ≠ [] := by
  cases m with
  | nil => simp [kset]
  | cons e t =>
    simp only [kset]
    split
    · simp
    · split <;> simp

@[simp] theorem State.glPend_gl (s : State) : s.glPend.gl = s.gl := (rfl)

theorem State.glPend_rd (s : State) {a : Nat} (h : a ≠ Reg.GL_STAT) : s.glPend.rd a = s.rd a := State.rd_setFlag_ne _ _ _ h

theorem State.glPend_flag_pend (s : State) :
    s.glPend.flag Reg.GL_STAT Fld.GL_STAT_pend = (!s.gl.timers.isEmpty || s.gl.reqDue.isSome) :=
  State.flag_setFlag_same _ _ _ (by decide) (by decide) _

@[simp] theorem State.glRequest_running (s : State) : s.glRequest.gl.running = s.gl.running := (rfl)

theorem State.glRequest_rd (s : State) {a : Nat} (h : a ≠ Reg.GL_STAT) : s.glRequest.rd a = s.rd a := State.glPend_rd _ h

/-- The judgement of a write to GL_REQ (R111), its conditions as propositions. -/
theorem glReq_eq (val : Word) (s : State) :
    let v := val &&& 0x80000F7F#32
    glReq val s =
      if 0x5F < BitField.get Fld.GL_REQ_target v then s.accErr true Reg.GL_REQ
      else if BitField.get Fld.GL_REQ_go v = 0 then s.wr Reg.GL_REQ (v ||| (s.rd Reg.GL_REQ &&& 0x80000000#32))
      else if s.flag Reg.GL_REQ Fld.GL_REQ_go = true ∨ s.pw.reqGlean = true ∨ (s.inIdle = false ∧ s.inRun = false) then
        s.accErr true Reg.GL_REQ
      else (s.wr Reg.GL_REQ v).glRequest := by
  simp only [glReq, Bool.not_eq_true', bne_eq_false_iff_eq, Bool.or_eq_true, Bool.or_eq_false_iff, or_assoc]
  simp only [or_comm (a := s.inIdle = false ∧ s.inRun = false)]
  rfl

/-- A start of a schedule entry whose frame has come (R108). -/
theorem gleanerScheduleStart_eq (i : BitVec 5) (s : State) :
    let e := i.toNat
    let k := s.fr.nextTick - 1
    let sub := s.fget (Reg.GL_SCHEDB e) Fld.GL_SCHEDB_sub
    gleanerScheduleStart i s =
      if s.inRun = true ∧ s.running = true ∧ s.schedValid e = true ∧ s.schedG ≠ 0 ∧ k % s.schedG = s.schedF e ∧ s.fr.tickS ≤ k
          ∧ s.gl.running = none then
        if s.targetOk (s.schedTarget e) sub = true then s.glStart (s.schedTarget e) sub 0 0 (s.tickTime k + (s.schedSlot e : Int) * slotU)
        else s.glDrop (s.schedTarget e) 0 true
      else s := by
  simp only [gleanerScheduleStart, Bool.and_eq_true, and_assoc, decide_eq_true_eq, bne_iff_ne, beq_iff_eq, Option.isNone_iff_eq_none]

/-- A write outside TB_RATE leaves corrected time as it is. -/
theorem State.wr_now (s : State) (w : Word) {a : Nat} (h : Reg.TB_RATE_LO ≠ a) (h' : Reg.TB_RATE_LO + 4 ≠ a) : (s.wr a w).now = s.now := by
  simp only [State.now, State.corrOf, State.corr64, State.rate, State.rd64_wr_ne s w h h', State.wr_tb]

end Sys2Proof.Machine
end

section
/-! PROOF. Requests of the gleaner (R108, R110, R111). -/

namespace Sys2Proof.Machine

/-- Settles O7: each clause is one branch of its command. -/
theorem gleanerRequests : Obligations.GleanerRequests := by
  intro s i j t val e k sub ready due v
  refine ⟨fun hready hok => Becomes.of rfl ?_, fun hready hok => Becomes.of rfl ?_,
    fun hon hen hseen hfree => Ends.of (v := glEdgeTrigger j t s) rfl ?_,
    fun d hon hen hseen hbusy => Becomes.of rfl ?_, fun hseen => Becomes.of rfl ?_,
    fun htarget => Ends.of (v := glEdgeWrite j val s) rfl ?_, fun htarget => Becomes.of rfl ?_,
    fun htarget hgo hclear hpower hglean => Ends.of (v := glReq val s) rfl ?_, fun htarget hgo hbusy => Becomes.of rfl ?_,
    fun htarget hgo => Becomes.of rfl ?_, fun htarget => Becomes.of rfl ?_⟩
  · rw [gleanerScheduleStart_eq, if_pos hready, if_pos hok]
  · rw [gleanerScheduleStart_eq, if_pos hready, if_neg (Bool.eq_false_iff.mp hok)]
  · simp only [glEdgeTrigger, hon, hen, hseen, hfree, Bool.and_self, Bool.not_true, Bool.false_eq_true, if_false, Option.isSome_none]
    refine ⟨rfl, rfl, ?_⟩
    rw [State.glPend_flag_pend]
    simp [kset_ne_nil]
  · simp [glEdgeTrigger, hon, hen, hseen, hbusy, State.edgeField]
  · simp [glEdgeTrigger, hseen]
  · have hstat : Reg.GL_EDGE j.toNat ≠ Reg.GL_STAT := by simp only [Reg.GL_EDGE, Reg.GL_STAT]; omega
    rw [glEdgeWrite, if_neg (by omega)]
    exact ⟨(State.glPend_rd _ hstat).trans (State.rd_wr_same _ _ _), kget?_kerase_same _ _, fun m hm => kget?_kerase_ne _ hm⟩
  · rw [glEdgeWrite, if_pos htarget]
  · have hopen : ¬ (s.flag Reg.GL_REQ Fld.GL_REQ_go = true ∨ s.pw.reqGlean = true ∨ (s.inIdle = false ∧ s.inRun = false)) := by
      rcases hpower with h | h <;> simp [hclear, hglean, h]
    rw [glReq_eq, if_neg (Nat.not_lt.mpr htarget), if_neg hgo, if_neg hopen]
    refine ⟨(State.glRequest_rd _ (by decide)).trans (State.rd_wr_same _ _ _), rfl, ?_⟩
    rw [← State.wr_now s v (show Reg.TB_RATE_LO ≠ Reg.GL_REQ by decide) (by decide)]
    rfl
  · rw [glReq_eq, if_neg (Nat.not_lt.mpr htarget), if_neg hgo, if_pos hbusy]
  · rw [glReq_eq, if_neg (Nat.not_lt.mpr htarget), if_pos hgo]
  · rw [glReq_eq, if_pos htarget]

end Sys2Proof.Machine
end

section
/-! SUPPORT. The gleaner's due requests and the end of a conversion: what they touch. -/

namespace Sys2Proof.Machine

/-- A request that is due at `t`, its conditions as propositions (R107, R112). -/
theorem State.glDue_eq (s : State) (target sub source edge rank : Nat) (t : Int) :
    s.glDue target sub source edge (rank + 1) t =
      if s.gl.running = none ∧ s.outranked rank t = false ∧ (s.nextEntry t).all (fun x => decide (t + convU ≤ x)) = true then
        if s.targetOk target sub = true then s.glStart target sub source edge t else s.glDrop target (rank + 1) true
      else s.glDrop target (rank + 1) false := by
  unfold State.glDue
  cases hrun : s.gl.running with
  | some c => simp
  | none =>
    cases hout : s.outranked rank t with
    | true => simp [hout]
    | false =>
      cases hnext : s.nextEntry t with
      | none => cases hok : s.targetOk target sub <;> simp [hout]
      | some x =>
        by_cases hlate : x < t + convU
        · simp [hout, hlate, Int.not_le.mpr hlate]
        · cases hok : s.targetOk target sub <;> simp [hout, hlate, Int.not_lt.mp hlate]

/-- Beside GL_STAT but for its busy bit, the words that lit beacons show and what an event changes, the gleaner stands. -/
structure ResultKept (s u : State) : Prop where
  running : u.gl.running = s.gl.running
  busy : u.flag Reg.GL_STAT Fld.GL_STAT_busy = s.flag Reg.GL_STAT Fld.GL_STAT_busy
  rd : ∀ a, eventReg a = false → a ≠ Reg.GL_STAT → a ≠ Reg.BC_STAT → a ≠ Reg.BC_SCALE → u.rd a = s.rd a

theorem ResultKept.refl (s : State) : ResultKept s s := ⟨rfl, rfl, fun _ _ _ _ _ => rfl⟩

theorem ResultKept.trans {s u v : State} (h : ResultKept s u) (k : ResultKept u v) : ResultKept s v :=
  ⟨k.running.trans h.running, k.busy.trans h.busy, fun a h1 h2 h3 h4 => (k.rd a h1 h2 h3 h4).trans (h.rd a h1 h2 h3 h4)⟩

/-- What leaves the gleaner and every register alone. -/
theorem ResultKept.of_regs {s u : State} (hgl : u.gl.running = s.gl.running) (hregs : u.regs = s.regs) : ResultKept s u :=
  ⟨hgl, State.flag_congr (State.rd_congr hregs _) _, fun a _ _ _ _ => State.rd_congr hregs a⟩

theorem ResultKept.raiseD (s : State) (n obj cause aux8 : Nat) (data : Word64) (hn : n < 64) :
    ResultKept s (s.raiseD n obj cause aux8 data) :=
  ⟨by rw [State.raiseD_gl _ _ _ _ _ _ hn], State.raiseD_flag _ _ _ _ _ _ _ _ hn (by decide), fun a h _ _ _ => State.raiseD_rd _ _ _ _ _ _ a hn h⟩

theorem ResultKept.wr (s : State) {a : Nat} (w : Word) (h : a = Reg.BC_STAT ∨ a = Reg.BC_SCALE) : ResultKept s (s.wr a w) := by
  refine ⟨rfl, State.flag_congr (State.rd_wr_ne _ _ ?_) _, fun b _ _ h1 h2 => State.rd_wr_ne _ _ ?_⟩
  · rcases h with rfl | rfl <;> decide
  · rcases h with rfl | rfl <;> assumption

theorem ResultKept.lightSinks (s : State) : ResultKept s s.lightSinks := by
  obtain ⟨m, w1, w2, w3, hlight⟩ := s.lightSinks_eq
  rw [hlight]
  exact (((ResultKept.of_regs (s := s) (u := { s with bc := { s.bc with sinks := m } }) rfl rfl).trans (.wr _ _ (.inl rfl))).trans
    (.wr _ _ (.inl rfl))).trans (.wr _ _ (.inr rfl))

theorem ResultKept.ntcResult (s : State) (raw : Int) (frame : Nat) : ResultKept s (s.ntcResult raw frame) := by
  have hscale : ∀ x w, ResultKept s (({ s with bc := x } : State).wr Reg.BC_SCALE w) := fun x w =>
    ResultKept.trans (u := { s with bc := x }) (.of_regs rfl rfl) (.wr _ _ (.inr rfl))
  unfold State.ntcResult
  simp only []
  split
  · split
    · exact hscale _ _
    · exact ((((hscale _ _).trans (.wr _ _ (.inl rfl))).trans (.wr _ _ (.inl rfl))).trans (.lightSinks _)).trans (.raiseD _ _ _ _ _ _ (by decide))
  · split
    · exact ((hscale _ _).trans (.wr _ _ (.inl rfl))).trans (.lightSinks _)
    · exact hscale _ _

theorem ResultKept.refNext (s : State) (result : Nat) : ResultKept s (s.refNext result) := by
  unfold State.refNext
  refine ite_both (ResultKept s) _ _ _ (.of_regs rfl rfl) ?_
  exact ⟨rfl, State.flag_setFlag_disjoint _ _ _ _ (by decide) (by decide) _, fun a _ h _ _ => State.rd_setFlag_ne _ _ _ h⟩

/-- What follows a conversion's result: the limit's event, the lead's result, the reference check, the beacons' temperature. -/
def State.noteResult (s : State) (c : Conv) (t : Nat) (v : Int) (f : Nat) (sat high news : Bool) : State :=
  let s := if news then s.raiseD 18 t (b2n high) 0 (BitVec.ofInt 64 v) else s
  let s := if isLead t && f != 0 then { s with fe := { s.fe with leadRes := s.fe.leadRes ++ [(t, v, sat)] } } else s
  let s := if c.source = 2 && s.gl.reqDue.isNone && s.pw.reqTargets.head? == some t then s.refNext (refResult t v sat) else s
  if t = 0x5A then s.ntcResult v f else s

theorem ResultKept.noteResult (s : State) (c : Conv) (t : Nat) (v : Int) (f : Nat) (sat high news : Bool) :
    ResultKept s (s.noteResult c t v f sat high news) := by
  have hstep : ∀ (u v : State) (q : Prop) [Decidable q], ResultKept s u → ResultKept u v → ResultKept s (if q then v else u) :=
    fun u v q _ h k => ite_both (ResultKept s) _ _ _ (h.trans k) h
  unfold State.noteResult
  exact hstep _ _ _ (hstep _ _ _ (hstep _ _ _ (hstep _ _ _ (.refl s) (.raiseD _ _ _ _ _ _ (by decide))) (.of_regs rfl rfl)) (.refNext _ _))
    (.ntcResult _ _ _)

theorem State.glStart_running (s : State) (target sub source edge : Nat) (t : Int) :
    (s.glStart target sub source edge t).gl.running = some { target := target, sub := sub, source := source, edge := edge, start := t } := by
  unfold State.glStart
  exact ite_both (fun u : State => u.gl.running = _) _ _ _ rfl rfl

theorem State.glIdle_busy (s : State) : s.glIdle.flag Reg.GL_STAT Fld.GL_STAT_busy = false := by
  rw [State.glIdle, State.flag, State.fget_fput_disjoint _ _ _ _ (by decide) (by decide), ← State.flag,
    State.flag_setFlag_same _ _ _ (by decide) (by decide)]

theorem State.glIdle_rd (s : State) {a : Nat} (h : a ≠ Reg.GL_STAT) : s.glIdle.rd a = s.rd a :=
  (State.rd_fput_ne _ _ _ h).trans (State.rd_setFlag_ne _ _ _ h)

/-- The registers of a result: the target's words, then those of the latest result. -/
theorem State.glResult_rd (s : State) {t : Nat} (ht : t < 96) (v info rinfo : Word) (f : Word64) :
    let u := ((((s.wr (Reg.GL_TGT_VAL t) v).wr (Reg.GL_TGT_INFO t) info).wr Reg.GL_RES_VAL v).wr Reg.GL_RES_INFO rinfo).wr64 Reg.GL_RES_FRM_LO f
    u.rd (Reg.GL_TGT_VAL t) = v ∧ u.rd (Reg.GL_TGT_INFO t) = info ∧ u.rd Reg.GL_RES_VAL = v ∧ u.rd Reg.GL_STAT = s.rd Reg.GL_STAT := by
  have hval : ∀ a, a < 0x3100 → Reg.GL_TGT_VAL t ≠ a ∧ Reg.GL_TGT_INFO t ≠ a := fun a ha => by
    simp only [Reg.GL_TGT_VAL, Reg.GL_TGT_INFO]; omega
  have hpair : Reg.GL_TGT_VAL t ≠ Reg.GL_TGT_INFO t := by simp only [Reg.GL_TGT_VAL, Reg.GL_TGT_INFO]; omega
  have hlow : ∀ a, a < 0x3100 → a ≠ Reg.GL_TGT_VAL t ∧ a ≠ Reg.GL_TGT_INFO t := fun a ha => ⟨(hval a ha).1.symm, (hval a ha).2.symm⟩
  refine ⟨?_, ?_, ?_, ?_⟩
  · rw [State.rd_wr64_ne _ _ (hval _ (by decide)).1 (hval _ (by decide)).1, State.rd_wr_ne _ _ (hval _ (by decide)).1,
      State.rd_wr_ne _ _ (hval _ (by decide)).1, State.rd_wr_ne _ _ hpair, State.rd_wr_same]
  · rw [State.rd_wr64_ne _ _ (hval _ (by decide)).2 (hval _ (by decide)).2, State.rd_wr_ne _ _ (hval _ (by decide)).2,
      State.rd_wr_ne _ _ (hval _ (by decide)).2, State.rd_wr_same]
  · rw [State.rd_wr64_ne _ _ (by decide) (by decide), State.rd_wr_ne _ _ (by decide), State.rd_wr_same]
  · rw [State.rd_wr64_ne _ _ (by decide) (by decide), State.rd_wr_ne _ _ (by decide), State.rd_wr_ne _ _ (by decide),
      State.rd_wr_ne _ _ (hlow _ (by decide)).2, State.rd_wr_ne _ _ (hlow _ (by decide)).1]

theorem tgtInfo_seq {f seq sub : Nat} (hseq : seq < 256) (hsub : sub < 16) (sat lim : Bool) :
    BitField.get Fld.GL_TGT_INFO_seq (word (f % 65536 * 65536 + seq * 256 + sub * 16 + 4 + b2n sat * 2 + b2n lim)) = seq := by
  have hsat : b2n sat < 2 := by cases sat <;> decide
  have hlim : b2n lim < 2 := by cases lim <;> decide
  simp only [BitField.get, word, BitVec.toNat_ofNat]
  omega

end Sys2Proof.Machine
end

section
/-! PROOF. Conversions of the gleaner (R107, R110 to R113). -/

namespace Sys2Proof.Machine

/-- A request that is not free to start has one of three reasons. -/
theorem glDue_blocked {s : State} {rank : Nat} {t : Int}
    (h : s.gl.running ≠ none ∨ s.outranked rank t = true ∨ (s.nextEntry t).all (fun x => decide (t + convU ≤ x)) = false) :
    ¬ (s.gl.running = none ∧ s.outranked rank t = false ∧ (s.nextEntry t).all (fun x => decide (t + convU ≤ x)) = true) := by
  rintro ⟨hrun, hout, hall⟩
  rcases h with h | h | h
  · exact h hrun
  · simp [hout] at h
  · simp [hall] at h

theorem gleanerConversionDone_result {s : State} {c : Conv} (raw : BitVec 32) (sat : Bool) (hc : s.gl.running = some c)
    (ht : c.target < 96) (hsub : c.sub < 16) :
    let u := gleanerConversionDone raw sat s
    u.rd (Reg.GL_TGT_VAL c.target) = wordI (s.glValue c.target raw.toInt sat)
      ∧ u.rd Reg.GL_RES_VAL = wordI (s.glValue c.target raw.toInt sat)
      ∧ u.fget (Reg.GL_TGT_INFO c.target) Fld.GL_TGT_INFO_seq = (s.fget (Reg.GL_TGT_INFO c.target) Fld.GL_TGT_INFO_seq + 1) % 256
      ∧ u.flag Reg.GL_STAT Fld.GL_STAT_busy = false ∧ u.gl.running = none := by
  obtain ⟨info, rinfo, f, frame, high, news, frames, hu, hseq⟩ : ∃ info rinfo f frame high news frames,
      gleanerConversionDone raw sat s
        = State.noteResult ((((({ s.glIdle with gl := { s.glIdle.gl with resFrame := frames } } : State).wr (Reg.GL_TGT_VAL c.target)
            (wordI (s.glValue c.target raw.toInt sat))).wr (Reg.GL_TGT_INFO c.target) info).wr Reg.GL_RES_VAL
            (wordI (s.glValue c.target raw.toInt sat))).wr Reg.GL_RES_INFO rinfo |>.wr64 Reg.GL_RES_FRM_LO f)
          c c.target (s.glValue c.target raw.toInt sat) frame sat high news
      ∧ BitField.get Fld.GL_TGT_INFO_seq info = (s.glIdle.fget (Reg.GL_TGT_INFO c.target) Fld.GL_TGT_INFO_seq + 1) % 256 := by
    have hsub' : (if isSense c.target then c.sub else 0) < 16 := ite_both (· < 16) _ _ _ hsub (by decide)
    refine ⟨?_, ?_, ?_, ?_, ?_, ?_, ?_, ?done, ?seq⟩
    case done =>
      simp only [gleanerConversionDone, hc]
      rfl
    case seq => exact tgtInfo_seq (Nat.mod_lt _ (by decide)) hsub' _ _
  generalize hv : ({ s.glIdle with gl := { s.glIdle.gl with resFrame := frames } } : State) = idle at hu
  have hidle : idle.gl.running = none := hv ▸ rfl
  have hbusy : idle.flag Reg.GL_STAT Fld.GL_STAT_busy = false := hv ▸ s.glIdle_busy
  obtain ⟨hval, hinfo, hres, hstat⟩ := idle.glResult_rd ht (wordI (s.glValue c.target raw.toInt sat)) info rinfo f
  have hkept := ResultKept.noteResult (((((idle.wr (Reg.GL_TGT_VAL c.target)
    (wordI (s.glValue c.target raw.toInt sat))).wr (Reg.GL_TGT_INFO c.target) info).wr Reg.GL_RES_VAL
    (wordI (s.glValue c.target raw.toInt sat))).wr Reg.GL_RES_INFO rinfo).wr64 Reg.GL_RES_FRM_LO f)
    c c.target (s.glValue c.target raw.toInt sat) frame sat high news
  have htgt : ∀ a, a = Reg.GL_TGT_VAL c.target ∨ a = Reg.GL_TGT_INFO c.target →
      eventReg a = false ∧ a ≠ Reg.GL_STAT ∧ a ≠ Reg.BC_STAT ∧ a ≠ Reg.BC_SCALE := fun a ha => by
    have hrange : 0x3400 ≤ a ∧ a < 0x3800 := by rcases ha with rfl | rfl <;> simp only [Reg.GL_TGT_VAL, Reg.GL_TGT_INFO] <;> omega
    simp only [eventReg, Reg.GL_STAT, Reg.BC_STAT, Reg.BC_SCALE, Bool.or_eq_false_iff, Bool.and_eq_false_iff, decide_eq_false_iff_not]
    omega
  rw [hu]
  refine ⟨?_, (hkept.rd _ (by decide) (by decide) (by decide) (by decide)).trans hres, ?_, ?_, hkept.running.trans hidle⟩
  · obtain ⟨h1, h2, h3, h4⟩ := htgt _ (.inl rfl)
    exact (hkept.rd _ h1 h2 h3 h4).trans hval
  · obtain ⟨h1, h2, h3, h4⟩ := htgt _ (.inr rfl)
    rw [State.fget, hkept.rd _ h1 h2 h3 h4, hinfo, hseq, State.fget_congr (s.glIdle_rd h2)]
  · rw [hkept.busy, State.flag_congr hstat, hbusy]

/-- Settles O8: a due request is judged by `glDue`, and what follows a conversion's result leaves the result standing. -/
theorem gleanerConversions : Obligations.GleanerConversions := by
  intro s j t c raw sat g rest clear u3 target sub u1 u2 rt rs
  have hedge : ∀ f, u1.edgeField j.toNat f = s.edgeField j.toNat f := fun f =>
    State.fget_congr (State.glPend_rd _ (by simp only [Reg.GL_EDGE, Reg.GL_STAT]; omega)) f
  have hexpire : kget? s.gl.timers j.toNat = some t → glEdgeTimerExpire j s = u1.glDue target sub 1 j.toNat (j.toNat + 1) t := fun htimer => by
    simp only [glEdgeTimerExpire, htimer]
    exact (congrArg (fun a => u1.glDue a _ 1 j.toNat (j.toNat + 1) t) (hedge _)).trans
      (congrArg (fun b => u1.glDue _ b 1 j.toNat (j.toNat + 1) t) (hedge _))
  refine ⟨fun htimer hidle hout hclear hok => Becomes.of rfl ?_, fun htimer hidle hout hclear hok => Becomes.of rfl ?_,
    fun htimer hblocked => Becomes.of rfl ?_, fun hdue hnone hon hidle hout hclear hok => Becomes.of rfl ?_,
    fun hdue hnone hblocked => Becomes.of rfl ?_, fun hdue hcheck hon hidle hout hclear hok => Becomes.of rfl ?_,
    fun hc ht hsub => Ends.of rfl (gleanerConversionDone_result raw sat hc ht hsub)⟩
  · rw [hexpire htimer, State.glDue_eq, if_pos ⟨hidle, hout, hclear⟩, if_pos hok]
  · rw [hexpire htimer, State.glDue_eq, if_pos ⟨hidle, hout, hclear⟩, if_neg (Bool.eq_false_iff.mp hok)]
  · rw [hexpire htimer, State.glDue_eq, if_neg (glDue_blocked hblocked)]
  · have hon' : u2.glOn = true := hon
    simp only [glReqDue, hdue, hnone]
    rw [if_pos hon', State.glDue_eq, if_pos ⟨hidle, hout, hclear⟩, if_pos hok]
  · simp only [glReqDue, hdue, hnone]
    split
    · rename_i hon
      have hoff : ¬ s.glOn = false := by rw [show s.glOn = true from hon]; decide
      rw [State.glDue_eq, if_neg (glDue_blocked (hblocked.resolve_left hoff))]
    · rfl
  · have hon' : u3.glOn = true := hon
    have hstart : u3.glDue g 0 2 0 5 t = u3.glStart g 0 2 0 t := by
      rw [State.glDue_eq, if_pos ⟨hidle, hout, hclear⟩, if_pos hok]
    simp only [glReqDue, hdue, hcheck]
    rw [if_pos hon', hstart, State.glStart_running, if_pos (by simp [hidle])]

end Sys2Proof.Machine
end

section
/-! PROOF. A commanded step of corrected time outside Run (R187). -/

namespace Sys2Proof.Machine

/-- An idle head in free run, one nanosecond staged in TB_SET, which still holds the stamps of a Sync. -/
def stepWithSync : State :=
  { State.reset with
    regs := [(Reg.TB_SET_NS, 1)]
    pw := { State.reset.pw with power := .idle }
    tb := { State.reset.tb with lastSync := some (0, 0) } }

/-- Refutes O9: a step moves the stamps that the hub holds with the time they are stated in, which the statement leaves where they
were. -/
theorem not_timeCommands : ¬ Obligations.TimeCommands := by
  intro h
  obtain ⟨u, ⟨htb, -, -⟩, hu⟩ := ((h.1 stepWithSync 0).2.1 (by decide +kernel) (by decide +kernel)).exists_supervise_eq
    (v := tbStepCmd stepWithSync) rfl
  have hsame : (tbStepCmd stepWithSync).tb = u.tb := by simpa using congrArg State.tb hu
  have hstamp : (tbStepCmd stepWithSync).tb.lastSync = some (0, 0) := by
    rw [hsame, htb]
    rfl
  exact absurd hstamp (by decide +kernel)

end Sys2Proof.Machine
end

section
/-! SUPPORT. The servo: what a change of its state leaves of time (R185, R186, R190). -/

namespace Sys2Proof.Machine

/-- A servo state is entered: its number shows, and of time only the count of measurements and the memory of a lock change. -/
structure ServoEntered (st : Nat) (s u : State) : Prop where
  state : u.fget Reg.TB_STAT Fld.TB_STAT_state = st
  tb : ∃ n b, u.tb = { s.tb with lockRun := n, lockedOnce := b }
  rd : ∀ a, eventReg a = false → a ≠ Reg.TB_STAT → a ≠ Reg.TB_SUM_HI → u.rd a = s.rd a
  pw : u.pw = s.pw
  fr : u.fr = s.fr

theorem State.servoTo_entered (s : State) {st : Nat} (theta : Int) (hst : st < 8) : ServoEntered st s (s.servoTo st theta) := by
  unfold State.servoTo
  extract_lets old shown summed time counted
  have base : ServoEntered st s summed := by
    refine ⟨?_, ⟨_, _, rfl⟩, fun a _ h h' => (State.rd_wr_ne _ _ h').trans (State.rd_fput_ne _ _ _ h), rfl, rfl⟩
    rw [State.fget_congr (State.rd_wr_ne _ _ (by decide)), State.fget_fput_same _ _ _ (by decide) (by decide)]
    exact Nat.mod_eq_of_lt hst
  have lift : ∀ u : State, ServoEntered st s u → ∀ n b,
      ServoEntered st s { u with tb := { u.tb with lockRun := n, lockedOnce := b } } := fun u hu n b => by
    obtain ⟨_, _, htb⟩ := hu.tb
    exact ⟨hu.state, ⟨n, b, by rw [htb]⟩, hu.rd, hu.pw, hu.fr⟩
  have hrun : ServoEntered st s counted := ite_both (ServoEntered st s) _ _ _ base (lift summed base 0 summed.tb.lockedOnce)
  refine ite_both (ServoEntered st s) _ _ _ ?_ (ite_both (ServoEntered st s) _ _ _ (lift counted hrun counted.tb.lockRun true) hrun)
  refine ⟨?_, ?_, fun a h h' h'' => ?_, ?_, ?_⟩
  · rw [State.raiseD_fget _ _ _ _ _ _ _ _ (by decide) (by decide), State.setFlag, State.fget_fput_disjoint _ _ _ _ (by decide) (by decide)]
    exact hrun.state
  · simpa using hrun.tb
  · rw [State.raiseD_rd _ _ _ _ _ _ _ (by decide) h, State.rd_setFlag_ne _ _ _ h', hrun.rd a h h' h'']
  · simpa using hrun.pw
  · simpa using hrun.fr

theorem State.setRate_rd64 (s : State) (r : Int) : (s.setRate r).rd64 Reg.TB_RATE_LO = BitVec.ofInt 64 (clampRate r) :=
  State.rd64_wr64_same _ _ _

theorem State.setRate_rd (s : State) (r : Int) {a : Nat} (h : a ≠ Reg.TB_RATE_LO) (h' : a ≠ Reg.TB_RATE_LO + 4) :
    (s.setRate r).rd a = s.rd a := State.rd_wr64_ne _ _ h h'

end Sys2Proof.Machine
end

section
/-! PROOF. The reference clock, PPS in and out, and holdover (R175, R176, R183, R184, R190). -/

namespace Sys2Proof.Machine

/-- What an edge of PPS_IN does (R183), its conditions as propositions. -/
theorem ppsInEdge_eq (st : Stamp) (falling : Bool) (s : State) :
    let r := rawOf st.count.toNat st.frac.toNat
    ppsInEdge st falling s =
      if s.alive = false ∨ falling ≠ s.flag Reg.TB_PPS Fld.TB_PPS_in_pol then s
      else if s.pw.headSel = false ∨ s.timeSrc ≠ 2 then { s with tb := { s.tb with ppsLast := some r } }
      else if s.tb.lockedOnce = true ∧ (s.fget Reg.TB_PPS Fld.TB_PPS_win : Int) * 1000 * nsU < secDist (s.stampTime st) then
        { s with tb := { s.tb with ppsLast := some r } }
      else ({ (({ s with tb := { s.tb with ppsLast := some r } }).setPpsSec (s.ppsSec + 1)) with
          tb := { s.tb with ppsLast := some r, ppsMissRun := false } }).measure (s.stampTime st - (s.ppsSec : Int) * secU) (1000000000 * 65536) := by
  simp only [ppsInEdge, Bool.or_eq_true, Bool.not_eq_true', bne_iff_ne, Bool.and_eq_false_iff, beq_eq_false_iff_ne, Bool.and_eq_true,
    decide_eq_true_eq]
  rfl

theorem holdoverEnter_spec {s : State} (hstate : s.fget Reg.TB_STAT Fld.TB_STAT_state = 1 ∨ s.fget Reg.TB_STAT Fld.TB_STAT_state = 2) :
    let u := holdoverEnter s
    u.fget Reg.TB_STAT Fld.TB_STAT_state = 3 ∧ u.flag Reg.TB_STAT Fld.TB_STAT_hold_ent = true
      ∧ (s.tb.integs ≠ [] → u.rd64 Reg.TB_RATE_LO = BitVec.ofInt 64 (clampRate
          (openDiv (-(s.tb.integs.foldl (· + ·) 0)) (2000000000 * s.tb.integs.length)))) := by
  have hopen : (s.fget Reg.TB_STAT Fld.TB_STAT_state = 0 || s.fget Reg.TB_STAT Fld.TB_STAT_state = 3) = false := by
    rcases hstate with h | h <;> simp [h]
  have hservo := s.servoTo_entered ((s.rd Reg.TB_THETA).toInt * 256) (show 3 < 8 by decide)
  simp only [holdoverEnter, hopen, Bool.false_eq_true, if_false]
  generalize s.servoTo 3 ((s.rd Reg.TB_THETA).toInt * 256) = v at hservo ⊢
  generalize hu : (v.setFlag Reg.TB_STAT Fld.TB_STAT_hold_ent true).raise 4 (v.setFlag Reg.TB_STAT Fld.TB_STAT_hold_ent true).timePort 0 = u
  have hstat : u.rd Reg.TB_STAT = (v.setFlag Reg.TB_STAT Fld.TB_STAT_hold_ent true).rd Reg.TB_STAT :=
    hu ▸ State.raise_rd _ _ _ _ _ (by decide) (by decide)
  have h3 : u.fget Reg.TB_STAT Fld.TB_STAT_state = 3 := by
    rw [State.fget_congr hstat, State.setFlag, State.fget_fput_disjoint _ _ _ _ (by decide) (by decide), hservo.state]
  have hent : u.flag Reg.TB_STAT Fld.TB_STAT_hold_ent = true := by
    rw [State.flag_congr hstat, State.flag_setFlag_same _ _ _ (by decide) (by decide)]
  have hintegs : u.tb.integs = s.tb.integs := by
    obtain ⟨n, b, htb⟩ := hservo.tb
    rw [← hu, State.raise_tb _ _ _ _ (by decide), State.setFlag_tb, htb]
  rw [hintegs]
  by_cases hempty : s.tb.integs = []
  · rw [if_pos (by simp [hempty])]
    exact ⟨h3, hent, fun h => absurd hempty h⟩
  · rw [if_neg (by simpa using hempty)]
    have hrate := u.setRate_rd (openDiv (-(s.tb.integs.foldl (· + ·) 0)) (2000000000 * s.tb.integs.length))
      (a := Reg.TB_STAT) (by decide) (by decide)
    exact ⟨(State.fget_congr hrate _).trans h3, (State.flag_congr hrate _).trans hent, fun _ => State.setRate_rd64 _ _⟩

/-- Settles O10: each clause is one branch of its command. -/
theorem clocksAndPps : Obligations.ClocksAndPps := by
  intro s is25 st falling t n r
  refine ⟨fun href => Ends.of rfl ?_, fun halive => Becomes.of rfl ?_, fun halive hen => Becomes.of rfl ?_, Becomes.of rfl rfl,
    fun halive hpol hhead hsrc hnear => Becomes.of rfl ?_, fun halive hpol hlocked hfar => Becomes.of rfl ?_,
    fun hpol => Becomes.of rfl ?_, fun halive hpol hsrc => Becomes.of rfl ?_, fun halive hhead hsrc hrun => Ends.of rfl ?_,
    fun hstate => Ends.of rfl (holdoverEnter_spec hstate)⟩
  · rw [refclkLoss, if_pos href]
    exact raise_blank _ 7 0 0 (by decide)
  · rw [refclkReturn, if_pos halive]
  · simp [ppsOut, halive, hen]
  · have hlate : ¬ (s.tb.lockedOnce = true ∧ (s.fget Reg.TB_PPS Fld.TB_PPS_win : Int) * 1000 * nsU < secDist (s.stampTime st)) := by
      rintro ⟨hlocked, hfar⟩
      rcases hnear with h | h
      · simp [hlocked] at h
      · exact absurd hfar (Int.not_lt.mpr h)
    rw [ppsInEdge_eq, if_neg (by simp [halive, hpol]), if_neg (by simp [hhead, hsrc]), if_neg hlate]
  · rw [ppsInEdge_eq, if_neg (by simp [halive, hpol]), if_pos (show _ ∧ _ from ⟨hlocked, hfar⟩), ite_self]
  · rw [ppsInEdge_eq, if_pos (.inr hpol)]
  · rw [ppsInEdge_eq, if_neg (by simp [halive, hpol]), if_pos (.inr hsrc)]
  · simp only [ppsMissing, halive, hhead, hsrc, BEq.rfl, Bool.and_self, if_true, State.setFlag_tb, hrun, Bool.false_eq_true, if_false]
    have hsec : (s.setFlag Reg.TB_STAT Fld.TB_STAT_pps_miss true).ppsSec = s.ppsSec := by
      simp only [State.ppsSec, State.rdN, State.fget, State.rd_setFlag_ne _ _ _ (show Reg.TB_PPSSEC_HI ≠ Reg.TB_STAT by decide),
        State.rd_setFlag_ne _ _ _ (show Reg.TB_PPSSEC_LO ≠ Reg.TB_STAT by decide)]
    rw [hsec]
    exact raiseD_raised _ 5 0 0 0 _ (by decide)

end Sys2Proof.Machine
end

section
/-! PROOF. PTP messages (R179 to R182). -/

namespace Sys2Proof.Machine

theorem ptpSync_deaf {s : State} {m : PtpSyncIn} (h : s.ptpHears m.hdr = false) : ptpSync m s = s := by
  simp [ptpSync, State.ptpFromGm, h]

theorem State.ptpHears_other {s : State} {h : PtpHdr} (hother : h.domain.toNat ≠ s.fget Reg.TB_PTPCFG Fld.TB_PTPCFG_domain
    ∨ b2n h.udp ≠ s.fget Reg.TB_PTPCFG Fld.TB_PTPCFG_transport) : s.ptpHears h = false := by
  rcases hother with h | h <;> simp [State.ptpHears, h]

theorem State.ptpDelay_congr {s u : State} (hm : u.tb.mpds = s.tb.mpds) (hr : u.rd (Reg.TB_LINKASYM 0) = s.rd (Reg.TB_LINKASYM 0)) :
    u.ptpDelay = s.ptpDelay := by
  simp only [State.ptpDelay, hm, hr]

theorem State.ptpDelay_wr (s : State) {a : Nat} (w : Word) (h : Reg.TB_LINKASYM 0 ≠ a) : (s.wr a w).ptpDelay = s.ptpDelay :=
  State.ptpDelay_congr rfl (State.rd_wr_ne _ _ h)

/-- A Sync of the grandmaster whose interval is in range, once an exchange is held (R174, R180). -/
theorem ptpSync_measured {s : State} {m : PtpSyncIn} (hgm : s.ptpFromGm m.hdr = true) (hlow : -7 ≤ m.logInt.toInt)
    (hhigh : m.logInt.toInt ≤ 1) :
      let rx := s.stampTime m.rx - s.stampTrim 0
      let org := PtpTime.val m.origin + m.corr.toInt
      let raw := rawOf m.rx.count.toNat m.rx.frac.toNat
      let synced := { s with tb := { s.tb with lastSync := some (rx, org) } }
      ptpSync m s = if s.tb.mpds = [] then synced
      else ({ synced with tb := { synced.tb with syncRaw := some raw } }.fput Reg.TB_PTPSTAT Fld.TB_PTPSTAT_port_state 9).measure
        (rx - org - s.ptpDelay) (s.syncTau raw m.logInt.toInt) := by
  have hin : (decide (m.logInt.toInt < -7) || decide (1 < m.logInt.toInt)) = false := by simp [hlow, hhigh]
  intro rx org raw synced
  have hdelay : ({ synced with tb := { synced.tb with syncRaw := some raw } }.fput Reg.TB_PTPSTAT Fld.TB_PTPSTAT_port_state 9).ptpDelay
      = s.ptpDelay := State.ptpDelay_congr rfl (State.rd_fput_ne _ _ _ (by decide))
  simp only [ptpSync, hgm, hin, Bool.not_true, Bool.false_eq_true, if_false, List.isEmpty_iff]
  rw [hdelay]
  rfl

/-- An Announce that is heard, its judgement as propositions (R181, R182). -/
theorem ptpAnnounce_eq {s : State} {a : Announce} (hhears : s.ptpHears a.hdr = true) :
    ptpAnnounce a s =
      if s.tb.gm.all (fun g => g.hdr.source == a.hdr.source || lexLt (gmRank a) (gmRank g)) = false then s
      else if a.ptpTimescale = false ∧ s.flag Reg.TB_CTL Fld.TB_CTL_arb_ok = false then
        if s.tb.gm.any (fun g => g.hdr.source == a.hdr.source) = true then (s.raiseD 6 0 5 0 a.identity).dropGm 4
        else s.raiseD 6 0 5 0 a.identity
      else s.takeGm a := by
  have hall : (s.tb.gm.any (fun g => g.hdr.source == a.hdr.source) || s.tb.gm.all (fun g => lexLt (gmRank a) (gmRank g)))
      = s.tb.gm.all (fun g => g.hdr.source == a.hdr.source || lexLt (gmRank a) (gmRank g)) := by
    cases s.tb.gm <;> rfl
  simp only [ptpAnnounce, hhears, hall, Bool.not_true, Bool.false_eq_true, if_false, Bool.not_eq_true', Bool.and_eq_true]

/-- A grandmaster that is taken shows its identity, and its choice touches nothing of TB_STAT (R181). -/
theorem State.takeGm_spec (s : State) (a : Announce) :
    (s.takeGm a).tb.gm = some a ∧ (s.takeGm a).tb.gmOk = true ∧ (s.takeGm a).rd64 Reg.TB_PTPGM_LO = a.identity
      ∧ (s.takeGm a).rd Reg.TB_STAT = s.rd Reg.TB_STAT := by
  unfold State.takeGm
  extract_lets changed again named port shown time chosen
  have base : chosen.tb.gm = some a ∧ chosen.tb.gmOk = true ∧ chosen.rd64 Reg.TB_PTPGM_LO = a.identity
      ∧ chosen.rd Reg.TB_STAT = s.rd Reg.TB_STAT := by
    refine ⟨rfl, rfl, ?_, ?_⟩
    · exact (State.rd64_wr_ne _ _ (by decide) (by decide)).trans (State.rd64_wr64_same _ _ _)
    · exact (State.rd_wr_ne _ _ (by decide)).trans (State.rd_wr64_ne _ _ (by decide) (by decide))
  split
  · obtain ⟨hgm, hok, hid, hstat⟩ := base
    have hrd : ∀ b, eventReg b = false → (chosen.ptpFault 3).rd b = chosen.rd b := fun b hb => State.raiseD_rd _ _ _ _ _ _ b (by decide) hb
    have htb : (chosen.ptpFault 3).tb = chosen.tb := State.raiseD_tb _ _ _ _ _ _ (by decide)
    refine ⟨by rw [htb, hgm], by rw [htb, hok], ?_, (hrd _ (by decide)).trans hstat⟩
    rw [← hid, State.rd64, State.rd64, hrd _ (by decide), hrd _ (by decide)]
  · exact base

/-- A fault that drops the grandmaster shows the port's state (R182). -/
theorem State.ptpFault_dropGm (s : State) (cause : Nat) {port : Nat} (hport : port < 16) :
    let u := (s.ptpFault cause).dropGm port
    u.tb.gm = none ∧ u.tb.gmOk = false ∧ u.fget Reg.TB_PTPSTAT Fld.TB_PTPSTAT_port_state = port
      ∧ u.rd (Reg.EV_OCC 6) = s.rd (Reg.EV_OCC 6) + 1 := by
  refine ⟨rfl, rfl, ?_, ?_⟩
  · rw [State.dropGm, State.fget_fput_same _ _ _ (by decide) (by decide)]
    exact Nat.mod_eq_of_lt hport
  · exact (State.rd_fput_ne _ _ _ (by decide)).trans (State.raiseD_occ _ _ _ _ _ _ (by decide))

/-- Settles O11: each clause is one branch of its message. -/
theorem ptpMessages : Obligations.PtpMessages := by
  intro s m tx r corr li a t3 t2 t1 hon rx org synced raw dom taken trans
  refine ⟨fun hgm hlow hhigh hheld => Becomes.of rfl ?_, fun hother => Becomes.of rfl (ptpSync_deaf (State.ptpHears_other hother)),
    fun hgm hlow hhigh hheld => Becomes.of rfl ?_, fun hok => Becomes.of rfl ?_, fun hgm hlow hhigh hreq hsync => Ends.of rfl ?_,
    fun hother => Becomes.of rfl ?_, fun hother => Becomes.of rfl ?_, fun hhears htaken harb => Ends.of rfl ?_,
    fun hhears hnone hscale harb => Ends.of rfl ?_, fun htaken => Becomes.of rfl ?_, fun hgm => Ends.of rfl ?_, Ends.of rfl ?_⟩
  · rw [ptpSync_measured hgm hlow hhigh]
    exact if_neg hheld
  · rw [ptpSync_measured hgm hlow hhigh]
    exact if_pos hheld
  · simp only [ptpDelayReqSend, hon, hok, Bool.and_self, if_true]
    rfl
  · have hin : (decide (li.toInt < -7) || decide (5 < li.toInt)) = false := by simp [hlow, hhigh]
    simp only [ptpDelayResp, hgm, hin, hreq, hsync, Bool.not_true, Bool.false_eq_true, if_false]
    refine ⟨rfl, rfl, (State.rd_wr_same _ _ _).trans ?_⟩
    rw [State.ptpDelay_wr _ _ (by decide)]
  · simp [ptpDelayResp, State.ptpFromGm, State.ptpHears_other hother]
  · simp [ptpAnnounce, State.ptpHears_other hother]
  · have hscale : ¬ (a.ptpTimescale = false ∧ s.flag Reg.TB_CTL Fld.TB_CTL_arb_ok = false) := by
      rcases harb with h | h <;> simp [h]
    have htaken' : ¬ s.tb.gm.all (fun g => g.hdr.source == a.hdr.source || lexLt (gmRank a) (gmRank g)) = false := by
      rw [Bool.not_eq_false]; exact htaken
    rw [ptpAnnounce_eq hhears, if_neg htaken', if_neg hscale]
    exact ⟨rfl, s.takeGm_spec a⟩
  · rw [ptpAnnounce_eq hhears, if_neg (by simp [hnone]), if_pos ⟨hscale, harb⟩, if_neg (by simp [hnone])]
    exact raiseD_raised _ 6 0 5 0 _ (by decide)
  · cases hhears : s.ptpHears a.hdr
    · simp [ptpAnnounce, hhears]
    · rw [ptpAnnounce_eq hhears]
      exact if_pos htaken
  · have hsome : (s.ptpOn && s.tb.gm.isSome) = true := by simp [hon, Option.isSome_iff_ne_none, hgm]
    rw [ptpAnnounceTimeout, if_pos hsome]
    exact s.ptpFault_dropGm 1 (by decide)
  · rw [ptpPortFaulty, if_pos hon]
    exact s.ptpFault_dropGm 2 (by decide)

end Sys2Proof.Machine
end

section
/-! SUPPORT. A measurement's offset in TB_THETA, and the stamps of a port (R185, R193). -/

namespace Sys2Proof.Machine

theorem State.servoTo_rd (s : State) {st : Nat} (theta : Int) (hst : st < 8) {a : Nat} (h : eventReg a = false) (h1 : a ≠ Reg.TB_STAT)
    (h2 : a ≠ Reg.TB_SUM_HI) : (s.servoTo st theta).rd a = s.rd a := (s.servoTo_entered theta hst).rd a h h1 h2

theorem State.stepNow_rd (s : State) (delta : Int) (cause : Nat) {a : Nat} (h : eventReg a = false) (h1 : a ≠ Reg.TB_STAT)
    (h2 : a ≠ Reg.TB_SUM_HI) : (s.stepNow delta cause).rd a = s.rd a := by
  rw [State.stepNow, State.raiseD_rd _ _ _ _ _ _ _ (by decide) h, State.rd_fput_ne _ _ _ h2, State.rd_setFlag_ne _ _ _ h1]
  rfl

theorem State.servoUpdate_rd (s : State) (theta : Int) (tau : Nat) {a : Nat} (h : a ≠ Reg.TB_RATE_LO) (h' : a ≠ Reg.TB_RATE_LO + 4) :
    (s.servoUpdate theta tau).rd a = s.rd a := State.setRate_rd _ _ h h'

/-- A measurement shows its offset in TB_THETA, which nothing it leads to writes again (R185). -/
theorem State.measure_theta (s : State) (theta : Int) (tau : Nat) :
    (s.measure theta tau).rd Reg.TB_THETA = satWord (openDiv theta 256) := by
  have hservo : ∀ (u : State) (st : Nat), st < 8 → (u.servoTo st theta).rd Reg.TB_THETA = u.rd Reg.TB_THETA := fun u st hst =>
    u.servoTo_rd theta hst (by decide) (by decide) (by decide)
  have hite : ∀ (u v : State) (c : Prop) [Decidable c], u.rd Reg.TB_THETA = satWord (openDiv theta 256) →
      v.rd Reg.TB_THETA = satWord (openDiv theta 256) → (if c then u else v).rd Reg.TB_THETA = satWord (openDiv theta 256) :=
    fun u v c _ h k => ite_both (fun w : State => w.rd Reg.TB_THETA = satWord (openDiv theta 256)) c u v h k
  unfold State.measure
  extract_lets a shown summed st far time1 settled out inn judged time2 counted updated clamped
  have hsummed : summed.rd Reg.TB_THETA = satWord (openDiv theta 256) := (State.rd_wr_ne _ _ (by decide)).trans (State.rd_wr_same _ _ _)
  have hcounted : counted.rd Reg.TB_THETA = satWord (openDiv theta 256) :=
    hite (settled.servoTo 1 theta) settled _ ((hservo _ _ (by decide)).trans hsummed) hsummed
  have hupdated : updated.rd Reg.TB_THETA = satWord (openDiv theta 256) :=
    (State.servoUpdate_rd _ _ _ (by decide) (by decide)).trans hcounted
  exact hite _ _ _ ((State.stepNow_rd _ _ _ (by decide) (by decide) (by decide)).trans hcounted)
    (hite _ _ _ hcounted (hite _ _ _ hcounted
      (hite _ _ _ (hite _ _ _ ((hservo _ _ (by decide)).trans hupdated) hupdated)
        (hite _ _ _ ((hservo _ _ (by decide)).trans hupdated) hupdated))))

/-! ## Ports -/

theorem State.port_setPort_same (s : State) (p : Nat) (x : PortSt) : (s.setPort p x).port p = x := by
  simp [State.port, State.setPort]

theorem State.stamps_setStamps_same (s : State) (p : Nat) (l : LinkStamps) : (s.setStamps p l).stamps p = l := by
  unfold State.stamps State.setStamps
  by_cases h0 : p = 0
  · simp [h0]
  · by_cases h1 : p = 1 <;> simp [h0, h1]

theorem State.setStamps_regs (s : State) (p : Nat) (l : LinkStamps) : (s.setStamps p l).regs = s.regs :=
  ite_both (fun u : State => u.regs = s.regs) _ _ _ rfl (ite_both (fun u : State => u.regs = s.regs) _ _ _ rfl rfl)

theorem State.setStamps_ln (s : State) (p : Nat) (l : LinkStamps) : (s.setStamps p l).ln = s.ln :=
  ite_both (fun u : State => u.ln = s.ln) _ _ _ rfl (ite_both (fun u : State => u.ln = s.ln) _ _ _ rfl rfl)

theorem State.stamps_congr {s u : State} (h : u.tb = s.tb) (p : Nat) : u.stamps p = s.stamps p := by
  rw [State.stamps, State.stamps, h]

/-- Sending a cell without a number changes the lanes alone. -/
theorem LinkOnly.sendUnseq (s : State) (p typ dst : Nat) (first last : Bool) (payload : List Byte) :
    LinkOnly s (s.sendUnseq p typ dst first last payload) := LinkOnly.putCell s p 0 _ false

end Sys2Proof.Machine
end

section
/-! SUPPORT. A time cell that is accepted (R193). -/

namespace Sys2Proof.Machine

/-- The state in which an accepted time cell leaves a port: its errors' runs ended, its stamp kept. -/
def State.stampKept (s : State) (p : Nat) (now : Int) : State :=
  let u := s.modPort p (fun x => { x with badRun := 0, authRun := 0 })
  u.setStamps p { s.stamps p with rcvd := some now }

theorem State.stampKept_rd (s : State) (p : Nat) (now : Int) (a : Nat) : (s.stampKept p now).rd a = s.rd a :=
  State.rd_congr (State.setStamps_regs _ _ _) a

theorem State.stampKept_stamps (s : State) (p : Nat) (now : Int) :
    (s.stampKept p now).stamps p = { s.stamps p with rcvd := some now } := State.stamps_setStamps_same _ _ _

theorem State.port_congr {s u : State} (h : u.ln = s.ln) (p : Nat) : u.port p = s.port p := by
  rw [State.port, State.port, h]

theorem State.stampKept_port (s : State) (p : Nat) (now : Int) :
    (s.stampKept p now).port p = { s.port p with badRun := 0, authRun := 0 } :=
  (State.port_congr (State.setStamps_ln _ _ _) p).trans (State.port_setPort_same _ _ _)

/-- The exchange that a time cell completes is noted (R193): its mean, and on a ring port the hop delay. -/
def State.hopNoted (s : State) (p : Nat) (l : LinkStamps) (now m2 : Int) : State :=
  let means := (m2 :: l.means).take 64
  let u := s.setStamps p { l with rcvd := some now, means := means }
  if p < 2 then u.wr (Reg.TB_HOPDLY p) (wordI (openDiv (means.foldl (· + ·) 0) (512 * means.length))) else u

theorem State.hopNoted_rd (s : State) (p : Nat) (l : LinkStamps) (now m2 : Int) {a : Nat} (h : a < Reg.TB_HOPDLY 0) :
    (s.hopNoted p l now m2).rd a = s.rd a := by
  have hkept : ∀ x : LinkStamps, (s.setStamps p x).rd a = s.rd a := fun x => State.rd_congr (State.setStamps_regs _ _ _) a
  unfold State.hopNoted
  refine ite_both (fun u : State => u.rd a = s.rd a) _ _ _ ?_ (hkept _)
  refine (State.rd_wr_ne _ _ ?_).trans (hkept _)
  simp only [Reg.TB_HOPDLY] at h ⊢
  omega

theorem State.hopNoted_stamps (s : State) (p : Nat) (l : LinkStamps) (now m2 : Int) :
    (s.hopNoted p l now m2).stamps p = { l with rcvd := some now, means := (m2 :: l.means).take 64 } := by
  have hset := s.stamps_setStamps_same p { l with rcvd := some now, means := (m2 :: l.means).take 64 }
  unfold State.hopNoted
  exact ite_both (fun u : State => u.stamps p = _) _ _ _ hset hset

theorem State.hopNoted_port (s : State) (p : Nat) (l : LinkStamps) (now m2 : Int) (q : Nat) :
    (s.hopNoted p l now m2).port q = s.port q := by
  have hset : ∀ x : LinkStamps, (s.setStamps p x).port q = s.port q := fun x => State.port_congr (State.setStamps_ln _ _ _) q
  unfold State.hopNoted
  exact ite_both (fun u : State => u.port q = s.port q) _ _ _ (hset _) (hset _)

/-- The notice of the head's holdover, and of a step that it announces, on a member's time port (R193). -/
def State.headNoted (s : State) (c : TimeCellIn) : State :=
  let s := s.setFlag Reg.TB_STAT Fld.TB_STAT_ring_hold c.holdover
  let s := if c.holdover then s.setFlag Reg.TB_SUM_HI Fld.TB_SUM_HI_ring_hold true else s
  if c.stepFlag && s.inRun && s.tb.step.isNone && decide (s.fr.nextTick ≤ c.stepTick.toNat) then
    { s with tb := { s.tb with step := some { tick := c.stepTick.toNat, delta := c.stepDelta.toInt, cause := 2 } } }
  else s

theorem State.headNoted_rd (s : State) (c : TimeCellIn) {a : Nat} (h : a ≠ Reg.TB_STAT) (h' : a ≠ Reg.TB_SUM_HI) :
    (s.headNoted c).rd a = s.rd a := by
  unfold State.headNoted
  extract_lets held summed
  have hsummed : summed.rd a = s.rd a :=
    ite_both (fun u : State => u.rd a = s.rd a) _ _ _ ((State.rd_setFlag_ne _ _ _ h').trans (State.rd_setFlag_ne _ _ _ h))
      (State.rd_setFlag_ne _ _ _ h)
  exact ite_both (fun u : State => u.rd a = s.rd a) _ _ _ hsummed hsummed

section
variable {s : State} {p : BitVec 2} {rx : Stamp} {c : TimeCellIn}

theorem State.cellGood {s : State} {n : Nat} {tag : Bool} (htag : s.authOn = true → (s.port n).keys.isSome = true ∧ tag = true) :
    (s.authOn && !((s.port n).keys.isSome && tag)) = false := by
  cases hauth : s.authOn
  · rfl
  · obtain ⟨hkeys, htrue⟩ := htag hauth
    simp [hkeys, htrue]

/-- An accepted time cell off a member's time port keeps its stamp and completes the exchange that it ends (R193). -/
theorem timeCell_plain (halive : s.alive = true) (hup : s.portUp p.toNat = true) (hline : c.chk.line = true)
    (htag : s.authOn = true → (s.port p.toNat).keys.isSome = true ∧ c.chk.tag = true)
    (hplain : (!s.pw.headSel && decide (p.toNat < 2) && s.timePort == p.toNat + 1) = false) :
    let now := s.stampTime rx - s.stampTrim (2 * p.toNat + 2)
    timeCell p rx c s = s.stampKept p.toNat now
      ∨ ∃ m2, timeCell p rx c s = (s.stampKept p.toNat now).hopNoted p.toNat (s.stamps p.toNat) now m2 := by
  have hplain' : ∀ u : State, u.pw = s.pw → u.timePort = s.timePort →
      (!u.pw.headSel && decide (p.toNat < 2) && u.timePort == p.toNat + 1) = false := fun u hpw ht => by rw [hpw, ht]; exact hplain
  simp only [timeCell, halive, hup, hline, State.cellGood htag, Bool.and_self, Bool.not_true, Bool.false_eq_true, if_false]
  rw [hplain' (s.modPort p.toNat _) rfl rfl]
  simp only [Bool.false_eq_true, if_false]
  split
  · exact .inl rfl
  · split
    · exact .inl rfl
    · rename_i m2 _
      exact .inr ⟨m2, rfl⟩

/-- An accepted time cell on a member's time port that completes an exchange is measured (R193). -/
theorem timeCell_theta {t2 trip : Int} (halive : s.alive = true) (hup : s.portUp p.toNat = true) (hline : c.chk.line = true)
    (htag : s.authOn = true → (s.port p.toNat).keys.isSome = true ∧ c.chk.tag = true) (hmember : s.pw.headSel = false)
    (hp : p.toNat < 2) (hport : s.timePort = p.toNat + 1) (hrcvd : (s.stamps p.toNat).rcvd = some t2)
    (htrip : linkTrip (PtpTime.val c.prevTx) t2 (PtpTime.val c.lastRx) (s.stamps p.toNat).sent = some trip) :
    (timeCell p rx c s).rd Reg.TB_THETA = satWord (openDiv (openDiv ((2 * (t2 - PtpTime.val c.prevTx) - trip) * 1000
      - (s.rd (Reg.TB_LINKASYM (p.toNat + 1))).toInt * 65536) 2000) 256) := by
  have hmine : ∀ u : State, u.pw = s.pw → u.timePort = s.timePort →
      (!u.pw.headSel && decide (p.toNat < 2) && u.timePort == p.toNat + 1) = true := fun u hpw ht => by
    rw [hpw, ht]; simp [hmember, hp, hport]
  have hrcvd' : ∀ f, ((s.modPort p.toNat f).stamps p.toNat).rcvd = some t2 := fun _ => hrcvd
  have htrip' : ∀ f, linkTrip (PtpTime.val c.prevTx) t2 (PtpTime.val c.lastRx) ((s.modPort p.toNat f).stamps p.toNat).sent = some trip :=
    fun _ => htrip
  simp only [timeCell, halive, hup, hline, State.cellGood htag, Bool.and_self, Bool.not_true, Bool.false_eq_true, if_false]
  rw [hmine (s.modPort p.toNat _) rfl rfl]
  simp only [hrcvd', htrip', if_true]
  rw [State.measure_theta]
  have hasym : ∀ now l, (((s.stampKept p.toNat now).headNoted c).hopNoted p.toNat l now trip).rd (Reg.TB_LINKASYM (p.toNat + 1))
      = s.rd (Reg.TB_LINKASYM (p.toNat + 1)) := fun now l => by
    rw [State.hopNoted_rd _ _ _ _ _ (by simp only [Reg.TB_LINKASYM, Reg.TB_HOPDLY]; omega),
      State.headNoted_rd _ _ (by simp only [Reg.TB_LINKASYM, Reg.TB_STAT]; omega) (by simp only [Reg.TB_LINKASYM, Reg.TB_SUM_HI]; omega),
      State.stampKept_rd]
  exact congrArg (fun w : Word => satWord (openDiv (openDiv ((2 * (t2 - PtpTime.val c.prevTx) - trip) * 1000 - w.toInt * 65536) 2000) 256))
    (hasym (s.stampTime rx - s.stampTrim (2 * p.toNat + 2)) (s.stamps p.toNat))

end

end Sys2Proof.Machine
end

section
/-! PROOF. Ring time (R193, R194). -/

namespace Sys2Proof.Machine

/-- Settles O12: an accepted time cell keeps its stamp, and on a time port what it measures is shown last. -/
theorem ringTime : Obligations.RingTime := by
  intro s p tx rx c ns t2 trip sent
  refine ⟨fun halive hup => Ends.of rfl ?_, fun halive hup hline htag hplain => Ends.of rfl ?_,
    fun halive hup hline htag hmember hp hport hrcvd htrip => Ends.of rfl ?_, fun halive hup hline => Becomes.of rfl ?_,
    fun halive hup hline hauth htag => Becomes.of rfl ?_, fun hhead hring => Becomes.of rfl ?_⟩
  · simp only [timeCellSend, halive, hup, Bool.and_self, Bool.not_true, Bool.false_eq_true, if_false]
    refine ⟨?_, ?_, ?_⟩
    · rw [State.stamps_congr (LinkOnly.sendUnseq _ _ _ _ _ _ _).tb, State.stamps_setStamps_same]
    · rw [State.stamps_congr (LinkOnly.sendUnseq _ _ _ _ _ _ _).tb, State.stamps_setStamps_same]
    · exact (LinkOnly.sendUnseq _ _ _ _ _ _ _).regs.trans (State.setStamps_regs _ _ _)
  · have hoff : (!s.pw.headSel && decide (p.toNat < 2) && s.timePort == p.toNat + 1) = false := by
      rcases hplain with h | h | h
      · simp [h]
      · simp [h]
      · simp [h]
    rcases timeCell_plain (rx := rx) halive hup hline htag hoff with h | ⟨m2, h⟩
    · rw [h, State.stampKept_stamps, State.stampKept_rd, State.stampKept_port]
      exact ⟨rfl, rfl, rfl, rfl, rfl⟩
    · rw [h, State.hopNoted_stamps, State.hopNoted_rd _ _ _ _ _ (by decide), State.stampKept_rd, State.hopNoted_port, State.stampKept_port]
      exact ⟨rfl, rfl, rfl, rfl, rfl⟩
  · exact timeCell_theta halive hup hline htag hmember hp hport hrcvd htrip
  · simp [timeCell, halive, hup, hline]
  · simp [timeCell, halive, hup, hline, hauth, htag]
  · simp [ringRttMarker, hhead, hring]

end Sys2Proof.Machine
end

section
/-! PROOF. The causes that the supervisor's checks bring (R241, R395). -/

namespace Sys2Proof.Machine

/-- A loop state to be discarded whose CE_LSTAT has its top bit set. -/
def strayUndo : LoopUndo := { st := State.reset.loop 0, u := 0, integ := 0, lstat := 0x80000000#32 }

/-- A hub that runs frames, and whose list of loop states to be discarded names loop 1280, beyond the engine's 32: the offset of its
CE_LSTAT is that of SV_FIRST. -/
def undoBeyondLoops : State :=
  { State.reset with
    regs := [(Reg.FR_STAT, BitField.put Fld.FR_STAT_running 1 0)]
    pw := { State.reset.pw with power := .run }
    ce := { State.reset.ce with undo := [(0x500, strayUndo)] } }

/-- Refutes O13: a mismatch of the lockstep pair discards the loop states first, and of a list with a loop that the engine does not
have the discard writes SV_FIRST, which then holds no first cause. -/
theorem not_causeLatching : ¬ Obligations.CauseLatching := by
  intro h
  obtain ⟨u, ⟨hlatches, -⟩, hu⟩ := ((h undoBeyondLoops 0 0 0 0 ⟨0, 0⟩ 0 (by decide +kernel)).2.2.1 (by decide +kernel)).exists_supervise_eq
    (v := lockstepMismatch undoBeyondLoops) rfl
  have hsame : (lockstepMismatch undoBeyondLoops).rd Reg.SV_FIRST = u.rd Reg.SV_FIRST := by
    simpa using congrArg (fun s : State => s.rd Reg.SV_FIRST) hu
  have hfirst := hsame.trans hlatches.first
  revert hfirst
  decide +kernel

end Sys2Proof.Machine
end

section
/-! SUPPORT. A cause that is latched, cut into its note and what follows in Run; the words of the outputs in safe state and off
(R253, R395, R396). -/

namespace Sys2Proof.Machine

/-- A cause is noted: its bit, SV_FIRST, the event (R395). -/
def State.causeNoted (s : State) (b : Nat) : State :=
  let s := s.wr Reg.SV_CAUSE (s.rd Reg.SV_CAUSE ||| (1#32 <<< b))
  let s := if s.flag Reg.SV_FIRST Fld.SV_FIRST_valid then s else s.wr Reg.SV_FIRST (causeWord b s.frameData.toNat)
  s.raise 35 0 b

theorem State.latchCause_eq (s : State) {b : Nat} (h : s.hasCause b = false) :
    s.latchCause b = if (s.causeNoted b).inRun then
      (if hubFaults.contains b && (s.causeNoted b).partnerReady then (s.causeNoted b).retire else (s.causeNoted b).enterSafe)
      else s.causeNoted b := by
  rw [State.latchCause, if_neg (by simp [h])]
  rfl

/-- Beside SV_CAUSE and SV_FIRST the note of a cause changes what an event changes. -/
structure CauseNoted (s u : State) : Prop where
  sv : u.sv = s.sv
  pw : u.pw = s.pw
  fr : u.fr = s.fr
  ce : u.ce = s.ce
  tb : u.tb = s.tb
  fe : u.fe = s.fe
  aq : u.aq = s.aq
  vt : u.vt = s.vt
  sp : u.sp = s.sp
  hi : u.hi.dbTwin = s.hi.dbTwin
  rd : ∀ a, eventReg a = false → a ≠ Reg.SV_CAUSE → a ≠ Reg.SV_FIRST → u.rd a = s.rd a
  occ : ∀ n, n < 64 → n ≠ 35 → u.rd (Reg.EV_OCC n) = s.rd (Reg.EV_OCC n)

theorem State.causeNoted_noted (s : State) (b : Nat) : CauseNoted s (s.causeNoted b) := by
  unfold State.causeNoted
  extract_lets caused first
  have hraised := raise_raised first 35 0 b (by decide)
  have hrd : ∀ a, a ≠ Reg.SV_CAUSE → a ≠ Reg.SV_FIRST → first.rd a = s.rd a := fun a h1 h2 =>
    ite_both (fun u : State => u.rd a = s.rd a) _ _ _ (State.rd_wr_ne _ _ h1) ((State.rd_wr_ne _ _ h2).trans (State.rd_wr_ne _ _ h1))
  have hfield : ∀ {α : Type} (g : State → α), (∀ (u : State) a w, g (u.wr a w) = g u) → g first = g s := fun g hg =>
    ite_both (fun u : State => g u = g s) _ _ _ (hg _ _ _) ((hg _ _ _).trans (hg _ _ _))
  refine ⟨hraised.frame.sv.trans (hfield _ fun _ _ _ => rfl), hraised.frame.pw.trans (hfield _ fun _ _ _ => rfl),
    hraised.frame.fr.trans (hfield _ fun _ _ _ => rfl), hraised.frame.ce.trans (hfield _ fun _ _ _ => rfl),
    hraised.frame.tb.trans (hfield _ fun _ _ _ => rfl), hraised.frame.fe.trans (hfield _ fun _ _ _ => rfl),
    hraised.frame.aq.trans (hfield _ fun _ _ _ => rfl), hraised.frame.vt.trans (hfield _ fun _ _ _ => rfl),
    hraised.frame.sp.trans (hfield _ fun _ _ _ => rfl), ?_,
    fun a h h1 h2 => (hraised.frame.rd a h).trans (hrd a h1 h2), fun n hn hne => (hraised.others n hn hne).trans ?_⟩
  · rw [hraised.frame.hi]
    exact hfield (fun u => u.hi.dbTwin) fun _ _ _ => rfl
  · exact hrd _ (by simp only [Reg.EV_OCC, Reg.SV_CAUSE]; omega) (by simp only [Reg.EV_OCC, Reg.SV_FIRST]; omega)

/-! ## The words of the outputs -/

/-- A loop that drives the first `n` PWM outputs leaves each its duty. -/
theorem State.foldl_pwmSteady_rd (n : Nat) (d : State → Nat → Nat) (s : State) {j : Nat} (hj : j < n)
    (stable : ∀ (u : State) (i : Nat), d (u.pwmSteady i (d u i)) j = d u j) :
    ((List.range n).foldl (fun u i => u.pwmSteady i (d u i)) s).rd (Reg.CE_PWMCUR j) = word (d s j) := by
  have keep : ∀ m, d ((List.range m).foldl (fun u i => u.pwmSteady i (d u i)) s) j = d s j := fun m => by
    induction m with
    | zero => rfl
    | succ m ih => rw [List.range_succ, List.foldl_append, List.foldl_cons, List.foldl_nil, stable, ih]
  induction n with
  | zero => omega
  | succ n ih =>
    rw [List.range_succ, List.foldl_append, List.foldl_cons, List.foldl_nil]
    by_cases hlast : j = n
    · subst hlast
      exact (State.rd_wr_same _ _ _).trans (congrArg word (keep j))
    · refine (State.rd_wr_ne _ _ ?_).trans (ih (by omega))
      simp only [Reg.CE_PWMCUR]; omega

theorem State.foldl_pwmSteady_rd_ne (l : List Nat) (d : State → Nat → Nat) (s : State) {a : Nat} (h : ∀ i ∈ l, a ≠ Reg.CE_PWMCUR i) :
    (l.foldl (fun u i => u.pwmSteady i (d u i)) s).rd a = s.rd a :=
  State.foldl_wr_rd l (fun u i => u.pwmSteady i (d u i)) a (fun u i hi => State.rd_wr_ne u (word (d u i)) (h i hi)) s

/-- The loop over the analog outputs leaves the words of no other register changed. -/
theorem State.foldl_aoCur_rd_ne (w : State → Nat → Word) (s : State) {a : Nat} (h : ∀ i, i < 16 → a ≠ Reg.CE_AOCUR i) :
    ((List.range 16).foldl (fun u j => u.wr (Reg.CE_AOCUR j) (w u j)) s).rd a = s.rd a :=
  State.foldl_wr_rd (List.range 16) (fun u j => u.wr (Reg.CE_AOCUR j) (w u j)) a
    (fun u i hi => State.rd_wr_ne u (w u i) (h i (List.mem_range.mp hi))) s

theorem aoCur_ne {i j : Nat} (h : i ≠ j) : Reg.CE_AOCUR j ≠ Reg.CE_AOCUR i := by
  simp only [Reg.CE_AOCUR]; omega

theorem aoCur_ne_pwmCur {i j : Nat} (hj : j < 16) : Reg.CE_AOCUR j ≠ Reg.CE_PWMCUR i := by
  simp only [Reg.CE_AOCUR, Reg.CE_PWMCUR]; omega

/-- Loading the safe outputs puts each output's safe value into its word (R396). -/
theorem State.loadSafeOutputs_cur (s : State) :
    (∀ j, j < 16 → s.loadSafeOutputs.rd (Reg.CE_AOCUR j) = word (s.fget (Reg.CE_AOCFG j) Fld.CE_AOCFG_safe))
    ∧ (∀ j, j < 8 → s.loadSafeOutputs.rd (Reg.CE_PWMCUR j) = word (s.fget (Reg.CE_PWMCFG j) Fld.CE_PWMCFG_safe)) := by
  rw [State.loadSafeOutputs]
  refine ⟨fun j hj => ?_, fun j hj => ?_⟩
  · rw [State.foldl_pwmSteady_rd_ne _ (fun u i => u.fget (Reg.CE_PWMCFG i) Fld.CE_PWMCFG_safe) _ fun _ _ => aoCur_ne_pwmCur hj]
    refine State.foldl_wr_at 16 Reg.CE_AOCUR (fun u j => word (u.fget (Reg.CE_AOCFG j) Fld.CE_AOCFG_safe)) s j hj
      (fun _ _ => aoCur_ne) fun u i => congrArg word (State.fget_congr (State.rd_wr_ne _ _ ?_) _)
    simp only [Reg.CE_AOCFG, Reg.CE_AOCUR]; omega
  · rw [State.foldl_pwmSteady_rd 8 (fun u i => u.fget (Reg.CE_PWMCFG i) Fld.CE_PWMCFG_safe) _ hj fun u i =>
      State.fget_congr (u := u.pwmSteady i _) (s := u)
        (State.rd_wr_ne u _ (by simp only [Reg.CE_PWMCFG, Reg.CE_PWMCUR]; omega)) _]
    refine congrArg word (State.fget_congr (State.foldl_aoCur_rd_ne _ s fun i hi => ?_) _)
    simp only [Reg.CE_PWMCFG, Reg.CE_AOCUR]; omega

/-- With the outputs off every output's word is 0 (R253). -/
theorem State.outputsOff_cur (s : State) :
    (∀ j, j < 16 → s.outputsOff.rd (Reg.CE_AOCUR j) = 0) ∧ (∀ j, j < 8 → s.outputsOff.rd (Reg.CE_PWMCUR j) = 0) := by
  rw [State.outputsOff]
  refine ⟨fun j hj => ?_, fun j hj => ?_⟩
  · rw [State.foldl_pwmSteady_rd_ne _ (fun _ _ => 0) _ fun _ _ => aoCur_ne_pwmCur hj]
    exact State.foldl_wr_at 16 Reg.CE_AOCUR (fun _ _ => 0) s j hj (fun _ _ => aoCur_ne) fun _ _ => rfl
  · rw [State.foldl_pwmSteady_rd 8 (fun _ _ => 0) _ hj fun _ _ => rfl]
    rfl

theorem State.outputsOff_rd (s : State) {a : Nat} (h : safeOutReg a = false) : s.outputsOff.rd a = s.rd a := by
  simp only [safeOutReg, Bool.or_eq_false_iff, List.any_eq_false, List.mem_range, beq_iff_eq] at h
  obtain ⟨hao, hpwm⟩ := h
  rw [State.outputsOff, State.foldl_pwmSteady_rd_ne _ (fun _ _ => 0) _ fun i hi => hpwm i (List.mem_range.mp hi)]
  exact State.foldl_aoCur_rd_ne (fun _ _ => 0) s hao

theorem State.outputsOff_sv (s : State) : s.outputsOff.sv = s.sv :=
  (State.foldl_field State.sv _ (fun u j => u.pwmSteady j 0) (fun _ _ => rfl) _).trans
    (State.foldl_field State.sv _ (fun u j => u.wr (Reg.CE_AOCUR j) 0) (fun _ _ => rfl) s)

/-- Entry to safe state from outside it: the outputs at their safe values, and the entry counted (R396). -/
theorem State.enterSafe_words (s : State) (hsafe : s.sv.safe = false) :
    (∀ j, j < 16 → s.enterSafe.rd (Reg.CE_AOCUR j) = word (s.fget (Reg.CE_AOCFG j) Fld.CE_AOCFG_safe))
    ∧ (∀ j, j < 8 → s.enterSafe.rd (Reg.CE_PWMCUR j) = word (s.fget (Reg.CE_PWMCFG j) Fld.CE_PWMCFG_safe))
    ∧ s.enterSafe.rd Reg.SV_SAFECNT = word (min 0xFFFFFFFF (s.rdN Reg.SV_SAFECNT + 1)) := by
  unfold State.enterSafe
  extract_lets pulled src low
  have hnot : pulled.sv.safe = false := ite_both (fun u : State => u.sv.safe = false) _ _ _ hsafe hsafe
  have hregs : low.regs = s.regs := ite_both (fun u : State => u.regs = s.regs) _ _ _ rfl rfl
  have hcount : ∀ a, a ≠ Reg.SV_SAFECNT → (low.incSat Reg.SV_SAFECNT 1).rd a = s.rd a := fun a ha =>
    (State.rd_wr_ne _ _ ha).trans (State.rd_congr hregs a)
  rw [if_neg (by simp [hnot])]
  obtain ⟨hao, hpwm⟩ := (low.incSat Reg.SV_SAFECNT 1).loadSafeOutputs_cur
  refine ⟨fun j hj => ?_, fun j hj => ?_, ?_⟩
  · rw [hao j hj, State.fget_congr (hcount _ (by simp only [Reg.CE_AOCFG, Reg.SV_SAFECNT]; omega))]
  · rw [hpwm j hj, State.fget_congr (hcount _ (by simp only [Reg.CE_PWMCFG, Reg.SV_SAFECNT]; omega))]
  · rw [State.loadSafeOutputs_rd _ _ (by decide), State.incSat, State.rd_wr_same, State.rdN, State.rdN, State.rd_congr hregs]

end Sys2Proof.Machine
end

section
/-! PROOF. Entry to safe state on a hub without a twin (R396). -/

namespace Sys2Proof.Machine

/-- Settles O14: the host's cause is no hub fault, so in Run it is noted and safe state entered. -/
theorem safeEntry : Obligations.SafeEntry := by
  intro s hrun hrole hcause hsafe
  refine Ends.of (v := svSafeCmd s) rfl ?_
  have hnoted := s.causeNoted_noted 0
  have halive : s.alive = true := by
    have : s.pw.power = .run := by simpa [State.inRun] using hrun
    simp [State.alive, this]
  have henter : svSafeCmd s = (s.causeNoted 0).enterSafe := by
    have hrun' : (s.causeNoted 0).inRun = true := by rw [State.inRun, hnoted.pw]; exact hrun
    rw [svSafeCmd, if_pos halive, s.latchCause_eq hcause, if_pos hrun']
    rfl
  rw [henter]
  generalize s.causeNoted 0 = v at hnoted
  have hmay : v.mayPull = true := by
    have : v.role = 0 := (State.fget_congr (hnoted.rd _ (by decide) (by decide) (by decide)) _).trans hrole
    simp [State.mayPull, this]
  obtain ⟨hin, hoen, -, -, -, hpull⟩ := v.enterSafe_sv
  obtain ⟨hao, hpwm, hcnt⟩ := v.enterSafe_words (hnoted.sv ▸ hsafe)
  have hcfg : ∀ a, 0x21000 ≤ a → a < 0x22000 → v.rd a = s.rd a := fun a h h' =>
    hnoted.rd a (by simp [eventReg]; omega) (by simp only [Reg.SV_CAUSE]; omega) (by simp only [Reg.SV_FIRST]; omega)
  refine ⟨hin, hoen, (hpull hmay).1, (hpull hmay).2, fun j hj => ?_, fun j hj => ?_, ?_⟩
  · rw [hao j hj, State.fget_congr (hcfg _ (by simp only [Reg.CE_AOCFG]; omega) (by simp only [Reg.CE_AOCFG]; omega))]
  · rw [hpwm j hj, State.fget_congr (hcfg _ (by simp only [Reg.CE_PWMCFG]; omega) (by simp only [Reg.CE_PWMCFG]; omega))]
  · rw [hcnt, State.rdN, State.rdN, hnoted.rd _ (by decide) (by decide) (by decide)]

end Sys2Proof.Machine
end

section
/-! PROOF. Release, the check of SAFE_N, and the proof test (R398, R404). -/

namespace Sys2Proof.Machine

/-- A cause that is no hub fault, latched in safe state, is no new entry (R396). -/
theorem State.latchCause_safe {s : State} {b : Nat} (hb : b < 32) (hfault : hubFaults.contains b = false) (hcause : s.hasCause b = false)
    (hsafe : s.sv.safe = true) :
    (s.latchCause b).hasCause b = true ∧ (s.latchCause b).sv.safe = true
      ∧ (s.latchCause b).rd Reg.SV_SAFECNT = s.rd Reg.SV_SAFECNT := by
  have hnoted := s.causeNoted_noted b
  have hcnt := hnoted.rd Reg.SV_SAFECNT (by decide) (by decide) (by decide)
  refine ⟨(s.latchCause_latches b hb hcause).set, ?_, ?_⟩ <;> rw [s.latchCause_eq hcause, hfault] <;> split
  · exact (s.causeNoted b).enterSafe_sv.1
  · rw [hnoted.sv, hsafe]
  · refine Eq.trans ?_ hcnt
    have hsafe' : (s.causeNoted b).sv.safe = true := by rw [hnoted.sv, hsafe]
    generalize s.causeNoted b = v at hsafe'
    rw [State.enterSafe]
    cases hmay : v.mayPull
    · simp [hsafe']
      rfl
    · simp [State.pullSafeN, hsafe']
      rfl
  · exact hcnt

/-- Settles O15: each clause is one branch of its command. -/
theorem releaseAndProofTest : Obligations.ReleaseAndProofTest := by
  intro s r
  refine ⟨fun hok htwin => Becomes.of rfl ?_, fun hok htwin => Becomes.of rfl ?_, fun hok => Becomes.of rfl ?_,
    fun hdue => Becomes.of rfl ?_, fun hdue hcause => Ends.of rfl ?_, fun hidle htest => Becomes.of rfl ?_,
    fun hidle => Becomes.of rfl ?_, fun htest => Ends.of (v := proofTestDone r s) rfl ?_⟩
  · have hsame : ∀ u : State, u.isTwin = s.isTwin → (u.isTwin && u.role == 1) = false := fun u h => by rw [h, htwin]; rfl
    simp only [svRelease, hok, Bool.not_true, Bool.false_eq_true, if_false]
    exact if_neg (Bool.eq_false_iff.mp (hsame _ rfl))
  · have hrole : s.role = 1 := by simpa [State.releaseOk, htwin] using (Bool.and_eq_true_iff.mp hok).2
    have hpair : ∀ u : State, u.isTwin = s.isTwin → u.role = s.role → (u.isTwin && u.role == 1) = true := fun u h h' => by
      rw [h, h', htwin, hrole]; rfl
    simp only [svRelease, hok, Bool.not_true, Bool.false_eq_true, if_false]
    exact if_pos (hpair _ rfl rfl)
  · simp [svRelease, hok]
  · simp [releaseSafeNCheck, hdue]
  · simp only [releaseSafeNCheck, hdue, Bool.not_true, Bool.false_eq_true, if_false]
    exact State.latchCause_safe (s := { s with sv := { s.sv with checkDue := false, raiseDue := false, safe := true, safeN := false } })
      (by decide) (by decide) hcause rfl
  · simp only [proofTest, hidle, htest, Bool.not_true, Bool.false_eq_true, if_false]
    rw [State.fget_congr (State.loadSafeOutputs_rd _ Reg.SV_CTL (by decide))]
    rfl
  · simp [proofTest, hidle]
  · simp only [proofTestDone, htest, Bool.not_true, Bool.false_eq_true, if_false]
    generalize hend : ({ s with sv := { s.sv with ptest := false } } : State) = v
    have hsv : v.outputsOff.sv = { s.sv with ptest := false } := (State.outputsOff_sv v).trans (by rw [← hend])
    have hctl : v.outputsOff.rd Reg.SV_CTL = s.rd Reg.SV_CTL := (v.outputsOff_rd (by decide)).trans (by rw [← hend]; rfl)
    have hok : v.outputsOff.proofOk r = s.proofOk r := by rw [State.proofOk, State.proofOk, State.fget_congr hctl]
    obtain ⟨hao, hpwm⟩ := v.outputsOff_cur
    generalize v.outputsOff = w at hsv hctl hok hao hpwm
    refine ⟨congrArg SvSt.ptest hsv, (congrArg SvSt.safe hsv :), ?_, ?_, fun j hj => ?_, fun j hj => ?_⟩
    · exact (State.flag_setFlag_disjoint _ _ _ _ (by decide) (by decide) _).trans
        (State.flag_setFlag_same _ _ _ (by decide) (by decide) _)
    · rw [← hok]
      exact State.flag_setFlag_same _ _ _ (by decide) (by decide) _
    · rw [← hao j hj, State.rd_setFlag_ne _ _ _ (by simp only [Reg.CE_AOCUR, Reg.SV_STAT]; omega),
        State.rd_setFlag_ne _ _ _ (by simp only [Reg.CE_AOCUR, Reg.SV_STAT]; omega)]
    · rw [← hpwm j hj, State.rd_setFlag_ne _ _ _ (by simp only [Reg.CE_PWMCUR, Reg.SV_STAT]; omega),
        State.rd_setFlag_ne _ _ _ (by simp only [Reg.CE_PWMCUR, Reg.SV_STAT]; omega)]

end Sys2Proof.Machine
end

section
/-! SUPPORT. The beacon driver: what lighting the sinks leaves alone, and the bits of its status word. -/

namespace Sys2Proof.Machine

theorem State.lightSinks_rd (s : State) {a : Nat} (h : a ≠ Reg.BC_STAT) (h' : a ≠ Reg.BC_SCALE) : s.lightSinks.rd a = s.rd a := by
  obtain ⟨m, w1, w2, w3, hlight⟩ := s.lightSinks_eq
  rw [hlight, State.rd_wr_ne _ _ h', State.rd_wr_ne _ _ h, State.rd_wr_ne _ _ h]
  rfl

/-- Of BC_STAT lighting the sinks writes `lit` and `stale` alone. -/
theorem State.lightSinks_stat (s : State) (f : BitField) (h : f.hi < 2 ∨ 8 ≤ f.lo) :
    s.lightSinks.fget Reg.BC_STAT f = s.fget Reg.BC_STAT f := by
  have hlit : Fld.BC_STAT_lit.hi < f.lo ∨ f.hi < Fld.BC_STAT_lit.lo := h.elim (fun h => .inr (by simp only; omega)) (fun h => .inl (by simp only; omega))
  have hstale : Fld.BC_STAT_stale.hi < f.lo ∨ f.hi < Fld.BC_STAT_stale.lo :=
    h.elim (fun h => .inr (by simp only; omega)) (fun h => .inl (by simp only; omega))
  unfold State.lightSinks
  rw [State.fget_fput_ne _ _ _ _ (by decide), State.setFlag, State.fget_fput_disjoint _ _ _ _ (by decide) hstale,
    State.fget_fput_disjoint _ _ _ _ (by decide) hlit]
  rfl

theorem State.lightSinks_engine (s : State) (e : Nat) : s.lightSinks.engine e = s.engine e := (rfl)

theorem State.engine_setEngine (s : State) (e k : Nat) (x : EngineSt) :
    (s.setEngine e x).engine k = if k = e then x else s.engine k := by
  by_cases h : k = e
  · subst h; simp [State.engine, State.setEngine, kgetD]
  · simp [State.engine, State.setEngine, kgetD, kget?_kset_ne _ _ h, h]

/-- The millisecond of one engine (R417, R418). -/
def State.engineTick (s : State) (e : Nat) : State :=
  s.setEngine e { s.engine e with ms := min ((s.engine e).ms + 1) (10 * s.bstep e (s.engine e).step Fld.BC_STEP_time) }

/-- A millisecond of the first `n` engines advances each of them once and no other. -/
theorem State.engineTicks_engine (s : State) (n k : Nat) :
    ((List.range n).foldl State.engineTick s).engine k = if k < n then
      { s.engine k with ms := min ((s.engine k).ms + 1) (10 * s.bstep k (s.engine k).step Fld.BC_STEP_time) } else s.engine k := by
  have hstep : ∀ n a i f, ((List.range n).foldl State.engineTick s).bstep a i f = s.bstep a i f := fun n a i f =>
    State.fget_congr (State.rd_congr (State.foldl_field State.regs _ State.engineTick (fun _ _ => rfl) s) _) f
  induction n generalizing k with
  | zero => simp
  | succ n ih =>
    rw [List.range_succ, List.foldl_append, List.foldl_cons, List.foldl_nil, State.engineTick, State.engine_setEngine, ih n, hstep]
    by_cases hk : k = n
    · subst hk; simp
    · have : k < n + 1 ↔ k < n := by omega
      rw [if_neg hk, ih k]
      simp only [this]

/-! ## Faults -/

theorem State.fput_or_testBit (s : State) (a : Nat) (f : BitField) (hf : f.lo ≤ f.hi) (h32 : f.hi < 32) (i : Nat) (hi : i < f.hi + 1 - f.lo) :
    ((s.fput a f (s.fget a f ||| 2 ^ i)).fget a f).testBit i = true := by
  rw [State.fget_fput_same _ _ _ hf h32, Nat.testBit_mod_two_pow]
  simp [hi, Nat.testBit_two_pow_self]

/-- A lamp's fault is latched with its group, whose lamps go dark, and raised (R421). -/
theorem State.lampFault_spec (s : State) {n : Nat} (short : Bool) (hn : n < 8)
    (hg : s.fget (Reg.BC_OUT n) Fld.BC_OUT_grp < 4) :
    let u := s.lampFault n short
    let g := s.fget (Reg.BC_OUT n) Fld.BC_OUT_grp
    (u.fget Reg.BC_STAT Fld.BC_STAT_fault).testBit g = true
      ∧ (u.fget Reg.BC_STAT (if short then Fld.BC_STAT_short else Fld.BC_STAT_open)).testBit n = true
      ∧ u.groupOn g = false ∧ u.rd (Reg.EV_OCC 62) = s.rd (Reg.EV_OCC 62) + 1 := by
  intro u g
  have hfault : (u.fget Reg.BC_STAT Fld.BC_STAT_fault).testBit g = true := by
    simp only [u, State.lampFault]
    rw [State.raise_fget _ _ _ _ _ _ (by decide) (by decide), State.lightSinks_stat _ _ (.inr (by decide))]
    exact State.fput_or_testBit _ _ _ (by decide) (by decide) _ hg
  refine ⟨hfault, ?_, by simp [State.groupOn, hfault], ?_⟩
  · simp only [u, State.lampFault]
    rw [State.raise_fget _ _ _ _ _ _ (by decide) (by decide), State.lightSinks_stat _ _ (.inr (by cases short <;> decide)),
      State.fget_fput_disjoint _ _ _ _ (by decide) (by cases short <;> decide)]
    exact State.fput_or_testBit _ _ _ (by cases short <;> decide) (by cases short <;> decide) _ (by cases short <;> simpa using hn)
  · simp only [u, State.lampFault]
    rw [State.raise_occ _ _ _ _ (by decide), State.lightSinks_rd _ (by decide) (by decide), State.rd_fput_ne _ _ _ (by decide),
      State.rd_fput_ne _ _ _ (by decide)]

/-! ## Clearing -/

/-- The outputs of a list as a mask. -/
theorem foldl_or_testBit (l : List Nat) (a o : Nat) : (l.foldl (fun a j => a ||| 2 ^ j) a).testBit o = (a.testBit o || l.contains o) := by
  induction l generalizing a with
  | nil => simp
  | cons j t ih =>
    rw [List.foldl_cons, ih, Nat.testBit_or, Nat.testBit_two_pow, List.contains_cons, Bool.or_assoc]
    congr 2
    simp [Bool.beq_eq_decide_eq, eq_comm]

theorem dropBits_testBit (v m : Nat) {w i : Nat} (hi : i < w) : (v &&& ((2 ^ w - 1) ^^^ m)).testBit i = (v.testBit i && !m.testBit i) := by
  rw [Nat.testBit_and, Nat.testBit_xor, Nat.testBit_two_pow_sub_one]
  simp [hi]

/-- A field of which the bits of a mask have been dropped. -/
theorem State.fput_drop_testBit (s : State) (a : Nat) (f : BitField) (hf : f.lo ≤ f.hi) (h32 : f.hi < 32) (v m : Nat) {i : Nat}
    (hi : i < f.hi + 1 - f.lo) :
    ((s.fput a f (v &&& ((2 ^ (f.hi + 1 - f.lo) - 1) ^^^ m))).fget a f).testBit i = (v.testBit i && !m.testBit i) := by
  rw [State.fget_fput_same _ _ _ hf h32, Nat.testBit_mod_two_pow, dropBits_testBit v m hi]
  simp [hi]

/-- The outputs whose groups a mask names. -/
def State.clearedOutputs (s : State) (mask : BitVec 4) (n : Nat) : Nat :=
  (List.range n).foldl (fun a g => if mask.getLsbD g then (s.groupOutputs g).foldl (fun a j => a ||| 2 ^ j) a else a) 0

theorem State.clearedOutputs_testBit (s : State) (mask : BitVec 4) {n o : Nat} (ho : o < 8)
    (hgrp : s.fget (Reg.BC_OUT o) Fld.BC_OUT_grp < n) (hmask : mask.getLsbD (s.fget (Reg.BC_OUT o) Fld.BC_OUT_grp) = true) :
    (s.clearedOutputs mask n).testBit o = true := by
  induction n with
  | zero => omega
  | succ n ih =>
    rw [State.clearedOutputs, List.range_succ, List.foldl_append, List.foldl_cons, List.foldl_nil, ← State.clearedOutputs]
    by_cases hlast : s.fget (Reg.BC_OUT o) Fld.BC_OUT_grp = n
    · have hmem : o ∈ s.groupOutputs n := by simp [State.groupOutputs, ho, hlast]
      rw [if_pos (hlast ▸ hmask), foldl_or_testBit]
      simp [hmem]
    · have hbefore := ih (by omega)
      split
      · rw [foldl_or_testBit, hbefore, Bool.true_or]
      · exact hbefore

end Sys2Proof.Machine
end

section
/-! PROOF. The beacon driver (R417, R418, R421). -/

namespace Sys2Proof.Machine

theorem beaconFault_one {s : State} {j : BitVec 3} {lamp : LampRead} (halive : s.alive = true)
    (hg : s.fget (Reg.BC_OUT j.toNat) Fld.BC_OUT_grp < 4) (hon : s.groupOn (s.fget (Reg.BC_OUT j.toNat) Fld.BC_OUT_grp) = true)
    (hcode : 35 ≤ kgetD s.bc.sinks j.toNat 0) (hone : lampOpen lamp (kgetD s.bc.sinks j.toNat 0) ≠ s.lampShort lamp) :
    beaconFault j lamp s = s.lampFault j.toNat (s.lampShort lamp) := by
  simp only [beaconFault, halive, hg, hon, hcode, decide_true, Bool.and_self, if_true]
  cases hshort : s.lampShort lamp
  · have hopen : lampOpen lamp (kgetD s.bc.sinks j.toNat 0) = true := by simpa [hshort] using hone
    simp [hopen]
  · have hopen : lampOpen lamp (kgetD s.bc.sinks j.toNat 0) = false := by simpa [hshort] using hone
    simp [hopen]

/-- Settles O16: the engines' millisecond is judged engine by engine, and a lamp's fault and its clearing bit by bit of BC_STAT. -/
theorem beacon : Obligations.Beacon := by
  intro s e j lamp mask halive isOpen short n x level g
  refine ⟨fun hoff => Becomes.of rfl ?_, fun hon => Ends.of (v := beaconUpdate s) rfl fun k hk => ?_, fun hon hstep => Becomes.of rfl ?_,
    fun hon hlast honce => Becomes.of rfl ?_, fun hon hlast honce => Becomes.of rfl ?_,
    fun hg hon hcode hone => Ends.of (v := beaconFault j lamp s) rfl ?_, Ends.of (v := beaconClear mask s) rfl fun k hk => ?_⟩
  · simp [beaconUpdate, halive, hoff]
  · have hupdate : beaconUpdate s = ((List.range 4).foldl State.engineTick s).lightSinks := by
      simp only [beaconUpdate, halive, hon, Bool.not_true, Bool.false_eq_true, if_false, if_true]
      rfl
    rw [hupdate, State.lightSinks_engine, State.engineTicks_engine, if_pos hk]
    exact ⟨rfl, rfl⟩
  · simp only [beaconStep, halive, hon, Bool.and_self, Bool.not_true, Bool.false_eq_true, if_false]
    exact if_neg (Nat.not_le.mpr hstep)
  · simp only [beaconStep, halive, hon, Bool.and_self, Bool.not_true, Bool.false_eq_true, if_false]
    exact (if_pos hlast).trans (if_neg (Bool.eq_false_iff.mp honce))
  · simp only [beaconStep, halive, hon, Bool.and_self, Bool.not_true, Bool.false_eq_true, if_false]
    exact (if_pos hlast).trans (if_pos honce)
  · rw [beaconFault_one halive hg hon hcode hone]
    exact s.lampFault_spec (s.lampShort lamp) j.isLt hg
  · refine ⟨?_, fun hmask o ho hgrp => ?_⟩
    · rw [beaconClear, State.lightSinks_stat _ _ (.inr (by decide)), State.fget_fput_disjoint _ _ _ _ (by decide) (by decide),
        State.fget_fput_disjoint _ _ _ _ (by decide) (by decide)]
      exact State.fput_drop_testBit _ _ Fld.BC_STAT_fault (by decide) (by decide) _ _ hk
    · have hout : (s.clearedOutputs mask 4).testBit o = true := s.clearedOutputs_testBit mask ho (hgrp ▸ hk) (hgrp ▸ hmask)
      have hdropped : ∀ v : Nat, (v.testBit o && !(s.clearedOutputs mask 4).testBit o) = false := fun v => by simp [hout]
      refine ⟨?_, ?_⟩
      · rw [beaconClear, State.lightSinks_stat _ _ (.inr (by decide)), State.fget_fput_disjoint _ _ _ _ (by decide) (by decide)]
        exact (State.fput_drop_testBit _ _ Fld.BC_STAT_short (by decide) (by decide) _ _ ho).trans (hdropped _)
      · rw [beaconClear, State.lightSinks_stat _ _ (.inr (by decide))]
        exact (State.fput_drop_testBit _ _ Fld.BC_STAT_open (by decide) (by decide) _ _ ho).trans (hdropped _)

end Sys2Proof.Machine
end

section
/-! PROOF. The start of acquisition (R33). -/

namespace Sys2Proof.Machine

/-- A hub in Run before its acquisition, among whose accepted input writes stands one to FR_FIRST. -/
def strayInputWrite : State :=
  { State.reset with
    regs := []
    pw := { State.reset.pw with power := .run, waiting := false }
    fe := { State.reset.fe with pend := [(Reg.FR_FIRST_LO, 5)] } }

/-- Refutes O18: the accepted writes act at tick s whatever registers they name, and after FR_FIRST has been set: one to FR_FIRST,
which no input's write can be but the statement's states allow, stands there then. -/
theorem not_acquisitionStart : ¬ Obligations.AcquisitionStart := by
  intro h
  obtain ⟨-, -, -, -, -, hfirst, -⟩ := h strayInputWrite (by decide +kernel) (by decide +kernel) (by decide +kernel)
  revert hfirst
  decide +kernel

end Sys2Proof.Machine
end

section
/-! PROOF. Writes to loops, setpoints and coefficients (R239, R249, R262). -/

namespace Sys2Proof.Machine

/-- Which keys a map lists after a write. -/
theorem kset_any_key {α : Type} (p : Nat → Bool) (m : KMap α) (k : Nat) (v : α) :
    (kset m k v).any (fun e => p e.1) = (p k || m.any (fun e => p e.1)) := by
  induction m with
  | nil => simp [kset]
  | cons e t ih =>
    obtain ⟨k', v'⟩ := e
    rw [kset]
    split
    · rfl
    · split
      next _ heq => simp [heq]
      next => simp [ih, Bool.or_left_comm]

/-- A loop for which a word is staged has its bit pend set. -/
theorem State.notePend_pend {s : State} {l : Nat} (h : s.ce.staged.any (fun e => inLoopBlock l e.1) = true) :
    (s.notePend l).flag (Reg.CE_LSTAT l) Fld.CE_LSTAT_pend = true := by
  have hstaged : (s.stagedOf l).isEmpty = false := by
    obtain ⟨e, he, hblock⟩ := List.any_eq_true.mp h
    exact List.isEmpty_eq_false_iff.mpr (List.ne_nil_of_mem (List.mem_filter.mpr ⟨he, hblock⟩))
  rw [State.notePend, State.lset, hstaged]
  exact State.flag_setFlag_same _ _ _ (by decide) (by decide) _

theorem State.notePend_rd (s : State) (l : Nat) {a : Nat} (h : a ≠ Reg.CE_LSTAT l) : (s.notePend l).rd a = s.rd a :=
  State.rd_setFlag_ne s Fld.CE_LSTAT_pend _ h

theorem inLoopBlock_off (l : Nat) {off : Nat} (h : off < 0x80) : inLoopBlock l (Reg.CE_LCTL l + off) = true := by
  simp [inLoopBlock, h]

theorem loopWritable_lt {off : Nat} (h : loopWritable off = true) : off < 0x40 := by
  simp only [loopWritable, List.contains_eq_mem, List.mem_cons, List.not_mem_nil, or_false, decide_eq_true_eq] at h
  omega

/-- A written word of a loop block: at once outside Run, in Run staged (R239). -/
theorem loopStageWrite_word {s : State} {l : BitVec 5} {off : BitVec 7} (val : Word) (hoff : off.toNat < 0x10)
    (hw : loopWritable off.toNat = true) :
    let a := Reg.CE_LCTL l.toNat + off.toNat
    loopStageWrite l off val s = if s.inRun then
      ({ s with ce := { s.ce with staged := kset s.ce.staged a (val &&& loopMask off.toNat) } } : State).notePend l.toNat
      else s.wr a (val &&& loopMask off.toNat) := by
  intro a
  have hlow : ¬ 0x20 ≤ off.toNat := by omega
  rw [loopStageWrite]
  simp only [show ¬ off.toNat = 0x10 by omega, hw, hlow, decide_false, Bool.false_and, Bool.not_true, Bool.false_eq_true, if_false]
  cases hrun : s.inRun
  · simp only [Bool.false_eq_true, if_false]
    exact if_neg (by simpa [State.inRun] using hrun)
  · simp only [if_true]
    exact if_pos hrun

/-- The low word of a 64-bit value of a loop block commits both words (R9, R239). -/
theorem loopStageWrite_low {s : State} {l : BitVec 5} {off : BitVec 7} (val : Word) (hoff : 0x20 ≤ off.toNat) (hlow : off.toNat % 8 = 0)
    (hw : loopWritable off.toNat = true) :
    let a := Reg.CE_LCTL l.toNat + off.toNat
    let hi := (kget? s.staged (a + 4)).getD (s.ceRead (a + 4))
    loopStageWrite l off val s = if s.inRun then
      ({ s with ce := { s.ce with staged := kset (kset s.ce.staged a val) (a + 4) hi }, staged := kerase s.staged (a + 4) } : State).notePend l.toNat
      else { ((s.wr a val).wr (a + 4) hi) with staged := kerase s.staged (a + 4) } := by
  intro a hi
  have hnot : (off.toNat % 8 == 4) = false := by simp [hlow]
  rw [loopStageWrite]
  simp only [show ¬ off.toNat = 0x10 by omega, hw, hoff, hnot, Bool.and_false, Bool.not_true, Bool.false_eq_true, if_false, if_true]
  cases hrun : s.inRun
  · have hrun' : ∀ b w, (s.wr b w).inRun = false := fun _ _ => hrun
    simp only [Bool.false_eq_true, if_false, hrun']
    exact if_neg (by simpa [State.inRun] using hrun)
  · simp only [if_true]
    have hrun' : ∀ m, ({ s with ce := { s.ce with staged := m } } : State).inRun = true := fun _ => hrun
    simp only [hrun', if_true]
    exact if_pos hrun

/-- Settles O19: each clause is one branch of its command. -/
theorem loopWrites : Obligations.LoopWrites := by
  intro s l off val v i a copy c k hi
  refine ⟨fun hrun hoff hw => Becomes.of rfl ?_, fun hrun hoff hw => Ends.of (v := loopStageWrite l off val s) rfl ?_,
    fun hoff => Becomes.of rfl (if_pos hoff), fun hw hoff => Becomes.of rfl ?_, fun hoff hmod hw => Becomes.of rfl ?_,
    fun hrun hoff hmod hw => Becomes.of rfl ?_, fun hrun hoff hmod hw => Ends.of (v := loopStageWrite l off val s) rfl ?_,
    fun hrun hcopy hok => Ends.of (v := loopApply l s) rfl ?_, fun hrun hcopy hok => Ends.of (v := loopApply l s) rfl ?_,
    fun hrun hok => Ends.of (v := loopApply l s) rfl ?_, fun hrun => ⟨Becomes.of rfl ?_, Becomes.of rfl ?_, Becomes.of rfl ?_⟩,
    fun hsp => Becomes.of rfl (if_pos hsp), fun hsp => Becomes.of rfl (if_neg hsp),
    fun hrun => Ends.of (v := coefWrite i v s) rfl ?_, fun hrun hok => Ends.of (v := coefApply s) rfl ?_,
    fun hrun hok => Ends.of (v := coefApply s) rfl ?_⟩
  · rw [loopStageWrite_word val hoff hw, hrun]
    rfl
  · rw [loopStageWrite_word val hoff hw, if_pos hrun]
    refine ⟨rfl, State.notePend_pend ?_, fun b hb => State.notePend_rd _ _ hb⟩
    exact (kset_any_key (inLoopBlock l.toNat) _ _ _).trans (by rw [inLoopBlock_off _ (by omega)]; rfl)
  · simp [loopStageWrite, hoff, hw]
  · have : ¬ off.toNat = 0x10 := by omega
    simp [loopStageWrite, this, hw, hoff, hmod]
    rfl
  · rw [loopStageWrite_low val hoff hmod hw, hrun]
    rfl
  · rw [loopStageWrite_low val hoff hmod hw, if_pos hrun]
    refine ⟨rfl, rfl, State.notePend_pend ?_⟩
    have := loopWritable_lt hw
    exact (kset_any_key (inLoopBlock l.toNat) _ _ _).trans (by rw [Nat.add_assoc, inLoopBlock_off _ (by omega)]; rfl)
  · have hnil : s.stagedOf l.toNat = [] := hcopy
    have hbudget : Reg.FR_BUDGET ≠ Reg.CE_LSTAT l.toNat := by simp only [Reg.FR_BUDGET, Reg.CE_LSTAT]; omega
    rw [loopApply, if_neg (by simp [hrun])]
    simp only [hnil]
    rw [if_pos (by simpa [c, copy, hnil] using hok)]
    refine ⟨rfl, (State.notePend_rd _ _ hbudget).trans ((State.rd_wr_same _ _ _).trans ?_)⟩
    simp [c, copy, hnil]
  · have hbudget : Reg.FR_BUDGET ≠ Reg.CE_LSTAT l.toNat := by simp only [Reg.FR_BUDGET, Reg.CE_LSTAT]; omega
    have hsome : (s.stagedOf l.toNat).isEmpty = false := List.isEmpty_eq_false_iff.mpr hcopy
    rw [loopApply, if_neg (by simp [hrun])]
    simp only [hsome, Bool.false_eq_true, if_false]
    rw [if_pos hok]
    exact ⟨rfl, (State.notePend_rd _ _ hbudget).trans (State.rd_wr_same _ _ _)⟩
  · have hrefused : loopApply l s = ((s.dropStaged l.toNat).notePend l.toNat).accErr true (Reg.CE_LCTL l.toNat) := by
      rw [loopApply, if_neg (by simp [hrun])]
      exact if_neg (by rw [hok]; exact Bool.false_ne_true)
    obtain ⟨r, hregs⟩ := ((s.dropStaged l.toNat).notePend l.toNat).accErr_eq true (Reg.CE_LCTL l.toNat)
    rw [hrefused]
    exact ⟨by rw [hregs]; rfl, by rw [hregs]; rfl, State.accErr_flag _ _ _⟩
  · simp [loopApply, hrun]
  · simp [coefApply, hrun]
  · exact if_neg (by simp [hrun])
  · rw [coefWrite, if_pos hrun]
    have hk : k ≠ Reg.CE_STAT ∧ k + 4 ≠ Reg.CE_STAT := by
      simp only [k, Reg.CE_COEF_LO, Reg.CE_STAT]; omega
    refine ⟨?_, kget?_kset_same _ _ _, ?_, ?_⟩
    · exact (kget?_kset_ne _ _ (by omega)).trans (kget?_kset_same _ _ _)
    · rw [State.noteCoef, List.isEmpty_eq_false_iff.mpr (kset_ne_nil _ _ _)]
      exact State.flag_setFlag_same _ _ _ (by decide) (by decide) _
    · exact State.rd64_of_words (State.rd_setFlag_ne _ _ _ hk.1) (State.rd_setFlag_ne _ _ _ hk.2)
  · rw [coefApply, if_neg (by simp [hrun])]
    simp only [hok, if_true]
    rfl
  · have hrefused : coefApply s = ({ s with ce := { s.ce with shadow := [] } } : State).noteCoef.accErr true Reg.CE_CMD := by
      rw [coefApply, if_neg (by simp [hrun])]
      exact if_neg (by rw [hok]; exact Bool.false_ne_true)
    obtain ⟨r, hregs⟩ := ({ s with ce := { s.ce with shadow := [] } } : State).noteCoef.accErr_eq true Reg.CE_CMD
    rw [hrefused]
    refine ⟨by rw [hregs]; rfl, by rw [hregs]; rfl, ?_, State.accErr_flag _ _ _⟩
    rw [State.flag_congr (State.accErr_rd _ _ _ _ (by decide) (by decide)) _]
    exact State.flag_setFlag_same _ _ _ (by decide) (by decide) _

end Sys2Proof.Machine
end

section
/-! SUPPORT. What safe state, retiring and latching a cause leave unchanged (R395, R396, R411). -/

namespace Sys2Proof.Machine

/-- A component that no register, the supervisor and no PWM output belong to. -/
structure Apart {α : Type} (g : State → α) : Prop where
  wr : ∀ (u : State) a w, g (u.wr a w) = g u
  sv : ∀ (u : State) v, g { u with sv := v } = g u
  pwm : ∀ (u : State) j d, g (u.pwmSteady j d) = g u

theorem Apart.loadSafeOutputs {α : Type} {g : State → α} (h : Apart g) (s : State) : g s.loadSafeOutputs = g s := by
  rw [State.loadSafeOutputs, State.foldl_field g (List.range 8) (fun u j => u.pwmSteady j (u.fget (Reg.CE_PWMCFG j) Fld.CE_PWMCFG_safe))
    (fun _ _ => h.pwm ..)]
  exact State.foldl_field g (List.range 16) (fun u j => u.wr (Reg.CE_AOCUR j) (word (u.fget (Reg.CE_AOCFG j) Fld.CE_AOCFG_safe)))
    (fun _ _ => h.wr ..) s

theorem Apart.enterSafe {α : Type} {g : State → α} (h : Apart g) (s : State) : g s.enterSafe = g s := by
  unfold State.enterSafe
  extract_lets pulled src low
  have hpulled : g pulled = g s := ite_both (fun u : State => g u = g s) _ _ _ (h.sv s _) rfl
  exact ite_both (fun u : State => g u = g s) _ _ _ ((h.sv pulled _).trans hpulled)
    ((h.loadSafeOutputs _).trans ((h.wr ..).trans ((h.sv pulled _).trans hpulled)))

theorem Apart.retire {α : Type} {g : State → α} (h : Apart g) (s : State) : g s.retire = g s := by
  unfold State.retire
  extract_lets noted src low pulled
  have hlow : g low = g s := (h.sv noted _).trans ((h.wr ..).trans (h.wr ..))
  have hpulled : g pulled = g s := ite_both (fun u : State => g u = g s) _ _ _ ((h.sv low _).trans hlow) hlow
  exact ite_both (fun u : State => g u = g s) _ _ _ hpulled
    ((h.loadSafeOutputs _).trans ((h.wr ..).trans ((h.sv pulled _).trans hpulled)))

/-- What holds of the state before a cause is latched, of the noted cause, and across safe state and retiring, holds after it. -/
theorem State.latchCause_both (p : State → Prop) (s : State) (b : Nat) (hsame : p s) (hnote : p (s.causeNoted b))
    (henter : p (s.causeNoted b).enterSafe) (hretire : p (s.causeNoted b).retire) : p (s.latchCause b) := by
  cases hcause : s.hasCause b
  · rw [s.latchCause_eq hcause]
    exact ite_both p _ _ _ (ite_both p _ _ _ hretire henter) hnote
  · rw [s.latchCause_held b hcause]
    exact hsame

theorem Apart.latchCause {α : Type} {g : State → α} (h : Apart g) (s : State) (b : Nat) (hnote : g (s.causeNoted b) = g s) :
    g (s.latchCause b) = g s :=
  State.latchCause_both (fun u : State => g u = g s) s b rfl hnote ((h.enterSafe _).trans hnote) ((h.retire _).trans hnote)

/-- A register that latching a cause may write. -/
def causeReg (a : Nat) : Bool :=
  eventReg a || safeOutReg a || [Reg.SV_CAUSE, Reg.SV_FIRST, Reg.SV_SAFECNT, Reg.SV_TWSTAT].contains a

theorem State.latchCause_rd (s : State) (b : Nat) {a : Nat} (h : causeReg a = false) : (s.latchCause b).rd a = s.rd a := by
  simp only [causeReg, Bool.or_eq_false_iff, List.contains_eq_mem, List.mem_cons, List.not_mem_nil, or_false, decide_eq_false_iff_not,
    not_or] at h
  obtain ⟨⟨hevent, hout⟩, hcause, hfirst, hcnt, htw⟩ := h
  have hnote := (s.causeNoted_noted b).rd a hevent hcause hfirst
  exact State.latchCause_both (fun u : State => u.rd a = s.rd a) s b rfl hnote ((State.enterSafe_rd _ _ hout hcnt).trans hnote)
    ((State.retire_rd _ _ hout hcnt htw).trans hnote)

theorem eventReg_of_between {a : Nat} (h : 0x1000 ≤ a) (h' : a < 0x70000) : eventReg a = false := by
  simp only [eventReg, Bool.or_eq_false_iff, Bool.and_eq_false_iff, decide_eq_false_iff_not]
  omega

theorem safeOutReg_of_lt {a : Nat} (h : a < 0x210c0 ∨ 0x21160 ≤ a) : safeOutReg a = false := by
  simp only [safeOutReg, Bool.or_eq_false_iff, List.any_eq_false, List.mem_range, beq_iff_eq]
  exact ⟨fun j _ => by simp only [Reg.CE_AOCUR]; omega, fun j _ => by simp only [Reg.CE_PWMCUR]; omega⟩

/-- Below the safe outputs no register is a cause's but those of the event window and the ledger. -/
theorem causeReg_of_lt {a : Nat} (h : 0x1000 ≤ a) (h' : a < 0x210c0) : causeReg a = false := by
  simp only [causeReg, safeOutReg_of_lt (.inl h'), eventReg, List.contains_eq_mem, List.mem_cons, List.not_mem_nil, or_false,
    Bool.or_eq_false_iff, decide_eq_false_iff_not, Bool.and_eq_false_iff, Reg.SV_CAUSE, Reg.SV_FIRST, Reg.SV_SAFECNT, Reg.SV_TWSTAT, and_true]
  omega

theorem State.latchCause_occ (s : State) (b : Nat) {n : Nat} (hn : n < 64) (hne : n ≠ 35) :
    (s.latchCause b).rd (Reg.EV_OCC n) = s.rd (Reg.EV_OCC n) := by
  have hout : safeOutReg (Reg.EV_OCC n) = false := safeOutReg_of_lt (by simp only [Reg.EV_OCC]; omega)
  have hreg : Reg.EV_OCC n ≠ Reg.SV_SAFECNT ∧ Reg.EV_OCC n ≠ Reg.SV_TWSTAT := by
    simp only [Reg.EV_OCC, Reg.SV_SAFECNT, Reg.SV_TWSTAT]; omega
  have hnote := (s.causeNoted_noted b).occ n hn hne
  exact State.latchCause_both (fun u : State => u.rd (Reg.EV_OCC n) = s.rd (Reg.EV_OCC n)) s b rfl hnote
    ((State.enterSafe_rd _ _ hout hreg.1).trans hnote) ((State.retire_rd _ _ hout hreg.1 hreg.2).trans hnote)

theorem State.latchCause_hasCause (s : State) {b : Nat} (hb : b < 32) : (s.latchCause b).hasCause b = true := by
  cases hcause : s.hasCause b
  · exact (s.latchCause_latches b hb hcause).set
  · rw [s.latchCause_held b hcause, hcause]

theorem State.enterSafe_twin (s : State) : s.enterSafe.sv.twin = s.sv.twin := s.enterSafe_sv.2.2.2.2.1

theorem State.retire_twin (s : State) : s.retire.sv.twin = s.sv.twin := by
  unfold State.retire
  extract_lets noted src low pulled
  have hpulled : pulled.sv.twin = s.sv.twin := ite_both (fun u : State => u.sv.twin = s.sv.twin) _ _ _ rfl rfl
  exact ite_both (fun u : State => u.sv.twin = s.sv.twin) _ _ _ hpulled
    ((congrArg SvSt.twin (State.loadSafeOutputs_sv _)).trans hpulled)

theorem State.latchCause_twin (s : State) (b : Nat) : (s.latchCause b).sv.twin = s.sv.twin := by
  have hnote : (s.causeNoted b).sv.twin = s.sv.twin := by rw [(s.causeNoted_noted b).sv]
  exact State.latchCause_both (fun u : State => u.sv.twin = s.sv.twin) s b rfl hnote ((State.enterSafe_twin _).trans hnote)
    ((State.retire_twin _).trans hnote)

/-- The engine but for its PWM outputs. -/
def State.engineBesidePwm (s : State) : CeSt := { s.ce with pwm := [] }

theorem apart_engineBesidePwm : Apart State.engineBesidePwm := ⟨fun _ _ _ => rfl, fun _ _ => rfl, fun _ _ _ => rfl⟩

theorem State.latchCause_engine (s : State) (b : Nat) : (s.latchCause b).engineBesidePwm = s.engineBesidePwm :=
  apart_engineBesidePwm.latchCause s b (by rw [State.engineBesidePwm, (s.causeNoted_noted b).ce]; rfl)

end Sys2Proof.Machine
end

section
/-! PROOF. A hold that lasts too long, the readback, a PWM period, and shared values (R243, R255, R257, R259). -/

namespace Sys2Proof.Machine

/-- A loop whose hold has expired: its event once, CE_LSTAT and its safe value (R243). -/
def State.holdFailed (s : State) (l : Nat) : State :=
  let x := s.loop l
  let noted := if x.failed then s else (s.setLoop l { x with failed := true }).raise 32 l 1
  let marked := (noted.lset l Fld.CE_LSTAT_failed true).lset l Fld.CE_LSTAT_holding false
  marked.setLoopU l (marked.lsafe l)

theorem State.holdExpire_eq (s : State) (l : Nat) :
    s.holdExpire l = if (s.holdFailed l).lctl l Fld.CE_LCTL_fail_safe = 1 then (s.holdFailed l).latchCause 8 else s.holdFailed l := rfl

/-- What a hold that expires leaves, its cause apart. -/
structure HoldFailed (l : Nat) (s u : State) : Prop where
  sv : u.sv = s.sv
  lctl : u.rd (Reg.CE_LCTL l) = s.rd (Reg.CE_LCTL l)
  value : u.rd64 (Reg.CE_LOUTV_LO l) = s.lsafe l
  failed : u.flag (Reg.CE_LSTAT l) Fld.CE_LSTAT_failed = true
  occ : u.rd (Reg.EV_OCC 32) = s.rd (Reg.EV_OCC 32) + (if (s.loop l).failed then 0 else 1)

theorem State.holdFailed_failed (s : State) {l : Nat} (hl : l < 32) : HoldFailed l s (s.holdFailed l) := by
  unfold State.holdFailed
  extract_lets x noted marked
  have hraised := raise_raised (s.setLoop l { x with failed := true }) 32 l 1 (by decide)
  have hnoted : ∀ a, eventReg a = false → noted.rd a = s.rd a := fun a h =>
    ite_both (fun u : State => u.rd a = s.rd a) _ _ _ rfl (hraised.frame.rd a h)
  have hsv : noted.sv = s.sv := ite_both (fun u : State => u.sv = s.sv) _ _ _ rfl hraised.frame.sv
  have hocc : noted.rd (Reg.EV_OCC 32) = s.rd (Reg.EV_OCC 32) + (if x.failed then 0 else 1) := by
    simp only [noted]
    split
    · simp
    · exact hraised.occ
  have hmarked : ∀ a, a ≠ Reg.CE_LSTAT l → marked.rd a = noted.rd a := fun a h =>
    (State.rd_setFlag_ne _ _ _ h).trans (State.rd_setFlag_ne _ _ _ h)
  have hend : ∀ a, a ≠ Reg.CE_LOUTV_LO l → a ≠ Reg.CE_LOUTV_LO l + 4 → (marked.setLoopU l (marked.lsafe l)).rd a = marked.rd a :=
    fun a h h4 => State.rd_wr64_ne _ _ h h4
  have hblock : ∀ a, Reg.CE_LCTL l ≤ a → a < Reg.CE_LCTL l + 0x80 → eventReg a = false := fun a h h' =>
    eventReg_of_between (by simp only [Reg.CE_LCTL] at h; omega) (by simp only [Reg.CE_LCTL] at h'; omega)
  refine ⟨hsv, ?_, ?_, ?_, ?_⟩
  · rw [hend _ (by simp only [Reg.CE_LCTL, Reg.CE_LOUTV_LO]; omega) (by simp only [Reg.CE_LCTL, Reg.CE_LOUTV_LO]; omega),
      hmarked _ (by simp only [Reg.CE_LCTL, Reg.CE_LSTAT]; omega), hnoted _ (hblock _ (by omega) (by omega))]
  · have hsafe : ∀ a, Reg.CE_LSAFE_LO l ≤ a → a < Reg.CE_LSAFE_LO l + 8 → marked.rd a = s.rd a := fun a h h' => by
      simp only [Reg.CE_LSAFE_LO] at h h'
      rw [hmarked a (by simp only [Reg.CE_LSTAT]; omega), hnoted a (hblock a (by simp only [Reg.CE_LCTL]; omega) (by simp only [Reg.CE_LCTL]; omega))]
    refine (State.rd64_wr64_same _ _ _).trans ?_
    exact State.rd64_of_words (hsafe _ (by omega) (by omega)) (hsafe _ (by omega) (by omega))
  · refine (State.flag_congr (hend _ (by simp only [Reg.CE_LSTAT, Reg.CE_LOUTV_LO]; omega) (by simp only [Reg.CE_LSTAT, Reg.CE_LOUTV_LO]; omega))
      _).trans ?_
    exact (State.flag_setFlag_disjoint _ _ _ _ (by decide) (by decide) _).trans (State.flag_setFlag_same _ _ _ (by decide) (by decide) _)
  · rw [hend _ (by simp only [Reg.EV_OCC, Reg.CE_LOUTV_LO]; omega) (by simp only [Reg.EV_OCC, Reg.CE_LOUTV_LO]; omega),
      hmarked _ (by simp only [Reg.EV_OCC, Reg.CE_LSTAT]; omega), hocc]

theorem State.holdExpire_keep {s : State} {l : Nat} (hl : l < 32) (h : s.lctl l Fld.CE_LCTL_fail_safe ≠ 1) :
    s.holdExpire l = s.holdFailed l := by
  rw [s.holdExpire_eq]
  exact if_neg (by rw [State.lctl, State.fget_congr (s.holdFailed_failed hl).lctl]; exact h)

theorem State.holdExpire_latch {s : State} {l : Nat} (hl : l < 32) (h : s.lctl l Fld.CE_LCTL_fail_safe = 1) :
    s.holdExpire l = (s.holdFailed l).latchCause 8 := by
  rw [s.holdExpire_eq]
  exact if_pos (by rw [State.lctl, State.fget_congr (s.holdFailed_failed hl).lctl]; exact h)

/-! ## Shared values -/

/-- One shared value is taken where it is at least as new as the one held (R257). -/
def takeShared (frame : Nat) (m : KMap Shared) (e : SharedIn) : KMap Shared :=
  match kget? m e.id.toNat with
  | some v => if v.frame ≤ frame then kset m e.id.toNat { frame := frame, valid := e.valid, value := e.value } else m
  | none => kset m e.id.toNat { frame := frame, valid := e.valid, value := e.value }

theorem sharedValues_eq {s : State} (h : s.alive = true) (frame : Word64) (es : List SharedIn) :
    sharedValues frame es s = { s with ce := { s.ce with shared := es.foldl (takeShared frame.toNat) s.ce.shared } } :=
  if_neg (by simp [h])

theorem takeShared_ne (frame : Nat) (m : KMap Shared) {e : SharedIn} {n : Nat} (h : e.id.toNat ≠ n) :
    kget? (takeShared frame m e) n = kget? m n := by
  unfold takeShared
  split
  · split
    · exact kget?_kset_ne _ _ h.symm
    · rfl
  · exact kget?_kset_ne _ _ h.symm

theorem foldl_takeShared_ne (frame : Nat) (es : List SharedIn) (m : KMap Shared) {n : Nat} (h : ∀ d ∈ es, d.id.toNat ≠ n) :
    kget? (es.foldl (takeShared frame) m) n = kget? m n := by
  induction es generalizing m with
  | nil => rfl
  | cons d t ih =>
    rw [List.foldl_cons, ih _ fun e he => h e (List.mem_cons_of_mem _ he), takeShared_ne _ _ (h d (List.mem_cons_self ..))]

/-- What is held of an identifier once an entry for it has come. -/
def sharedTaken (frame : Nat) (held : Option Shared) (e : SharedIn) : Option Shared :=
  if held.all (fun v => decide (v.frame ≤ frame)) then some { frame := frame, valid := e.valid, value := e.value } else held

theorem takeShared_same (frame : Nat) (m : KMap Shared) (e : SharedIn) :
    kget? (takeShared frame m e) e.id.toNat = sharedTaken frame (kget? m e.id.toNat) e := by
  unfold takeShared sharedTaken
  cases hheld : kget? m e.id.toNat with
  | none => simp
  | some v => by_cases hnew : v.frame ≤ frame <;> simp [hnew, hheld]

/-- Of distinct identifiers each is decided by its own entry. -/
theorem foldl_takeShared_mem (frame : Nat) {es : List SharedIn} (m : KMap Shared) {e : SharedIn} (hnodup : (es.map SharedIn.id).Nodup)
    (he : e ∈ es) : kget? (es.foldl (takeShared frame) m) e.id.toNat = sharedTaken frame (kget? m e.id.toNat) e := by
  induction es generalizing m with
  | nil => cases he
  | cons d t ih =>
    obtain ⟨hd, ht⟩ := List.nodup_cons.mp hnodup
    rw [List.foldl_cons]
    rcases List.mem_cons.mp he with rfl | hmem
    · rw [foldl_takeShared_ne _ _ _ fun x hx heq => hd ((BitVec.eq_of_toNat_eq heq : x.id = e.id) ▸ List.mem_map_of_mem hx), takeShared_same]
    · rw [ih _ ht hmem, takeShared_ne _ _ fun heq => hd (BitVec.eq_of_toNat_eq heq ▸ List.mem_map_of_mem hmem)]

/-! ## The readback -/

/-- A failed readback is counted, for the diagnosis of a pair too (R259, R408). -/
def State.readbackCounted (s : State) (i c : Nat) : State :=
  ({ s with ce := { s.ce with rbFail := kset s.ce.rbFail i c } } : State).noteBad s.frameNo

/-- A failure that is not the first in a row is marked and, the second, raised; its cause apart (R259). -/
def State.readbackFailed (s : State) (i c : Nat) : State :=
  let marked := (s.readbackCounted i c).wr Reg.CE_RBSTAT (s.rd Reg.CE_RBSTAT ||| (1#32 <<< i))
  if c = 2 then marked.raise 34 i 0 else marked

/-- What a failure leaves, its cause apart. -/
structure ReadbackFailed (i c : Nat) (s u : State) : Prop where
  counted : u.ce.rbFail = kset s.ce.rbFail i c
  marked : u.rd Reg.CE_RBSTAT = s.rd Reg.CE_RBSTAT ||| (1#32 <<< i)
  bad : u.sv.twin.lastBad = some s.frameNo
  occ : u.rd (Reg.EV_OCC 34) = s.rd (Reg.EV_OCC 34) + (if c = 2 then 1 else 0)

theorem State.readbackFailed_failed (s : State) (i c : Nat) : ReadbackFailed i c s (s.readbackFailed i c) := by
  have hocc : ((s.readbackCounted i c).wr Reg.CE_RBSTAT (s.rd Reg.CE_RBSTAT ||| (1#32 <<< i))).rd (Reg.EV_OCC 34) = s.rd (Reg.EV_OCC 34) :=
    State.rd_wr_ne _ _ (by decide)
  rw [State.readbackFailed]
  split
  next hsecond =>
    have hraised := raise_raised ((s.readbackCounted i c).wr Reg.CE_RBSTAT (s.rd Reg.CE_RBSTAT ||| (1#32 <<< i))) 34 i 0 (by decide)
    exact ⟨congrArg CeSt.rbFail hraised.frame.ce, (hraised.frame.rd _ (by decide)).trans (State.rd_wr_same _ _ _),
      congrArg (fun v : SvSt => v.twin.lastBad) hraised.frame.sv, hraised.occ.trans (by rw [if_pos hsecond, hocc])⟩
  next hsecond => exact ⟨rfl, State.rd_wr_same _ _ _, rfl, by rw [if_neg hsecond]; exact hocc.trans (BitVec.add_zero _).symm⟩

/-- Safe state, retiring and a cause leave it. -/
theorem ReadbackFailed.latchCause {i c : Nat} {s u : State} (h : ReadbackFailed i c s u) : ReadbackFailed i c s (u.latchCause 7) :=
  ⟨(congrArg CeSt.rbFail (u.latchCause_engine 7) :).trans h.counted, (u.latchCause_rd 7 (by decide)).trans h.marked,
    (congrArg TwinSt.lastBad (u.latchCause_twin 7)).trans h.bad, (u.latchCause_occ 7 (by decide) (by decide)).trans h.occ⟩

/-- Settles O20: each clause is one branch of its command. -/
theorem loopsAndOutputs : Obligations.LoopsAndOutputs := by
  intro s l o pin level j x frame es e n k i duty isOn fails judged c holds
  have hk : k < 32 := l.isLt
  have hcheck : judged = true → outputReadbackCheck o pin level s =
      if fails then (if c + 1 < 2 then s.readbackCounted i (c + 1) else (s.readbackFailed i (c + 1)).latchCause 7)
      else { s with ce := { s.ce with rbFail := kset s.ce.rbFail i 0 } } := by
    intro hjudged
    unfold outputReadbackCheck
    extract_lets next src held counted marked raised
    rw [if_neg (by rw [Bool.not_eq_true']; exact Bool.not_eq_false _ ▸ hjudged)]
    cases hfails : fails
    · have hnext : next = 0 := if_neg (by rw [hfails]; exact Bool.false_ne_true)
      have hcounted : counted = held := if_neg (by rw [hfails]; exact Bool.false_ne_true)
      rw [if_pos (by omega), hcounted]
      simp only [held, hnext]
      rfl
    · have hnext : next = c + 1 := if_pos hfails
      have hcounted : counted = s.readbackCounted i (c + 1) := by
        simp only [counted, held, hnext, hfails]
        rfl
      have hraised : raised = s.readbackFailed i (c + 1) := by
        simp only [raised, marked, hnext, hcounted]
        rfl
      rw [hnext, hcounted, hraised]
      rfl
  refine ⟨fun hholds hkeep => Ends.of (v := loopHoldExpire l s) rfl ?_, fun hholds hlatch => Ends.of (v := loopHoldExpire l s) rfl ?_,
    fun hholds => Becomes.of rfl ?_, fun hjudged hfails => Becomes.of rfl ?_, fun hjudged hfails hc => Becomes.of rfl ?_,
    fun hjudged hfails hc => Ends.of (v := outputReadbackCheck o pin level s) rfl ?_, fun hjudged => Becomes.of rfl ?_,
    fun hrun hen => Becomes.of rfl ?_, fun hoff => Becomes.of rfl ?_, fun hrun hen hx hon hlt => Becomes.of rfl ?_,
    fun hrun hen hx hoff => Becomes.of rfl ?_, fun halive hnodup hwf => Ends.of (v := sharedValues frame es s) rfl ?_,
    fun halive => Becomes.of rfl ?_⟩
  · rw [loopHoldExpire, if_pos hholds, State.holdExpire_keep hk hkeep]
    obtain ⟨hsv, -, hvalue, hfailed, hocc⟩ := s.holdFailed_failed hk
    exact ⟨hsv, hvalue, hfailed, hocc⟩
  · rw [loopHoldExpire, if_pos hholds, State.holdExpire_latch hk hlatch]
    obtain ⟨-, -, hvalue, hfailed, hocc⟩ := s.holdFailed_failed hk
    have hreg : ∀ a, Reg.CE_LCTL k ≤ a → a < Reg.CE_LCTL k + 0x80 →
        ((s.holdFailed k).latchCause 8).rd a = (s.holdFailed k).rd a := fun a h h' => by
      simp only [Reg.CE_LCTL] at h h'
      exact State.latchCause_rd _ _ (causeReg_of_lt (by omega) (by omega))
    refine ⟨State.latchCause_hasCause _ (by decide), ?_, ?_, (State.latchCause_occ _ _ (by decide) (by decide)).trans hocc⟩
    · rw [← hvalue]
      exact State.rd64_of_words (hreg _ (by simp only [Reg.CE_LCTL, Reg.CE_LOUTV_LO]; omega) (by simp only [Reg.CE_LCTL, Reg.CE_LOUTV_LO]; omega))
        (hreg _ (by simp only [Reg.CE_LCTL, Reg.CE_LOUTV_LO]; omega) (by simp only [Reg.CE_LCTL, Reg.CE_LOUTV_LO]; omega))
    · rw [← hfailed]
      exact State.flag_congr (hreg _ (by simp only [Reg.CE_LCTL, Reg.CE_LSTAT]; omega) (by simp only [Reg.CE_LCTL, Reg.CE_LSTAT]; omega)) _
  · exact if_neg (by simpa [holds] using hholds)
  · rw [hcheck hjudged, hfails]
    rfl
  · rw [hcheck hjudged, hfails, hc]
    rfl
  · rw [hcheck hjudged, hfails, if_pos rfl, if_neg (by omega)]
    obtain ⟨hcounted, hmarked, hbad, hocc⟩ := (s.readbackFailed_failed i (c + 1)).latchCause
    refine ⟨hcounted, hmarked, State.latchCause_hasCause _ (by decide), hbad, hocc.trans ?_⟩
    simp only [show (c + 1 = 2) = (c = 1) by simp]
  · exact if_pos ((Bool.not_eq_true' _).mpr hjudged)
  · exact if_neg (by simp [hrun, hen])
  · exact if_pos (by rcases hoff with h | h <;> simp [h])
  · rw [pwmOnTimeEnd]
    simp only [hx, hrun, hen, hon, Bool.and_self, decide_eq_true hlt, if_true]
  · rw [pwmOnTimeEnd]
    simp only [hx]
    exact if_neg (by rcases hoff with h | h <;> simp [h])
  · rw [sharedValues_eq halive]
    refine ⟨fun hall => ?_, fun he hold => ?_, fun he hnew => ?_⟩
    · refine foldl_takeShared_ne _ _ _ fun d hd => ?_
      simpa using List.all_eq_true.mp hall d hd
    · exact (foldl_takeShared_mem _ _ hnodup he).trans (if_pos hold)
    · refine (foldl_takeShared_mem _ _ hnodup he).trans (if_neg ?_)
      cases hheld : kget? s.ce.shared e.id.toNat <;> simp_all
  · exact if_pos (by simp [halive])

end Sys2Proof.Machine
end

section
/-! SUPPORT. The capture units: what the opening of a record and its rows leave unchanged (R205 to R214, R230). -/

namespace Sys2Proof.Machine

@[simp] theorem State.unit_setUnit_same (s : State) (k : Nat) (x : UnitSt) : (s.setUnit k x).unit k = x := by
  simp [State.unit, State.setUnit]

@[simp] theorem State.unit_modUnit_same (s : State) (k : Nat) (f : UnitSt → UnitSt) : (s.modUnit k f).unit k = f (s.unit k) :=
  State.unit_setUnit_same s k _

theorem State.unit_congr {s u : State} (h : u.aq = s.aq) (k : Nat) : u.unit k = s.unit k := by
  rw [State.unit, State.unit, h]

theorem State.ustate_setUstate_same (s : State) (k : Nat) {v : Nat} (h : v < 8) : (s.setUstate k v).ustate k = v :=
  (State.fget_fput_same s _ Fld.AQ_USTAT_state (by decide) (by decide) v).trans (Nat.mod_eq_of_lt h)

theorem State.setUstate_rd_ne (s : State) (k v : Nat) {a : Nat} (h : a ≠ Reg.AQ_USTAT k) : (s.setUstate k v).rd a = s.rd a :=
  State.rd_fput_ne s _ _ h

theorem LinkOnly.sendAll (s : State) (c : Cell) : LinkOnly s (s.sendAll c) := by
  unfold State.sendAll
  extract_lets first
  have hfirst : LinkOnly s first := ite_both (LinkOnly s) _ _ _ (LinkOnly.sendCell ..) (LinkOnly.refl s)
  exact ite_both (LinkOnly s) _ _ _ (hfirst.trans (LinkOnly.sendCell ..)) hfirst

/-- What tells a record from another: its source, trigger point, trigger sample and number. -/
def Plot.key (p : Plot) : Nat × Int × Nat × Word := (p.source, p.tp, p.j, p.seq)

/-- From `s` to `u` a unit keeps its state, its numbers, its slots, what it holds and which record it has open. -/
structure UnitKept (k : Nat) (s u : State) : Prop where
  state : u.ustate k = s.ustate k
  seq : u.rd (Reg.AQ_USEQ k) = s.rd (Reg.AQ_USEQ k)
  cfg : u.rd (Reg.AQ_UCFG k) = s.rd (Reg.AQ_UCFG k)
  slots : (u.unit k).usedSlots = (s.unit k).usedSlots
  held : (u.unit k).held = (s.unit k).held
  key : (u.unit k).plot.map Plot.key = (s.unit k).plot.map Plot.key

theorem UnitKept.refl (k : Nat) (s : State) : UnitKept k s s := ⟨rfl, rfl, rfl, rfl, rfl, rfl⟩

theorem UnitKept.trans {k : Nat} {s u v : State} (h : UnitKept k s u) (h' : UnitKept k u v) : UnitKept k s v :=
  ⟨h'.state.trans h.state, h'.seq.trans h.seq, h'.cfg.trans h.cfg, h'.slots.trans h.slots, h'.held.trans h.held, h'.key.trans h.key⟩

theorem UnitKept.unitStream {k : Nat} {s u : State} (h : UnitKept k s u) : u.unitStream k = s.unitStream k :=
  State.flag_congr h.cfg Fld.AQ_UCFG_stream

/-- What leaves the three registers and the unit's record alone keeps the unit. -/
theorem UnitKept.of_rd {k : Nat} {s u : State} (hrd : ∀ a, 0x18800 ≤ a → a < 0x1A000 → u.rd a = s.rd a) (hk : k < 8)
    (hslots : (u.unit k).usedSlots = (s.unit k).usedSlots) (hheld : (u.unit k).held = (s.unit k).held)
    (hkey : (u.unit k).plot.map Plot.key = (s.unit k).plot.map Plot.key) : UnitKept k s u :=
  ⟨State.fget_congr (hrd _ (by simp only [Reg.AQ_USTAT]; omega) (by simp only [Reg.AQ_USTAT]; omega)) _,
    hrd _ (by simp only [Reg.AQ_USEQ]; omega) (by simp only [Reg.AQ_USEQ]; omega),
    hrd _ (by simp only [Reg.AQ_UCFG]; omega) (by simp only [Reg.AQ_UCFG]; omega), hslots, hheld, hkey⟩

theorem UnitKept.of_unit {k : Nat} {s u : State} (hrd : ∀ a, 0x18800 ≤ a → a < 0x1A000 → u.rd a = s.rd a) (hk : k < 8)
    (hunit : u.unit k = s.unit k) : UnitKept k s u :=
  .of_rd hrd hk (by rw [hunit]) (by rw [hunit]) (by rw [hunit])

theorem eventReg_unit {a : Nat} (h : 0x18800 ≤ a) (h' : a < 0x1A000) : eventReg a = false := by
  simp only [eventReg, Bool.or_eq_false_iff, Bool.and_eq_false_iff, decide_eq_false_iff_not]
  omega

theorem UnitKept.raised {k n obj cause aux8 : Nat} {data : Word64} {s u : State} (hk : k < 8) (h : Raised n obj cause aux8 data s u) :
    UnitKept k s u :=
  .of_unit (fun a ha ha' => h.frame.rd a (eventReg_unit ha ha')) hk (State.unit_congr h.frame.aq k)

theorem UnitKept.raiseD {k : Nat} (hk : k < 8) (s : State) {n : Nat} (obj cause aux8 : Nat) (data : Word64) (hn : n < 64) :
    UnitKept k s (s.raiseD n obj cause aux8 data) := .raised hk (raiseD_raised s n obj cause aux8 data hn)

theorem UnitKept.modUnit {k : Nat} (hk : k < 8) (s : State) {f : UnitSt → UnitSt} (hslots : ∀ x, (f x).usedSlots = x.usedSlots)
    (hheld : ∀ x, (f x).held = x.held) (hkey : ∀ x, (f x).plot.map Plot.key = x.plot.map Plot.key) : UnitKept k s (s.modUnit k f) :=
  .of_rd (fun _ _ _ => rfl) hk (by simp [hslots]) (by simp [hheld]) (by simp [hkey])

theorem UnitKept.memoryLow {k : Nat} (hk : k < 8) (s : State) (cause : Nat) : UnitKept k s (s.memoryLow k cause) := by
  rw [State.memoryLow]
  have hlow : UnitKept k s (s.modUnit k fun x => { x with memLow := true }) := .modUnit hk s (fun _ => rfl) (fun _ => rfl) fun _ => rfl
  exact ite_both (UnitKept k s) _ _ _ (.refl k s)
    (hlow.trans (.raised hk (raise_raised (s.modUnit k fun x => { x with memLow := true }) 31 k cause (by decide))))

theorem UnitKept.testMask {k : Nat} (hk : k < 8) {s : State} {p : Plot} (r : Row) (h : (s.unit k).plot = some p) :
    UnitKept k s (s.testMask k p r) := by
  unfold State.testMask
  extract_lets idx noted counted
  refine ite_both (UnitKept k s) _ _ _ (.refl k s) ?_
  have hnoted : UnitKept k s noted := .of_rd (fun _ _ _ => rfl) hk (by simp [noted]) (by simp [noted]) (by simp [noted, h, Plot.key])
  have hviol : ∀ a, a ≠ Reg.AQ_UVIOLCNT k → (noted.incSat (Reg.AQ_UVIOLCNT k) 1).rd a = noted.rd a := fun a ha => State.rd_wr_ne _ _ ha
  have hrd : ∀ a, a ≠ Reg.AQ_UVIOLCNT k → a ≠ Reg.AQ_USTAT k → counted.rd a = noted.rd a := fun a h1 h2 =>
    (State.rd_setFlag_ne _ _ _ h2).trans (hviol a h1)
  have hcounted : UnitKept k noted counted := by
    refine ⟨?_, hrd _ ?_ ?_, hrd _ ?_ ?_, rfl, rfl, rfl⟩
    · refine (State.fget_fput_disjoint _ _ _ _ (by decide) (by decide) _).trans (State.fget_congr (hviol _ ?_) _)
      simp only [Reg.AQ_USTAT, Reg.AQ_UVIOLCNT]; omega
    all_goals simp only [Reg.AQ_USTAT, Reg.AQ_UVIOLCNT, Reg.AQ_USEQ, Reg.AQ_UCFG]; omega
  exact (hnoted.trans hcounted).trans (.raiseD hk _ _ _ _ _ (by decide))

/-- A row joins the record that a unit without streaming has open, which stays the one it is. -/
theorem UnitKept.writeRow {k : Nat} (hk : k < 8) {s : State} (r : Row) (h : s.unitStream k = false) : UnitKept k s (s.writeRow k r) := by
  unfold State.writeRow
  extract_lets x
  cases hplot : x.plot with
  | none => exact .refl k s
  | some p =>
    simp only [h, Bool.false_eq_true, if_false]
    refine UnitKept.trans (u := s.setUnit k { x with plot := some { p with written := p.written + 1, rows := p.rows ++ [r] } }) ?_
      (.testMask hk r (by simp))
    exact .of_rd (fun _ _ _ => rfl) hk (by simp [x]) (by simp [x]) (by simp [x, Plot.key, show (s.unit k).plot = some p from hplot])

theorem UnitKept.writeRows {k : Nat} (hk : k < 8) (rows : List Row) {s : State} (h : s.unitStream k = false) :
    UnitKept k s (rows.foldl (fun s r => s.writeRow k r) s) := by
  induction rows generalizing s with
  | nil => exact .refl k s
  | cons r t ih =>
    have hrow : UnitKept k s (s.writeRow k r) := .writeRow hk r h
    exact hrow.trans (ih (hrow.unitStream.trans h))

theorem UnitKept.trigOut {k : Nat} (hk : k < 8) (s : State) (src sel : Nat) : UnitKept k s (s.trigOut src sel) := by
  have hone : ∀ (u : State) (o : Nat), UnitKept k u (if u.fget (Reg.AQ_TOUT o) Fld.AQ_TOUT_src == src && u.fget (Reg.AQ_TOUT o) Fld.AQ_TOUT_sel == sel
      then { u with aq := { u.aq with tout := u.aq.tout ||| (1#2 <<< o) } } else u) := fun u o =>
    ite_both (UnitKept k u) _ _ _ (.of_unit (fun _ _ _ => rfl) hk rfl) (.refl k u)
  exact (hone s 0).trans (hone _ 1)

theorem UnitKept.condDrill {k : Nat} (hk : k < 8) (s : State) (u : Nat) (fi : Firing) : UnitKept k s (s.condDrill u fi) := by
  refine ite_both (UnitKept k s) _ _ _ ?_ (.refl k s)
  unfold State.sendDrill
  extract_lets seq tact msg src noted
  have hsent := LinkOnly.sendAll noted (noted.ownCell 0xB 0x3F ([BitVec.ofNat 8 (s.fget (Reg.AQ_UCOND_A u fi.cond) Fld.AQ_UCOND_A_tx_ch)]
    ++ zeros 3 ++ leBytes 4 seq.toNat ++ timeBytes fi.tp ++ timeBytes fi.tdet))
  exact .of_unit (fun a _ _ => State.rd_congr hsent.regs a) hk (State.unit_congr hsent.aq k)

/-- A unit has opened a record for a firing (R206, R213, R216). -/
structure PlotOpened (k : Nat) (fi : Firing) (s u : State) : Prop where
  state : u.ustate k = uCapturing
  seq : u.rd (Reg.AQ_USEQ k) = s.rd (Reg.AQ_USEQ k) + 1
  slots : (u.unit k).usedSlots = (s.unit k).usedSlots + 1
  held : (u.unit k).held = (s.unit k).held
  key : (u.unit k).plot.map Plot.key = some (fi.cond, fi.tp, fi.j, s.rd (Reg.AQ_USEQ k))

theorem PlotOpened.kept {k : Nat} {fi : Firing} {s u v : State} (h : PlotOpened k fi s u) (h' : UnitKept k u v) : PlotOpened k fi s v :=
  ⟨h'.state.trans h.state, h'.seq.trans h.seq, h'.slots.trans h.slots, h'.held.trans h.held, h'.key.trans h.key⟩

theorem PlotOpened.startPlot {k : Nat} (hk : k < 8) {s : State} (fi : Firing) (hstream : s.unitStream k = false) :
    PlotOpened k fi s (s.startPlot k fi) := by
  unfold State.startPlot
  extract_lets x pre post j next bare lost before coming kept flags p preRows postRows numbered opened capturing low auto shown
  have hnumbered : ∀ a, a ≠ Reg.AQ_USEQ k → numbered.rd a = s.rd a := fun a ha => State.rd_wr_ne _ _ ha
  have hcapturing : ∀ a, a ≠ Reg.AQ_USTAT k → capturing.rd a = numbered.rd a := fun a ha => State.setUstate_rd_ne opened k _ ha
  have hstream' : numbered.unitStream k = false :=
    (State.flag_congr (hnumbered _ (by simp only [Reg.AQ_UCFG, Reg.AQ_USEQ]; omega)) _).trans hstream
  have hunit : capturing.unit k = opened.unit k := rfl
  have hopened : PlotOpened k fi s capturing := by
    refine ⟨State.ustate_setUstate_same _ _ (by decide), ?_, ?_, ?_, ?_⟩
    · rw [hcapturing _ (by simp only [Reg.AQ_USTAT, Reg.AQ_USEQ]; omega)]
      exact State.rd_wr_same _ _ _
    all_goals simp [hunit, opened, hstream', x, p, Plot.key, j]
  have hlow : UnitKept k capturing low := ite_both (UnitKept k capturing) _ _ _ (.memoryLow hk _ _) (.refl k _)
  have hnews : UnitKept k low (low.modUnit k fun x => { x with autoNews := false }) :=
    .modUnit hk low (fun _ => rfl) (fun _ => rfl) fun _ => rfl
  have hauto : UnitKept k low auto := ite_both (UnitKept k low) _ _ _
    (hnews.trans (.raiseD hk (low.modUnit k fun x => { x with autoNews := false }) k 0 0 (p.seq.setWidth 64) (by decide))) (.refl k _)
  have hshown : UnitKept k auto shown := (UnitKept.trigOut hk auto 2 k).trans (.condDrill hk _ k fi)
  have hkept : UnitKept k capturing shown := (hlow.trans hauto).trans hshown
  have hstreamEnd : shown.unitStream k = false :=
    hkept.unitStream.trans ((State.flag_congr (hcapturing _ (by simp only [Reg.AQ_UCFG, Reg.AQ_USTAT]; omega)) _).trans hstream')
  simp only [hstreamEnd, Bool.false_eq_true, if_false]
  exact hopened.kept (hkept.trans (.writeRows hk _ hstreamEnd))

/-- An armed unit without streaming that has a free slot opens a record (R213). -/
theorem PlotOpened.meet {k : Nat} (hk : k < 8) {s : State} (fi : Firing) (harmed : s.ustate k = uArmed) (hstream : s.unitStream k = false)
    (hfree : (s.unit k).usedSlots < s.rdN (Reg.AQ_USLOTS k)) : PlotOpened k fi s (s.meet k fi) := by
  rw [State.meet, if_pos harmed]
  simp only [hstream, Bool.not_false, Bool.true_and, decide_eq_true_eq]
  rw [if_neg (by omega)]
  exact .startPlot hk fi hstream

/-- The record that a unit has opened is that of its firing. -/
theorem PlotOpened.plot_any {k : Nat} {fi : Firing} {s u : State} (h : PlotOpened k fi s u) (p : Plot → Bool)
    (hp : ∀ x : Plot, x.source = fi.cond → x.tp = fi.tp → x.j = fi.j → x.seq = s.rd (Reg.AQ_USEQ k) → p x = true) :
    (u.unit k).plot.any p = true := by
  have hkey := h.key
  cases hplot : (u.unit k).plot with
  | none => simp [hplot] at hkey
  | some x =>
    simp only [hplot, Option.map_some, Plot.key, Option.some.injEq, Prod.mk.injEq] at hkey
    obtain ⟨hsource, htp, hj, hseq⟩ := hkey
    exact hp x hsource htp hj hseq

end Sys2Proof.Machine
end

section
/-! PROOF. Arming, stopping and forcing a capture unit, and the automatic trigger (R214, R217, R218, R232, R234). -/

namespace Sys2Proof.Machine

/-- What a collision shows (R214). -/
structure Collided (k : Nat) (s u : State) : Prop where
  state : u.ustate k = s.ustate k
  flag : u.flag (Reg.AQ_USTAT k) Fld.AQ_USTAT_coll = true
  count : u.rd (Reg.AQ_UCOLL k) = word (min 0xFFFFFFFF (s.rdN (Reg.AQ_UCOLL k) + 1))
  unit : u.unit k = s.unit k

theorem State.collide_collided {k : Nat} (hk : k < 8) (s : State) (cause : Nat) (once : Bool) : Collided k s (s.collide k cause once) := by
  rw [State.collide]
  generalize hv : (s.incSat (Reg.AQ_UCOLL k) 1).setFlag (Reg.AQ_USTAT k) Fld.AQ_USTAT_coll true = v
  have hcoll : ∀ a, a ≠ Reg.AQ_UCOLL k → (s.incSat (Reg.AQ_UCOLL k) 1).rd a = s.rd a := fun a ha => State.rd_wr_ne _ _ ha
  have hstate : v.ustate k = s.ustate k := by
    rw [← hv]
    refine (State.fget_fput_disjoint _ _ _ _ (by decide) (by decide) _).trans (State.fget_congr (hcoll _ ?_) _)
    simp only [Reg.AQ_USTAT, Reg.AQ_UCOLL]; omega
  have hbase : Collided k s v := by
    refine ⟨hstate, ?_, ?_, ?_⟩ <;> rw [← hv]
    · exact State.flag_setFlag_same _ _ _ (by decide) (by decide) _
    · rw [State.rd_setFlag_ne _ _ _ (by simp only [Reg.AQ_USTAT, Reg.AQ_UCOLL]; omega)]
      exact State.rd_wr_same _ _ _
    · rfl
  refine ite_both (Collided k s) _ _ _ hbase ?_
  have hraised := raise_raised v 28 k cause (by decide)
  have hrd : ∀ a, 0x18800 ≤ a → a < 0x1A000 → (v.raise 28 k cause).rd a = v.rd a := fun a h h' => hraised.frame.rd a (eventReg_unit h h')
  refine ⟨(UnitKept.raised hk hraised).state.trans hbase.state, ?_, ?_, (State.unit_congr hraised.frame.aq k).trans hbase.unit⟩
  · exact (State.flag_congr (hrd _ (by simp only [Reg.AQ_USTAT]; omega) (by simp only [Reg.AQ_USTAT]; omega)) _).trans hbase.flag
  · exact (hrd _ (by simp only [Reg.AQ_UCOLL]; omega) (by simp only [Reg.AQ_UCOLL]; omega)).trans hbase.count

/-- Arming by the host starts a unit anew (R232). -/
theorem State.rearm_fresh (s : State) (k : Nat) :
    (s.rearm k true).ustate k = uArmed ∧ ((s.rearm k true).unit k).hist = [] ∧ ((s.rearm k true).unit k).plot = none
      ∧ ((s.rearm k true).unit k).count = 0 ∧ ∀ a, a ≠ Reg.AQ_USTAT k → (s.rearm k true).rd a = s.rd a :=
  ⟨State.ustate_setUstate_same s k (by decide), by simp [State.rearm], by simp [State.rearm], by simp [State.rearm],
    fun _ ha => State.setUstate_rd_ne s k _ ha⟩

/-- A settled record is no longer the unit's. -/
theorem State.finishPlot_plot (s : State) (k : Nat) (extra : BitVec 16) : ((s.finishPlot k extra).unit k).plot = none := by
  unfold State.finishPlot
  split
  · assumption
  · extract_lets q marked
    split <;> simp

/-- A stop leaves its unit disarmed, without a record and without a held firing (R234). -/
theorem State.stopUnit_unit (s : State) (k : Nat) :
    (s.stopUnit k).unit k = { (s.finishPlot k pfStopped).unit k with held := [], slipWait := false } :=
  State.unit_modUnit_same (s.finishPlot k pfStopped) k fun x => { x with held := [], slipWait := false }

theorem aqForce_meets {s : State} {u : BitVec 3} (h : s.ustate u.toNat = uArmed ∨ s.ustate u.toNat = uCapturing) :
    aqForce u s = s.meet u.toNat (s.firing 0xFE s.now (s.sampleAt u.toNat s.now)) := if_pos (by simpa using h)

/-- A firing that finds no slot free collides (R214). -/
theorem State.meet_noSlot {s : State} {k : Nat} (fi : Firing) (harmed : s.ustate k = uArmed) (hstream : s.unitStream k = false)
    (hslots : s.rdN (Reg.AQ_USLOTS k) ≤ (s.unit k).usedSlots) :
    s.meet k fi = (s.modUnit k fun x => { x with noSlotRun := true }).collide k 1 (s.unit k).noSlotRun := by
  rw [State.meet, if_pos harmed]
  exact if_pos (by simp [hstream, hslots])

/-- A forced trigger during a capture collides (R218). -/
theorem State.meet_force {s : State} {k : Nat} {p : Plot} {fi : Firing} (hcap : s.ustate k = uCapturing) (hplot : (s.unit k).plot = some p)
    (hforce : fi.cond = 0xFE) :
    s.meet k fi = (s.modUnit k fun x => { x with collRaised := true }).collide k 0 (s.unit k).collRaised := by
  rw [State.meet, if_neg (by rw [hcap]; decide), if_pos hcap]
  simp only [hplot, hforce]
  rw [if_neg (by simp), if_pos (by simp)]

theorem autoTrigger_meets {s : State} {u : BitVec 3} (harmed : s.ustate u.toNat = uArmed) (hen : s.unitEn u.toNat = true)
    (hauto : s.ucfg u.toNat Fld.AQ_UCFG_auto = true) :
    let k := u.toNat
    let tp := (s.unit k).armedAt + (s.fget (Reg.AQ_UAUTO k) Fld.AQ_UAUTO_timeout : Int) * 1000000 * nsU
    let v := s.setUnit k { s.unit k with armedAt := tp }
    autoTrigger u s = v.meet k (v.firing 0xFF tp (v.sampleAt k tp)) := if_pos (by simp [harmed, hen, hauto])

/-- Settles O21: each clause is one branch of its command. -/
theorem captureCommands : Obligations.CaptureCommands := by
  intro s u p k
  have hk : k < 8 := u.isLt
  refine ⟨fun hrun hen hfree harmed hcap hslip => Ends.of (v := aqArm u s) rfl ?_, fun hnot => Becomes.of rfl ?_,
    fun hrun hen hfree hbusy => Becomes.of rfl ?_, Ends.of (v := s.stopUnit k) rfl ?_,
    fun harmed hstream hslots => Ends.of (v := aqForce u s) rfl ?_, fun harmed hstream hslots => Ends.of (v := aqForce u s) rfl ?_,
    fun hcap hplot => Ends.of (v := aqForce u s) rfl ?_, fun harmed hen hauto hstream hslots => Ends.of (v := autoTrigger u s) rfl ?_,
    fun harmed => Becomes.of rfl ?_, fun harmed hcap => Becomes.of rfl ?_, fun hbusy => Becomes.of rfl (aqForce_meets hbusy),
    fun harmed hen hauto => Becomes.of rfl (autoTrigger_meets harmed hen hauto)⟩
  · have harm : aqArm u s = s.rearm k true := by
      rw [aqArm, if_neg (by simp [hrun, hen, hfree, k]), if_neg (by simp [harmed, hcap, hslip, k])]
    rw [harm]
    exact s.rearm_fresh k
  · refine if_pos ?_
    rw [Bool.not_eq_true', ← Bool.not_eq_true, Bool.and_eq_true_iff, Bool.and_eq_true_iff, and_assoc]
    exact hnot
  · rw [aqArm, if_neg (by simp [hrun, hen, hfree, k]), if_pos (by simpa [or_assoc] using hbusy)]
  · rw [s.stopUnit_unit]
    exact ⟨State.ustate_setUstate_same _ k (by decide), s.finishPlot_plot k pfStopped, rfl⟩
  · rw [aqForce_meets (.inl harmed)]
    have hopened := PlotOpened.meet hk (s.firing 0xFE s.now (s.sampleAt k s.now)) harmed hstream hslots
    refine ⟨hopened.state, hopened.seq, hopened.slots, hopened.plot_any _ fun x hsource htp _ hseq => ?_⟩
    simp [hsource, htp, hseq, State.firing]
  · rw [aqForce_meets (.inl harmed), State.meet_noSlot _ harmed hstream hslots]
    have hcoll := State.collide_collided hk (s.modUnit k fun x => { x with noSlotRun := true }) 1 (s.unit k).noSlotRun
    exact ⟨hcoll.state.trans harmed, hcoll.flag, hcoll.count⟩
  · rw [aqForce_meets (.inr hcap), State.meet_force hcap hplot rfl]
    have hcoll := State.collide_collided hk (s.modUnit k fun x => { x with collRaised := true }) 0 (s.unit k).collRaised
    exact ⟨by rw [hcoll.unit, State.unit_modUnit_same, hplot], hcoll.state.trans hcap, hcoll.flag, hcoll.count⟩
  · obtain ⟨tp, x, hslots', hmeets⟩ : ∃ tp x, x.usedSlots = (s.unit k).usedSlots ∧ autoTrigger u s
        = (s.setUnit k x).meet k ((s.setUnit k x).firing 0xFF tp ((s.setUnit k x).sampleAt k tp)) :=
      ⟨_, { s.unit k with armedAt := _ }, rfl, autoTrigger_meets harmed hen hauto⟩
    rw [hmeets]
    have hopened := PlotOpened.meet (s := s.setUnit k x) hk ((s.setUnit k x).firing 0xFF tp ((s.setUnit k x).sampleAt k tp)) harmed hstream
      (by rw [State.unit_setUnit_same, hslots']; exact hslots)
    refine ⟨hopened.state, hopened.seq, hopened.plot_any _ fun q hsource _ _ hseq => ?_⟩
    simp only [hsource, hseq, State.firing, beq_self_eq_true, Bool.true_and]
    exact beq_self_eq_true (s.rd (Reg.AQ_USEQ k))
  · exact if_neg (by simp [k, harmed])
  · exact if_neg (by simp [k, harmed, hcap])

end Sys2Proof.Machine
end

section
/-! PROOF. A plot's end, and the hand-off of its parts (R201, R215, R216, R220, R229). -/

namespace Sys2Proof.Machine

/-- A record that is settled: it is counted, and no longer the unit's. -/
structure PlotSettled (k : Nat) (s u : State) : Prop where
  regs : u.regs = s.regs
  plot : (u.unit k).plot = none
  count : (u.unit k).count = (s.unit k).count + 1
  slots : (u.unit k).usedSlots = (s.unit k).usedSlots

theorem State.finishPlot_settled {s : State} {k : Nat} {p : Plot} (h : (s.unit k).plot = some p) (extra : BitVec 16) :
    PlotSettled k s (s.finishPlot k extra) := by
  rw [State.finishPlot]
  simp only [h]
  split
  · have hcut : ∀ u : State, (u.cutSegments k none).2.regs = u.regs ∧ ((u.cutSegments k none).2.unit k).count = (u.unit k).count
        ∧ ((u.cutSegments k none).2.unit k).usedSlots = (u.unit k).usedSlots := fun u => by
      rw [State.cutSegments]
      cases hplot : (u.unit k).plot <;> simp
      rfl
    obtain ⟨hregs, hcount, hslots⟩ := hcut (s.modUnit k fun x => { x with plot := some { p with flags := p.flags ||| extra } })
    refine ⟨hregs, by simp, ?_, ?_⟩ <;> simp [State.pushParts, hcount, hslots]
  · exact ⟨rfl, by simp, by simp [State.pushParts], by simp [State.pushParts]⟩

/-- Settling a record that a unit has open, before it stops or goes on. -/
def State.plotSettled (s : State) (k : Nat) : State := (s.finishPlot k 0).modUnit k fun x => { x with held := [] }

theorem State.plotSettled_settled {s : State} {k : Nat} {p : Plot} (h : (s.unit k).plot = some p) : PlotSettled k s (s.plotSettled k) := by
  have hfinish := s.finishPlot_settled h 0
  exact ⟨hfinish.regs, by simpa [State.plotSettled] using hfinish.plot, by simpa [State.plotSettled] using hfinish.count,
    by simpa [State.plotSettled] using hfinish.slots⟩

theorem plotCaptureComplete_eq {s : State} {u : BitVec 3} {p : Plot} (hplot : (s.unit u.toNat).plot = some p)
    (hcap : s.ustate u.toNat = uCapturing) (hdone : Plot.complete p = true) :
    plotCaptureComplete u s = match (s.plotSettled u.toNat).stopsAfter u.toNat p.viol.isSome with
      | some st => (s.plotSettled u.toNat).setUstate u.toNat st
      | none => (sortBy (fun a b => decide (a.j < b.j) || (a.j == b.j && decide (a.cond ≤ b.cond))) (s.unit u.toNat).held).foldl
          (fun s fi => s.meet u.toNat fi) ((s.plotSettled u.toNat).rearm u.toNat false) := by
  simp only [plotCaptureComplete, hplot, hcap, hdone, decide_true, Bool.and_self, Bool.not_true, Bool.false_eq_true, if_false]
  rfl

theorem State.stopsAfter_none {s : State} {k : Nat} (h : s.rdN (Reg.AQ_UCOUNT k) = 0) : s.stopsAfter k false = none := by
  simp [State.stopsAfter, h]

/-- A re-armed unit is armed and holds nothing (R215). -/
theorem State.rearm_unit (s : State) (k : Nat) :
    (s.rearm k false).unit k = { s.unit k with armedAt := (s.setUstate k uArmed).now, held := [], collRaised := false } :=
  State.unit_modUnit_same (s.setUstate k uArmed) k fun x => { x with armedAt := (s.setUstate k uArmed).now, held := [], collRaised := false }

/-! ## Delivery -/

theorem plotPartHandoff_eq {s : State} {u : BitVec 3} {q : Part} {rest : List Part} (hits : List EccHit)
    (h : (s.unit u.toNat).ready = q :: rest) (hheld : s.moverHeld = false) :
    let k := u.toNat
    let marked := (s.setUnit k { s.unit k with ready := rest }).markPart k q hits
    plotPartHandoff u hits s = marked.2.handPart k marked.1 := by
  simp only [plotPartHandoff, h, hheld, Bool.false_eq_true, if_false]
  rfl

theorem word_toNat (w : Word) : word w.toNat = w := by simp [word]

theorem word_rdN (s : State) (a : Nat) : word (min 0xFFFFFFFF (s.rdN a)) = s.rd a := by
  have : s.rdN a < 2 ^ 32 := (s.rd a).isLt
  rw [Nat.min_eq_right (by omega)]
  exact word_toNat _

theorem State.eccCorrected_rdN (s : State) : s.eccCorrected.rdN Reg.AQ_ECCCNT = min 0xFFFFFFFF (s.rdN Reg.AQ_ECCCNT + 1) := by
  rw [State.rdN, State.eccCorrected, State.incSat, State.rd_wr_same]
  simp only [word, BitVec.toNat_ofNat]
  omega

/-- An error that stands leaves the count of the corrected ones. -/
theorem State.markEcc_rdN (s : State) (k : Nat) (q : Part) (hit : EccHit) : (s.markEcc k q hit).2.rdN Reg.AQ_ECCCNT = s.rdN Reg.AQ_ECCCNT := by
  have herror : (s.eccError hit).rdN Reg.AQ_ECCCNT = s.rdN Reg.AQ_ECCCNT := by
    rw [State.eccError, State.rdN, State.raiseD_rd _ _ _ _ _ _ _ (by decide) (by decide)]
    exact congrArg BitVec.toNat (State.rd_wr_ne _ _ (by decide))
  unfold State.markEcc
  extract_lets marked noted
  exact ite_both (fun x : Part × State => x.2.rdN Reg.AQ_ECCCNT = s.rdN Reg.AQ_ECCCNT) _ _ _ herror herror

/-- The corrected errors of a part are counted (R201). -/
theorem State.markPart_eccCnt (s : State) (k : Nat) (q : Part) (hits : List EccHit) :
    (s.markPart k q hits).2.rd Reg.AQ_ECCCNT = word (min 0xFFFFFFFF (s.rdN Reg.AQ_ECCCNT + (hits.filter EccHit.fixed).length)) := by
  induction hits generalizing s q with
  | nil => exact (word_rdN s Reg.AQ_ECCCNT).symm
  | cons hit t ih =>
    rw [State.markPart, List.foldl_cons]
    cases hfixed : hit.fixed
    · refine (ih (s.markEcc k q hit).2 (s.markEcc k q hit).1).trans ?_
      rw [State.markEcc_rdN, List.filter_cons_of_neg (by simp [hfixed])]
    · refine (ih s.eccCorrected q).trans (congrArg word ?_)
      rw [State.eccCorrected_rdN, List.filter_cons_of_pos hfixed, List.length_cons]
      omega

/-- Settles O22: each clause is one branch of its command. -/
theorem plotDelivery : Obligations.PlotDelivery := by
  intro s u p q rest hit hits fi k taken marked
  have hk : k < 8 := u.isLt
  refine ⟨fun hplot hcap hdone hviol hheld hcnt hlast => Ends.of (v := plotCaptureComplete u s) rfl ?_,
    fun hplot hcap hdone hviol hheld hcnt => Ends.of (v := plotCaptureComplete u s) rfl ?_,
    fun hplot hcap hdone hviol hstop => Ends.of (v := plotCaptureComplete u s) rfl ?_,
    fun hplot hcap hdone hviol hcnt hstream hslots hheld => Ends.of (v := plotCaptureComplete u s) rfl ?_,
    fun hopen => Becomes.of rfl ?_, fun hready hheld => Becomes.of rfl (plotPartHandoff_eq hits hready hheld),
    State.markPart_eccCnt taken k q hits, fun hready hheld => Becomes.of rfl ?_,
    fun hready hheld => Becomes.of rfl (plotPartHandoff_eq [] hready hheld),
    fun hready hheld hfixed => Becomes.of rfl ?_, fun hready hheld hlast hfixed => Becomes.of rfl ?_, fun hready => Becomes.of rfl ?_⟩
  · have hsettled := s.plotSettled_settled hplot
    have hcount : (s.plotSettled k).rdN (Reg.AQ_UCOUNT k) = s.rdN (Reg.AQ_UCOUNT k) := by
      rw [State.rdN, State.rdN, State.rd_congr hsettled.regs]
    have hstops : (s.plotSettled k).stopsAfter k p.viol.isSome = some uByCount := by
      simp [State.stopsAfter, hviol, hcount, hsettled.count, hcnt, hlast]
    rw [plotCaptureComplete_eq hplot hcap hdone]
    simp only [show u.toNat = k from rfl, hstops]
    exact ⟨State.ustate_setUstate_same _ _ (by decide), hsettled.plot, hsettled.count⟩
  · have hsettled := s.plotSettled_settled hplot
    have hstops : (s.plotSettled k).stopsAfter k p.viol.isSome = none := by
      rw [hviol]
      exact State.stopsAfter_none (by rw [State.rdN, State.rd_congr hsettled.regs]; exact hcnt)
    rw [plotCaptureComplete_eq hplot hcap hdone]
    simp only [show u.toNat = k from rfl, hstops, hheld]
    refine ⟨State.ustate_setUstate_same _ _ (by decide), ?_⟩
    exact (congrArg UnitSt.plot (State.rearm_unit _ k)).trans hsettled.plot
  · have hsettled := s.plotSettled_settled hplot
    have hstops : (s.plotSettled k).stopsAfter k p.viol.isSome = some uByViol := by
      have : (s.plotSettled k).ucfg k Fld.AQ_UCFG_stop_viol = true := by
        rw [State.ucfg, State.flag_congr (State.rd_congr hsettled.regs _)]; exact hstop
      simp [State.stopsAfter, hviol, this]
    rw [plotCaptureComplete_eq hplot hcap hdone]
    simp only [show u.toNat = k from rfl, hstops]
    refine ⟨State.ustate_setUstate_same _ _ (by decide), hsettled.plot, ?_, hsettled.count⟩
    exact congrArg UnitSt.held (State.unit_modUnit_same (s.finishPlot k 0) k fun x => { x with held := [] })
  · have hsettled := s.plotSettled_settled hplot
    have hstops : (s.plotSettled k).stopsAfter k p.viol.isSome = none := by
      rw [hviol]
      exact State.stopsAfter_none (by rw [State.rdN, State.rd_congr hsettled.regs]; exact hcnt)
    rw [plotCaptureComplete_eq hplot hcap hdone]
    simp only [show u.toNat = k from rfl, hstops, hheld]
    have hunit := State.rearm_unit (s.plotSettled k) k
    have hrd : ∀ a, a ≠ Reg.AQ_USTAT k → ((s.plotSettled k).rearm k false).rd a = s.rd a := fun a ha =>
      (State.setUstate_rd_ne (s.plotSettled k) k _ ha).trans (State.rd_congr hsettled.regs a)
    have harmed : ((s.plotSettled k).rearm k false).ustate k = uArmed := State.ustate_setUstate_same _ _ (by decide)
    generalize (s.plotSettled k).rearm k false = v at *
    have hopened : PlotOpened k fi v (v.meet k fi) := by
      refine .meet hk fi harmed ?_ ?_
      · exact (State.flag_congr (hrd _ (by simp only [Reg.AQ_UCFG, Reg.AQ_USTAT]; omega)) _).trans hstream
      · rw [hunit, State.rdN, hrd _ (by simp only [Reg.AQ_USLOTS, Reg.AQ_USTAT]; omega)]
        exact hsettled.slots ▸ hslots
    refine ⟨hopened.state, hopened.held.trans (congrArg UnitSt.held hunit), hopened.seq.trans ?_, ?_⟩
    · rw [hrd _ (by simp only [Reg.AQ_USEQ, Reg.AQ_USTAT]; omega)]
    · exact hopened.plot_any _ fun x hsource htp hj _ => by simp [hsource, htp, hj]
  · rw [plotCaptureComplete]
    cases hplot : (s.unit k).plot with
    | none => rfl
    | some x =>
      have hx : Plot.complete x = false := by simpa [hplot] using hopen
      simp [show u.toNat = k from rfl, hx]
  · simp [plotPartHandoff, show u.toNat = k from rfl, hready, hheld]
  · rw [plotPartHandoff_eq [hit] hready hheld]
    simp only [State.markPart, List.foldl_cons, List.foldl_nil, hfixed, if_true]
    rfl
  · rw [plotPartHandoff_eq [hit] hready hheld]
    simp only [State.markPart, List.foldl_cons, List.foldl_nil, hfixed, Bool.false_eq_true, if_false, State.markEcc, hlast, if_true]
    rfl
  · simp [plotPartHandoff, show u.toNat = k from rfl, hready]

end Sys2Proof.Machine
end

section
/-! SUPPORT. The rows of the fast-tap slots stand while a unit takes a row (R117, R204). -/

namespace Sys2Proof.Machine

/-- The values that the fast-tap slots have given last. -/
def State.ftRows (s : State) : KMap (Nat × Word × Byte) := s.aq.ftRow

theorem Raised.ftRows {n obj cause aux8 : Nat} {data : Word64} {s u : State} (h : Raised n obj cause aux8 data s u) : u.ftRows = s.ftRows :=
  congrArg AqSt.ftRow h.frame.aq

theorem State.raiseD_ftRows (s : State) {n : Nat} (obj cause aux8 : Nat) (data : Word64) (hn : n < 64) :
    (s.raiseD n obj cause aux8 data).ftRows = s.ftRows := (raiseD_raised s n obj cause aux8 data hn).ftRows

theorem State.raise_ftRows (s : State) {n : Nat} (obj cause : Nat) (hn : n < 64) : (s.raise n obj cause).ftRows = s.ftRows :=
  (raise_raised s n obj cause hn).ftRows

theorem State.ite_ftRows {s u v : State} (c : Prop) [Decidable c] (hu : u.ftRows = s.ftRows) (hv : v.ftRows = s.ftRows) :
    (if c then u else v).ftRows = s.ftRows := ite_both (fun w : State => w.ftRows = s.ftRows) c u v hu hv

theorem State.finishPlot_ftRows (s : State) (k : Nat) (extra : BitVec 16) : (s.finishPlot k extra).ftRows = s.ftRows := by
  rw [State.finishPlot]
  split
  · rfl
  · refine State.ite_ftRows _ ?_ rfl
    have hcut : ∀ u : State, (u.cutSegments k none).2.ftRows = u.ftRows := fun u => by
      rw [State.cutSegments]
      split <;> rfl
    exact hcut _

theorem State.memoryLow_ftRows (s : State) (k cause : Nat) : (s.memoryLow k cause).ftRows = s.ftRows := by
  rw [State.memoryLow]
  exact State.ite_ftRows _ rfl (State.raise_ftRows (s.modUnit k fun x => { x with memLow := true }) k cause (by decide))

theorem State.testMask_ftRows (s : State) (k : Nat) (p : Plot) (r : Row) : (s.testMask k p r).ftRows = s.ftRows := by
  unfold State.testMask
  extract_lets idx noted counted
  exact State.ite_ftRows _ rfl (State.raiseD_ftRows counted k 0 0 (p.seq.setWidth 64) (by decide))

theorem State.overrun_ftRows (s : State) (k : Nat) (w : Word) :
    (((((s.modUnit k fun x => { x with held := [] }).wr (Reg.AQ_ULASTVALID k) w).setFlag (Reg.AQ_USTAT k) Fld.AQ_USTAT_overrun true).setUstate k
      uByOverrun)).ftRows = s.ftRows := rfl

theorem State.writeRow_ftRows (s : State) (k : Nat) (r : Row) : (s.writeRow k r).ftRows = s.ftRows := by
  unfold State.writeRow
  extract_lets x len size
  cases x.plot with
  | none => rfl
  | some p =>
    simp only []
    generalize p.written + 0xFFFFFFFF = last
    refine State.ite_ftRows _ (State.ite_ftRows _ ?_ (State.ite_ftRows _ ((State.memoryLow_ftRows _ k 1).trans ?_) ?_)) ?_
    · refine (State.raiseD_ftRows _ k 0 0 _ (by decide)).trans ?_
      exact (State.overrun_ftRows (s.finishPlot k pfOverrun) k (word last)).trans (State.finishPlot_ftRows s k pfOverrun)
    all_goals exact State.testMask_ftRows _ k _ r

theorem State.foldl_ftRows {α : Type} (l : List α) (f : State → α → State) (h : ∀ (s : State) (x : α), (f s x).ftRows = s.ftRows) (s : State) :
    (l.foldl f s).ftRows = s.ftRows := State.foldl_field State.ftRows l f h s

theorem State.trigOut_ftRows (s : State) (src sel : Nat) : (s.trigOut src sel).ftRows = s.ftRows :=
  State.foldl_ftRows [0, 1] (fun s o => if s.fget (Reg.AQ_TOUT o) Fld.AQ_TOUT_src == src && s.fget (Reg.AQ_TOUT o) Fld.AQ_TOUT_sel == sel
    then { s with aq := { s.aq with tout := s.aq.tout ||| (1#2 <<< o) } } else s) (fun _ _ => State.ite_ftRows _ rfl rfl) s

theorem LinkOnly.ftRows {s u : State} (h : LinkOnly s u) : u.ftRows = s.ftRows := congrArg AqSt.ftRow h.aq

theorem State.condDrill_ftRows (s : State) (k : Nat) (fi : Firing) : (s.condDrill k fi).ftRows = s.ftRows := by
  rw [State.condDrill]
  exact State.ite_ftRows _ (LinkOnly.sendAll _ _).ftRows rfl

theorem State.collide_ftRows (s : State) (k cause : Nat) (once : Bool) : (s.collide k cause once).ftRows = s.ftRows := by
  rw [State.collide]
  exact State.ite_ftRows _ rfl (State.raise_ftRows _ k cause (by decide))

theorem State.startPlot_ftRows (s : State) (k : Nat) (fi : Firing) : (s.startPlot k fi).ftRows = s.ftRows := by
  unfold State.startPlot
  extract_lets x pre post j next bare lost before coming kept flags p preRows postRows numbered opened capturing low auto shown fit first second
  have hlow : low.ftRows = s.ftRows := State.ite_ftRows _ (State.memoryLow_ftRows capturing k 0) rfl
  have hauto : auto.ftRows = s.ftRows := State.ite_ftRows _ ((State.raiseD_ftRows _ k 0 0 _ (by decide)).trans hlow) hlow
  have hshown : shown.ftRows = s.ftRows := (State.condDrill_ftRows _ k fi).trans ((State.trigOut_ftRows auto 2 k).trans hauto)
  have hrows : ∀ (rows : List Row) (u : State), (rows.foldl (fun s r => s.writeRow k r) u).ftRows = u.ftRows := fun rows u =>
    State.foldl_ftRows rows _ (fun u r => u.writeRow_ftRows k r) u
  refine State.ite_ftRows _ ((hrows _ second).trans ?_) ((hrows _ shown).trans hshown)
  have hfirst : first.ftRows = s.ftRows := (hrows _ shown).trans hshown
  simp only [second]
  split <;> exact hfirst

theorem State.joinPlot_ftRows (s : State) (k : Nat) (p : Plot) (fi : Firing) : (s.joinPlot k p fi).ftRows = s.ftRows := by
  rw [State.joinPlot]
  exact State.ite_ftRows _ rfl (State.condDrill_ftRows _ k fi)

theorem State.meet_ftRows (s : State) (k : Nat) (fi : Firing) : (s.meet k fi).ftRows = s.ftRows := by
  rw [State.meet]
  refine State.ite_ftRows _ (State.ite_ftRows _ (State.collide_ftRows _ k _ _) (State.startPlot_ftRows s k fi)) (State.ite_ftRows _ ?_ rfl)
  split
  · rfl
  · exact State.ite_ftRows _ (State.joinPlot_ftRows s k _ fi) (State.ite_ftRows _ (State.collide_ftRows _ k _ _) rfl)

theorem State.relockUnit_ftRows (s : State) (k : Nat) : (s.relockUnit k).ftRows = s.ftRows := State.ite_ftRows _ rfl rfl

theorem State.watchRow_ftRows (s : State) (k : Nat) (r : Row) : (s.watchRow k r).ftRows = s.ftRows := by
  refine State.foldl_ftRows _ _ (fun u c => ?_) s
  simp only []
  split
  next => exact State.meet_ftRows _ k _
  next => rfl

theorem State.pushRow_ftRows (s : State) (k : Nat) (r : Row) : (s.pushRow k r).ftRows = s.ftRows := by
  unfold State.pushRow
  extract_lets locked next shifted live lim noted written watched
  have hnoted : noted.ftRows = s.ftRows := State.relockUnit_ftRows s k
  have hwritten : written.ftRows = s.ftRows := by
    simp only [written]
    split
    · exact State.ite_ftRows _ ((State.writeRow_ftRows noted k r).trans hnoted) hnoted
    · exact hnoted
  exact State.ite_ftRows _ hnoted ((State.watchRow_ftRows written k r).trans hwritten)

theorem State.fastRow_ftRows (s : State) (u k : Nat) : (s.fastRow u k).ftRows = s.ftRows := by
  unfold State.fastRow
  extract_lets src get
  exact State.ite_ftRows _ (State.pushRow_ftRows s u _) rfl

end Sys2Proof.Machine
end

section
/-! PROOF. Pins, fast taps and the drill bus (R119, R211, R221 to R227). -/

namespace Sys2Proof.Machine

theorem drillMessage_waits {s : State} {org : BitVec 6} {ch : BitVec 4} {seq : Word} {tp tdet : PtpTime} (halive : s.alive = true)
    (hnew : s.aq.seen.contains (org.toNat, seq) = false) (hdue : s.now ≤ PtpTime.val tdet + s.drillLatency) :
    drillMessage org ch seq tp tdet s = { s with aq := { s.aq with
      seen := (org.toNat, seq) :: s.aq.seen
      drills := s.aq.drills ++ [{ origin := org.toNat, ch := ch.toNat, seq := seq, tp := PtpTime.val tp
                                  tact := PtpTime.val tdet + s.drillLatency }] } } := by
  simp only [drillMessage, halive, hnew, Bool.not_true, Bool.or_self, Bool.false_eq_true, if_false]
  exact if_neg (Int.not_lt.mpr hdue)

theorem drillMessage_late {s : State} {org : BitVec 6} {ch : BitVec 4} {seq : Word} {tp tdet : PtpTime} (halive : s.alive = true)
    (hnew : s.aq.seen.contains (org.toNat, seq) = false) (hlate : PtpTime.val tdet + s.drillLatency < s.now) :
    let seen := ({ s with aq := { s.aq with seen := (org.toNat, seq) :: s.aq.seen } } : State).incSat Reg.AQ_DRILLLATE 1
    let late := (s.now - (PtpTime.val tdet + s.drillLatency)) / nsU
    drillMessage org ch seq tp tdet s
      = (seen.raiseD 29 org.toNat 0 ch.toNat (BitVec.ofInt 64 late)).drillConds ch.toNat (PtpTime.val tp) (some late) := by
  simp only [drillMessage, halive, hnew, Bool.not_true, Bool.or_self, Bool.false_eq_true, if_false]
  exact if_pos hlate

/-- A drill message of this hub takes the next sequence number (R221). -/
theorem State.sendDrill_numbered (s : State) (ch : Nat) (tp tdet : Int) :
    (s.sendDrill ch tp tdet).aq.drillSeq = s.aq.drillSeq + 1 ∧ (s.sendDrill ch tp tdet).regs = s.regs
      ∧ (s.sendDrill ch tp tdet).aq.seen = (s.hubAddr, s.aq.drillSeq) :: s.aq.seen := by
  unfold State.sendDrill
  extract_lets seq tact msg src noted
  have hsent : ∀ c, LinkOnly noted (noted.sendAll c) := fun c => LinkOnly.sendAll noted c
  exact ⟨congrArg AqSt.drillSeq (hsent _).aq, (hsent _).regs, congrArg AqSt.seen (hsent _).aq⟩

/-- Settles O23: each clause is one branch of its command. -/
theorem pinsAndDrill : Obligations.PinsAndDrill := by
  intro s p rising t last ch org seq tp tdet o m slot k ws st tact n lastWord
  have hsample : s.running = true → s.ftEn slot.toNat = true → s.inEn n = true → s.fe.pllStep = false →
      fastTapSample slot k ws s = (List.range 8).foldl (fun (s : State) u =>
        if s.unitEn u && s.unitFast u && (s.unitSources u).contains slot.toNat then s.fastRow u k else s)
        { s with aq := { s.aq with ftRow := kset s.aq.ftRow slot.toNat (k, s.fastValue n ws, s.fastFlags n lastWord) } } :=
    fun hrun hft hin hpll => if_neg (by simp [hrun, hft, hpll, show s.inEn (s.ftInput slot.toNat) = true from hin])
  refine ⟨fun halive hen hedge hearly => Becomes.of rfl ?_, fun hen => Becomes.of rfl ?_, fun halive hen hedge => Becomes.of rfl ?_,
    Ends.of (v := drillSend ch s) rfl ?_, fun halive hnew hdue => Becomes.of rfl (drillMessage_waits halive hnew hdue),
    fun halive hnew hlate => Becomes.of rfl (drillMessage_late halive hnew hlate), fun hseen => Becomes.of rfl ?_,
    fun hnext => Becomes.of rfl ?_, fun hnone => Becomes.of rfl ?_, Becomes.of rfl rfl,
    fun hrun hft hin hpll => Becomes.of rfl (hsample hrun hft hin hpll),
    fun hrun hft hin hpll => Ends.of (v := fastTapSample slot k ws s) rfl ?_, fun hoff => Becomes.of rfl ?_,
    fun halive hreset hhold => Ends.of (v := modPllLock s) rfl ?_, fun hoff => Becomes.of rfl ?_⟩
  · have hcond : ¬ (!(s.alive && s.flag (Reg.AQ_PINCFG p.toNat) Fld.AQ_PINCFG_en)) = true := by simp [halive, hen]
    simp only [trigInEdge, if_neg hcond, hedge]
    exact if_pos (decide_eq_true hearly)
  · exact if_pos (by simp [hen])
  · have hcond : ¬ (!(s.alive && s.flag (Reg.AQ_PINCFG p.toNat) Fld.AQ_PINCFG_en)) = true := by simp [halive, hen]
    simp only [trigInEdge, if_neg hcond]
    cases hlast : kget? s.aq.lastEdge p.toNat with
    | none => rfl
    | some l =>
      have hapart : 20 * nsU ≤ st - l := by simpa [hlast] using hedge
      exact if_neg (by simpa using hapart)
  · exact s.sendDrill_numbered ch.toNat s.now s.now
  · exact if_pos (Bool.or_eq_true_iff.mpr (.inr hseen))
  · simp only [drillAct, hnext]
  · simp [drillAct, hnone, nextDrill, sortBy]
  · rw [hsample hrun hft hin hpll]
    have hrow := State.foldl_ftRows (List.range 8) (fun (s : State) u =>
        if s.unitEn u && s.unitFast u && (s.unitSources u).contains slot.toNat then s.fastRow u k else s)
      (fun u i => State.ite_ftRows _ (State.fastRow_ftRows u i k) rfl)
      { s with aq := { s.aq with ftRow := kset s.aq.ftRow slot.toNat (k, s.fastValue n ws, s.fastFlags n lastWord) } }
    exact (congrArg (fun m => kget? m slot.toNat) hrow).trans (kget?_kset_same _ _ _)
  · refine if_pos ?_
    rcases hoff with h | h | h | h <;> simp [h, show s.inEn (s.ftInput slot.toNat) = s.inEn n from rfl]
  · rw [modPllLock, if_pos (by simp [halive, hreset, hhold])]
    exact ⟨State.flag_setFlag_same _ _ _ (by decide) (by decide) _, rfl⟩
  · exact if_neg (by rcases hoff with h | h <;> simp [h])

end Sys2Proof.Machine
end

section
/-! PROOF. The close of the events' runs (R437). -/

namespace Sys2Proof.Machine

/-- A run whose first occurrence came at a given time. -/
def runFrom (src : Nat) (time : Int) : EvRun :=
  { src := src, count := 1, lastOcc := 0, lastTime := time
    first := { src := src, hub := 0, rflags := 0, occ := 0, time := time, obj := 0, cause := 0, aux8 := 0, data := 0 } }

/-- A hub in Run with two open runs, of which the later one is listed first. -/
def laterRunFirst : State :=
  { State.reset with
    pw := { State.reset.pw with power := .run }
    ev := { State.reset.ev with runs := [runFrom 1 5, runFrom 2 4] } }

/-- Refutes O24: runs close in the order of their first occurrences, whatever the order in which they are listed. -/
theorem not_traceReads : ¬ Obligations.TraceReads := by
  intro h
  obtain ⟨-, -, -, -, -, -, -, hclose⟩ := h laterRunFirst 0 (runFrom 1 5).first 0
  obtain ⟨u, ⟨-, hqueue⟩, hu⟩ := (hclose (by decide +kernel) (by decide +kernel) (by decide +kernel)).exists_supervise_eq
    (v := eventRunClose laterRunFirst) rfl
  have hsame : (eventRunClose laterRunFirst).ev.queue = u.ev.queue := by simpa using congrArg (fun s : State => s.ev.queue) hu
  have hlisted := hsame.trans hqueue
  revert hlisted
  decide +kernel

end Sys2Proof.Machine
end

section
/-! SUPPORT. Reads of host memory change the lanes alone (R264, R327). -/

namespace Sys2Proof.Machine

theorem LinkOnly.sendRead (s : State) (r : ReadReq) : LinkOnly s (s.sendRead r) := by
  rw [State.sendRead]
  exact ite_both (LinkOnly s) _ _ _ (.emit ..) (.sendMessage ..)

theorem LinkOnly.pumpReadsN (n : Nat) (s : State) : LinkOnly s (s.pumpReadsN n) := by
  induction n generalizing s with
  | zero => exact .refl s
  | succ n ih =>
    rw [State.pumpReadsN]
    split
    · exact .refl s
    · exact ite_both (LinkOnly s) _ _ _ (.refl s) (((LinkOnly.lnSet s _).trans (.sendRead _ _)).trans (ih _))

theorem LinkOnly.pumpReads (s : State) : LinkOnly s s.pumpReads := .pumpReadsN _ s

theorem LinkOnly.readHost (s : State) (who : ReadBy) (addr : Word64) (len : Nat) : LinkOnly s (s.readHost who addr len) :=
  (LinkOnly.lnSet s _).trans (.pumpReads _)

theorem LinkOnly.dropReads (s : State) (who : ReadBy) : LinkOnly s (s.dropReads who) := (LinkOnly.lnSet s _).trans (.pumpReads _)

theorem LinkOnly.readNow (s : State) (who : ReadBy) (addr : Word64) (len : Nat) : LinkOnly s (s.readNow who addr len) :=
  (LinkOnly.readHost ..).trans (.dropReads ..)

theorem LinkOnly.readsDoneN (who : ReadBy) (n : Nat) (s : State) : LinkOnly s (State.readsDoneN who n s) := by
  induction n generalizing s with
  | zero => exact .refl s
  | succ n ih =>
    rw [State.readsDoneN]
    have hone : LinkOnly s ({ s with ln := { s.ln with reads := s.ln.reads.filter (fun r => r.who != who) } } : State).pumpReads :=
      (LinkOnly.lnSet s _).trans (.pumpReads _)
    exact ite_both (LinkOnly s) _ _ _ (hone.trans (ih _)) hone

theorem LinkOnly.readsDone (s : State) (who : ReadBy) : LinkOnly s (s.readsDone who) := .readsDoneN who _ s

end Sys2Proof.Machine
end

section
/-! PROOF. The setpoint frame, the observer's frame, and a transfer's end (R447 to R455). -/

namespace Sys2Proof.Machine

/-- The select rises: the register's old bits have gone out, `bits` stand in it (R452). -/
def State.obsShifted (s : State) (bits : List Bool) : State :=
  let all := s.sp.obsReg ++ bits
  let out := s.emit (.sideShift 0 (clocksOf 1 (all.take bits.length)))
  { out with sp := { out.sp with obsSel := false, obsReg := all.drop bits.length } }

/-- The words of a command frame (R453). -/
def obsWords (s : State) (bits : List Bool) : List Word := wordsOfBits 8 ((s.sp.obsReg ++ bits).drop bits.length)

/-- A command frame that is discarded. -/
def obsBad (ws : List Word) : Bool := (ws.getD 0 0).toNat / 2 ^ 24 != 0xC3 || obsCrc (ws.take 7) != ws.getD 7 0

/-- An accepted command frame: its sequence number and its permit (R453, R454). -/
def State.obsAccepted (s : State) (ws : List Word) : State :=
  let u : State := { s with sp := { s.sp with obsErr := false, obsSeq := BitVec.ofNat 8 ((ws.getD 0 0).toNat / 2 ^ 16) } }
  u.setPermit ((ws.getD 1 0).toNat / 2 ^ 31 == 1)

/-- The command of an accepted frame. -/
def State.obsCommand (s : State) (ws : List Word) : State :=
  match (ws.getD 0 0).toNat / 2 ^ 8 % 256 with
  | 1 => s.fput Reg.SP_OBSPTR Fld.SP_OBSPTR_ptr ((ws.getD 1 0).toNat % 65536)
  | 2 => s.latchCause 11
  | 3 => s.wr Reg.SP_OBSERR 0
  | _ => s

theorem observerSelectRise_eq {s : State} (hsel : s.sp.obsSel = true) (bits : List Bool) :
    observerSelectRise bits s = if bits.length != 256 * s.obsStages then
        (s.obsShifted bits).obsDiscard.raiseD 61 0 (if bits.length < 256 * s.obsStages then 1 else 2) 0
          (BitVec.ofNat 64 ((s.obsShifted bits).obsDiscard.rdN Reg.SP_OBSERR))
      else if obsBad (obsWords s bits) then (s.obsShifted bits).obsDiscard
      else ((s.obsShifted bits).obsAccepted (obsWords s bits)).obsCommand (obsWords s bits) := if_neg (by simp [hsel])

/-- What a discarded frame leaves (R453). -/
theorem State.obsDiscard_shows (s : State) (bits : List Bool) :
    let u := (s.obsShifted bits).obsDiscard
    u.sp = { (s.obsShifted bits).sp with obsErr := true } ∧ u.rd Reg.SP_OBSERR = word (min 0xFFFFFFFF (s.rdN Reg.SP_OBSERR + 1))
      ∧ u.flag Reg.SP_STAT Fld.SP_STAT_frm_err = true ∧ ∀ n, u.rd (Reg.EV_OCC n) = s.rd (Reg.EV_OCC n) := by
  refine ⟨rfl, ?_, State.flag_setFlag_same _ _ _ (by decide) (by decide) _, fun n => ?_⟩
  · exact (State.rd_setFlag_ne _ _ _ (by decide)).trans (State.rd_wr_same _ _ _)
  · exact (State.rd_setFlag_ne _ _ _ (by simp only [Reg.EV_OCC, Reg.SP_STAT]; omega)).trans
      (State.rd_wr_ne _ _ (by simp only [Reg.EV_OCC, Reg.SP_OBSERR]; omega))

theorem State.obsAccepted_permit (s : State) (ws : List Word) :
    (s.obsAccepted ws).flag Reg.SP_STAT Fld.SP_STAT_permit = ((ws.getD 1 0).toNat / 2 ^ 31 == 1) :=
  State.flag_setFlag_same _ _ _ (by decide) (by decide) _

theorem apart_sp : Apart State.sp := ⟨fun _ _ _ => rfl, fun _ _ => rfl, fun _ _ _ => rfl⟩

/-- A command leaves the observer and SP_STAT alone. -/
theorem State.obsCommand_sp (s : State) (ws : List Word) :
    (s.obsCommand ws).sp = s.sp ∧ (s.obsCommand ws).rd Reg.SP_STAT = s.rd Reg.SP_STAT := by
  unfold State.obsCommand
  split
  · exact ⟨rfl, State.rd_fput_ne _ _ _ (by decide)⟩
  · exact ⟨apart_sp.latchCause s 11 (s.causeNoted_noted 11).sp, State.latchCause_rd _ _ (by decide)⟩
  · exact ⟨rfl, State.rd_wr_ne _ _ (by decide)⟩
  · exact ⟨rfl, rfl⟩

/-! ## A transfer's end -/

/-- The transfer has gone out: its reads are over, the port is free, its bits are on the line. -/
def State.xferGone (s : State) (d : Desc) (tx : List Byte) : State := ((s.readsDone .transfer).freeSide.sideOut d tx)

theorem State.freeSide_hi (s : State) : s.freeSide.hi = s.hi := by
  rw [State.freeSide]
  exact (LinkOnly.dropReads s .transfer).hi

theorem xferComplete_eq {s : State} {bytes : XferBytes} {it : Item} {f : Nat} {fu : Furrow} (hcame : s.readsCame .transfer = true)
    (hxfer : s.sp.xfer = some it.seq) (hside : s.furrowOf? .side = some f) (hfu : s.furrow? f = some fu)
    (hit : Furrow.item? fu it.seq = some it) :
    xferComplete bytes s = (((if xferIn it.desc = 0 then s.xferGone it.desc bytes.tx
      else (s.xferGone it.desc bytes.tx).toHost (.dmaWrite (join64 it.desc.w4 it.desc.w5) (packRx (xferIn it.desc) bytes.rx)))).endItem f it.seq
        .done (ceilDiv (xferIn it.desc) 8) 0).sidePump := by
  have hhi : (s.readsDone .transfer).freeSide.hi = s.hi := (State.freeSide_hi _).trans (LinkOnly.readsDone s .transfer).hi
  have hfound : ((s.readsDone .transfer).freeSide.furrow? f).bind (fun fu => Furrow.item? fu it.seq) = some it := by
    rw [State.furrow?, hhi, show kget? s.hi.furrows f = some fu from hfu]
    exact hit
  rw [xferComplete, if_neg (by simp [hcame])]
  simp only [hxfer, hside, hfound]
  rfl

/-- Settles O25: each clause is one branch of its command. -/
theorem sidePort : Obligations.SidePort := by
  intro s rx bits f it fu bytes fr all ws w0 w1 good command
  have hgood : obsBad (obsWords s bits) = !good := by
    simp [obsBad, good, obsWords, ws, all, w0, bne, Bool.not_and, Bool.beq_eq_decide_eq]
  refine ⟨fun hmode hen hrun hshift hinhibit hsends => Becomes.of rfl ?_, fun hsafe hran hnext => Becomes.of rfl ?_,
    fun halive hmode => Becomes.of rfl ?_, fun hsel hlen => Ends.of (v := observerSelectRise bits s) rfl ?_,
    fun hsel hlen hbad => Ends.of (v := observerSelectRise bits s) rfl ?_,
    fun hsel hlen hok => Ends.of (v := observerSelectRise bits s) rfl ?_, fun hsel => Becomes.of rfl ?_, Becomes.of rfl rfl,
    fun hcame hxfer hside hfu hit hin => Becomes.of rfl ?_, fun hcame hxfer hside hfu hit hin => Becomes.of rfl ?_⟩
  · have hout : s.spSends = true := by
      rcases hsends with h | h | h <;> simp [State.spSends, h]
    rw [setpointFrameShift, if_pos (by simp [hmode, hen, hrun, hshift, hinhibit, hout])]
    generalize hv : ({ s with sp := { s.sp with shifting := true, frame := fr, rx := rx.take fr.length } } : State) = v
    have hcfg : (v.setFlag Reg.SP_STAT Fld.SP_STAT_sp_busy true).rd Reg.SP_SPCFG = s.rd Reg.SP_SPCFG := by
      rw [State.rd_setFlag_ne _ _ _ (by decide), ← hv]
      rfl
    subst hv
    exact congrArg (fun w : Word => (State.setFlag
      { s with sp := { s.sp with shifting := true, frame := fr, rx := rx.take fr.length } } Reg.SP_STAT Fld.SP_STAT_sp_busy true).emit (.sideShift
      (BitField.get Fld.SP_SPCFG_sel w) (clocksOf (lanesOf (BitField.get Fld.SP_SPCFG_width w)) fr))) hcfg
  · exact if_neg (by simp [State.spSends, hsafe, hran, hnext])
  · rw [observerSelectFall, if_pos (by simp [halive, hmode])]
    rfl
  · rw [observerSelectRise_eq hsel, if_pos (by rw [bne_iff_ne]; exact hlen)]
    obtain ⟨hsp, herr, hflag, hocc⟩ := s.obsDiscard_shows bits
    have hraised := raiseD_raised (s.obsShifted bits).obsDiscard 61 0 (if bits.length < 256 * s.obsStages then 1 else 2) 0
      (BitVec.ofNat 64 ((s.obsShifted bits).obsDiscard.rdN Reg.SP_OBSERR)) (by decide)
    have hobs := hraised.frame.sp.trans hsp
    refine ⟨congrArg SpSt.obsSel hobs, congrArg SpSt.obsErr hobs, (congrArg SpSt.permit hobs :), (hraised.frame.rd _ (by decide)).trans herr,
      (State.flag_congr (hraised.frame.rd _ (by decide)) _).trans hflag, hraised.occ.trans (by rw [hocc])⟩
  · rw [observerSelectRise_eq hsel, if_neg (by rw [bne_iff_ne]; exact fun h => h hlen), if_pos (by rw [hgood, hbad]; rfl)]
    obtain ⟨hsp, herr, hflag, -⟩ := s.obsDiscard_shows bits
    exact ⟨congrArg SpSt.obsSel hsp, congrArg SpSt.obsErr hsp, (congrArg SpSt.permit hsp :), (congrArg SpSt.obsSeq hsp :), herr, hflag⟩
  · rw [observerSelectRise_eq hsel, if_neg (by rw [bne_iff_ne]; exact fun h => h hlen), if_neg (by rw [hgood, hok]; simp)]
    have hpermit := (s.obsShifted bits).obsAccepted_permit (obsWords s bits)
    obtain ⟨hsp, hstat⟩ := ((s.obsShifted bits).obsAccepted (obsWords s bits)).obsCommand_sp (obsWords s bits)
    refine ⟨congrArg SpSt.obsSel hsp, congrArg SpSt.obsErr hsp, congrArg SpSt.obsSeq hsp, congrArg SpSt.permit hsp,
      (State.flag_congr hstat _).trans hpermit, fun hcmd => ?_, fun hcmd => ?_, fun hcmd => ?_⟩
    all_goals
      have hcode : ((obsWords s bits).getD 0 0).toNat / 2 ^ 8 % 256 = command := rfl
      simp only [State.obsCommand, hcode, hcmd]
    · exact (State.fget_fput_same _ _ _ (by decide) (by decide) _).trans (Nat.mod_mod _ _)
    · exact State.latchCause_hasCause _ (by decide)
    · exact State.rd_wr_same _ _ _
  · exact if_pos (by simp [hsel])
  · rw [xferComplete_eq hcame hxfer hside hfu hit, if_pos hin, hin]
    rfl
  · rw [xferComplete_eq hcame hxfer hside hfu hit, if_neg (by omega)]
    rfl

end Sys2Proof.Machine
end

section
/-! SUPPORT. A furrow as CREATE leaves it, on a hub whose host engine runs. -/

namespace Sys2Proof.Machine

/-- A furrow of a kind with one descriptor to fetch. -/
def freshFurrow (kind : FurrowKind) : Furrow :=
  { kind := kind, handle := 0, lsize := 4, vector := 255, irqAll := false, descRing := 0, cplRing := 0, frames := 0, mask := 0, prod := 1
    nextFetch := 0, nextPost := 0, items := [], stalled := false, failed := false, emptyEp := false, from? := none, openFrames := []
    blocks := [], gapRun := false, parts := [], twin := false }

/-- An idle head whose host engine runs, with these furrows. -/
def hostUp (furrows : KMap Furrow) : State :=
  { State.reset with
    regs := [(Reg.HI_STAT, BitField.put Fld.HI_STAT_up 1 0)]
    pw := { State.reset.pw with power := .idle, headSel := true, d0 := true }
    hi := { State.reset.hi with furrows := furrows } }

end Sys2Proof.Machine
end

section
/-! PROOF. NOP on a furrow whose unit is being reset (R428). -/

namespace Sys2Proof.Machine

/-- The Baler is being reset, and its furrow has a descriptor to fetch. -/
def nopDuringReset : State :=
  let s := hostUp [(1, freshFurrow .job)]
  { s with hi := { s.hi with subreset := some { code := 1, index := 0, aborted := 0 } } }

/-- Refutes O26: during a subsystem reset every item of its furrows waits, a NOP too. -/
theorem not_furrowNopAndFence : ¬ Obligations.FurrowNopAndFence := by
  intro h
  have hnop := (h.1 nopDuringReset 1 (freshFurrow .job) Desc.zero 0 0
    ⟨by decide +kernel, by decide +kernel, by decide +kernel⟩ (by decide)).1 (by decide) (by decide)
  have hposted := congrArg (fun s : State => (s.furrow? 1).map Furrow.nextPost) (hnop.supervise_eq (v := nop 1 0 Desc.zero nopDuringReset) rfl)
  revert hposted
  decide +kernel

end Sys2Proof.Machine
end

section
/-! PROOF. The end of a subsystem reset, and what waited for it (R428). -/

namespace Sys2Proof.Machine

/-- An item of an op without fields, in a state. -/
def plainItem (op : Byte) (st : ItemSt) : Item :=
  { seq := 0, op := op, desc := Desc.zero, block := none, st := st, wrote := 0, recs := 0, refused := none }

/-- The Baler is being reset by an item of furrow 0, and a NOP of its furrow waits. -/
def resetHoldsNop : State :=
  let s := hostUp [(0, { freshFurrow .mgmt with items := [plainItem 0x85 .active] }), (1, { freshFurrow .job with items := [plainItem 0x00 .held] })]
  { s with hi := { s.hi with subreset := some { code := 1, index := 0, aborted := 0 } } }

/-- Refutes O31: at the end of a reset the held items of the unit's furrows start, a NOP among them, which the pumps alone do not start. -/
theorem not_subreset : ¬ Obligations.Subreset := by
  intro h
  obtain ⟨-, -, -, hcomplete, -⟩ := h resetHoldsNop (freshFurrow .mgmt) Desc.zero { code := 1, index := 0, aborted := 0 } (plainItem 0x85 .active)
  have hposted := congrArg (fun s : State => (s.furrow? 1).map Furrow.nextPost)
    ((hcomplete (by decide +kernel) (by decide +kernel)).supervise_eq (v := subresetComplete resetHoldsNop) rfl)
  revert hposted
  decide +kernel

end Sys2Proof.Machine
end

section
/-! SUPPORT. The pumps of the Baler and of the side port (R336, R446): one item taken, and what it leaves alone. -/

namespace Sys2Proof.Machine

/-- The next item of a pipe. -/
def State.nextJob? (s : State) (comp : Bool) : Option (Nat × Item) :=
  (turnOrder (if comp then s.bl.lastComp else s.bl.lastExp) (kkeys s.hi.furrows)).findSome?
    (fun f => (s.furrow? f).bind (fun fu => (Furrow.runnable? fu comp).map (fun it => (f, it))))

/-- A pipe takes nothing more: it is in use, or the Baler is being reset. -/
def State.pipeShut (s : State) (comp : Bool) : Bool :=
  (if comp then s.bl.comp.isSome else s.bl.exp.isSome) || (match s.hi.subreset with | some r => r.code == 1 | none => false)

/-- The furrow that a pipe has served last. -/
def State.turnTaken (s : State) (comp : Bool) (f : Nat) : State :=
  if comp then { s with bl := { s.bl with lastComp := f } } else { s with bl := { s.bl with lastExp := f } }

/-- A pipe begins an item: a stream that does not go on is opened, and the source is read. -/
def State.beginJob (s : State) (comp : Bool) (f : Nat) (it : Item) : State :=
  let s := s.activate f it.seq
  let s := if comp && !optCont it.desc then s.openStream f (optFormat it.desc) else s
  let s := if comp then { s with bl := { s.bl with comp := some (f, it.seq), compDrop := false } } else { s with bl := { s.bl with exp := some (f, it.seq) } }
  let s := s.readHost (.job comp) (join64 it.desc.w2 it.desc.w3) (Desc.srcLen it.desc)
  let s := if it.op = 0x32#8 then s.readHost (.job comp) (Desc.dstAddr it.desc) (Desc.dstLen it.desc) else s
  s.setFlag Reg.BL_STAT (if comp then Fld.BL_STAT_comp_busy else Fld.BL_STAT_exp_busy) true

/-- What a pipe does with the item it takes. -/
def State.takeJob (s : State) (comp : Bool) (f : Nat) (it : Item) : State :=
  if s.jobBad f it.op it.desc then (if comp && optCont it.desc then s.abandon f else s).endJob f it.seq .failedParam 0 0
  else if Desc.srcLen it.desc = 0 && !(comp && optFinal it.desc) then s.endJob f it.seq .doneEmpty 0 0
  else s.beginJob comp f it

theorem State.pipeTake_eq (s : State) (comp : Bool) : s.pipeTake comp =
    if s.pipeShut comp then (false, s) else
      match s.nextJob? comp with
      | none => (false, s)
      | some (f, it) => (true, (s.turnTaken comp f).takeJob comp f it) := by
  rw [State.pipeTake, State.pipeShut]
  refine ite_congr rfl (fun _ => rfl) fun _ => ?_
  change (match s.nextJob? comp with
    | none => (false, s)
    | some (f, it) => _) = _
  cases s.nextJob? comp with
  | none => rfl
  | some p =>
    obtain ⟨f, it⟩ := p
    simp only [State.takeJob, apply_ite (Prod.mk true)]
    rfl

/-- What every taken item keeps, a pump keeps. -/
theorem State.pipeN_keeps (comp : Bool) (P : State → Prop)
    (hstep : ∀ s f it, P s → s.pipeShut comp = false → s.nextJob? comp = some (f, it) → P ((s.turnTaken comp f).takeJob comp f it)) :
    ∀ (n : Nat) (s : State), P s → P (State.pipeN comp n s)
  | 0, _, h => h
  | n + 1, s, h => by
    rw [State.pipeN, State.pipeTake_eq]
    by_cases hshut : s.pipeShut comp = true
    · rw [if_pos hshut]; exact h
    · rw [if_neg hshut]
      cases hnext : s.nextJob? comp with
      | none => exact h
      | some p => exact State.pipeN_keeps comp P hstep n _ (hstep s p.1 p.2 h (by simpa using hshut) hnext)

/-- A pipe that is shut takes nothing. -/
theorem State.pipeN_shut (comp : Bool) (n : Nat) (s : State) (h : s.pipeShut comp = true) : State.pipeN comp n s = s := by
  cases n with
  | zero => rfl
  | succ n => rw [State.pipeN, State.pipeTake_eq, if_pos h]

theorem State.endItem_bl (s : State) (f : Nat) (seq : Word) (st : CStatus) (len : Nat) (aux : Word) : (s.endItem f seq st len aux).bl = s.bl :=
  (PostOnly.endItem ..).frame.bl

/-- The compression pipe works beside the expansion pipe. -/
theorem State.takeJob_exp (s : State) (f : Nat) (it : Item) : (s.takeJob true f it).bl.exp = s.bl.exp := by
  have hbegin : (s.beginJob true f it).bl.exp = s.bl.exp := by
    have hread : ∀ (u : State) (a b : Word64) (m n : Nat),
        (if it.op = 0x32#8 then (u.readHost (.job true) a m).readHost (.job true) b n else u.readHost (.job true) a m).bl = u.bl := fun u a b m n =>
      ite_both (fun v : State => v.bl = u.bl) _ _ _ ((LinkOnly.readHost u _ a m).trans (LinkOnly.readHost ..)).bl (LinkOnly.readHost ..).bl
    have hopen : (if (true && !optCont it.desc) = true then (s.activate f it.seq).openStream f (optFormat it.desc) else s.activate f it.seq).bl.exp
        = s.bl.exp := ite_both (fun v : State => v.bl.exp = s.bl.exp) _ _ _ rfl rfl
    exact (congrArg BlSt.exp (hread _ _ _ _ _)).trans hopen
  refine ite_both (fun u : State => u.bl.exp = s.bl.exp) _ _ _ ?_ (ite_both (fun u : State => u.bl.exp = s.bl.exp) _ _ _ ?_ hbegin)
  · exact (congrArg BlSt.exp (State.endItem_bl ..)).trans (ite_both (fun u : State => u.bl.exp = s.bl.exp) _ _ _ rfl rfl)
  · exact congrArg BlSt.exp (State.endItem_bl ..)

/-- An expansion pipe in use stays so while the pumps run. -/
theorem State.balerPump_exp (s : State) (h : s.bl.exp.isSome = true) : s.balerPump.bl.exp = s.bl.exp := by
  have hcomp : ∀ n, (State.pipeN true n s).bl.exp = s.bl.exp := fun n =>
    State.pipeN_keeps true (fun u => u.bl.exp = s.bl.exp) (fun u f it hu _ _ => ((u.turnTaken true f).takeJob_exp f it).trans hu) n s rfl
  rw [State.balerPump, State.pipeN_shut false _ _ (by simp [State.pipeShut, hcomp, h]), hcomp]

/-- The side port begins a transfer. -/
def State.beginTransfer (s : State) (f : Nat) (it : Item) : State :=
  let s := s.activate f it.seq
  let s := if 0 < xferOut it.desc then s.readHost .transfer (join64 it.desc.w2 it.desc.w3) (ceilDiv (xferOut it.desc) 8) else s
  ({ s with sp := { s.sp with xfer := some it.seq } }).setFlag Reg.SP_STAT Fld.SP_STAT_xfer_busy true

/-- The side port takes nothing, ends an item, or begins one. -/
theorem State.sideTake_cases (s : State) (Q : Bool × State → Prop) (hnone : Q (false, s)) (hend : ∀ f seq st, Q (true, s.endItem f seq st 0 0))
    (hbegin : ∀ f it, Q (true, s.beginTransfer f it)) : Q s.sideTake := by
  unfold State.sideTake
  extract_lets resetting
  refine ite_both Q _ _ _ hnone ?_
  split
  · exact hnone
  next f _ =>
    split
    · exact hnone
    next fu _ =>
      split
      · exact hnone
      next it _ =>
        exact ite_both Q _ _ _ hnone (ite_both Q _ _ _ (hend f it.seq .failedParam) (ite_both Q _ _ _ (hend f it.seq .doneEmpty)
          (ite_both Q _ _ _ (hend f it.seq .failedParam) (ite_both Q _ _ _ (hend f it.seq .failedLimit) (ite_both Q _ _ _ hnone (hbegin f it))))))

theorem State.sideN_keeps (P : State → Prop) (hend : ∀ s f seq st, P s → P (s.endItem f seq st 0 0))
    (hbegin : ∀ s f it, P s → P (s.beginTransfer f it)) (n : Nat) : ∀ s : State, P s → P (State.sideN n s) := by
  induction n with
  | zero => exact fun _ h => h
  | succ n ih =>
    intro s h
    rw [State.sideN]
    exact s.sideTake_cases (fun p => P (match p with | (true, s') => State.sideN n s' | (false, s') => s')) h
      (fun _ _ _ => ih _ (hend _ _ _ _ h)) (fun _ _ => ih _ (hbegin _ _ _ h))

theorem State.sidePump_keeps (P : State → Prop) (hend : ∀ s f seq st, P s → P (s.endItem f seq st 0 0))
    (hbegin : ∀ s f it, P s → P (s.beginTransfer f it)) (s : State) (h : P s) : P s.sidePump := by
  rw [State.sidePump]
  split
  · exact h
  · split
    · exact h
    · exact State.sideN_keeps P hend hbegin _ _ h

theorem State.beginTransfer_bl (s : State) (f : Nat) (it : Item) : (s.beginTransfer f it).bl = s.bl := by
  have hread : (if 0 < xferOut it.desc then
      (s.activate f it.seq).readHost .transfer (join64 it.desc.w2 it.desc.w3) (ceilDiv (xferOut it.desc) 8) else s.activate f it.seq).bl = s.bl :=
    ite_both (fun v : State => v.bl = s.bl) _ _ _ (LinkOnly.readHost ..).bl rfl
  exact hread

theorem State.sidePump_bl (s : State) : s.sidePump.bl = s.bl :=
  State.sidePump_keeps (fun u => u.bl = s.bl) (fun u f seq st hu => (u.endItem_bl f seq st 0 0).trans hu)
    (fun u f it hu => (u.beginTransfer_bl f it).trans hu) s rfl

end Sys2Proof.Machine
end

section
/-! PROOF. A job whose access was refused, held by both pipes (R294, R339). -/

namespace Sys2Proof.Machine

/-- A state in which both pipes hold the same item of a JOB furrow. -/
def bothPipesHold : State :=
  let s := hostUp [(1, { freshFurrow .job with items := [plainItem 0x30 .active], nextFetch := 1 })]
  { s with bl := { s.bl with comp := some (1, 0), exp := some (1, 0) } }

theorem State.stall_bl (s : State) (f : Nat) (seq : Word) : (s.stall f seq).bl = s.bl := by
  rw [State.stall]
  split
  · rfl
  · exact ite_both (fun u : State => u.bl = s.bl) _ _ _ (State.raiseF_bl _ _ _ _ _ _ _ (by decide)) rfl

/-- The last part of a failed access leaves an expansion pipe in use. -/
theorem State.failed_pumps_exp (s : State) (f : Nat) (seq : Word) (len : Nat) (e : Nat × Word) (h : s.bl.exp = some e) :
    (s.failDma f seq len).balerPump.sidePump.bl.exp = some e := by
  have hfail : (s.failDma f seq len).bl = s.bl := (State.endItem_bl ..).trans (State.stall_bl ..)
  rw [State.sidePump_bl, State.balerPump_exp _ (by rw [hfail, h]; rfl), hfail, h]

/-- A failed access frees the compression pipe only, where both hold its item. -/
theorem State.failWork_exp (s : State) (f : Nat) (fu : Furrow) (it : Item) (addr : Word64) (e : Nat × Word) (hkind : fu.kind = .job)
    (hcomp : s.bl.comp = some (f, it.seq)) (hexp : s.bl.exp = some e) : (s.failWork f fu it addr).bl.exp = some e := by
  have hfreed : ∀ u : State, u.bl = s.bl → (u.jobDmaFailed f it.seq).bl.exp = some e := by
    intro u hu
    have hdrop : (u.dropReads (.job true)).bl = u.bl := (LinkOnly.dropReads ..).bl
    rw [State.jobDmaFailed, if_pos (by rw [hu]; exact hcomp)]
    exact (congrArg BlSt.exp (hdrop.trans hu)).trans hexp
  simp only [State.failWork, State.draw64, State.partOf, hkind]
  rw [if_pos (by decide)]
  exact State.failed_pumps_exp _ _ _ _ _ (hfreed _ rfl)

/-- Two states that a command becomes have the same Baler. -/
theorem Becomes.bl_eq {i : Instr} {s u v : State} (hu : Becomes i s u) (hv : Becomes i s v) : u.bl = v.bl := by
  rw [Becomes] at hu hv
  have hsame := congrArg State.bl (Host.Outcome.next.inj (hu.symm.trans hv))
  rwa [supervise_bl, supervise_bl] at hsame

/-- Refutes O32: a refused access of a job frees one pipe, so an item that both pipes hold is still held. -/
theorem not_failedAccesses : ¬ Obligations.FailedAccesses := by
  intro h
  obtain ⟨-, -, -, -, -, -, -, hwork, hjob, -⟩ := h.1 bothPipesHold 1 { freshFurrow .job with items := [plainItem 0x30 .active], nextFetch := 1 } 0
    (plainItem 0x30 .active) (by decide +kernel) rfl (by decide +kernel)
  have hworks := hwork (by decide +kernel) (.inl rfl) (by decide +kernel)
  obtain ⟨u, hbecomes, -, -, hexp⟩ := hjob (by decide +kernel) rfl (by decide +kernel)
  rw [hbecomes.bl_eq hworks] at hexp
  exact hexp (State.failWork_exp _ _ _ _ _ _ rfl (by decide +kernel) (by decide +kernel))

end Sys2Proof.Machine
end

section
/-! PROOF. A malformed producer index of the EVENT furrow (R276, R436). -/

namespace Sys2Proof.Machine

/-- An EVENT buffer of 64 bytes that waits for records. -/
def waitingEventBuffer : Item := { plainItem 0x10 .active with desc := { Desc.zero with w1 := 64 } }

/-- The EVENT furrow, with that buffer posted. -/
def eventFurrow : Furrow := { freshFurrow .event with items := [waitingEventBuffer], nextFetch := 1, prod := 1 }

/-- Outside Run the doorbell's indices are being read, and DOORBELL_MALFORMED (55) is enabled. -/
def indicesRead : State :=
  let s := (hostUp [(1, eventFurrow)]).wr (Reg.EV_CFG 55) 1
  { s with hi := { s.hi with db := { s.hi.db with idx := true } } }

/-- Refutes O34: an ignored index of the EVENT furrow itself raises a record, which outside Run moves into its buffer. -/
theorem not_doorbell : ¬ Obligations.Doorbell := by
  intro h
  obtain ⟨-, -, -, -, -, -, -, -, -, hmalformed, -⟩ := h indicesRead false 0 [0, 0] 1 0 eventFurrow
  obtain ⟨u, ⟨hkept, -⟩, hu⟩ := (hmalformed (by decide +kernel) (by decide +kernel) (by decide) (by decide) (by decide +kernel)
    (by decide +kernel) (by decide +kernel)).exists_supervise_eq (v := producerIndexReadDone false (some [0, 0]) indicesRead) rfl
  have hfurrow : (supervise u).furrow? 1 = some eventFurrow := hkept
  rw [← hu] at hfurrow
  revert hfurrow
  decide +kernel

end Sys2Proof.Machine
end

section
/-! PROOF. The calibration store (R157 to R163). -/

namespace Sys2Proof.Machine

/-- What the hub owns of a bank is copied into the image's header by CAL_CMD.open. -/
def Bank.copied (b : Bank) (serial : Word64) : Image := [0x10, 0x14, 0x18, 0x1C].foldl (fun i o => i.setWord o (b.rd serial o)) b.img

theorem Image.rd_setWord_same (img : Image) (serial : Word64) (off : Nat) (w : Word) : (img.setWord off w).rd serial off = w := by
  simp [Image.rd, Image.setWord]

theorem Image.rd_setWord_ne (img : Image) (serial : Word64) {off o : Nat} (w : Word) (h : o ≠ off) :
    (img.setWord off w).rd serial o = img.rd serial o := by
  simp only [Image.rd, Image.setWord, kget?_kset_ne _ _ h]
  rfl

/-- The copy of a bank reads as the bank, header included (R157). -/
theorem Bank.copied_rd (b : Bank) (serial : Word64) (off : Nat) : (b.copied serial).rd serial off = b.rd serial off := by
  simp only [Bank.copied, List.foldl_cons, List.foldl_nil]
  by_cases h1 : off = 0x1C
  · subst h1; exact Image.rd_setWord_same ..
  by_cases h2 : off = 0x18
  · subst h2; rw [Image.rd_setWord_ne _ _ _ h1]; exact Image.rd_setWord_same ..
  by_cases h3 : off = 0x14
  · subst h3; rw [Image.rd_setWord_ne _ _ _ h1, Image.rd_setWord_ne _ _ _ h2]; exact Image.rd_setWord_same ..
  by_cases h4 : off = 0x10
  · subst h4; rw [Image.rd_setWord_ne _ _ _ h1, Image.rd_setWord_ne _ _ _ h2, Image.rd_setWord_ne _ _ _ h3]; exact Image.rd_setWord_same ..
  rw [Image.rd_setWord_ne _ _ _ h1, Image.rd_setWord_ne _ _ _ h2, Image.rd_setWord_ne _ _ _ h3, Image.rd_setWord_ne _ _ _ h4, Bank.rd,
    if_neg h4, if_neg h3, if_neg h2, if_neg h1]

theorem calOpen_free (s : State) (hcommit : s.cal.commit = none) : calOpen s =
    (s.setStaging (match s.cal.inForce with | none => { ideal := false, words := [] } | some b => b.copied s.pw.serial)).wr Reg.CAL_STGPTR 0 := by
  rw [calOpen, if_neg (by simp [hcommit])]
  rfl

theorem calOpen_busy (s : State) (hcommit : s.cal.commit ≠ none) : calOpen s = s.accErr true Reg.CAL_CMD :=
  if_pos (Option.isSome_iff_ne_none.2 hcommit)

theorem calClose_eq (s : State) : calClose s = if s.cal.commit.isSome then s.accErr true Reg.CAL_CMD else s.dropStaging := rfl

/-- The byte offset that a write to CAL_STGPTR names. -/
def stagePointer (val : Word) : Nat := BitField.get Fld.CAL_STGPTR_word val * 4

theorem calStgptrWrite_inside (val : Word) (s : State) (hcommit : s.cal.commit = none) (ha : stagePointer val < 0xF800) :
    calStgptrWrite val s = s.wr Reg.CAL_STGPTR (word (stagePointer val)) :=
  if_neg (by simp only [hcommit, Option.isSome_none, Bool.false_or, decide_eq_true_eq]; exact Nat.not_le.2 ha)

theorem calStgptrWrite_beyond (val : Word) (s : State) (ha : 0xF800 ≤ stagePointer val) :
    calStgptrWrite val s = s.accErr true Reg.CAL_STGPTR :=
  if_pos (by simp only [Bool.or_eq_true, decide_eq_true_eq]; exact .inr ha)

/-- The pointer's next word is below the end of the buffer. -/
theorem rdN_wr_pointer (s : State) {p : Nat} (hp : p < 0xF800) : (s.wr Reg.CAL_STGPTR (word (p + 4))).rdN Reg.CAL_STGPTR = p + 4 := by
  rw [State.rdN, State.rd_wr_same]
  simp only [word, BitVec.toNat_ofNat]
  omega

theorem calStgdataWrite_staged (val : Word) (s : State) (img : Image) (hcommit : s.cal.commit = none) (himg : s.cal.staging = some img)
    (hp : s.rdN Reg.CAL_STGPTR < 0xF800) : calStgdataWrite val s =
    (s.setStaging (img.setWord (s.rdN Reg.CAL_STGPTR) val)).wr Reg.CAL_STGPTR (word (s.rdN Reg.CAL_STGPTR + 4)) := by
  simp only [calStgdataWrite, himg]
  exact if_neg (by simp [hcommit]; omega)

theorem calStgdataRead_staged (s : State) (img : Image) (himg : s.cal.staging = some img) (hp : s.rdN Reg.CAL_STGPTR < 0xF800) :
    calStgdataRead s =
      { (s.wr Reg.CAL_STGPTR (word (s.rdN Reg.CAL_STGPTR + 4))) with rdata := img.rd s.pw.serial (s.rdN Reg.CAL_STGPTR) } := by
  simp only [calStgdataRead, himg]
  exact if_neg (by omega)

/-- The twelve words of a hash stand one after another (R159). -/
def State.hashWords (s : State) (h : List Byte) : State :=
  (List.range 12).foldl (fun s i => s.wr (Reg.CAL_STGHASH i) (word (ofLe (slice h (4 * i) 4)))) s

theorem State.hashWords_rd (s : State) (h : List Byte) (i : Nat) (hi : i < 12) :
    (s.hashWords h).rd (Reg.CAL_STGHASH i) = word (ofLe (slice h (4 * i) 4)) :=
  State.foldl_wr_at 12 Reg.CAL_STGHASH (fun _ i => word (ofLe (slice h (4 * i) 4))) s i hi
    (fun j _ hne => by simp only [Reg.CAL_STGHASH]; omega) (fun _ _ => rfl)

/-- A hash has been shown, and none is due. -/
def State.hashShown (s : State) (h : List Byte) : State := { s.hashWords h with cal := { (s.hashWords h).cal with hashDue := false } }

theorem State.hashShown_words (s : State) (h : List Byte) :
    (s.hashShown h).cal.hashDue = false ∧ ∀ i, i < 12 → (s.hashShown h).rd (Reg.CAL_STGHASH i) = word (ofLe (slice h (4 * i) 4)) :=
  ⟨rfl, fun i hi => s.hashWords_rd h i hi⟩

theorem calStghashUpdate_due (s : State) (img : Image) (himg : s.cal.staging = some img) (hdue : s.cal.hashDue = true) :
    calStghashUpdate s = s.hashShown (s.stageHash img) := by
  simp only [calStghashUpdate, himg, hdue, if_true]
  rfl

/-- A commit whose authorisation fits the staged image begins (R160). -/
theorem calCommit_armed (s : State) (img : Image) (harmed : s.vt.armed = some (1, s.stageHash img)) (hok : s.vaultOk = true)
    (himg : s.cal.staging = some img) (hcommit : s.cal.commit = none) (hext : s.vt.extended = false) : calCommit s =
      (let u := ({ s with vt := { s.vt with armed := none } } : State).setFlag Reg.VT_STAT Fld.VT_STAT_armed false
       { u with cal := { u.cal with commit := some img } }) := by
  have hvault : (s.fget Reg.VT_STAT Fld.VT_STAT_state == vtOperational) = true := hok
  have hauth : s.useAuth 1 (s.stageHash img) =
      (true, ({ s with vt := { s.vt with armed := none } } : State).setFlag Reg.VT_STAT Fld.VT_STAT_armed false) := by
    simp [State.useAuth, harmed, hvault]
  simp only [calCommit, himg, hauth]
  have hstaging : (({ s with vt := { s.vt with armed := none } } : State).setFlag Reg.VT_STAT Fld.VT_STAT_armed false).cal.staging = some img := himg
  simp only [hstaging]
  exact if_neg (by simp [hcommit, hext])

theorem calCommit_unarmed (s : State) (harmed : s.vt.armed = none) : calCommit s = s.rwpRefused Reg.CAL_CMD := by
  simp [calCommit, State.useAuth, harmed]

/-- The state in which a commit's outcome is being noted. -/
def State.commitEnded (s : State) : State := { s with cal := { s.cal with commit := none } }

theorem calCommitComplete_rejected (s : State) (img : Image) (r : Nat × Nat) (hcommit : s.cal.commit = some img)
    (hbad : calFailure img s.pw.serial s.cal.wrcnt.toNat = some r) : calCommitComplete s =
      (((({ s with cal := { s.cal with commit := none, result := 2 } } : State).wr Reg.CAL_REJ (word (2 ^ 24 * r.1 + r.2))).setFlag
        Reg.CAL_STAT Fld.CAL_STAT_rejected true).raise 21 r.2 r.1) := by
  simp only [calCommitComplete, hcommit, hbad]

/-- The bank that a commit programs (R153, R161). -/
def State.newBank (s : State) (img : Image) : Bank :=
  { img := img, epoch := s.cal.wrcnt + 2, origin := true, time := (timeParts s.now).sec }

/-- A bank has been programmed; it acts at once, or stands by (R163). -/
def State.programmed (s : State) (b : Bank) (waits : Bool) : State :=
  { s with cal := { s.cal with commit := none, result := 1, wrcnt := s.cal.wrcnt + 1, staging := none, hashDue := false
                               next := if waits then some b else none
                               inForce := if waits then s.cal.inForce else some b
                               trims := if waits then s.cal.trims else some b }
           vt := { s.vt with calClose := waits } }

theorem calCommitComplete_written (s : State) (img : Image) (hcommit : s.cal.commit = some img)
    (hgood : calFailure img s.pw.serial s.cal.wrcnt.toNat = none) : calCommitComplete s =
      ((s.programmed (s.newBank img) s.commitWaits).setFlag Reg.CAL_STAT Fld.CAL_STAT_written true).raiseD 22 0 0 0
        ((s.newBank img).epoch.setWidth 64) := by
  simp only [calCommitComplete, hcommit, hgood]
  rfl

/-- A programmed bank: what the store holds, the flag and the event (R161, R162). -/
theorem State.programmed_noted (s : State) (b : Bank) (waits : Bool) (data : Word64) :
    let u := ((s.programmed b waits).setFlag Reg.CAL_STAT Fld.CAL_STAT_written true).raiseD 22 0 0 0 data
    u.cal = (s.programmed b waits).cal ∧ u.vt = (s.programmed b waits).vt ∧ u.flag Reg.CAL_STAT Fld.CAL_STAT_written = true
      ∧ u.rd (Reg.EV_OCC 22) = s.rd (Reg.EV_OCC 22) + 1 := by
  have hraised := raiseD_raised ((s.programmed b waits).setFlag Reg.CAL_STAT Fld.CAL_STAT_written true) 22 0 0 0 data (by decide)
  refine ⟨hraised.frame.cal, hraised.frame.vt, ?_, ?_⟩
  · rw [State.flag_congr (hraised.frame.rd Reg.CAL_STAT (by decide))]
    exact State.flag_setFlag_same _ _ _ (by decide) (by decide) true
  · rw [hraised.occ, State.rd_setFlag_ne _ _ _ (by decide)]
    rfl

/-- Settles O40, form by form of the store's commands. -/
theorem calibration : Obligations.Calibration := by
  unfold Obligations.Calibration
  intro s val img b r a p
  refine ⟨fun hcommit hforce => Ends.of (v := calOpen s) rfl ?_, fun hcommit hforce => Ends.of (v := calOpen s) rfl ?_,
    fun hcommit => ⟨Becomes.of rfl (calOpen_busy s hcommit), Becomes.of rfl ?_⟩, fun hcommit => Becomes.of rfl ?_,
    fun hcommit ha => Becomes.of rfl (calStgptrWrite_inside val s hcommit ha), fun ha => Becomes.of rfl (calStgptrWrite_beyond val s ha),
    fun hcommit himg hp => Ends.of (v := calStgdataWrite val s) rfl ?_,
    fun himg hp => Ends.of (v := calStgdataRead s) rfl ?_, fun himg => ⟨Becomes.of rfl ?_, Becomes.of rfl ?_⟩,
    fun himg hdue => Ends.of (v := calStghashUpdate s) rfl ?_, fun harmed hok himg hcommit hext => Ends.of (v := calCommit s) rfl ?_,
    fun harmed => Ends.of (v := calCommit s) rfl ?_, fun hcommit hbad => Ends.of (v := calCommitComplete s) rfl ?_,
    fun hcommit hgood hwaits => Ends.of (v := calCommitComplete s) rfl ?_,
    fun hcommit hgood hwaits => Ends.of (v := calCommitComplete s) rfl ?_, fun hcommit => Becomes.of rfl ?_, fun hidle => Becomes.of rfl ?_⟩
  · rw [calOpen_free s hcommit, hforce]
    exact ⟨State.rd_wr_same _ _ _, rfl, _, rfl, b.copied_rd s.pw.serial⟩
  · rw [calOpen_free s hcommit, hforce]
    exact ⟨State.rd_wr_same _ _ _, _, rfl, fun _ => rfl⟩
  · exact if_pos (Option.isSome_iff_ne_none.2 hcommit)
  · exact if_neg (by simp [hcommit])
  · rw [calStgdataWrite_staged val s img hcommit himg hp]
    exact ⟨rdN_wr_pointer _ hp, rfl, rfl⟩
  · rw [calStgdataRead_staged s img himg hp]
    exact ⟨rfl, rdN_wr_pointer s hp, rfl⟩
  · simp only [calStgdataRead, himg]
  · simp only [calStgdataWrite, himg]
  · rw [calStghashUpdate_due s img himg hdue]
    exact s.hashShown_words (s.stageHash img)
  · rw [calCommit_armed s img harmed hok himg hcommit hext]
    exact ⟨rfl, rfl, State.flag_setFlag_same _ _ _ (by decide) (by decide) false⟩
  · rw [calCommit_unarmed s harmed]
    exact raiseD_raised _ _ _ _ _ _ (by decide)
  · rw [calCommitComplete_rejected s img r hcommit hbad]
    have hraised := raise_raised (((({ s with cal := { s.cal with commit := none, result := 2 } } : State).wr Reg.CAL_REJ
      (word (2 ^ 24 * r.1 + r.2))).setFlag Reg.CAL_STAT Fld.CAL_STAT_rejected true)) 21 r.2 r.1 (by decide)
    refine ⟨hraised.frame.cal, ?_, ?_, ?_⟩
    · rw [hraised.frame.rd _ (by decide), State.rd_setFlag_ne _ _ _ (by decide), State.rd_wr_same]
    · rw [State.flag_congr (hraised.frame.rd Reg.CAL_STAT (by decide))]
      exact State.flag_setFlag_same _ _ _ (by decide) (by decide) true
    · rw [hraised.occ, State.rd_setFlag_ne _ _ _ (by decide), State.rd_wr_ne _ _ (by decide)]
      rfl
  · obtain ⟨hcal, -, hflag, hocc⟩ := s.programmed_noted (s.newBank img) s.commitWaits ((s.newBank img).epoch.setWidth 64)
    rw [calCommitComplete_written s img hcommit hgood]
    rw [hwaits] at hcal hflag hocc ⊢
    rw [hcal]
    exact ⟨rfl, rfl, rfl, ⟨_, rfl, rfl, rfl, rfl⟩, hflag, hocc⟩
  · obtain ⟨hcal, hvt, hflag, hocc⟩ := s.programmed_noted (s.newBank img) s.commitWaits ((s.newBank img).epoch.setWidth 64)
    rw [calCommitComplete_written s img hcommit hgood]
    rw [hwaits] at hcal hvt hflag hocc ⊢
    rw [hcal, hvt]
    exact ⟨rfl, rfl, rfl, rfl, rfl, ⟨_, rfl, rfl, rfl, rfl⟩, hflag, hocc⟩
  · simp only [calCommitComplete, hcommit]
  · rcases hidle with hnone | hdone
    · simp only [calStghashUpdate, hnone]
    · simp only [calStghashUpdate]
      split
      · rfl
      · exact if_neg (by simp [hdone])

end Sys2Proof.Machine
end

section
/-! PROOF. A member that waits, and the ring parameters it cannot follow (R475). -/

namespace Sys2Proof.Machine

/-- A member that waits in Run, among whose accepted input writes stands one to LN_ADDR. -/
def strayAddressWrite : State :=
  { State.reset with
    regs := []
    pw := { State.reset.pw with power := .run, waiting := true, headSel := false, inReset := false }
    fe := { State.reset.fe with pend := [(Reg.LN_ADDR, 5)] } }

/-- The parameters of a head that has started with a period of no base slots, which the member does not share. -/
def otherPeriod : RingParams := { m := 0, epoch := 0, tickS := 0, latency := 0, auth := false, started := true, cut := none }

/-- Refutes O44: the refusal names the address that the member had, and the accepted writes which the end of Run puts in place may
change it, since the statement's states allow any register among them. -/
theorem not_ringFormation : ¬ Obligations.RingFormation := by
  intro h
  obtain ⟨-, -, -, -, -, -, -, -, -, -, -, -, -, -, -, -, -, -, -, hrefused, -⟩ :=
    h strayAddressWrite [] [] { serial := 0, addr := 0, position := 0, assigned := false } 0 0 0 0 0 [] otherPeriod 0 0 []
  have hindex := congrArg (fun s : State => s.rd Reg.GLB_ENSTAT_HI)
    ((hrefused (by decide +kernel) (by decide +kernel) (by decide +kernel) (by decide +kernel) (by decide +kernel)).supervise_eq
      (v := ringParameters otherPeriod strayAddressWrite) rfl)
  revert hindex
  decide +kernel

end Sys2Proof.Machine
end

section
/-! PROOF. The enable check, its refusal, the entry to Run, and the end of Run (R473, R474, R476, R482). -/

namespace Sys2Proof.Machine

/-- The output enables and a release withdrawn, as a stop of Run does at once (R476, step 1). -/
def State.enablesOff (s : State) : State := { s with sv := { s.sv with oen := 0, releasePend := false, raiseDue := false } }

/-- The tick after which a stop commanded now ends Run (R476, step 2). -/
def State.stopTick (s : State) : Nat :=
  ((s.now + slotU - (s.fr.epoch : Int) * secU + s.periodU - 1) / s.periodU).toNat

theorem runDisable_idle {s : State} (h : s.inRun = false) : runDisable s = s := by
  rw [runDisable, State.stopRun, h]
  rfl

theorem runDisable_run {s : State} (h : s.inRun = true) :
    runDisable s = if s.pw.lastTick.isSome then s.enablesOff
      else if s.pw.waiting || decide (s.stopTick ≤ s.fr.tickS) then s.enablesOff.endRun
      else { s.enablesOff with pw := { s.pw with lastTick := some (if s.running then max s.stopTick s.fr.nextTick else s.stopTick) } } := by
  rw [runDisable, State.stopRun, h]
  rfl

/-- The check has ended, and the count of R37 stands in FR_BUDGET. -/
def State.checked (s : State) : State := ({ s with pw := { s.pw with checking := false } }).noteBudget

theorem consistencyCheckDone_idle {s : State} (v : RingView) (h : s.inIdle = false ∨ s.pw.checking = false) :
    consistencyCheckDone v s = s := by
  have hoff : (!(s.inIdle && s.pw.checking)) = true := by simp [Bool.and_eq_false_iff.mpr h]
  exact if_pos hoff

theorem consistencyCheckDone_passed {s : State} {v : RingView} (hi : s.inIdle = true) (hc : s.pw.checking = true)
    (h : refusalOf (orderConds (s.checkConds v)) = none) : consistencyCheckDone v s = s.checked.passed := by
  simp [consistencyCheckDone, hi, hc, h, State.checked]

theorem State.passed_head {s : State} (h : s.pw.headSel = true) :
    s.passed = (s.enterRun.startAt s.chooseEpoch (s.firstTick s.chooseEpoch)).distribute := by
  rw [State.passed, if_pos h]

theorem State.passed_waits {s : State} (h : s.pw.headSel = false) (hruns : s.headRuns = none) : s.passed = s.enterRun := by
  simp [State.passed, h, hruns]

theorem State.passed_starts {s : State} {p : RingParams} (h : s.pw.headSel = false) (hruns : s.headRuns = some p) :
    s.passed = s.enterRun.startMember p (s.firstTick p.epoch.toNat) := by
  simp [State.passed, h, hruns]

theorem State.headRuns_some {s : State} {p : RingParams} (h : s.headRuns = some p) : s.pw.headSel = false := by
  rw [State.headRuns] at h
  cases hs : s.pw.headSel
  · rfl
  · rw [hs] at h; cases h

theorem State.headRuns_none {s : State} (h : s.pw.headParams = none) : s.headRuns = none := by
  rw [State.headRuns, h]
  exact ite_self none

/-- Settles O51: each clause is one branch of its command. -/
theorem runControl : Obligations.RunControl := by
  intro s v r hp noted cs t n stopped
  have hpower : s.inRun = true → s.pw.power = .run := fun h => by simpa [State.inRun] using h
  have hmember : s.inIdle = true → s.pw.checking = true → refusalOf cs = none → s.pw.headSel = false → s.headRuns = none →
      consistencyCheckDone v s = noted.enterRun := fun hi hc hok hsel hhead => by
    exact (consistencyCheckDone_passed hi hc hok).trans (State.passed_waits (s := s.checked) hsel hhead)
  refine ⟨fun hres hopen => Becomes.of rfl ?_, fun hres hidle hchk => Becomes.of rfl ?_, fun hrun => Becomes.of rfl ?_,
    fun h => Becomes.of rfl ?_, fun hres hhold => Becomes.of rfl ?_, fun hi hc hok hhead => Becomes.of rfl ?_,
    fun hi hc hok hsel hhead => Becomes.of rfl (hmember hi hc hok hsel hhead), fun hc => Becomes.of rfl (consistencyCheckDone_idle v (.inr hc)),
    fun hrun hlast => Becomes.of rfl ?_, fun hrun hlast hn => Becomes.of rfl ?_,
    fun hi hc href => Ends.of (v := consistencyCheckDone v s) rfl ?_,
    fun hi hc hok hsel hparams => Becomes.of rfl (hmember hi hc hok hsel (State.headRuns_none hparams)),
    fun hi hc hok hsel => Becomes.of rfl ?_, fun hi => Becomes.of rfl (consistencyCheckDone_idle v (.inl hi)),
    fun hrun => Becomes.of rfl (runDisable_idle hrun), fun hrun hlast hwait hn => Becomes.of rfl ?_,
    fun hrun hlast hwait => Becomes.of rfl ?_⟩
  · obtain ⟨hidle, hchk⟩ : s.pw.power = .idle ∧ s.pw.checking = false := by simpa [State.idleOpen, State.inIdle] using hopen
    simp only [runEnable, hres, hidle, hchk, Bool.false_eq_true, if_false]
  · have hidle : s.pw.power = .idle := by simpa [State.inIdle] using hidle
    simp only [runEnable, hres, hidle, hchk, Bool.false_eq_true, if_false, if_true]
  · simp only [runEnable, hpower hrun, ite_self]
  · rw [runEnable]
    rcases h with hres | ⟨hidle, hhold⟩
    · exact if_pos hres
    · have hidle : s.pw.power ≠ .idle := by simpa [State.inIdle] using hidle
      refine (ite_congr rfl (fun _ => rfl) (fun _ => ?_)).trans (ite_self s)
      split
      · exact absurd ‹_› hidle
      · exact absurd ‹_› hhold
      · rfl
  · simp only [runEnable, hres, hhold, Bool.false_eq_true, if_false]
  · exact (consistencyCheckDone_passed hi hc hok).trans
      (State.passed_starts (s := s.checked) (State.headRuns_some hhead) hhead)
  · rw [runDisable_run hrun, if_pos (Option.isSome_iff_ne_none.mpr hlast)]
    rfl
  · rw [runDisable_run hrun, hlast, if_neg (by simp), if_pos (by simp only [Bool.or_eq_true, decide_eq_true_eq]; exact .inr hn)]
    rfl
  · rw [consistencyCheckDone_refused hi hc href]
    exact ⟨rfl, State.setEnstat_lo .., State.setEnstat_hi ..⟩
  · exact (consistencyCheckDone_passed hi hc hok).trans (State.passed_head (s := s.checked) hsel)
  · have hgo : (s.pw.waiting || decide (s.stopTick ≤ s.fr.tickS)) = false := by
      rw [hwait, Bool.false_or]
      exact decide_eq_false (Nat.not_le.mpr hn)
    rw [runDisable_run hrun, hlast, if_neg (by simp), hgo]
    rfl
  · rw [runDisable_run hrun, hlast, if_neg (by simp), hwait]
    rfl

end Sys2Proof.Machine
end

section
/-! PROOF. Comparison and diagnosis of a twin pair (R406 to R409). -/

namespace Sys2Proof.Machine

/-- The partner's frame as the hub notes it; the active's cause tells a joining hub of a safe state (R406, R416). -/
def State.heard (s : State) (b : TwinFrameIn) : State :=
  s.modTwin (fun t => { t with theirs := some b, activeSafe := s.sv.twin.activeSafe || b.cause != 0 })

theorem twinFrame_deaf {s : State} (b : TwinFrameIn) (h : s.isTwin = false ∨ s.inRun = false ∨ s.role = 5) : twinFrame b s = s := by
  rw [twinFrame]
  refine if_pos ?_
  rcases h with h | h | h <;> simp [h]

/-- A hub that hears its partner takes leave of it, or notes its frame and compares (R406). -/
theorem twinFrame_hears {s : State} (b : TwinFrameIn) (h : s.isTwin = true ∧ s.inRun = true ∧ s.role ≠ 5) :
    twinFrame b s = if b.leaving then s.partnerLeft else (s.heard b).twinCompare := by
  obtain ⟨htwin, hrun, hrole⟩ := h
  have hon : (!s.isTwin || !s.inRun || decide (s.role = 5)) = false := by simp [htwin, hrun, hrole]
  rw [twinFrame, hon]
  rfl

theorem State.twinCompare_none {s : State} (h : s.sv.twin.mine = none ∨ s.sv.twin.compared = true ∨ s.sv.twin.held = true) :
    s.twinCompare = s := by
  rw [State.twinCompare]
  split
  · rename_i hmine _
    refine if_pos ?_
    rcases h with h | h | h
    · rw [hmine] at h; cases h
    · simp [h]
    · simp [h]
  · rfl

/-- Both frames are there, and no comparison has been made or is held up. -/
theorem State.twinCompare_both {s : State} {a b : TwinFrameIn} (hmine : s.sv.twin.mine = some a) (htheirs : s.sv.twin.theirs = some b)
    (hnew : s.sv.twin.compared = false) (hfree : s.sv.twin.held = false) :
    s.twinCompare = if a.frame ≠ b.frame then s else match s.twinDiff a b with
      | some (o, c) => s.twinMismatch a.frame.toNat o c
      | none => s.twinMatch := by
  simp only [State.twinCompare, hmine, htheirs, hnew, hfree, Bool.or_false]
  by_cases h : a.frame = b.frame
  · rw [if_neg (not_not_intro h)]
    exact if_neg (by simp [h])
  · rw [if_pos h]
    exact if_pos (by simp [h])

theorem twinCompareDeadline_none {s : State} (h : s.sv.twin.mine = none) : twinCompareDeadline s = s := by
  rw [twinCompareDeadline, h]

theorem twinCompareDeadline_mine {s : State} {a : TwinFrameIn} (h : s.sv.twin.mine = some a) :
    twinCompareDeadline s = if !s.inRun || s.sv.twin.compared || s.sv.twin.held || !s.twinRuns a.frame.toNat then s
      else s.twinMismatch a.frame.toNat 0 2 := by
  rw [twinCompareDeadline, h]

/-- In a diagnosis the reports decide (R408, R409). -/
theorem twinDecision_pair {s : State} {n : Nat} (h : s.inRun = true ∧ (s.role = 1 ∨ s.role = 2) ∧ s.sv.twin.mismatchFrame = some n)
    {mine theirs : Bool} (hmine : s.sv.twin.myReport.getD (s.twinFault n false) = mine)
    (htheirs : s.sv.twin.theirReport.getD true = theirs) :
    twinDecision s = if mine = theirs then (s.endHold.modTwin (fun t => { t with gap := none })).latchCause 15
      else if mine then (s.endHold.modTwin (fun t => { t with gap := none })).retire
      else (if s.role = 1 then (s.endHold.setPReady false).modTwin (fun t => { t with gap := if s.sv.ilkO then none else t.gap })
        else s.endHold.failOver).restartLoops := by
  obtain ⟨hrun, hrole, hframe⟩ := h
  have hon : (!s.inRun || (s.role != 1 && s.role != 2)) = false := by rcases hrole with h | h <;> simp [hrun, h]
  subst hmine
  subst htheirs
  simp only [twinDecision, hframe, hon, Bool.false_eq_true, if_false]
  rfl

/-- Settles O54: each clause is one branch of its command. -/
theorem twinComparison : Obligations.TwinComparison := by
  intro s a b o c n frame fault told hears single ended mine theirs on pair
  have hears_on : on → twinFrame b s = (s.heard b).twinCompare := fun ⟨h, hstay, _⟩ => by rw [twinFrame_hears b h, hstay]; rfl
  have hboth : on → (s.heard b).twinCompare = if a.frame ≠ b.frame then s.heard b else match (s.heard b).twinDiff a b with
      | some (o, c) => (s.heard b).twinMismatch a.frame.toNat o c
      | none => (s.heard b).twinMatch := fun ⟨_, _, hmine, hnew, hfree⟩ => State.twinCompare_both (s := s.heard b) hmine rfl hnew hfree
  refine ⟨fun hon hframe hdiff => Becomes.of rfl ?_, fun hon hframe hdiff => Becomes.of rfl ?_, fun hon hframe => Becomes.of rfl ?_,
    fun htwin => Becomes.of rfl (twinFrame_deaf b (.inl htwin)), fun h => Becomes.of rfl (twinFrame_deaf b (.inr h)),
    fun h hstay hno => Becomes.of rfl ?_, fun h hleave hrole => Becomes.of rfl ?_, fun h hleave hrole => Becomes.of rfl ?_,
    fun h => Becomes.of rfl ?_, fun hmine hruns => Becomes.of rfl ?_, fun hm hne hne' => Becomes.of rfl ?_,
    fun hm h => Becomes.of rfl ?_, fun h hmine htheirs hrole => Becomes.of rfl ?_, fun h => Becomes.of rfl ?_,
    fun hrun hmine hnew hfree hruns => Becomes.of rfl ?_, fun hmine => Becomes.of rfl (twinCompareDeadline_none hmine),
    fun hm hframe => Becomes.of rfl ?_, fun hm => ⟨Becomes.of rfl ?_, Becomes.of rfl ?_⟩, fun h heq => Becomes.of rfl ?_,
    fun h hmine htheirs => Becomes.of rfl ?_, fun h hmine htheirs hrole => Becomes.of rfl ?_,
    fun hrun hrole hgap => Becomes.of rfl ?_, fun hgap => Becomes.of rfl ?_⟩
  · rw [hears_on hon, hboth hon, if_neg (not_not_intro hframe), show (s.heard b).twinDiff a b = none from hdiff]
    rfl
  · rw [hears_on hon, hboth hon, if_neg (not_not_intro hframe), show (s.heard b).twinDiff a b = some (o, c) from hdiff]
    rfl
  · rw [hears_on hon, hboth hon, if_pos hframe]
    rfl
  · rw [twinFrame_hears b h, hstay]
    exact State.twinCompare_none (s := s.heard b) hno
  · rw [twinFrame_hears b h, hleave, if_pos rfl, State.partnerLeft]
    exact if_pos (by simpa using hrole)
  · rw [twinFrame_hears b h, hleave, if_pos rfl, State.partnerLeft]
    exact if_neg (by simpa using hrole)
  · rw [twinCompareDeadline]
    split
    · rfl
    · refine if_pos ?_
      rcases h with h | h | h <;> simp [h]
  · rw [twinCompareDeadline_mine hmine, hruns]
    exact if_pos (by simp)
  · simp only [diagnosisReport, hm, hne, hne', decide_false, Bool.or_self, Bool.false_eq_true, if_false]
  · have hoff : (!s.inRun || (s.role != 1 && s.role != 2)) = true := by
      rcases h with h | ⟨h, h'⟩
      · simp [h]
      · simp [h, h']
    simp only [twinDecision, hm, hoff, if_true]
  · rw [twinDecision_pair h hmine htheirs, if_neg (by decide), if_neg (by decide), if_pos hrole]
  · have hoff : (s.inRun && s.sv.twin.gap.isSome && (s.role == 1 || s.role == 2)) = false := by
      rcases h with h | ⟨h, h'⟩
      · simp [h]
      · simp [h, h']
    rw [failoverGapExpire, hoff]
    rfl
  · rw [twinCompareDeadline_mine hmine, hrun, hnew, hfree, hruns]
    rfl
  · simp only [diagnosisReport, hm]
    exact if_pos (by simpa using hframe)
  · rw [diagnosisReport, hm]
  · rw [twinDecision, hm]
  · rw [twinDecision_pair h rfl rfl, if_pos heq]
  · rw [twinDecision_pair h hmine htheirs, if_neg (by decide), if_pos rfl]
  · rw [twinDecision_pair h hmine htheirs, if_neg (by decide), if_neg (by decide), if_neg (by omega)]
  · have hon : (s.inRun && s.sv.twin.gap.isSome && (s.role == 1 || s.role == 2)) = true := by
      rcases hrole with h | h <;> simp [hrun, h, Option.isSome_iff_ne_none, hgap]
    rw [failoverGapExpire, hon]
    rfl
  · rw [failoverGapExpire, hgap, Option.isSome_none, Bool.and_false, Bool.false_and]
    rfl

end Sys2Proof.Machine
end

section
/-! PROOF. Interlock, fail-over, relay and rejoin of a twin pair (R410 to R416). -/

namespace Sys2Proof.Machine

theorem LinkOnly.sendTwin (s : State) (sub : Nat) (values : List Nat) : LinkOnly s (s.sendTwin sub values) :=
  LinkOnly.foldl _ (fun u c => .sendCell u 2 true c) _ s

/-! ## The interlock and the claim (R410, R414) -/

/-- The hub takes ILK_I as it stands. -/
def State.seesIlk (s : State) (high : Bool) : State := { s with sv := { s.sv with ilkI := high } }

theorem ilkIEdge_alive {s : State} (high : Bool) (h : s.alive = true) :
    ilkIEdge high s = if high then
        if s.sv.ilkO && !s.pw.twinPri && decide (s.now - s.sv.twin.claimAt ≤ 2000 * nsU) then
          { s with sv := { s.sv with ilkI := true, ilkO := false, oen := 0 } }
        else s.seesIlk true
      else if s.inRun && s.role == 2 && !s.sv.twin.held then (s.seesIlk false).failOver else s.seesIlk false := by
  rw [ilkIEdge, h]
  cases high <;> rfl

/-- The claim stands: ILK_O is high, and the output enables follow (R392, R410). -/
def State.claimed (s : State) : State :=
  let u : State := { s with sv := { s.sv with ilkO := true, twin := { s.sv.twin with claimAt := s.now, gap := none } } }
  { u with sv := { u.sv with oen := u.oenAllowed } }

/-- The hub has taken over the furrows of its partner (R414, R415). -/
def State.tookOver (s : State) (rings : List RingRead) (samples : List SampleTake) (db : Word64) : State :=
  ((s.modTwin (fun t => { t with failing := false, tookOver := true, partnerDb := db })).adoptSetpoints rings).adoptSamples samples

/-- The end of a fail-over (R414). -/
def State.failedOver (s : State) : State :=
  (s.setFlag Reg.SV_TWSTAT Fld.SV_TWSTAT_failover true).raise 37 s.sv.twin.partnerAddr 0

theorem ilkClaim_idle {s : State} (rings : List RingRead) (samples : List SampleTake) (db : Word64)
    (h : ¬ (s.isTwin = true ∧ s.inRun = true ∧ s.role = 1) ∨ s.sv.ilkI = true ∨ s.sv.ilkO = true) :
    ilkClaim rings samples db s = s := by
  rw [ilkClaim]
  refine if_pos ?_
  rcases h with h | h | h
  · simp only [Bool.or_eq_true, Bool.not_eq_true', bne_iff_ne]
    cases htwin : s.isTwin <;> cases hrun : s.inRun <;> simp_all
  · simp [h]
  · simp [h]

theorem ilkClaim_claims {s : State} (rings : List RingRead) (samples : List SampleTake) (db : Word64)
    (h : s.isTwin = true ∧ s.inRun = true ∧ s.role = 1) (hlow : s.sv.ilkI = false) (hoff : s.sv.ilkO = false) :
    ilkClaim rings samples db s = if s.sv.twin.failing then (s.claimed.tookOver rings samples db).failedOver else s.claimed := by
  obtain ⟨htwin, hrun, hrole⟩ := h
  have hon : (!s.isTwin || !s.inRun || s.role != 1 || s.sv.ilkI || s.sv.ilkO) = false := by simp [htwin, hrun, hrole, hlow, hoff]
  rw [ilkClaim, hon]
  cases hfail : s.sv.twin.failing
  · exact (if_pos (show (!s.sv.twin.failing) = true by rw [hfail]; rfl)).trans (if_neg (by decide)).symm
  · exact (if_neg (show ¬ (!s.sv.twin.failing) = true by rw [hfail]; decide)).trans (if_pos rfl).symm

/-- With no ring to read and no furrow from the snapshot nothing is adopted. -/
theorem State.tookOver_nothing {s : State} (samples : List SampleTake) (db : Word64) (hnone : s.sv.twin.partnerFurrows = [])
    (hthere : s.sv.twin.partnerGone = false) :
    s.tookOver [] samples db = s.modTwin (fun t => { t with failing := false, tookOver := true, partnerDb := db }) := by
  generalize hv : s.modTwin (fun t => { t with failing := false, tookOver := true, partnerDb := db }) = v
  have hadopt : v.adoptSetpoints [] = v := by
    have : v.sv.twin.partnerFurrows = [] := by rw [← hv]; exact hnone
    rw [State.adoptSetpoints, this]
    rfl
  have hgone : v.sv.twin.partnerGone = false := by rw [← hv]; exact hthere
  rw [State.tookOver, hv, hadopt, State.adoptSamples, hgone, Bool.and_false]
  rfl

/-! ## Rejoin (R416) -/

/-- The matched frames are enough for a joined pair. -/
def State.agreed (s : State) : Bool :=
  decide (s.fget Reg.SV_TWCFG Fld.SV_TWCFG_agree ≤ s.sv.twin.agreeRun) && s.sv.twin.joinAt.isSome

theorem State.agreed_iff (s : State) :
    s.agreed = true ↔ s.fget Reg.SV_TWCFG Fld.SV_TWCFG_agree ≤ s.sv.twin.agreeRun ∧ s.sv.twin.joinAt ≠ none := by
  simp [State.agreed, Option.isSome_iff_ne_none]

/-- The joining hub is the ready standby, without the cause start. -/
def State.standsBy (s : State) : State :=
  (((s.setRole 2).wr Reg.SV_CAUSE (s.rd Reg.SV_CAUSE &&& ~~~2#32)).dropStaging).modTwin (fun t => { t with joinAt := none })

/-- It leaves safe state where no cause stands and the active is not in safe state. -/
def State.leavesSafe (s : State) : State :=
  if s.rd Reg.SV_CAUSE = 0 && !s.sv.twin.activeSafe then { s with sv := { s.sv with safe := false } } else s

theorem twinResyncDone_early {s : State} (h : s.inRun = false ∨ s.agreed = false) : twinResyncDone s = s := by
  rw [twinResyncDone]
  refine if_pos ?_
  rcases h with h | h
  · simp [h]
  · rw [State.agreed] at h
    simp [h]

theorem twinResyncDone_agreed {s : State} (hrun : s.inRun = true) (h : s.agreed = true) :
    twinResyncDone s = if s.role = 4 then s.standsBy.leavesSafe.raise 38 s.standsBy.leavesSafe.sv.twin.partnerAddr 0
      else if s.role = 1 && s.sv.twin.snapshotSent then
        ((s.setPReady true).modTwin (fun t => { t with joinAt := none, snapshotSent := false })).raise 38 s.sv.twin.partnerAddr 0
      else s := by
  have hon : (!s.inRun || !s.agreed) = false := by simp [hrun, h]
  rw [twinResyncDone]
  exact if_neg (Bool.eq_false_iff.mp hon)

theorem State.leavesSafe_regs (s : State) : s.leavesSafe.regs = s.regs := by
  rw [State.leavesSafe]
  split <;> rfl

theorem State.leavesSafe_twin (s : State) : s.leavesSafe.sv.twin = s.sv.twin := by
  rw [State.leavesSafe]
  split <;> rfl

theorem State.leavesSafe_safe (s : State) :
    s.leavesSafe.sv.safe = if s.rd Reg.SV_CAUSE = 0 ∧ s.sv.twin.activeSafe = false then false else s.sv.safe := by
  rw [State.leavesSafe]
  split
  · rename_i h
    rw [if_pos (by simpa using h)]
  · rename_i h
    rw [if_neg (by simpa using h)]

theorem State.standsBy_cause (s : State) : s.standsBy.rd Reg.SV_CAUSE = s.rd Reg.SV_CAUSE &&& ~~~2#32 := State.rd_wr_same _ _ _

theorem State.standsBy_role (s : State) : s.standsBy.role = 2 :=
  (State.fget_congr (State.rd_wr_ne (s.setRole 2) _ (by decide)) _).trans (State.fget_fput_same s Reg.SV_TWSTAT Fld.SV_TWSTAT_role (by decide) (by decide) 2)

/-- The ready standby after its last matched frame (R416). -/
theorem standby_ready {s : State} (hrun : s.inRun = true) (h : s.agreed = true) (hrole : s.role = 4) :
    (twinResyncDone s).role = 2 ∧ (twinResyncDone s).sv.twin.joinAt = none
      ∧ (twinResyncDone s).rd Reg.SV_CAUSE = s.rd Reg.SV_CAUSE &&& ~~~2#32
      ∧ (twinResyncDone s).sv.safe
        = (if s.rd Reg.SV_CAUSE &&& ~~~2#32 = 0 ∧ s.sv.twin.activeSafe = false then false else s.sv.safe)
      ∧ (twinResyncDone s).rd (Reg.EV_OCC 38) = s.rd (Reg.EV_OCC 38) + 1 := by
  rw [twinResyncDone_agreed hrun h, if_pos hrole]
  have hraised := raise_raised s.standsBy.leavesSafe 38 s.standsBy.leavesSafe.sv.twin.partnerAddr 0 (by decide)
  generalize s.standsBy.leavesSafe.raise 38 s.standsBy.leavesSafe.sv.twin.partnerAddr 0 = u at hraised
  have hregs : ∀ a, s.standsBy.leavesSafe.rd a = s.standsBy.rd a := fun a => State.rd_congr s.standsBy.leavesSafe_regs a
  refine ⟨?_, ?_, ?_, ?_, ?_⟩
  · exact (State.fget_congr ((hraised.frame.rd _ (by decide)).trans (hregs _)) _).trans s.standsBy_role
  · rw [hraised.frame.sv, s.standsBy.leavesSafe_twin]
    rfl
  · rw [hraised.frame.rd _ (by decide), hregs, s.standsBy_cause]
  · rw [hraised.frame.sv, s.standsBy.leavesSafe_safe, s.standsBy_cause]
    rfl
  · rw [hraised.occ, hregs]
    exact congrArg (· + 1) ((State.rd_wr_ne _ _ (by decide)).trans (State.rd_wr_ne _ _ (by decide)))

/-! ## Relayed setpoints and the release (R398, R413) -/

/-- A setpoint that the active has relayed. -/
def relayed (f : Byte) (seq : Word) (loop : BitVec 5) (frame val : Word64) : QSet :=
  { furrow := 256 + f.toNat, seq := seq, loop := loop.toNat, frame := frame.toNat, value := val, acked := true }

theorem setpointRelay_standby {s : State} (f : Byte) (seq : Word) (loop : BitVec 5) (frame val : Word64) (hrun : s.inRun = true)
    (hrole : s.role = 2 ∨ s.role = 4) :
    setpointRelay f seq loop frame val s
      = ((({ s with ce := { s.ce with queue := s.ce.queue ++ [relayed f seq loop frame val] } }).noteQueueSp).sendTwin
          0x12 [f.toNat, seq.toNat]) := by
  have hon : (!s.inRun || (s.role != 2 && s.role != 4)) = false := by rcases hrole with h | h <;> simp [hrun, h]
  exact if_neg (Bool.eq_false_iff.mp hon)

/-- Who takes a release: a ready standby in safe state, or a joining hub whose active is in safe state (R398, R416). -/
theorem twinRelease_eq (frame : Word64) (s : State) :
    twinRelease frame s = if s.inRun = true ∧ ((s.role = 2 ∧ s.sv.safe = true) ∨ (s.role = 4 ∧ s.sv.twin.activeSafe = true))
        ∧ s.frameNo < frame.toNat then { s with sv := { s.sv with releasePend := true } } else s := by
  rw [twinRelease]
  refine ite_congr (propext ?_) (fun _ => rfl) fun _ => rfl
  simp only [Bool.and_eq_true, Bool.or_eq_true, decide_eq_true_eq, and_assoc]

/-! ## The snapshot (R416) -/

theorem snapshot_deaf {s : State} (snap : SnapshotIn) (h : s.inRun = false ∨ s.role ≠ 4) : snapshot snap s = s := by
  rw [snapshot]
  refine if_pos ?_
  rcases h with h | h <;> simp [h]

/-- A snapshot's loop states are in place, and the setpoints that waited are gone. -/
def State.loaded (s : State) (snap : SnapshotIn) : State :=
  snap.loops.foldl State.snapLoop ((s.fput Reg.SV_TWSTAT Fld.SV_TWSTAT_abort 0).clearSetpoints.dropStaging)

/-- The setpoint queue that a snapshot brings. -/
def snapQueue (snap : SnapshotIn) : List QSet :=
  snap.queue.map (fun x => { furrow := 256 + x.furrow.toNat, seq := x.seq, loop := x.loop.toNat, frame := x.frame.toNat
                             value := x.value, acked := true })

/-- A snapshot is taken over. -/
def State.joins (s : State) (snap : SnapshotIn) : State :=
  (({ s.loaded snap with ce := { (s.loaded snap).ce with queue := snapQueue snap } }).noteQueueSp).modTwin (fun t =>
    { t with joinAt := some snap.start.toNat, agreeRun := 0, compared := true, activeSafe := snap.safe, partnerFurrows := snap.furrows
             partnerDb := snap.doorbell })

theorem snapshot_joining {s : State} (snap : SnapshotIn) (hrun : s.inRun = true) (hrole : s.role = 4) :
    snapshot snap s = if snap.epoch != 0 && (s.cal.inForce.map Bank.epoch).getD 0 != snap.epoch then
        s.fput Reg.SV_TWSTAT Fld.SV_TWSTAT_abort 1
      else if s.twinHash != snap.config then s.fput Reg.SV_TWSTAT Fld.SV_TWSTAT_abort 2
      else s.joins snap := by
  have hon : (!s.inRun || s.role != 4) = false := by simp [hrun, hrole]
  exact if_neg (Bool.eq_false_iff.mp hon)

theorem rejoinTimeout_waits {s : State} (h : s.inRun = false ∨ s.role ≠ 4 ∨ s.sv.twin.joinAt ≠ none) : rejoinTimeout s = s := by
  rw [rejoinTimeout]
  refine if_neg ?_
  rcases h with h | h | h
  · simp [h]
  · simp [h]
  · cases hj : s.sv.twin.joinAt
    · exact absurd hj h
    · simp

/-- Settles O55: each clause is one branch of its command. -/
theorem twinFailoverAndRejoin : Obligations.TwinFailoverAndRejoin := by
  intro s rings samples db f seq loop frame val snap active claimed q epoch enough seen gates took takes loaded queued
  have hearly : ¬ enough → s.agreed = false := fun h => Bool.eq_false_iff.mpr fun h' => h (s.agreed_iff.mp h')
  refine ⟨fun ha ho hpri hnear => Becomes.of rfl ?_, fun ha hrun hrole hfree => Becomes.of rfl ?_,
    fun h hlow hoff hfail => Becomes.of rfl ?_, fun h hlow hoff hfail hnone hthere => Ends.of (v := ilkClaim [] samples db s) rfl ?_,
    fun hhigh => Becomes.of rfl (ilkClaim_idle _ _ _ (.inr (.inl hhigh))), fun h => Becomes.of rfl (ilkClaim_idle _ _ _ ?_),
    fun h hlow hoff hfail => Becomes.of rfl ?_, fun ha => ⟨Becomes.of rfl ?_, Becomes.of rfl ?_⟩, fun ha h => Becomes.of rfl ?_,
    fun ha h => Becomes.of rfl ?_, fun h => Becomes.of rfl ?_, fun hrun hrole hsafe hnew => Becomes.of rfl ?_,
    fun h => Becomes.of rfl ?_, fun ⟨hrun, hrole, hepoch⟩ => Becomes.of rfl ?_,
    fun h => ⟨Becomes.of rfl (snapshot_deaf snap h), Becomes.of rfl (rejoinTimeout_waits (h.imp_right .inl))⟩,
    fun hrun hrole hjoin => Becomes.of rfl (rejoinTimeout_waits (.inr (.inr hjoin))), fun h => Becomes.of rfl ?_,
    fun hrole hsent => Becomes.of rfl ?_, fun hrun hrole => Becomes.of rfl (setpointRelay_standby f seq loop frame val hrun hrole),
    Ends.of (v := relayAcknowledgement f seq s) rfl ?_, fun hrun hrole hsafe hnew => Becomes.of rfl ?_,
    fun h => Becomes.of rfl ?_, fun h => Ends.of (v := rejoin s) rfl ?_, fun hrun hrole hne hne' => Becomes.of rfl ?_,
    fun hrun hrole heq hhash hloops => Ends.of (v := snapshot snap s) rfl ?_,
    fun hrun hen hrole => Ends.of (v := twinResyncDone s) rfl ?_, fun hrun hen hrole hcause => Ends.of (v := twinResyncDone s) rfl ?_,
    fun hrun hen hrole hsent => Ends.of (v := twinResyncDone s) rfl ?_, fun hrun hrole hjoin => Becomes.of rfl ?_⟩
  · rw [ilkIEdge_alive true ha, if_pos rfl, if_pos (by simp [ho, hpri, hnear])]
  · rw [ilkIEdge_alive false ha, if_neg (by decide), if_pos (by simp [hrun, hrole, hfree])]
    rfl
  · rw [ilkClaim_claims rings samples db h hlow hoff, hfail]
    rfl
  · rw [ilkClaim_claims [] samples db h hlow hoff, hfail, if_pos rfl,
      State.tookOver_nothing (s := s.claimed) samples db hnone hthere]
    generalize hv : s.claimed.modTwin (fun t => { t with failing := false, tookOver := true, partnerDb := db }) = v
    have hraised := raise_raised (v.setFlag Reg.SV_TWSTAT Fld.SV_TWSTAT_failover true) 37 v.sv.twin.partnerAddr 0 (by decide)
    rw [show v.failedOver = (v.setFlag Reg.SV_TWSTAT Fld.SV_TWSTAT_failover true).raise 37 v.sv.twin.partnerAddr 0 from rfl]
    generalize (v.setFlag Reg.SV_TWSTAT Fld.SV_TWSTAT_failover true).raise 37 v.sv.twin.partnerAddr 0 = u at hraised
    refine ⟨?_, ?_, ?_, ?_⟩
    · rw [hraised.frame.sv, State.setFlag_sv, ← hv]
      rfl
    · rw [hraised.frame.sv, State.setFlag_sv, ← hv]
      rfl
    · exact (State.flag_congr (hraised.frame.rd _ (by decide)) _).trans (State.flag_setFlag_same _ _ _ (by decide) (by decide) _)
    · rw [hraised.occ, State.rd_setFlag_ne _ _ _ (by decide), ← hv]
      rfl
  · exact h.imp id .inr
  · rw [ilkClaim_claims rings samples db h hlow hoff, hfail]
    rfl
  · rw [ilkIEdge, ha]
    rfl
  · rw [ilkIEdge, ha]
    rfl
  · rw [ilkIEdge_alive true ha, if_pos rfl, if_neg]
    · rfl
    · rcases h with h | h | h
      · simp [h]
      · simp [h]
      · simp only [Bool.and_eq_true, decide_eq_true_eq, not_and, Int.not_le]
        exact fun _ => h
  · rw [ilkIEdge_alive false ha, if_neg (by decide), if_neg]
    · rfl
    · rcases h with h | h | h <;> simp [h]
  · have hoff : (!s.inRun || (s.role != 2 && s.role != 4)) = true := by
      rcases h with h | ⟨h, h'⟩
      · simp [h]
      · simp [h, h']
    rw [setpointRelay, hoff]
    rfl
  · rw [twinRelease_eq, if_pos ⟨hrun, .inr ⟨hrole, hsafe⟩, hnew⟩]
  · rw [twinRelease_eq, if_neg]
    rintro ⟨hrun, hwho, hnew⟩
    rcases h with h | h | ⟨h, h'⟩ | ⟨h, h'⟩ | ⟨h, h'⟩
    · rw [hrun] at h; cases h
    · omega
    · rcases hwho with ⟨_, hsafe⟩ | ⟨hrole, _⟩
      · rw [h'] at hsafe; cases hsafe
      · omega
    · rcases hwho with ⟨hrole, _⟩ | ⟨_, hsafe⟩
      · omega
      · rw [h'] at hsafe; cases hsafe
    · rcases hwho with ⟨hrole, _⟩ | ⟨hrole, _⟩
      · exact h hrole
      · exact h' hrole
  · have hgood : (snap.epoch != 0 && (s.cal.inForce.map Bank.epoch).getD 0 != snap.epoch) = false := by
      rcases hepoch with h | h
      · simp [h]
      · exact Bool.and_eq_false_iff.mpr (.inr (bne_eq_false_iff_eq.mpr h))
    rw [snapshot_joining snap hrun hrole, if_neg (Bool.eq_false_iff.mp hgood)]
    by_cases hhash : s.twinHash = snap.config
    · rw [if_neg (by simpa using hhash), if_pos hhash]
      rfl
    · rw [if_pos (by simpa using hhash), if_neg hhash]
  · rcases h with h | h | ⟨h, h'⟩
    · exact twinResyncDone_early (.inl h)
    · exact twinResyncDone_early (.inr (hearly h))
    · cases hrun : s.inRun
      · exact twinResyncDone_early (.inl hrun)
      · cases hen : s.agreed
        · exact twinResyncDone_early (.inr hen)
        · rw [twinResyncDone_agreed hrun hen, if_neg h', if_neg (by simp [h])]
  · cases hrun : s.inRun
    · exact twinResyncDone_early (.inl hrun)
    · cases hen : s.agreed
      · exact twinResyncDone_early (.inr hen)
      · rw [twinResyncDone_agreed hrun hen, if_neg (by omega), if_neg (by simp [hsent])]
  · refine ⟨rfl, List.length_map .., fun x hx hfur hseq => ?_⟩
    obtain ⟨y, -, rfl⟩ := List.mem_map.mp hx
    by_cases hy : (decide (y.furrow % 256 = f.toNat) && decide (y.seq = seq)) = true
    · rw [if_pos hy]
    · rw [if_neg hy] at hfur hseq
      exact absurd (by simp [hfur, hseq]) hy
  · rw [twinRelease_eq, if_pos ⟨hrun, .inl ⟨hrole, hsafe⟩, hnew⟩]
  · rw [rejoin]
    refine if_pos ((Bool.not_eq_true' _).mpr (Bool.eq_false_iff.mpr fun hactive => h ?_))
    simp only [Bool.and_eq_true, beq_iff_eq, and_assoc] at hactive
    exact hactive
  · obtain ⟨htwin, hrun, hrole⟩ := h
    have hon : (!(s.isTwin && s.inRun && s.role == 1)) = false := by simp [htwin, hrun, hrole]
    rw [rejoin, hon]
    have hsent := LinkOnly.sendTwin
    simp only [Bool.false_eq_true, if_false]
    refine ⟨?_, ?_, ?_, s.frameNo + 1 + s.draw64.1.toNat % 65536, ?_, ?_⟩
    · rw [(hsent _ _ _).sv]; rfl
    · rw [(hsent _ _ _).sv]; rfl
    · rw [(hsent _ _ _).regs]; rfl
    · rw [(hsent _ _ _).sv]; rfl
    · exact Nat.lt_of_lt_of_le (Nat.lt_succ_self _) (Nat.le_add_right _ _)
  · rw [snapshot_joining snap hrun hrole, if_pos]
    simp only [Bool.and_eq_true, bne_iff_ne]
    exact ⟨hne, hne'⟩
  · have hgood : (snap.epoch != 0 && (s.cal.inForce.map Bank.epoch).getD 0 != snap.epoch) = false :=
      Bool.and_eq_false_iff.mpr (.inr (bne_eq_false_iff_eq.mpr heq))
    rw [snapshot_joining snap hrun hrole, if_neg (Bool.eq_false_iff.mp hgood), if_neg (by simpa using hhash)]
    exact ⟨rfl, rfl, List.length_map ..⟩
  · obtain ⟨hrole', hjoin, hcause, hsafe, -⟩ := standby_ready hrun (s.agreed_iff.mpr hen) hrole
    exact ⟨hrole', hjoin, hcause, hsafe⟩
  · obtain ⟨hrole', -, hcause', hsafe, hocc⟩ := standby_ready hrun (s.agreed_iff.mpr hen) hrole
    have hzero : s.rd Reg.SV_CAUSE &&& ~~~2#32 = 0 := by rw [hcause]; decide
    rw [hzero] at hcause' hsafe
    exact ⟨hrole', fun h => ⟨hcause', by rw [hsafe, if_pos ⟨rfl, h⟩]⟩, fun h => by rw [hsafe, if_neg (by simp [h])], hocc⟩
  · rw [twinResyncDone_agreed hrun (s.agreed_iff.mpr hen), if_neg (by omega), if_pos (by simp [hrole, hsent])]
    generalize hv : (s.setPReady true).modTwin (fun t => { t with joinAt := none, snapshotSent := false }) = v
    have hraised := raise_raised v 38 s.sv.twin.partnerAddr 0 (by decide)
    refine ⟨?_, ?_, ?_⟩
    · refine (State.flag_congr (hraised.frame.rd _ (by decide)) _).trans ?_
      rw [← hv]
      exact State.flag_setFlag_same _ _ _ (by decide) (by decide) _
    · rw [hraised.frame.sv, ← hv]
      rfl
    · rw [hraised.occ, ← hv]
      exact congrArg (· + 1) (State.rd_setFlag_ne _ _ _ (by decide))
  · rw [rejoinTimeout]
    exact if_pos (by simp [hrun, hrole, hjoin])

end Sys2Proof.Machine
end

section
/-! SUPPORT. What a start of the hub and a reset keep (R465, R472). -/

namespace Sys2Proof.Machine

/-- A kept entry of a map reads as before. -/
theorem kget?_filter {α : Type} (m : KMap α) {p : Nat → Bool} {a : Nat} (h : p a = true) :
    kget? (m.filter (fun e => p e.1)) a = kget? m a := by
  induction m with
  | nil => rfl
  | cons e t ih =>
    obtain ⟨k, v⟩ := e
    by_cases hk : k = a
    · subst hk
      simp [h, kget?]
    · rw [List.filter_cons]
      split <;> simp [kget?, hk, ih]

/-- A register that is kept reads as before (R472). -/
theorem State.keep_rd (s : State) {p : Nat → Bool} {a : Nat} (h : p a = true) : regRead (s.keep p) a = s.rd a := by
  rw [State.rd, regRead, regRead, State.keep, kget?_filter s.regs h]

theorem EventOnly.traceReset (s : State) (code : Nat) : EventOnly s (s.traceReset code) :=
  (State.traceAppend_spec s _).1.trans (State.firstFault_spec _ _ _).1

/-- The cause that GLB_RSTCAUSE names: new microcode comes before the reset's own (R365, R471). -/
def State.startCause (s : State) (code : Nat) : Nat := if s.vt.ucodeStored != s.vt.ucodeActive then 5 else code

theorem State.startCause_same {s : State} (h : s.vt.ucodeStored = s.vt.ucodeActive) (code : Nat) : s.startCause code = code :=
  if_neg (by simp [h])

theorem State.startCause_eq (s : State) (code : Nat) :
    s.startCause code = if s.vt.ucodeStored = s.vt.ucodeActive then code else 5 := by
  by_cases h : s.vt.ucodeStored = s.vt.ucodeActive
  · rw [if_pos h, s.startCause_same h]
  · rw [if_neg h]
    exact if_pos (by simpa using h)

/-- Logic has left reset: microcode stands, the trims are due, the cause is named and SAFE_N let go (R465). -/
def State.started (s : State) (code pre : Nat) : State :=
  (({ s with vt := { s.vt with ucodeActive := s.vt.ucodeStored }
             pw := { s.pw with power := .startUp, inReset := false }
             fe := { s.fe with trimA := true, trimB := true } }).wr Reg.GLB_RSTCAUSE (word (pre * 256 + s.startCause code))).pullSafeN false

theorem State.started_cause (s : State) (code pre : Nat) :
    (s.started code pre).rd Reg.GLB_RSTCAUSE = word (pre * 256 + s.startCause code) :=
  State.rd_wr_same { s with vt := { s.vt with ucodeActive := s.vt.ucodeStored }
                            pw := { s.pw with power := .startUp, inReset := false }
                            fe := { s.fe with trimA := true, trimB := true } } Reg.GLB_RSTCAUSE _

theorem State.started_rd (s : State) (code pre : Nat) {a : Nat} (h : a ≠ Reg.GLB_RSTCAUSE) : (s.started code pre).rd a = s.rd a :=
  State.rd_wr_ne { s with vt := { s.vt with ucodeActive := s.vt.ucodeStored }
                          pw := { s.pw with power := .startUp, inReset := false }
                          fe := { s.fe with trimA := true, trimB := true } } _ h

/-- The restart after a RESET_N alone is traced (R438). -/
theorem State.leaveReset_eq (s : State) (code pre : Nat) :
    s.leaveReset code pre = if code == 2 then (s.started code pre).traceReset (s.startCause code) else s.started code pre := rfl

end Sys2Proof.Machine
end

section
/-! PROOF. Power good, power fail, Fallow and Hold (R458 to R464, R471, R472). -/

namespace Sys2Proof.Machine

/-- The hub at power good with an invalid Fallow domain, its straps sampled (R459). -/
def State.poweredOn (s : State) (st : Straps) : State :=
  ({ s.cleared (s.keep isSeccfg) with vt := (s.cleared (s.keep isSeccfg)).vt.unpowered.fallowLost }).sampleStraps st

/-- What the Fallow domain keeps while main power is away (R472). -/
def isFallow (a : Nat) : Bool := isSeccfg a || isSealPos a

/-- The hub at power good with a valid Fallow domain, its straps sampled. -/
def State.woken (s : State) (st : Straps) (n : Word) : State :=
  (({ s.cleared (s.keep isFallow) with
      vt := { (s.cleared (s.keep isFallow)).vt.unpowered with fallowFirst := true } }).fallowSeconds n).sampleStraps st

/-- Main power is gone and VBAT good (R460, R461). -/
def State.inFallow (s : State) : State :=
  { s.cleared (s.keep isFallow) with
    vt := (s.cleared (s.keep isFallow)).vt.unpowered
    pw := { (s.cleared (s.keep isFallow)).pw with power := .fallow, fallowValid := true } }

/-- Main power is gone and VBAT bad. -/
def State.poweredOff (s : State) : State :=
  { s.cleared (s.keep isFallow) with
    regs := s.keep isSeccfg
    vt := (s.cleared (s.keep isFallow)).vt.unpowered.fallowLost
    pw := { (s.cleared (s.keep isFallow)).pw with power := .off, fallowValid := false } }

theorem alive_iff (s : State) : s.alive = true ↔ s.pw.power ≠ .off ∧ s.pw.power ≠ .fallow := by
  simp [State.alive]

theorem powerOn_eq (st : Straps) (s : State) : powerOn st s = if s.alive then s else (s.poweredOn st).started 1 0 := by
  rw [powerOn]
  refine ite_congr (propext ?_) (fun _ => rfl) fun _ => rfl
  simp [State.alive]

theorem powerOn_dead {s : State} (st : Straps) (h : s.pw.power = .off ∨ s.pw.power = .fallow) :
    powerOn st s = (s.poweredOn st).started 1 0 := by
  rw [powerOn_eq, if_neg]
  rw [alive_iff]
  exact fun halive => h.elim halive.1 halive.2

theorem fallowExit_stays {s : State} (x : FallowStart) (h : s.pw.power ≠ .fallow ∨ s.pw.fallowValid = false) : fallowExit x s = s := by
  rw [fallowExit]
  refine if_pos ?_
  rcases h with h | h <;> simp [h]

theorem fallowExit_wakes {s : State} (st : Straps) (n : Word) (h : s.pw.power = .fallow) (hvalid : s.pw.fallowValid = true) :
    fallowExit ⟨st, n⟩ s = (s.woken st n).started 6 0 := by
  have hon : (!(s.pw.power == .fallow && s.pw.fallowValid)) = false := by simp [h, hvalid]
  exact if_neg (Bool.eq_false_iff.mp hon)

theorem powerFail_dead {s : State} (b : Bool) (h : s.alive = false) : powerFail b s = s := by
  rw [powerFail]
  exact if_pos (by simp [h])

theorem powerFail_alive {s : State} (b : Bool) (h : s.alive = true) : powerFail b s = if b then s.inFallow else s.poweredOff := by
  rw [powerFail]
  exact if_neg (by simp [h])

theorem vbatLoss_stays {s : State} (h : s.pw.power ≠ .fallow) : vbatLoss s = s := if_neg (by simp [h])

theorem holdEnter_refused {s : State} (h : s.idleOpen = false) : holdEnter s = s.accErr true Reg.GLB_CTL := if_neg (by simp [h])

/-- The cause of a start that leaves the reset words of the rest. -/
theorem startWord (s : State) (code : Nat) :
    word (0 * 256 + s.startCause code) = if s.vt.ucodeStored = s.vt.ucodeActive then word code else 5 := by
  rw [s.startCause_eq, Nat.zero_mul, Nat.zero_add]
  split <;> rfl

/-- The cause of a start that brings no new microcode is the start's own. -/
theorem State.started_cause_same {s : State} (h : s.vt.ucodeStored = s.vt.ucodeActive) (c : Nat) :
    (s.started c 0).rd Reg.GLB_RSTCAUSE = word c := by
  rw [State.started_cause, State.startCause_same h, Nat.zero_mul, Nat.zero_add]

/-- A start at power good keeps no more than the security configuration and the stored microcode (R458, R472). -/
theorem poweredOn_started (s : State) (st : Straps) :
    ((s.poweredOn st).started 1 0).pw.power = .startUp ∧ ((s.poweredOn st).started 1 0).pw.headSel = st.headSel
      ∧ ((s.poweredOn st).started 1 0).vt.ucodeActive = s.vt.ucodeStored
      ∧ ((s.poweredOn st).started 1 0).rd Reg.GLB_RSTCAUSE = (if s.vt.ucodeStored = s.vt.ucodeActive then 1 else 5)
      ∧ ((s.poweredOn st).started 1 0).vt.chain = [] ∧ ((s.poweredOn st).started 1 0).vt.log = []
      ∧ ((s.poweredOn st).started 1 0).sv.safeN = true ∧ ((s.poweredOn st).started 1 0).sv.oen = 0 :=
  ⟨rfl, rfl, rfl, (State.started_cause _ _ _).trans (startWord (s.poweredOn st) 1), rfl, rfl, rfl, rfl⟩

/-- The straps as a start at power good samples them, and its outputs (R458). -/
theorem poweredOn_straps (s : State) (st : Straps) :
    ((s.poweredOn st).started 1 0).pw.twinPri = st.twinPri ∧ ((s.poweredOn st).started 1 0).pw.hubAddr = st.hubAddr
      ∧ ((s.poweredOn st).started 1 0).pw.io33 = st.io33
      ∧ ((s.poweredOn st).started 1 0).rd Reg.VT_SECCFG = s.rd Reg.VT_SECCFG ∧ ((s.poweredOn st).started 1 0).tb.cnt = 0
      ∧ ((s.poweredOn st).started 1 0).wakeLow = false ∧ ((s.poweredOn st).started 1 0).fe.trimA = true
      ∧ ((s.poweredOn st).started 1 0).fe.trimB = true :=
  ⟨rfl, rfl, rfl, ((s.poweredOn st).started_rd 1 0 (by decide)).trans (s.keep_rd (p := isSeccfg) (by decide)), rfl, rfl, rfl, rfl⟩

/-- A start from Fallow adds the seconds spent there (R461). -/
theorem woken_started (s : State) (st : Straps) (n : Word) :
    ((s.woken st n).started 6 0).pw.power = .startUp ∧ ((s.woken st n).started 6 0).vt.ucodeActive = s.vt.ucodeStored
      ∧ ((s.woken st n).started 6 0).rd Reg.GLB_RSTCAUSE = (if s.vt.ucodeStored = s.vt.ucodeActive then 6 else 5)
      ∧ ((s.woken st n).started 6 0).vt.second = s.vt.second + n ∧ ((s.woken st n).started 6 0).sv.safeN = true
      ∧ ((s.woken st n).started 6 0).wakeLow = false :=
  ⟨rfl, rfl, (State.started_cause _ _ _).trans (startWord (s.woken st n) 6), rfl, rfl, rfl⟩

theorem State.woken_rd (s : State) (st : Straps) (n : Word) {a : Nat} (h : isFallow a = true) : (s.woken st n).rd a = s.rd a :=
  s.keep_rd h

theorem State.woken_chain (s : State) (st : Straps) (n : Word) : (s.woken st n).vt.chain = s.vt.chain := rfl
theorem State.woken_log (s : State) (st : Straps) (n : Word) : (s.woken st n).vt.log = s.vt.log := rfl
theorem State.woken_first (s : State) (st : Straps) (n : Word) : (s.woken st n).vt.fallowFirst = true := rfl
theorem State.started_vt (s : State) (code pre : Nat) : (s.started code pre).vt = { s.vt with ucodeActive := s.vt.ucodeStored } := rfl

/-- What the Fallow domain keeps stands after the start (R472). -/
theorem woken_kept (s : State) (st : Straps) (n : Word) :
    ((s.woken st n).started 6 0).rd Reg.VT_SEALNO = s.rd Reg.VT_SEALNO
      ∧ ((s.woken st n).started 6 0).rd Reg.VT_SEALPOS = s.rd Reg.VT_SEALPOS
      ∧ ((s.woken st n).started 6 0).vt.chain = s.vt.chain ∧ ((s.woken st n).started 6 0).vt.log = s.vt.log
      ∧ ((s.woken st n).started 6 0).vt.fallowFirst = true := by
  rw [State.started_rd _ _ _ (by decide), State.started_rd _ _ _ (by decide), State.woken_rd s st n (by decide),
    State.woken_rd s st n (by decide), State.started_vt]
  exact ⟨rfl, rfl, s.woken_chain st n, s.woken_log st n, s.woken_first st n⟩

/-- A power fail with a good VBAT (R460, R461). -/
theorem inFallow_kept (s : State) :
    s.inFallow.pw.power = .fallow ∧ s.inFallow.pw.fallowValid = true ∧ s.inFallow.sv.oen = 0 ∧ s.inFallow.sv.safeN = false
      ∧ s.inFallow.aq.tout = 0 ∧ (∀ i, s.inFallow.trigOutPin i = .highZ) ∧ s.inFallow.vt.chain = s.vt.chain
      ∧ s.inFallow.rd Reg.VT_SEALNO = s.rd Reg.VT_SEALNO ∧ s.inFallow.cal.partly = (s.cal.partly || s.cal.commit.isSome) :=
  ⟨rfl, rfl, rfl, rfl, rfl, fun _ => rfl, rfl, s.keep_rd (p := isFallow) (by decide), rfl⟩

/-- Settles O56: each clause is one branch of its command. -/
theorem powerStates : Obligations.PowerStates := by
  intro s st n
  refine ⟨fun h => Ends.of (v := powerOn st s) rfl ?_, fun h hvalid => Ends.of (v := fallowExit ⟨st, n⟩ s) rfl ?_,
    fun h => Becomes.of rfl (fallowExit_stays _ h), fun h => ⟨Becomes.of rfl (powerFail_dead _ h), Becomes.of rfl (powerFail_dead _ h)⟩,
    fun h => Becomes.of rfl (vbatLoss_stays h), fun h => Becomes.of rfl (holdEnter_refused h), fun h => Becomes.of rfl ?_,
    fun h hsame => Ends.of (v := powerOn st s) rfl ?_, fun h => ⟨Becomes.of rfl ?_, Becomes.of rfl ?_⟩,
    fun h hvalid hsame => Ends.of (v := fallowExit ⟨st, n⟩ s) rfl ?_, fun h => Ends.of (v := powerFail true s) rfl ?_,
    fun h => Ends.of (v := powerFail false s) rfl ?_, fun h => Ends.of (v := vbatLoss s) rfl ?_, fun h => Becomes.of rfl ?_,
    fun h => Becomes.of rfl (holdEnter_refused ?_), fun h => Becomes.of rfl ?_⟩
  · rw [powerOn_dead st h]
    exact poweredOn_started s st
  · obtain ⟨hpower, hucode, hcause, hsecond, -, -⟩ := woken_started s st n
    rw [fallowExit_wakes st n h hvalid]
    exact ⟨hpower, hucode, hcause, hsecond, (woken_kept s st n).2.2.1⟩
  · exact if_neg (by simp [h])
  · obtain ⟨hpower, hhead, -, -, -, -, hsafe, hoen⟩ := poweredOn_started s st
    obtain ⟨hpri, haddr, hio, hsec, hcnt, hwake, htrimA, htrimB⟩ := poweredOn_straps s st
    rw [powerOn_dead st (.inl h)]
    exact ⟨hpower, hhead, hpri, haddr, hio, State.started_cause_same (s := s.poweredOn st) hsame 1, hsec, hcnt, hoen, hsafe, hwake,
      htrimA, htrimB⟩
  · rw [powerOn_eq, if_pos h]
  · exact fallowExit_stays _ (.inl ((alive_iff s).mp h).2)
  · obtain ⟨hpower, -, -, hsecond, hsafe, hwake⟩ := woken_started s st n
    rw [fallowExit_wakes st n h hvalid]
    exact ⟨hpower, hsecond, hsafe, hwake, State.started_cause_same (s := s.woken st n) hsame 6, woken_kept s st n⟩
  · rw [powerFail_alive true h]
    exact inFallow_kept s
  · rw [powerFail_alive false h]
    exact ⟨rfl, rfl, rfl, rfl⟩
  · rw [vbatLoss, if_pos (by simp [h])]
    exact ⟨rfl, rfl, rfl, s.keep_rd (p := isSeccfg) (by decide)⟩
  · exact if_pos h
  · have : s.pw.power = .run := by simpa [State.inRun] using h
    simp [State.idleOpen, State.inIdle, this]
  · exact if_pos (by simp [h])

end Sys2Proof.Machine
end

section
/-! SUPPORT. The start of a seal chain and the end of an interval (R370, R371): what they leave alone. -/

namespace Sys2Proof.Machine

/-- The registers that the seal chain and the space of its notices show. -/
def chainReg (a : Nat) : Bool :=
  a == Reg.HI_BACKLOG || a == Reg.VT_SEALNO || a == Reg.VT_SEALPOS || a == Reg.TB_SUM_LO || a == Reg.TB_SUM_HI

/-- Beside the vault, only the space of notices and what the chain shows changed. -/
structure ChainOnly (s t : State) : Prop where
  pw : t.pw = s.pw
  tb : t.tb = s.tb
  fe : t.fe = s.fe
  cal : t.cal = s.cal
  sv : t.sv = s.sv
  furrows : t.hi.furrows = s.hi.furrows
  rd : ∀ a, chainReg a = false → t.rd a = s.rd a

theorem ChainOnly.refl (s : State) : ChainOnly s s := ⟨rfl, rfl, rfl, rfl, rfl, rfl, fun _ _ => rfl⟩

theorem ChainOnly.trans {s t u : State} (h : ChainOnly s t) (k : ChainOnly t u) : ChainOnly s u :=
  ⟨k.pw.trans h.pw, k.tb.trans h.tb, k.fe.trans h.fe, k.cal.trans h.cal, k.sv.trans h.sv, k.furrows.trans h.furrows,
    fun a ha => (k.rd a ha).trans (h.rd a ha)⟩

theorem ChainOnly.wr (s : State) {a : Nat} (w : Word) (h : chainReg a = true) : ChainOnly s (s.wr a w) :=
  ⟨rfl, rfl, rfl, rfl, rfl, rfl, fun b hb => State.rd_wr_ne s w (by rintro rfl; rw [h] at hb; cases hb)⟩

theorem ChainOnly.vtSet (s : State) (x : VtSt) : ChainOnly s { s with vt := x } := ⟨rfl, rfl, rfl, rfl, rfl, rfl, fun _ _ => rfl⟩

theorem ChainOnly.freePart (s : State) (p : Part) : ChainOnly s (s.freePart p) := ⟨rfl, rfl, rfl, rfl, rfl, rfl, fun _ _ => rfl⟩

theorem ChainOnly.noteBacklog (s : State) : ChainOnly s s.noteBacklog := by
  have hw := ChainOnly.wr s (word s.backlogUsed) (a := Reg.HI_BACKLOG) (by decide)
  rw [State.noteBacklog]
  exact ite_both (ChainOnly s) _ _ _ (hw.trans ⟨rfl, rfl, rfl, rfl, rfl, rfl, fun _ _ => rfl⟩) hw

theorem ChainOnly.freeParts (l : List Part) (s : State) : ChainOnly s (l.foldl State.freePart s) := by
  induction l generalizing s with
  | nil => exact .refl s
  | cons p t ih => exact (ChainOnly.freePart s p).trans (ih _)

theorem ChainOnly.freeNotices (s : State) (ns : List Notice) : ChainOnly s (s.freeNotices ns) :=
  (ChainOnly.freeParts _ s).trans (.noteBacklog _)

theorem ChainOnly.sumRestart (s : State) : ChainOnly s s.sumRestart := by
  rw [State.sumRestart]
  have hlo := ChainOnly.wr s 0 (a := Reg.TB_SUM_LO) (by decide)
  have hhi := hlo.trans (ChainOnly.wr _ (word (2 ^ (8 + (s.wr Reg.TB_SUM_LO 0).fget Reg.TB_STAT Fld.TB_STAT_state))) (a := Reg.TB_SUM_HI) (by decide))
  exact ite_both (ChainOnly s) _ _ _ (hhi.trans (.wr _ _ (by decide))) hhi

theorem ChainOnly.startChain (s : State) : ChainOnly s s.startChain := by
  rw [State.startChain]
  exact ((((ChainOnly.vtSet s _).trans (.freeNotices _ _)).trans (.wr _ _ (by decide))).trans (.wr _ _ (by decide))).trans (.sumRestart _)

theorem ChainOnly.closeInterval (s : State) (why reset : Nat) (cut : Bool) : ChainOnly s (s.closeInterval why reset cut) := by
  rw [State.closeInterval]
  refine ite_both (ChainOnly s) _ _ _ ?_ (.refl s)
  exact ((((ChainOnly.vtSet s _).trans (.wr _ _ (by decide))).trans (.wr _ _ (by decide))).trans (.sumRestart _)).trans (.vtSet _ _)

end Sys2Proof.Machine
end

section
/-! PROOF. Start-up, RESET_N, PERST# and the function-level reset (R465, R468, R469, R472, R483). -/

namespace Sys2Proof.Machine

/-! ## Start-up (R465) -/

theorem State.vaultStarts_fe (s : State) : s.vaultStarts.fe = s.fe := by
  unfold State.vaultStarts
  extract_lets u1 u2 u3 cause u4 bits u5 u6
  have h3 : u3.fe = s.fe := ite_both (fun v : State => v.fe = s.fe) _ _ _ rfl rfl
  have h4 : u4.fe = s.fe := by
    refine ite_both (fun v : State => v.fe = s.fe) _ _ _ h3 (ite_both (fun v : State => v.fe = s.fe) _ _ _ ?_ ?_)
    · exact (ChainOnly.closeInterval u3 _ _ _).fe.trans h3
    · exact (ChainOnly.startChain u3).fe.trans h3
  exact ite_both (fun v : State => v.fe = s.fe) _ _ _ h4 ((raise_raised _ _ _ _ (by decide)).frame.fe.trans h4)

theorem State.calStart_fe (s : State) : s.calStart.fe = s.fe := by
  rw [State.calStart, State.calSwap]
  split <;> rfl

theorem startUpComplete_waits {s : State} (h : s.pw.power ≠ .startUp ∨ s.pw.inReset = true
    ∨ (s.fe.trimA = true ∧ s.dieLink 0 = true) ∨ (s.fe.trimB = true ∧ s.dieLink 1 = true)) : startUpComplete s = s := by
  rw [startUpComplete]
  refine if_pos ?_
  rcases h with h | h | ⟨h, h'⟩ | ⟨h, h'⟩
  · simp [h]
  · simp [h]
  · simp [h, h']
  · simp [h, h']

/-- The last step of a start: Idle, the function as it stands, and SAFE_N let go. -/
def State.startEnds (s : State) : State :=
  ((({ s with pw := { s.pw with power := .idle, fallowValid := true }, fr := { s.fr with endReset := 0 } }).setFlag Reg.HI_STAT
    Fld.HI_STAT_d0 (if s.pw.headSel then s.pw.d0 else s.pw.headD0)).pullSafeN false).fillShadow 0 0x80000

theorem startUpComplete_ends {s : State} (h : s.pw.power = .startUp) (hres : s.pw.inReset = false)
    (ha : s.fe.trimA = true → s.dieLink 0 = false) (hb : s.fe.trimB = true → s.dieLink 1 = false) :
    startUpComplete s = ((({ s with fe := { s.fe with trimA := false, trimB := false } }).setFlag Reg.CV_STAT Fld.CV_STAT_trim_busy
      false).vaultStarts.calStart).startEnds := by
  have hon : (!(s.pw.power == .startUp) || s.pw.inReset || (s.fe.trimA && s.dieLink 0) || (s.fe.trimB && s.dieLink 1)) = false := by
    cases hA : s.fe.trimA <;> cases hB : s.fe.trimB <;> simp_all
  exact if_neg (Bool.eq_false_iff.mp hon)

/-! ## RESET_N (R468, R472) -/

theorem State.abandonLedger_rd (s : State) {a : Nat} (h : a < 0x800 ∨ 0x1000 ≤ a) : s.abandonLedger.rd a = s.rd a := by
  refine State.foldl_wr_rd _ _ a (fun u f _ => ?_) s
  split
  · rename_i hf
    exact State.rd_wr_ne u _ (by simp only [Reg.GLB_LEDGER_HI]; omega)
  · rfl

theorem State.abandonLedger_keeps {β : Type} (g : State → β) (h : ∀ (u : State) (m : KMap Word), g { u with regs := m } = g u) (s : State) :
    g s.abandonLedger = g s := by
  refine State.foldl_field g _ _ (fun u f => ?_) s
  split
  · exact h u _
  · rfl

/-- What RESET_N keeps of the registers (R472). -/
def isKept (a : Nat) : Bool := isSeccfg a || isSealPos a || isLedger a || isTrace a

/-- The dies in reset. -/
def State.held (s : State) : State :=
  let t := (s.abandonLedger.cleared (s.abandonLedger.keep isKept)).setFlag Reg.EV_STAT Fld.EV_STAT_ff_valid
    (s.abandonLedger.flag Reg.EV_STAT Fld.EV_STAT_ff_valid)
  { t with ev := { t.ev with trace := s.ev.trace }, tb := { t.tb with cnt := s.tb.cnt }
           fr := { t.fr with endReset := Power.code s.pw.power }, pw := { t.pw with inReset := true, d0 := !s.pw.headSel } }

theorem resetN_dead {s : State} (b : Bool) (h : s.alive = false) : resetN b s = s := if_pos (by simp [h])

theorem resetN_low {s : State} (h : s.alive = true) (hres : s.pw.inReset = false) : resetN false s = s.held := by
  simp only [resetN, h, hres, Bool.not_true, Bool.not_false, Bool.false_eq_true, if_false, if_true]
  rfl

theorem resetN_low_again {s : State} (hres : s.pw.inReset = true) : resetN false s = s := by
  simp only [resetN, hres, Bool.not_false, if_true, ite_self]

theorem resetN_high {s : State} (h : s.alive = true) (hres : s.pw.inReset = true) : resetN true s = s.leaveReset 2 s.fr.endReset := by
  simp only [resetN, h, hres, Bool.not_true, Bool.false_eq_true, if_false, if_true]

theorem resetN_high_again {s : State} (hres : s.pw.inReset = false) : resetN true s = s := by
  simp only [resetN, hres, Bool.not_true, Bool.false_eq_true, if_false, ite_self]

theorem State.held_rd (s : State) {a : Nat} (hkept : isTrace a = true) (ha : a ≠ Reg.EV_STAT) (hl : a < 0x800 ∨ 0x1000 ≤ a) :
    s.held.rd a = s.rd a :=
  (State.rd_setFlag_ne (s.abandonLedger.cleared (s.abandonLedger.keep isKept)) _ _ ha).trans
    ((s.abandonLedger.keep_rd (p := isKept) (by simp [isKept, hkept])).trans (s.abandonLedger_rd hl))

theorem State.held_chain (s : State) : s.held.vt.chain = s.vt.chain := s.abandonLedger_keeps (fun u => u.vt.chain) (fun _ _ => rfl)

/-- The restart after a RESET_N names its cause and the state that it met (R438, R471). -/
theorem leaveReset_hard (s : State) (pre : Nat) :
    (s.leaveReset 2 pre).pw = { s.pw with power := .startUp, inReset := false } ∧ (s.leaveReset 2 pre).sv.safeN = true
      ∧ (s.leaveReset 2 pre).vt.ucodeActive = s.vt.ucodeStored ∧ (s.leaveReset 2 pre).tb = s.tb
      ∧ (s.leaveReset 2 pre).rd Reg.GLB_RSTCAUSE
        = word (pre * 256 + if s.vt.ucodeStored = s.vt.ucodeActive then 2 else 5) := by
  have htrace := EventOnly.traceReset (s.started 2 pre) (s.startCause 2)
  rw [s.leaveReset_eq, if_pos (by decide)]
  refine ⟨htrace.pw, ?_, ?_, htrace.tb, ?_⟩
  · rw [htrace.sv]; rfl
  · rw [htrace.vt]; rfl
  · rw [htrace.rd _ (by decide), s.started_cause, s.startCause_eq]

/-! ## PERST# and the function-level reset (R469) -/

theorem State.cutSegments_pw_hi (s : State) (u : Nat) (upto : Option Nat) :
    (s.cutSegments u upto).2.pw = s.pw ∧ (s.cutSegments u upto).2.hi = s.hi := by
  rw [State.cutSegments]
  split <;> exact ⟨rfl, rfl⟩

theorem State.stopUnit_pw_hi (s : State) (u : Nat) : (s.stopUnit u).pw = s.pw ∧ (s.stopUnit u).hi = s.hi := by
  have hfinish : (s.finishPlot u pfStopped).pw = s.pw ∧ (s.finishPlot u pfStopped).hi = s.hi := by
    rw [State.finishPlot]
    split
    · exact ⟨rfl, rfl⟩
    · exact ite_both (fun v : State => v.pw = s.pw ∧ v.hi = s.hi) _ _ _ (State.cutSegments_pw_hi _ u none) ⟨rfl, rfl⟩
  exact hfinish

theorem State.stopUnits_pw_hi (s : State) : s.stopUnits.pw = s.pw ∧ s.stopUnits.hi = s.hi :=
  ⟨State.foldl_field State.pw _ _ (fun u k => (u.stopUnit_pw_hi k).1) s, State.foldl_field State.hi _ _ (fun u k => (u.stopUnit_pw_hi k).2) s⟩

theorem State.clearUnits_pw_hi (s : State) : s.clearUnits.pw = s.pw ∧ s.clearUnits.hi = s.hi := by
  have hreads := (LinkOnly.dropReads s (.job true)).trans (.dropReads _ (.job false))
  have hside := LinkOnly.dropReads s.balerClear .transfer
  exact ⟨hside.pw.trans hreads.pw, hside.hi.trans hreads.hi⟩

theorem State.ffWords_hi (ws : List Word) (n : Nat) (s : State) : (s.ffWords n ws).hi = s.hi := by
  induction ws generalizing n s with
  | nil => rfl
  | cons w t ih => exact ih (n + 1) (s.wr (Reg.EV_FF n) w)

theorem State.traceReset_hi (s : State) (code : Nat) : (s.traceReset code).hi = s.hi := by
  have happend : ∀ e, (s.traceAppend e).hi = s.hi := fun e => by
    rw [State.traceAppend]
    exact ite_both (fun v : State => v.hi = s.hi) _ _ _ rfl rfl
  rw [State.traceReset, State.trace, State.firstFault]
  split
  · rw [State.setFlag_hi, State.ffWords_hi, happend]
  · rw [happend]

theorem State.stopRun_outside {s : State} (reset : Nat) (h : s.inRun = false) : s.stopRun reset = s := if_pos (by simp [h])

/-- No furrow is left, and the power state is the given one. -/
structure Bare (p : PwSt) (u : State) : Prop where
  pw : u.pw = p
  furrows : u.hi.furrows = []

theorem Bare.clearUnits {p : PwSt} {u : State} (h : Bare p u) : Bare p u.clearUnits :=
  ⟨u.clearUnits_pw_hi.1.trans h.pw, (congrArg HiSt.furrows u.clearUnits_pw_hi.2).trans h.furrows⟩

theorem Bare.stopUnits {p : PwSt} {u : State} (h : Bare p u) : Bare p u.stopUnits :=
  ⟨u.stopUnits_pw_hi.1.trans h.pw, (congrArg HiSt.furrows u.stopUnits_pw_hi.2).trans h.furrows⟩

theorem Bare.endUcode {p : PwSt} {u : State} (h : Bare p u) : Bare p u.endUcode := ⟨h.pw, h.furrows⟩

theorem Bare.resetRange {p : PwSt} {u : State} (h : Bare p u) (lo hi : Nat) : Bare p (u.resetRange lo hi) := ⟨h.pw, h.furrows⟩

theorem Bare.wr {p : PwSt} {u : State} (h : Bare p u) (a : Nat) (w : Word) : Bare p (u.wr a w) := ⟨h.pw, h.furrows⟩

theorem Bare.foldl {α : Type} {p : PwSt} (f : State → α → State) (hf : ∀ u x, Bare p u → Bare p (f u x)) (l : List α) {u : State}
    (h : Bare p u) : Bare p (l.foldl f u) := by
  induction l generalizing u with
  | nil => exact h
  | cons x t ih => exact ih (hf u x h)

theorem Bare.unitsGone {p : PwSt} {u : State} (h : Bare p u) (x : AqSt) : Bare p ({ u with aq := x } : State).calAbandon.clearSetpoints :=
  ⟨h.pw, h.furrows⟩

theorem Bare.dozes {p : PwSt} {u : State} (h : Bare p u) (x : LnSt) (y : SpSt) :
    Bare { p with d0 := false } { u with pw := { u.pw with d0 := false }, ln := x, sp := y } := ⟨by rw [← h.pw], h.furrows⟩

theorem Bare.traceReset {p : PwSt} {u : State} (h : Bare p u) (code : Nat) : Bare p (u.traceReset code) :=
  ⟨(EventOnly.traceReset u code).pw.trans h.pw, (congrArg HiSt.furrows (u.traceReset_hi code)).trans h.furrows⟩

theorem Bare.fillShadow {p : PwSt} {u : State} (h : Bare p u) (lo hi : Nat) : Bare p (u.fillShadow lo hi) := ⟨h.pw, h.furrows⟩

theorem State.ownReadsGone_pw (s : State) : s.ownReadsGone.pw = s.pw :=
  ((LinkOnly.dropReads s (.doorbell false)).trans (.dropReads _ (.doorbell true))).pw

/-- The function's reset in Idle: the furrows are gone, the hub stays in Idle, and the cause is named (R469, R471). -/
theorem functionReset_idle {s : State} (code : Nat) (h : s.inIdle = true) :
    Bare { s.pw with d0 := false } (s.functionReset code) ∧ (s.functionReset code).rd Reg.GLB_RSTCAUSE = word (256 + code) := by
  have hidle : s.pw.power = .idle := by simpa [State.inIdle] using h
  unfold State.functionReset
  extract_lets pwOld pre u1 u2 hi0 ev0 u3 u4 u5 u6 aq0 u7 pw0 ln0 sp0 u8 u9 u10
  have h3 : Bare s.pw u3 := ⟨u1.ownReadsGone_pw.trans (s.abandonLedger_keeps State.pw (fun _ _ => rfl)), rfl⟩
  have h4 : Bare s.pw u4 := h3.clearUnits.endUcode.resetRange _ _
  have h5 : Bare s.pw u5 := h4.foldl _ (fun u i hu => ((hu.wr _ _).wr _ _).wr _ _) _
  have h7 : Bare s.pw u7 := h5.stopUnits.unitsGone _
  have h9 : Bare { s.pw with d0 := false } u9 := (h7.dozes _ _).wr _ _
  have h10 : Bare { s.pw with d0 := false } (u10.fillShadow 0x28000 0x30000) := (h9.traceReset code).fillShadow _ _
  have hcause : u9.rd Reg.GLB_RSTCAUSE = word (256 + code) := by
    rw [show 256 + code = pre * 256 + code by simp [pre, hidle, Power.code]]
    exact State.rd_wr_same u8 Reg.GLB_RSTCAUSE _
  have hout : (u10.fillShadow 0x28000 0x30000).inRun = false := by
    rw [State.inRun, h10.pw]
    simp [hidle]
  rw [State.stopRun_outside code hout]
  exact ⟨h10, ((EventOnly.traceReset u9 code).rd _ (by decide)).trans hcause⟩

/-- PERST# stands asserted. -/
def State.perstLow (s : State) : State := { s with pw := { s.pw with perst := true } }

theorem perst_head {s : State} (hsel : s.pw.headSel = true) (halive : s.alive = true) :
    perst s = if s.pw.inReset then s.perstLow
      else if s.pw.power == .startUp then (s.perstLow.wr Reg.GLB_RSTCAUSE 3).traceReset 3
      else s.perstLow.functionReset 3 := by
  rw [perst]
  exact if_neg (by simp [hsel, halive])

theorem perst_resets {s : State} (hsel : s.pw.headSel = true) (h : s.inIdle = true ∨ s.inRun = true ∨ s.pw.power = .hold)
    (hres : s.pw.inReset = false) : perst s = s.perstLow.functionReset 3 := by
  have hpower : s.pw.power = .idle ∨ s.pw.power = .run ∨ s.pw.power = .hold := by simpa [State.inIdle, State.inRun] using h
  have halive : s.alive = true := by rcases hpower with h | h | h <;> simp [State.alive, h]
  have hup : (s.pw.power == .startUp) = false := by rcases hpower with h | h | h <;> simp [h]
  rw [perst_head hsel halive, hres, hup]
  rfl

theorem functionLevelReset_none {s : State} (h : s.pw.headSel = false ∨ s.alive = false ∨ s.pw.inReset = true ∨ s.pw.power = .startUp
    ∨ s.pw.perst = true) : functionLevelReset s = s := by
  rw [functionLevelReset]
  refine if_pos ?_
  rcases h with h | h | h | h | h <;> simp [h]

theorem functionLevelReset_resets {s : State} (hsel : s.pw.headSel = true)
    (h : s.inIdle = true ∨ s.inRun = true ∨ s.pw.power = .hold) (hres : s.pw.inReset = false) (hperst : s.pw.perst = false) :
    functionLevelReset s = s.functionReset 4 := by
  have hpower : s.pw.power = .idle ∨ s.pw.power = .run ∨ s.pw.power = .hold := by simpa [State.inIdle, State.inRun] using h
  rw [functionLevelReset]
  refine if_neg ?_
  rcases hpower with h | h | h <;> simp [State.alive, hsel, h, hres, hperst]

/-! ## The trained link (R264, R167) -/

theorem pcieLinkTrained_none {s : State} (w : BitVec 4) (t : PcieTrained)
    (h : s.pw.headSel = false ∨ s.alive = false ∨ s.pw.inReset = true ∨ s.pw.perst = true) : pcieLinkTrained w t s = s := by
  rw [pcieLinkTrained]
  refine if_pos ?_
  rcases h with h | h | h | h <;> simp [h]

theorem State.laneTrimmed_eye (s : State) {lane : Nat} (h : lane < 4) (e : EyeFig) : (s.laneTrimmed lane e).rd (Reg.CAL_EYE lane) = eyeWord e := by
  rw [State.laneTrimmed]
  refine ite_both (fun v : State => v.rd (Reg.CAL_EYE lane) = eyeWord e) _ _ _ ?_ (State.rd_wr_same s _ _)
  refine ((raiseD_raised _ _ _ _ _ _ (by decide)).frame.rd _ ?_).trans (State.rd_wr_same s _ _)
  simp [eventReg, Reg.CAL_EYE]; omega

theorem State.laneTrimmed_rd (s : State) (lane : Nat) (e : EyeFig) {a : Nat} (ha : a ≠ Reg.CAL_EYE lane) (hev : eventReg a = false) :
    (s.laneTrimmed lane e).rd a = s.rd a := by
  rw [State.laneTrimmed]
  exact ite_both (fun v : State => v.rd a = s.rd a) _ _ _ (((raiseD_raised _ _ _ _ _ _ (by decide)).frame.rd _ hev).trans
    (State.rd_wr_ne s _ ha)) (State.rd_wr_ne s _ ha)

/-- The eyes of the lanes, recorded one after another. -/
def State.eyesTrimmed (s : State) (eyes : List EyeFig) (n : Nat) : State :=
  (List.range n).foldl (fun s i => s.laneTrimmed i (eyes.getD i ⟨0, 0⟩)) s

theorem State.eyesTrimmed_succ (s : State) (eyes : List EyeFig) (n : Nat) :
    s.eyesTrimmed eyes (n + 1) = (s.eyesTrimmed eyes n).laneTrimmed n (eyes.getD n ⟨0, 0⟩) := by
  rw [State.eyesTrimmed, List.range_succ, List.foldl_append]
  rfl

theorem State.eyesTrimmed_rd (s : State) (eyes : List EyeFig) {n a : Nat} (ha : ∀ i, i < n → a ≠ Reg.CAL_EYE i) (hev : eventReg a = false) :
    (s.eyesTrimmed eyes n).rd a = s.rd a :=
  State.foldl_wr_rd _ _ a (fun u i hi => u.laneTrimmed_rd i _ (ha i (List.mem_range.mp hi)) hev) s

theorem State.eyesTrimmed_eye (s : State) (eyes : List EyeFig) {n i : Nat} (hn : n ≤ 4) (hi : i < n) :
    (s.eyesTrimmed eyes n).rd (Reg.CAL_EYE i) = eyeWord (eyes.getD i ⟨0, 0⟩) := by
  induction n with
  | zero => omega
  | succ n ih =>
    rw [State.eyesTrimmed_succ]
    by_cases h : i = n
    · subst h
      exact State.laneTrimmed_eye _ (by omega) _
    · rw [State.laneTrimmed_rd _ _ _ (by simp only [Reg.CAL_EYE]; omega) (by simp [eventReg, Reg.CAL_EYE]; omega)]
      exact ih (by omega) (by omega)

theorem pcieLinkTrained_head {s : State} (w : BitVec 4) (t : PcieTrained) (hsel : s.pw.headSel = true) (halive : s.alive = true)
    (hres : s.pw.inReset = false) (hperst : s.pw.perst = false) :
    pcieLinkTrained w t s = ((s.fput Reg.HI_LINK Fld.HI_LINK_width w.toNat).fput Reg.HI_LINK Fld.HI_LINK_speed t.speed.toNat).eyesTrimmed t.eyes
      (min 4 t.eyes.length) := by
  rw [pcieLinkTrained]
  exact if_neg (by simp [hsel, halive, hres, hperst])

/-- Settles O57: each clause is one branch of its command. -/
theorem resets : Obligations.Resets := by
  intro s w t held
  refine ⟨fun h hres ha hb => Ends.of (v := startUpComplete s) rfl ?_, fun h => Becomes.of rfl (startUpComplete_waits (.inl h)),
    fun h => Becomes.of rfl (startUpComplete_waits (.inr h)),
    fun h => ⟨Becomes.of rfl (resetN_dead _ h), Becomes.of rfl (resetN_dead _ h), Becomes.of rfl ?_,
      Becomes.of rfl (functionLevelReset_none (.inr (.inl h))), Becomes.of rfl (pcieLinkTrained_none w t (.inr (.inl h)))⟩,
    fun h => Becomes.of rfl (resetN_low_again h), fun h => Becomes.of rfl (resetN_high_again h),
    fun h hres => Ends.of (v := resetN true s) rfl ?_, fun h hsel hres => Becomes.of rfl ?_,
    fun hsel h hres => Becomes.of rfl (perst_resets hsel h hres),
    fun hsel h hres hperst => Becomes.of rfl (functionLevelReset_resets hsel h hres hperst),
    fun h => Becomes.of rfl (functionLevelReset_none (h.imp_right .inr)),
    fun h => Becomes.of rfl (pcieLinkTrained_none w t (h.imp_right .inr)),
    fun h hres => Ends.of (v := resetN false s) rfl ?_, fun h hres hsame => Ends.of (v := resetN true s) rfl ?_,
    fun hsel => ⟨Becomes.of rfl ?_, Becomes.of rfl (functionLevelReset_none (.inl hsel))⟩,
    fun hsel hidle hres => Ends.of (v := perst s) rfl ?_, fun hsel hup hres => Ends.of (v := perst s) rfl ?_,
    fun hsel hidle hres hperst => Ends.of (v := functionLevelReset s) rfl ?_, Becomes.of rfl rfl,
    fun hsel halive hres hperst => Ends.of (v := pcieLinkTrained w t s) rfl ?_⟩
  · rw [startUpComplete_ends h hres ha hb]
    generalize hv : ({ s with fe := { s.fe with trimA := false, trimB := false } } : State).setFlag Reg.CV_STAT Fld.CV_STAT_trim_busy
      false = v
    have hfe : v.vaultStarts.calStart.startEnds.fe = { s.fe with trimA := false, trimB := false } := by
      refine ((v.vaultStarts.calStart_fe).trans v.vaultStarts_fe).trans ?_
      rw [← hv]
      rfl
    exact ⟨rfl, congrArg FeSt.trimA hfe, congrArg FeSt.trimB hfe, rfl, rfl, rfl⟩
  · exact if_pos (by simp [h])
  · obtain ⟨hpw, -, hucode, htb, hcause⟩ := leaveReset_hard s s.fr.endReset
    rw [resetN_high h hres]
    exact ⟨congrArg PwSt.power hpw, congrArg PwSt.inReset hpw, hucode, congrArg TbSt.cnt htb, hcause⟩
  · rw [perst_head hsel h, if_pos hres]
    rfl
  · rw [resetN_low h hres]
    refine ⟨rfl, rfl, rfl, s.held_rd (by decide) (by decide) (by decide), fun i hi => ?_, s.held_chain, rfl, rfl⟩
    refine s.held_rd ?_ ?_ ?_
    · simp [isTrace, Reg.EV_FF]; omega
    · simp only [Reg.EV_FF, Reg.EV_STAT]; omega
    · simp only [Reg.EV_FF]; omega
  · obtain ⟨hpw, hsafeN, -, -, hcause⟩ := leaveReset_hard s s.fr.endReset
    rw [resetN_high h hres]
    rw [if_pos hsame] at hcause
    exact ⟨congrArg PwSt.power hpw, congrArg PwSt.inReset hpw, hsafeN, hcause⟩
  · exact if_pos (by simp [hsel])
  · obtain ⟨⟨hpw, hfur⟩, hcause⟩ := functionReset_idle (s := s.perstLow) 3 hidle
    rw [perst_resets hsel (.inl hidle) hres]
    refine ⟨hfur, congrArg PwSt.perst hpw, ?_, hcause, congrArg PwSt.d0 hpw⟩
    rw [State.inIdle, hpw]
    exact hidle
  · have halive : s.alive = true := by simp [State.alive, hup]
    have htrace := EventOnly.traceReset (s.perstLow.wr Reg.GLB_RSTCAUSE 3) 3
    rw [perst_head hsel halive, hres, if_neg (by decide), if_pos (by simp [hup])]
    refine ⟨?_, ?_, ?_⟩
    · rw [htrace.pw]; exact hup
    · rw [htrace.pw]; rfl
    · rw [htrace.rd _ (by decide)]; exact State.rd_wr_same _ _ _
  · obtain ⟨⟨hpw, hfur⟩, hcause⟩ := functionReset_idle 4 hidle
    rw [functionLevelReset_resets hsel (.inl hidle) hres hperst]
    refine ⟨hfur, ?_, hcause, congrArg PwSt.d0 hpw⟩
    rw [State.inIdle, hpw]
    exact hidle
  · rw [pcieLinkTrained_head w t hsel halive hres hperst]
    have hlink := ((s.fput Reg.HI_LINK Fld.HI_LINK_width w.toNat).fput Reg.HI_LINK Fld.HI_LINK_speed t.speed.toNat).eyesTrimmed_rd t.eyes
      (n := min 4 t.eyes.length) (a := Reg.HI_LINK) (fun i hi => by simp only [Reg.HI_LINK, Reg.CAL_EYE]; omega) (by decide)
    refine ⟨?_, ?_, fun i hi e he => ?_⟩
    · rw [State.fget_congr hlink, State.fget_fput_disjoint _ _ _ _ (by decide) (by decide), State.fget_fput_same _ _ _ (by decide) (by decide)]
      exact Nat.mod_eq_of_lt w.isLt
    · rw [State.fget_congr hlink, State.fget_fput_same _ _ _ (by decide) (by decide)]
      exact Nat.mod_eq_of_lt t.speed.isLt
    · obtain ⟨hlen, hget⟩ := List.getElem?_eq_some_iff.mp he
      rw [State.eyesTrimmed_eye _ _ (by omega) (by omega), List.getD_eq_getElem?_getD, he]
      rfl

end Sys2Proof.Machine
end

section
/-! PROOF. The entry to Run (R396, R397, R405). -/

namespace Sys2Proof.Machine

/-! ## The steps of an entry -/

/-- The hub is in Run, which shows; a microcode session is over (R366, R482). -/
def State.runShown (s : State) : State :=
  (({ s with pw := { s.pw with power := .run, checking := false, waiting := true, lastTick := none } }).setEnstat enRunning 0 0 0).endUcode

/-- The role is taken and safe state entered, with what the frames of Run use fresh (R396, R405). -/
def State.runSafe (s : State) : State :=
  let u := s.runShown.startRole
  { u with sv := { u.sv with safe := true, oen := 0, releasePend := false, checkDue := false, raiseDue := false }
           fe := { u.fe with leadSeen := 0, ins := [] }
           gl := { u.gl with resFrame := [] }
           fr := { u.fr with overrun := none, skipped := [], hbMissing := 0, endReset := 0 } }

/-- The entry is counted; the loops are fresh. -/
def State.runCounted (s : State) : State := ((s.runSafe.incSat Reg.SV_SAFECNT 1).wr Reg.HI_GAPCNT 0).startLoops

/-- Every capture unit starts anew. -/
def State.unitsFresh (s : State) : State :=
  (List.range 8).foldl (fun s u =>
    (s.wr (Reg.AQ_USEQ u) 0).modUnit u (fun x => { x with hist := [], newest := none, first := none, gap := none, conds := [] })) s

/-- The hub before the cause start is latched. -/
def State.runFresh (s : State) : State :=
  { s.runCounted.unitsFresh with aq := { s.runCounted.unitsFresh.aq with ftRow := [] } }

theorem State.enterRun_eq (s : State) :
    s.enterRun = if (s.runFresh.latchCause 1).mayPull then (s.runFresh.latchCause 1).pullSafeN true else s.runFresh.latchCause 1 := rfl

/-! ## What the steps keep -/

theorem State.freshLoop_keeps {β : Type} (g : State → β) (hwr : ∀ (u : State) (a : Nat) (w : Word), g (u.wr a w) = g u)
    (hce : ∀ (u : State) (x : CeSt), g { u with ce := x } = g u) (s : State) (l : Nat) : g (s.freshLoop l) = g s := by
  unfold State.freshLoop
  extract_lets u1 u2 u3
  rw [State.setLoopU, State.wr64, hwr, hwr]
  exact (hwr _ _ _).trans ((hwr _ _ _).trans ((hwr _ _ _).trans (hce _ _)))

theorem State.startLoops_keeps {β : Type} (g : State → β) (hwr : ∀ (u : State) (a : Nat) (w : Word), g (u.wr a w) = g u)
    (hce : ∀ (u : State) (x : CeSt), g { u with ce := x } = g u) (s : State) : g s.startLoops = g s := by
  unfold State.startLoops
  extract_lets u
  exact (hce u _).trans (State.foldl_field g _ _ (fun v l => v.freshLoop_keeps g hwr hce l) s)

theorem State.freshLoop_rd (s : State) {l a : Nat} (hl : l < 32) (h : a < 0x20000 ∨ 0x22000 ≤ a) : (s.freshLoop l).rd a = s.rd a := by
  unfold State.freshLoop
  extract_lets u1 u2 u3 u4
  have h3 : u3.rd a = s.rd a := State.rd_wr_ne u2 _ (by simp only [Reg.CE_LSTAT]; omega)
  have h4 : u4.rd a = u3.rd a := (State.rd_wr_ne _ _ (by simp only [Reg.CE_LINTEG_LO]; omega)).trans
    (State.rd_wr_ne u3 _ (by simp only [Reg.CE_LINTEG_LO]; omega))
  rw [State.setLoopU, State.wr64, State.rd_wr_ne _ _ (by simp only [Reg.CE_LOUTV_LO]; omega),
    State.rd_wr_ne _ _ (by simp only [Reg.CE_LOUTV_LO]; omega), h4, h3]

theorem State.startLoops_rd (s : State) {a : Nat} (h : a < 0x20000 ∨ 0x22000 ≤ a) : s.startLoops.rd a = s.rd a := by
  have hregs : s.startLoops.regs = ((List.range 32).foldl (fun u l => u.freshLoop l) s).regs := by rw [State.startLoops]
  rw [State.rd_congr hregs]
  exact State.foldl_wr_rd (List.range 32) (fun u l => u.freshLoop l) a (fun u l hl => u.freshLoop_rd (List.mem_range.mp hl) h) s

theorem State.startRole_keeps {β : Type} (g : State → β) (hregs : ∀ (u : State) (m : KMap Word), g { u with regs := m } = g u) (s : State) :
    g s.startRole = g s := by
  rw [State.startRole]
  exact ite_both (fun u : State => g u = g s) _ _ _ (hregs ..) (ite_both (fun u : State => g u = g s) _ _ _ (hregs ..)
    (ite_both (fun u : State => g u = g s) _ _ _ (hregs s _) (hregs ..)))

theorem State.startRole_rd (s : State) {a : Nat} (h : a ≠ Reg.SV_TWSTAT) : s.startRole.rd a = s.rd a := by
  rw [State.startRole]
  exact ite_both (fun u : State => u.rd a = s.rd a) _ _ _ (State.rd_wr_ne s _ h) (ite_both (fun u : State => u.rd a = s.rd a) _ _ _
    (State.rd_wr_ne s _ h) (ite_both (fun u : State => u.rd a = s.rd a) _ _ _ ((State.rd_wr_ne _ _ h).trans (State.rd_wr_ne s _ h))
    (State.rd_wr_ne s _ h)))

/-- The role that a hub takes (R405, R410, R416). -/
def State.roleAtStart (s : State) : Nat := if s.isTwin then (if s.sv.ilkI then 4 else if s.pw.twinPri then 1 else 2) else 0

theorem State.startRole_role (s : State) : s.startRole.role = s.roleAtStart := by
  have hset : ∀ r, r < 8 → (s.setRole r).role = r := fun r hr =>
    (State.fget_fput_same s Reg.SV_TWSTAT Fld.SV_TWSTAT_role (by decide) (by decide) r).trans (Nat.mod_eq_of_lt hr)
  rw [State.startRole, State.roleAtStart]
  cases s.isTwin
  · exact hset 0 (by decide)
  · cases s.sv.ilkI
    · cases s.pw.twinPri
      · exact hset 2 (by decide)
      · exact (State.fget_fput_disjoint _ _ _ _ (by decide) (by decide) _).trans (hset 1 (by decide))
    · exact hset 4 (by decide)

theorem State.unitsFresh_keeps {β : Type} (g : State → β) (hwr : ∀ (u : State) (a : Nat) (w : Word), g (u.wr a w) = g u)
    (haq : ∀ (u : State) (x : AqSt), g { u with aq := x } = g u) (s : State) : g s.unitsFresh = g s :=
  State.foldl_field g _ _ (fun _ _ => (haq _ _).trans (hwr _ _ _)) s

theorem State.runFresh_keeps {β : Type} (g : State → β) (hwr : ∀ (u : State) (a : Nat) (w : Word), g (u.wr a w) = g u)
    (haq : ∀ (u : State) (x : AqSt), g { u with aq := x } = g u) (s : State) : g s.runFresh = g s.runCounted := by
  rw [State.runFresh, haq, State.unitsFresh_keeps g hwr haq]

theorem State.unitsFresh_rd (s : State) {a : Nat} (h : a < 0x18800 ∨ 0x19900 ≤ a) : s.unitsFresh.rd a = s.rd a := by
  unfold State.unitsFresh
  refine State.foldl_wr_rd (List.range 8) _ a (fun u k hk => ?_) s
  have hk := List.mem_range.mp hk
  exact State.rd_wr_ne u _ (by simp only [Reg.AQ_USEQ]; omega)

theorem State.runCounted_pw (s : State) :
    s.runCounted.pw = { s.pw with power := .run, checking := false, waiting := true, lastTick := none } := by
  unfold State.runCounted
  rw [State.startLoops_keeps State.pw (fun _ _ _ => rfl) (fun _ _ => rfl)]
  exact State.startRole_keeps State.pw (fun _ _ => rfl) s.runShown

theorem State.runFresh_pw (s : State) :
    s.runFresh.pw = { s.pw with power := .run, checking := false, waiting := true, lastTick := none } :=
  (s.runFresh_keeps State.pw (fun _ _ _ => rfl) (fun _ _ => rfl)).trans s.runCounted_pw

theorem State.runCounted_sv (s : State) :
    s.runCounted.sv = { s.sv with safe := true, oen := 0, releasePend := false, checkDue := false, raiseDue := false } := by
  unfold State.runCounted
  rw [State.startLoops_keeps State.sv (fun _ _ _ => rfl) (fun _ _ => rfl)]
  have hrole : s.runShown.startRole.sv = s.sv := State.startRole_keeps State.sv (fun _ _ => rfl) s.runShown
  exact congrArg (fun x : SvSt => { x with safe := true, oen := 0, releasePend := false, checkDue := false, raiseDue := false }) hrole

theorem State.runFresh_sv (s : State) :
    s.runFresh.sv = { s.sv with safe := true, oen := 0, releasePend := false, checkDue := false, raiseDue := false } :=
  (s.runFresh_keeps State.sv (fun _ _ _ => rfl) (fun _ _ => rfl)).trans s.runCounted_sv

/-- Registers that only the entry's first steps reach. -/
theorem State.runFresh_rd (s : State) {a : Nat} (h : a < 0x18800 ∨ 0x40000 ≤ a) :
    s.runFresh.rd a = (s.runSafe.incSat Reg.SV_SAFECNT 1).rd a := by
  have hregs : s.runFresh.regs = s.runCounted.unitsFresh.regs := by rw [State.runFresh]
  rw [State.rd_congr hregs, State.unitsFresh_rd _ (by omega), State.runCounted, State.startLoops_rd _ (by omega),
    State.rd_wr_ne _ _ (by simp only [Reg.HI_GAPCNT]; omega)]

theorem State.runShown_rd (s : State) {a : Nat} (hlo : a ≠ Reg.GLB_ENSTAT_LO) (hhi : a ≠ Reg.GLB_ENSTAT_HI) : s.runShown.rd a = s.rd a := by
  have hregs : s.runShown.regs = (s.setEnstat enRunning 0 0 0).regs := rfl
  rw [State.rd_congr hregs]
  exact (State.rd_wr_ne _ _ hhi).trans (State.rd_wr_ne s _ hlo)

theorem State.runShown_enstat (s : State) : s.runShown.rd Reg.GLB_ENSTAT_LO = 2 ∧ s.runShown.rd Reg.GLB_ENSTAT_HI = 0 := by
  have hregs : s.runShown.regs = (s.setEnstat enRunning 0 0 0).regs := rfl
  rw [State.rd_congr hregs, State.rd_congr hregs]
  exact ⟨State.setEnstat_lo .., State.setEnstat_hi ..⟩

theorem State.runSafe_rd (s : State) {a : Nat} (h : a ≠ Reg.SV_TWSTAT) (hlo : a ≠ Reg.GLB_ENSTAT_LO) (hhi : a ≠ Reg.GLB_ENSTAT_HI) :
    s.runSafe.rd a = s.rd a :=
  (s.runShown.startRole_rd h).trans (s.runShown_rd hlo hhi)

theorem State.runFresh_rd_ne (s : State) {a : Nat} (h : a < 0x18800 ∨ 0x40000 ≤ a) (hcnt : a ≠ Reg.SV_SAFECNT) (hrole : a ≠ Reg.SV_TWSTAT)
    (hlo : a ≠ Reg.GLB_ENSTAT_LO) (hhi : a ≠ Reg.GLB_ENSTAT_HI) : s.runFresh.rd a = s.rd a :=
  (s.runFresh_rd h).trans ((State.rd_wr_ne _ _ hcnt).trans (s.runSafe_rd hrole hlo hhi))

theorem State.runFresh_role (s : State) : s.runFresh.role = s.roleAtStart := by
  refine (State.fget_congr ((s.runFresh_rd (by decide)).trans (State.rd_wr_ne _ _ (by decide))) _).trans
    (s.runShown.startRole_role.trans ?_)
  have htwin : s.runShown.isTwin = s.isTwin :=
    State.flag_congr (s.runShown_rd (by decide) (by decide)) _
  rw [State.roleAtStart, htwin]
  rfl

theorem State.runFresh_enstat (s : State) : s.runFresh.rd Reg.GLB_ENSTAT_LO = 2 ∧ s.runFresh.rd Reg.GLB_ENSTAT_HI = 0 := by
  have hshown : ∀ a, a < 0x18800 → s.runFresh.rd a = s.runShown.rd a := fun a h =>
    (s.runFresh_rd (.inl h)).trans ((State.rd_wr_ne _ _ (by simp only [Reg.SV_SAFECNT]; omega)).trans
      (s.runShown.startRole_rd (by simp only [Reg.SV_TWSTAT]; omega)))
  obtain ⟨hlo, hhi⟩ := s.runShown_enstat
  exact ⟨(hshown _ (by decide)).trans hlo, (hshown _ (by decide)).trans hhi⟩

theorem State.runFresh_count (s : State) : s.runFresh.rdN Reg.SV_SAFECNT = min 0xFFFFFFFF (s.rdN Reg.SV_SAFECNT + 1) := by
  have hcount : s.runFresh.rd Reg.SV_SAFECNT = word (min 0xFFFFFFFF (s.rdN Reg.SV_SAFECNT + 1)) := by
    rw [s.runFresh_rd (by decide), State.incSat, State.rd_wr_same, State.rdN, State.rdN, s.runSafe_rd (by decide) (by decide) (by decide)]
  rw [State.rdN, hcount, word, BitVec.toNat_ofNat]
  exact Nat.mod_eq_of_lt (by omega)

/-- A cause that is no hub fault, latched in Run and in safe state: nothing but the supervisor, SV_CAUSE, SV_FIRST and what an event
changes is touched. -/
theorem State.latchCause_inSafe {s : State} {b : Nat} (hb : b < 32) (hfault : hubFaults.contains b = false) (hrun : s.inRun = true)
    (hsafe : s.sv.safe = true) (hoen : s.sv.oen = 0) :
    (s.latchCause b).hasCause b = true ∧ (s.latchCause b).pw = s.pw ∧ (s.latchCause b).fr = s.fr ∧ (s.latchCause b).sv.safe = true
      ∧ (s.latchCause b).sv.oen = 0
      ∧ ∀ a, eventReg a = false → a ≠ Reg.SV_CAUSE → a ≠ Reg.SV_FIRST → (s.latchCause b).rd a = s.rd a := by
  by_cases hcause : s.hasCause b = true
  · rw [State.latchCause, if_pos hcause]
    exact ⟨hcause, rfl, rfl, hsafe, hoen, fun _ _ _ _ => rfl⟩
  · have hcause : s.hasCause b = false := Bool.eq_false_iff.mpr hcause
    have hset := (s.latchCause_latches b hb hcause).set
    have hnoted := s.causeNoted_noted b
    have hrun' : (s.causeNoted b).inRun = true := by rw [State.inRun, hnoted.pw]; exact hrun
    rw [s.latchCause_eq hcause, hfault, hrun'] at hset ⊢
    refine ⟨hset, ?_⟩
    have hsafe' : (s.causeNoted b).sv.safe = true := by rw [hnoted.sv, hsafe]
    generalize s.causeNoted b = v at hnoted hsafe'
    obtain ⟨hin, hlow, -⟩ := v.enterSafe_sv
    have hkept : v.enterSafe.pw = v.pw ∧ v.enterSafe.fr = v.fr ∧ v.enterSafe.regs = v.regs := by
      rw [State.enterSafe]
      cases v.mayPull <;> simp [State.pullSafeN, hsafe']
    obtain ⟨hpw, hfr, hregs⟩ := hkept
    exact ⟨hpw.trans hnoted.pw, hfr.trans hnoted.fr, hin, hlow, fun a h h1 h2 => (State.rd_congr hregs a).trans (hnoted.rd a h h1 h2)⟩

/-! ## The entry -/

/-- The hub after its entry to Run (R396, R405). -/
structure RunEntered (s u : State) : Prop where
  pw : u.pw = { s.pw with power := .run, checking := false, waiting := true, lastTick := none }
  safe : u.sv.safe = true
  oen : u.sv.oen = 0
  cause : u.hasCause 1 = true
  shown : u.rd Reg.GLB_ENSTAT_LO = 2 ∧ u.rd Reg.GLB_ENSTAT_HI = 0
  role : u.role = s.roleAtStart
  safeN : (s.isTwin && s.sv.ilkI) = false → u.sv.safeN = false
  count : u.rdN Reg.SV_SAFECNT = min 0xFFFFFFFF (s.rdN Reg.SV_SAFECNT + 1)

theorem State.enterRun_entered (s : State) : RunEntered s s.enterRun := by
  have hrun : s.runFresh.inRun = true := by rw [State.inRun, s.runFresh_pw]; rfl
  obtain ⟨hcause, hpw, -, hsafe, hoen, hrd⟩ := State.latchCause_inSafe (s := s.runFresh) (b := 1) (by decide) (by decide) hrun
    (by rw [s.runFresh_sv]) (by rw [s.runFresh_sv])
  have hrole : (s.runFresh.latchCause 1).role = s.roleAtStart :=
    (State.fget_congr (hrd _ (by decide) (by decide) (by decide)) _).trans s.runFresh_role
  have hcnt : (s.runFresh.latchCause 1).rdN Reg.SV_SAFECNT = s.runFresh.rdN Reg.SV_SAFECNT :=
    congrArg BitVec.toNat (hrd _ (by decide) (by decide) (by decide))
  obtain ⟨hlo, hhi⟩ := s.runFresh_enstat
  have hentered : ∀ u : State, u.regs = (s.runFresh.latchCause 1).regs → u.pw = (s.runFresh.latchCause 1).pw → u.sv.safe = true → u.sv.oen = 0 →
      ((s.isTwin && s.sv.ilkI) = false → u.sv.safeN = false) → RunEntered s u := fun u hregs hpw' hsafe' hoen' hsafeN => by
    have hsame : ∀ a, u.rd a = (s.runFresh.latchCause 1).rd a := State.rd_congr hregs
    refine ⟨hpw'.trans (hpw.trans s.runFresh_pw), hsafe', hoen', ?_, ⟨?_, ?_⟩, ?_, hsafeN, ?_⟩
    · rw [State.hasCause, hsame]
      exact hcause
    · rw [hsame, hrd _ (by decide) (by decide) (by decide), hlo]
    · rw [hsame, hrd _ (by decide) (by decide) (by decide), hhi]
    · exact (State.fget_congr (hsame _) _).trans hrole
    · rw [State.rdN, hsame]
      exact hcnt.trans s.runFresh_count
  rw [s.enterRun_eq]
  split
  · exact hentered _ rfl rfl hsafe hoen fun _ => rfl
  · rename_i hmay
    refine hentered _ rfl rfl hsafe hoen fun hnot => absurd ?_ hmay
    rw [State.mayPull, hrole, State.roleAtStart]
    cases htwin : s.isTwin
    · rfl
    · rw [htwin, Bool.true_and] at hnot
      rw [hnot]
      cases s.pw.twinPri <;> rfl

theorem RunEntered.hasStarted {s u : State} (h : RunEntered s u) : u.inRun = true ∧ u.pw.waiting = true := by
  rw [State.inRun, h.pw]
  exact ⟨rfl, rfl⟩

/-- The check leaves what an entry to Run looks at. -/
theorem RunEntered.of_checked {s u : State} (h : RunEntered s.checked u) : RunEntered s u := by
  have hrd : ∀ a, a ≠ Reg.FR_BUDGET → s.checked.rd a = s.rd a := fun a ha => State.rd_wr_ne _ _ ha
  have htwin : s.checked.isTwin = s.isTwin := State.flag_congr (hrd _ (by decide)) _
  have hrole : s.checked.roleAtStart = s.roleAtStart := by
    rw [State.roleAtStart, htwin]
    rfl
  obtain ⟨hpw, hsafe, hoen, hcause, hshown, hr, hsafeN, hcount⟩ := h
  refine ⟨hpw, hsafe, hoen, hcause, hshown, hr.trans hrole, fun hnot => hsafeN ?_, ?_⟩
  · rw [htwin]
    exact hnot
  · rw [hcount, State.rdN, State.rdN, hrd _ (by decide)]

theorem State.checked_now (s : State) : s.checked.now = s.now := State.wr_now _ _ (by decide) (by decide)

theorem State.checked_epochReg (s : State) : s.checked.epochReg = s.epochReg := by
  have hrd : ∀ a, a ≠ Reg.FR_BUDGET → s.checked.rd a = s.rd a := fun a ha => State.rd_wr_ne _ _ ha
  rw [State.epochReg, State.epochReg, State.fget, State.fget, State.rdN, State.rdN, hrd _ (by decide), hrd _ (by decide)]

theorem State.checked_firstTick (s : State) (e : Nat) : s.checked.firstTick e = s.firstTick e := by
  have hrd : ∀ a, a ≠ Reg.FR_BUDGET → s.checked.rd a = s.rd a := fun a ha => State.rd_wr_ne _ _ ha
  have hperiod : s.checked.periodU = s.periodU := by
    rw [State.periodU, State.periodU, State.m, State.m, State.fget, State.fget, hrd _ (by decide)]
  rw [State.firstTick, State.firstTick, s.checked_now, hperiod]

theorem State.checked_chooseEpoch (s : State) : s.checked.chooseEpoch = s.chooseEpoch := by
  rw [State.chooseEpoch, State.chooseEpoch, s.checked_now, s.checked_epochReg]

theorem LinkOnly.tellRing (s : State) (sub : Nat) (content : List Nat) : LinkOnly s (s.tellRing sub content) := by
  unfold State.tellRing
  refine LinkOnly.foldl _ (fun u p => ?_) [0, 1] s
  exact ite_both (LinkOnly u) _ _ _ (LinkOnly.foldl _ (fun v c => .sendCell v p true c) _ u) (.refl u)

theorem LinkOnly.distribute (s : State) : LinkOnly s s.distribute := .tellRing s 3 _

/-- A start of the frames leaves what an entry has set, but for the wait for the head. -/
theorem RunEntered.starts {s v u : State} (h : RunEntered s v) (hpw : u.pw = { v.pw with waiting := false }) (hsv : u.sv = v.sv)
    (hrd : ∀ a, a ≠ Reg.AQ_DRILL → u.rd a = v.rd a) :
    u.inRun = true ∧ u.pw.waiting = false ∧ u.sv.safe = true ∧ u.sv.oen = 0 ∧ u.hasCause 1 = true ∧ u.rd Reg.GLB_ENSTAT_LO = 2
      ∧ u.rd Reg.GLB_ENSTAT_HI = 0 ∧ u.role = s.roleAtStart ∧ ((s.isTwin && s.sv.ilkI) = false → u.sv.safeN = false)
      ∧ (s.hasCause 1 = false → u.rdN Reg.SV_SAFECNT = min 0xFFFFFFFF (s.rdN Reg.SV_SAFECNT + 1)) := by
  obtain ⟨hpw', hsafe, hoen, hcause, ⟨hlo, hhi⟩, hr, hsafeN, hcount⟩ := h
  refine ⟨?_, ?_, hsv ▸ hsafe, hsv ▸ hoen, ?_, ?_, ?_, (State.fget_congr (hrd _ (by decide)) _).trans hr, fun hnot => hsv ▸ hsafeN hnot,
    fun _ => ?_⟩
  · rw [State.inRun, hpw, hpw']; rfl
  · rw [hpw]
  · rw [State.hasCause, hrd _ (by decide)]; exact hcause
  · rw [hrd _ (by decide), hlo]
  · rw [hrd _ (by decide), hhi]
  · rw [State.rdN, hrd _ (by decide)]; exact hcount

/-- Settles O53: the entry's steps, then the start of the frames where the hub does not wait for its head. -/
theorem enterRun : Obligations.EnterRun := by
  intro s v ready
  have hentered := (State.enterRun_entered s.checked).of_checked
  refine ⟨fun ⟨hidle, hchk, hok⟩ => Ends.of (v := consistencyCheckDone v s) rfl ?_,
    fun ⟨hidle, hchk, hok⟩ hsel => Ends.of (v := consistencyCheckDone v s) rfl ?_,
    fun ⟨hidle, hchk, hok⟩ hsel hparams htwin => Ends.of (v := consistencyCheckDone v s) rfl ?_⟩
  · rw [consistencyCheckDone_passed hidle hchk hok]
    cases hsel : s.pw.headSel
    · cases hhead : s.headRuns with
      | none =>
        rw [State.passed_waits (s := s.checked) hsel hhead]
        obtain ⟨hrun, hwait⟩ := hentered.hasStarted
        exact ⟨hrun, hwait, hentered.safe, hentered.oen, hentered.cause, hentered.shown.1, hentered.shown.2, hentered.role,
          hentered.safeN, fun _ => hentered.count⟩
      | some p =>
        rw [State.passed_starts (s := s.checked) hsel hhead]
        exact RunEntered.starts hentered rfl rfl fun a ha => State.rd_wr_ne _ _ ha
    · rw [State.passed_head (s := s.checked) hsel]
      have hlink := LinkOnly.distribute (s.checked.enterRun.startAt s.checked.chooseEpoch (s.checked.firstTick s.checked.chooseEpoch))
      exact RunEntered.starts hentered hlink.pw hlink.sv fun a _ => State.rd_congr hlink.regs a
  · rw [consistencyCheckDone_passed hidle hchk hok, State.passed_head (s := s.checked) hsel, s.checked_chooseEpoch, s.checked_firstTick]
    have hlink := LinkOnly.distribute (s.checked.enterRun.startAt s.chooseEpoch (s.firstTick s.chooseEpoch))
    rw [hlink.fr]
    exact ⟨rfl, rfl, rfl⟩
  · rw [consistencyCheckDone_passed hidle hchk hok, State.passed_waits (s := s.checked) hsel (State.headRuns_none hparams)]
    obtain ⟨hrun, hwait⟩ := hentered.hasStarted
    exact ⟨hrun, hwait, hentered.safe, hentered.oen, hentered.cause, hentered.safeN (by rw [htwin]; rfl), hentered.shown.1, hentered.shown.2⟩

end Sys2Proof.Machine
end

section
/-! SUPPORT. The answer of a vault service, a refused token, and a failed self-test (R363, R367, R383). -/

namespace Sys2Proof.Machine

theorem fitBytes_length (n : Nat) (l : List Byte) : (fitBytes n l).length = n := by
  simp [fitBytes, zeros]
  omega

/-! ## The mailbox (R367) -/

/-- The answer stands in the mailbox: response, status and length; the rest of the vault and the registers beside are as before. -/
structure MbDone (status : Nat) (resp : List Byte) (s u : State) : Prop where
  vt : u.vt = { s.vt with resp := resp, memberReq := none, mailTag := none }
  stat : u.rd Reg.MB_STAT = word status
  rd : ∀ a, a ≠ Reg.MB_STAT → a ≠ Reg.MB_RSPLEN → u.rd a = s.rd a
  pw : u.pw = s.pw
  cal : u.cal = s.cal

theorem State.mbDone_done (s : State) (status : Nat) (resp : List Byte) : MbDone status resp s (s.mbDone status resp) := by
  unfold State.mbDone
  extract_lets tag vt0 u v
  have hv : MbDone status resp s v := by
    refine ⟨rfl, ?_, fun a h1 h2 => ?_, rfl, rfl⟩
    · exact (State.rd_wr_ne _ _ (by decide)).trans (State.rd_wr_same _ _ _)
    · exact (State.rd_wr_ne _ _ h2).trans (State.rd_wr_ne u _ h1)
  clear_value tag
  cases tag with
  | some t =>
    have hlink := LinkOnly.sendMessage v 10 0 (leBytes 2 t ++ zeros 2 ++ leBytes 4 status ++ resp)
    exact ⟨hlink.vt.trans hv.vt, (State.rd_congr hlink.regs _).trans hv.stat, fun a h1 h2 => (State.rd_congr hlink.regs a).trans (hv.rd a h1 h2),
      hlink.pw.trans hv.pw, hlink.cal.trans hv.cal⟩
  | none => exact ⟨hv.vt, hv.stat, hv.rd, hv.pw, hv.cal⟩

/-! ## A refused token (R363) -/

/-- Refusals begin, the nonce is replaced, and AUTH_REJECTED is raised. -/
theorem State.refuseAuth_raised (s : State) (code : Nat) :
    Raised 59 0 1 code ({ s with vt := { s.vt with lockout := true } } : State).newNonce.frameData
      ({ s with vt := { s.vt with lockout := true } } : State).newNonce (s.refuseAuth code) :=
  raiseF_raised _ 0 59 0 1 code _ (by decide)

theorem State.refuseAuth_vt (s : State) (code : Nat) :
    (s.refuseAuth code).vt = { s.vt with lockout := true, nonce := fitBytes 16 (Config.freeBytes s.freeCtr) } :=
  (s.refuseAuth_raised code).frame.vt

theorem State.refuseAuth_rd (s : State) (code : Nat) {a : Nat} (h : eventReg a = false) : (s.refuseAuth code).rd a = s.rd a :=
  (s.refuseAuth_raised code).frame.rd a h

theorem State.refuseAuth_occ (s : State) (code : Nat) : (s.refuseAuth code).rd (Reg.EV_OCC 59) = s.rd (Reg.EV_OCC 59) + 1 :=
  (s.refuseAuth_raised code).occ

end Sys2Proof.Machine
end

section
/-! PROOF. The microcode session (R365, R366). -/

namespace Sys2Proof.Machine

theorem State.ucodeRequest_other {s : State} (step : Nat) (act : State → State) (h : s.serving 0x26 = false) : s.ucodeRequest step act = s :=
  if_pos (by simp [h])

theorem State.ucodeRequest_error {s : State} (step : Nat) (act : State → State) (h : s.serving 0x26 = true) (herr : s.vaultInError = true) :
    s.ucodeRequest step act = s.endUcode.mbDone 5 [] := by
  rw [State.ucodeRequest, if_neg (by simp [h]), if_pos herr]

theorem State.ucodeRequest_busy {s : State} (step : Nat) (act : State → State) (h : s.serving 0x26 = true) (hok : s.vaultInError = false)
    (hidle : s.inIdle = false) : s.ucodeRequest step act = s.endUcode.mbDone 6 [] := by
  rw [State.ucodeRequest, if_neg (by simp [h]), if_neg (by simp [hok]), if_pos (by simp [hidle])]

/-- A request of a step that is well-formed is served. -/
theorem State.ucodeRequest_asks {s : State} {step len : Nat} (act : State → State) (h : UcodeAsks s step len)
    (hlen : len = if step = 1 then 192 else if step = 2 then 16 + ofLe (slice (s.mbReq 16) 8 4) else 16) :
    s.ucodeRequest step act = act s := by
  obtain ⟨hserving, hok, hidle, hstep, hlow, hhigh, hdata, hlast, hmb⟩ := h
  have hfixed : (ofLe (slice (s.mbReq 16) 1 3) == 0 && ofLe (slice (s.mbReq 16) 12 4) == 0
      && (step == 2 || ofLe (slice (s.mbReq 16) 8 4) == 0) && (step != 3 || ofLe (slice (s.mbReq 16) 4 4) == 0)) = true := by
    simp only [Bool.and_eq_true, Bool.or_eq_true, beq_iff_eq, bne_iff_ne]
    exact ⟨⟨⟨hlow, hhigh⟩, Classical.or_iff_not_imp_left.mpr hdata⟩, Classical.or_iff_not_imp_left.mpr fun h => hlast (Classical.not_not.mp h)⟩
  unfold State.ucodeRequest
  rw [if_neg (by simp [hserving]), if_neg (by simp [hok]), if_neg (by simp [hidle])]
  extract_lets r dataLen want fixed
  have hgood : ((r.getD 0 0).toNat != step || !fixed || s.mbLen != want) = false := by
    rw [show (r.getD 0 0).toNat = step from hstep, show fixed = true from hfixed, hmb, show want = len from hlen.symm]
    simp
  exact if_neg (Bool.eq_false_iff.mp hgood)

section
variable {s : State} {x : UcodeSession}

/-! ## The three steps, served -/

/-- A session may start with a length. -/
def startBad (s : State) (len : Nat) : Prop := s.vt.ucode ≠ none ∨ len < 4096 ∨ 524288 < len ∨ len % 16 ≠ 0

theorem microcodeStart_bad (h : UcodeAsks s 1 192) (hbad : startBad s (ofLe (slice (s.mbReq 192) 4 4))) :
    microcodeStart s = s.endUcode.mbDone 4 [] := by
  rw [microcodeStart, State.ucodeRequest_asks _ h rfl]
  refine if_pos ?_
  simp only [Bool.or_eq_true, decide_eq_true_eq, bne_iff_ne, Option.isSome_iff_ne_none]
  rcases hbad with h | h | h | h
  · exact .inl (.inl (.inl h))
  · exact .inl (.inl (.inr h))
  · exact .inl (.inr h)
  · exact .inr h

theorem microcodeStart_good (h : UcodeAsks s 1 192) (hgood : ¬ startBad s (ofLe (slice (s.mbReq 192) 4 4))) :
    microcodeStart s = if s.tokenOk ((s.mbReq 192).drop 16) 3 then
        ({ s.newNonce with vt := { s.newNonce.vt with ucode := some { length := ofLe (slice (s.mbReq 192) 4 4)
                                                                      digest := tokenDigest ((s.mbReq 192).drop 16), image := [] } } }).mbDone 0 []
      else (s.endUcode.refuseAuth 0x26).mbDone 3 [] := by
  rw [microcodeStart, State.ucodeRequest_asks _ h rfl]
  refine if_neg fun hbad => hgood ?_
  simp only [Bool.or_eq_true, decide_eq_true_eq, bne_iff_ne, Option.isSome_iff_ne_none] at hbad
  rcases hbad with ((h | h) | h) | h
  · exact .inl h
  · exact .inr (.inl h)
  · exact .inr (.inr (.inl h))
  · exact .inr (.inr (.inr h))

/-- Data that does not continue the image. -/
def dataBad (x : UcodeSession) (off n : Nat) : Prop :=
  off ≠ x.image.length ∨ n < 16 ∨ 28656 < n ∨ n % 16 ≠ 0 ∨ x.length < off + n

/-- The data of the request joins the image. -/
def State.dataJoined (s : State) (x : UcodeSession) (n : Nat) : State :=
  { s with vt := { s.vt with ucode := some { x with image := x.image ++ slice (s.mbReq s.mbLen) 16 n } } }

theorem microcodeData_none {n : Nat} (h : UcodeAsks s 2 (16 + n)) (hn : n = ofLe (slice (s.mbReq 16) 8 4)) (hnone : s.vt.ucode = none) :
    microcodeData s = s.mbDone 4 [] := by
  rw [microcodeData, State.ucodeRequest_asks _ h (by rw [hn]; rfl)]
  simp only [hnone]

theorem microcodeData_bad {n : Nat} (h : UcodeAsks s 2 (16 + n)) (hn : n = ofLe (slice (s.mbReq 16) 8 4)) (hx : s.vt.ucode = some x)
    (hbad : dataBad x (ofLe (slice (s.mbReq s.mbLen) 4 4)) (ofLe (slice (s.mbReq s.mbLen) 8 4))) :
    microcodeData s = s.endUcode.mbDone 4 [] := by
  rw [microcodeData, State.ucodeRequest_asks _ h (by rw [hn]; rfl)]
  simp only [hx]
  refine if_pos ?_
  simp only [Bool.or_eq_true, decide_eq_true_eq, bne_iff_ne]
  rcases hbad with h | h | h | h | h
  · exact .inl (.inl (.inl (.inl h)))
  · exact .inl (.inl (.inl (.inr h)))
  · exact .inl (.inl (.inr h))
  · exact .inl (.inr h)
  · exact .inr h

theorem microcodeData_good {n : Nat} (h : UcodeAsks s 2 (16 + n)) (hn : n = ofLe (slice (s.mbReq 16) 8 4)) (hx : s.vt.ucode = some x)
    (hgood : ¬ dataBad x (ofLe (slice (s.mbReq s.mbLen) 4 4)) (ofLe (slice (s.mbReq s.mbLen) 8 4))) :
    microcodeData s = (s.dataJoined x (ofLe (slice (s.mbReq s.mbLen) 8 4))).mbDone 0 [] := by
  rw [microcodeData, State.ucodeRequest_asks _ h (by rw [hn]; rfl)]
  simp only [hx]
  refine if_neg fun hbad => hgood ?_
  simp only [Bool.or_eq_true, decide_eq_true_eq, bne_iff_ne] at hbad
  rcases hbad with (((h | h) | h) | h) | h
  · exact .inl h
  · exact .inr (.inl h)
  · exact .inr (.inr (.inl h))
  · exact .inr (.inr (.inr (.inl h)))
  · exact .inr (.inr (.inr (.inr h)))

/-- The image of a session carries its signature. -/
def UcodeSession.signed (x : UcodeSession) : Bool :=
  Config.ecVerify (fitBytes 96 Config.codePublic) (x.image.take (x.image.length - 96)) (x.image.drop (x.image.length - 96))

theorem microcodeFinish_none (load : Byte) (h : UcodeAsks s 3 16) (hnone : s.vt.ucode = none) : microcodeFinish load s = s.mbDone 4 [] := by
  rw [microcodeFinish, State.ucodeRequest_asks _ h rfl]
  simp only [hnone]

theorem microcodeFinish_short (load : Byte) (h : UcodeAsks s 3 16) (hx : s.vt.ucode = some x) (hlen : x.image.length ≠ x.length) :
    microcodeFinish load s = s.endUcode.mbDone 4 [] := by
  rw [microcodeFinish, State.ucodeRequest_asks _ h rfl]
  simp only [hx]
  exact if_pos (by simpa using hlen)

/-- The stored image, named in GLB_UCODE (R365). -/
def State.imageStored (s : State) (x : UcodeSession) : State :=
  ({ s.endUcode with vt := { s.endUcode.vt with ucodeStored := BitVec.ofNat 16 (ofLe (slice x.image 4 2)) } }).fput Reg.GLB_UCODE
    Fld.GLB_UCODE_stored (BitVec.ofNat 16 (ofLe (slice x.image 4 2))).toNat

theorem microcodeFinish_whole (load : Byte) (h : UcodeAsks s 3 16) (hx : s.vt.ucode = some x) (hlen : x.image.length = x.length) :
    microcodeFinish load s = if sha384 x.image ≠ x.digest ∨ UcodeSession.signed x = false then s.endUcode.mbDone 3 []
      else if load ≠ 0 then (s.endUcode.selftestFail load.toNat).mbDone 5 [] else (s.imageStored x).mbDone 0 [] := by
  rw [microcodeFinish, State.ucodeRequest_asks _ h rfl]
  simp only [hx]
  refine (if_neg (by simpa using hlen)).trans (ite_congr (propext ?_) (fun _ => rfl) fun _ => ite_congr (propext ?_) (fun _ => rfl) fun _ => rfl)
  · simp only [Bool.or_eq_true, bne_iff_ne, Bool.not_eq_true']
    rfl
  · exact bne_iff_ne

end

/-- Settles O48: each clause is one branch of its command. -/
theorem microcode : Obligations.Microcode := by
  intro s x load len t n r body e signed
  refine ⟨fun h hbad => Becomes.of rfl (microcodeStart_bad h hbad), fun h hnone => Becomes.of rfl (microcodeData_none h rfl hnone),
    fun h hx hbad => Becomes.of rfl (microcodeData_bad h rfl hx hbad), fun h hx hlen => Becomes.of rfl (microcodeFinish_short load h hx hlen),
    fun h hx hlen hsha => Becomes.of rfl ?_, fun h hx hlen hsha hload => Becomes.of rfl ?_,
    fun h hok hidle => ⟨Becomes.of rfl (State.ucodeRequest_busy _ _ h hok hidle), Becomes.of rfl (State.ucodeRequest_busy _ _ h hok hidle),
      Becomes.of rfl (State.ucodeRequest_busy _ _ h hok hidle)⟩,
    fun h herr => ⟨Becomes.of rfl (State.ucodeRequest_error _ _ h herr), Becomes.of rfl (State.ucodeRequest_error _ _ h herr),
      Becomes.of rfl (State.ucodeRequest_error _ _ h herr)⟩,
    fun h => ⟨Becomes.of rfl (State.ucodeRequest_other _ _ h), Becomes.of rfl (State.ucodeRequest_other _ _ h),
      Becomes.of rfl (State.ucodeRequest_other _ _ h)⟩,
    fun h hnone hlo hhi hmod => Ends.of (v := microcodeStart s) rfl ?_, fun h hx hoff hn hlo hhi hmod hfit => Becomes.of rfl ?_,
    fun h hx hlen hsha => Ends.of (v := microcodeFinish 0 s) rfl ?_, fun h hnone => Becomes.of rfl (microcodeFinish_none load h hnone),
    Becomes.of rfl rfl⟩
  · rw [microcodeFinish_whole load h hx hlen, if_pos (.inl hsha)]
  · rw [microcodeFinish_whole load h hx hlen]
    cases hsign : UcodeSession.signed x
    · exact (if_pos (.inr rfl)).trans (if_neg (by rw [show signed = UcodeSession.signed x from rfl, hsign]; decide)).symm
    · rw [if_neg (by simp [hsha]), if_pos hload]
      exact (if_pos hsign).symm
  · have hgood : ¬ startBad s len := by
      rintro (h | h | h | h)
      · exact h hnone
      all_goals omega
    rw [microcodeStart_good h hgood]
    split
    · have hdone := State.mbDone_done ({ s.newNonce with vt := { s.newNonce.vt with
        ucode := some { length := len, digest := tokenDigest t, image := [] } } }) 0 []
      exact ⟨hdone.stat, congrArg VtSt.ucode hdone.vt⟩
    · rfl
  · have hoff : ofLe (slice (s.mbReq s.mbLen) 4 4) = x.image.length := hoff
    have hn : ofLe (slice (s.mbReq s.mbLen) 8 4) = n := hn
    have hfit : x.image.length + n ≤ x.length := hfit
    rw [microcodeData_good h rfl hx (by rw [hoff, hn]; rintro (h | h | h | h | h) <;> omega), hn]
    rfl
  · by_cases hsign : UcodeSession.signed x = true
    · have hnot : ¬ (sha384 x.image ≠ x.digest ∨ UcodeSession.signed x = false) := by simp [hsha, hsign]
      have hwhole : microcodeFinish 0 s = (s.imageStored x).mbDone 0 [] :=
        (microcodeFinish_whole 0 h hx hlen).trans ((if_neg hnot).trans (if_neg (by decide)))
      have hdone := (s.imageStored x).mbDone_done 0 []
      refine (if_pos hsign).mpr ?_
      rw [hwhole, hdone.vt]
      exact ⟨hdone.stat, rfl, rfl, rfl⟩
    · refine (if_neg hsign).mpr ?_
      exact (microcodeFinish_whole 0 h hx hlen).trans (if_pos (.inr (Bool.eq_false_iff.mpr hsign)))

end Sys2Proof.Machine
end

section
/-! SUPPORT. A delivery while the vault is in its error state (R286, R290, R376): the vault stands, and the registers beside those of
the host engine, the ledger and the events. -/

namespace Sys2Proof.Machine

/-- The registers of the host engine, the events and the ledger. -/
def deliverReg (a : Nat) : Bool := eventReg a || (decide (0x28000 ≤ a) && decide (a < 0x30000))

/-- Data has gone to buffers: the vault stands, and so do the registers beside those of the host engine and the events. -/
structure Delivered (s u : State) : Prop where
  vt : u.vt = s.vt
  rd : ∀ a, deliverReg a = false → u.rd a = s.rd a
  occ : ∀ n, n < 64 → n ≠ 24 → u.rd (Reg.EV_OCC n) = s.rd (Reg.EV_OCC n)

theorem Delivered.refl (s : State) : Delivered s s := ⟨rfl, fun _ _ => rfl, fun _ _ _ => rfl⟩

theorem Delivered.trans {s u v : State} (h : Delivered s u) (k : Delivered u v) : Delivered s v :=
  ⟨k.vt.trans h.vt, fun a ha => (k.rd a ha).trans (h.rd a ha), fun n hn hne => (k.occ n hn hne).trans (h.occ n hn hne)⟩

theorem Delivered.of_post {s u : State} (h : PostOnly s u) : Delivered s u := by
  refine ⟨h.frame.vt, fun a ha => h.frame.rd a ?_, fun n hn _ => h.rd _ (by simp only [Reg.EV_OCC]; omega)⟩
  simp only [deliverReg, Bool.or_eq_false_iff] at ha
  exact ha.1

theorem Delivered.of_link {s u : State} (h : LinkOnly s u) : Delivered s u :=
  ⟨h.vt, fun a _ => State.rd_congr h.regs a, fun _ _ _ => State.rd_congr h.regs _⟩

theorem Delivered.wr (s : State) {a : Nat} (w : Word) (h : 0x28000 ≤ a ∧ a < 0x30000) : Delivered s (s.wr a w) := by
  refine ⟨rfl, fun b hb => State.rd_wr_ne s w ?_, fun n hn _ => State.rd_wr_ne s w (by simp only [Reg.EV_OCC]; omega)⟩
  rintro rfl
  simp [deliverReg, h.1, h.2] at hb

theorem Delivered.modFurrow (s : State) (f : Nat) (g : Furrow → Furrow) : Delivered s (s.modFurrow f g) := .of_post (.modFurrow s f g)

theorem Delivered.endBuffer (s : State) (f : Nat) (seq : Word) (st : CStatus) (len : Nat) (aux : Word) (ecc more first : Bool) :
    Delivered s (s.endBuffer f seq st len aux ecc more first) :=
  (Delivered.modFurrow s f _).trans (.of_post (.postFinished _ f))

theorem Delivered.noteBacklog (s : State) : Delivered s s.noteBacklog := by
  have hw := Delivered.wr s (word s.backlogUsed) (a := Reg.HI_BACKLOG) (by decide)
  rw [State.noteBacklog]
  exact ite_both (Delivered s) _ _ _ (hw.trans ⟨rfl, fun _ _ => rfl, fun _ _ _ => rfl⟩) hw

theorem Delivered.dmaErr (s : State) (a : Word64) : Delivered s (s.dmaErr a) :=
  (((Delivered.wr s _ (by decide)).trans (.wr _ _ (by decide))).trans (.wr _ _ (by decide))).trans (.wr _ _ (by decide))

theorem Delivered.failBuffer (s : State) (f : Nat) (it : Item) (a : Word64) : Delivered s (s.failBuffer f it a) := by
  unfold State.failBuffer
  extract_lets u v
  have hu : Delivered s u := (Delivered.dmaErr s a).trans (.modFurrow _ _ _)
  clear_value u
  have hv : Delivered s v := ite_both (Delivered s) _ _ _ (hu.trans ⟨rfl, fun _ _ => rfl, fun _ _ _ => rfl⟩) hu
  exact hv.trans (.of_post (.endItem v f it.seq .failedDma 0 0))

theorem Delivered.plotDone (s : State) (obj : Nat) (data : Word64) : Delivered s (s.raiseD 24 obj 0 0 data) := by
  have h := raiseD_raised s 24 obj 0 0 data (by decide)
  refine ⟨h.frame.vt, fun a ha => h.frame.rd a ?_, h.others⟩
  simp only [deliverReg, Bool.or_eq_false_iff] at ha
  exact ha.1

theorem Delivered.sampleOne (f : Nat) (ecc : Bool) (s : State) : Delivered s (s.sampleOne f ecc).2 := by
  unfold State.sampleOne
  split
  · exact .refl s
  · split
    · split
      · exact .refl s
      · split
        · exact .endBuffer ..
        · split
          · exact .failBuffer ..
          · exact (((Delivered.of_link (.toHost s _)).trans (.modFurrow _ _ _)).trans (.endBuffer ..)).trans (.noteBacklog _)
    · exact .refl s

theorem Delivered.plotOne (f : Nat) (ecc : Bool) (s : State) : Delivered s (s.plotOne f ecc).2 := by
  unfold State.plotOne
  split
  · exact .refl s
  · split
    · split
      · exact .refl s
      · split
        · exact .failBuffer ..
        · extract_lets n more bad u1 u2 u3 u4
          have h3 : Delivered s u3 := ((Delivered.of_link (.toHost s _)).trans (.modFurrow _ _ _)).trans (.endBuffer ..)
          have h4 : Delivered s u4 := h3.trans ⟨rfl, fun _ _ => rfl, fun _ _ _ => rfl⟩
          split
          · exact h3
          · exact ite_both (Delivered s) _ _ _ (h4.trans (.plotDone ..)) h4
    · exact .refl s

theorem Delivered.sealOne (f : Nat) {s : State} (herr : s.vaultInError = true) : Delivered s (s.sealOne f).2 := by
  unfold State.sealOne
  split
  · exact .refl s
  · split
    · exact .refl s
    · split
      · exact .refl s
      · exact .endBuffer ..

theorem Delivered.deliverOne (f : Nat) (ecc : Bool) {s : State} (herr : s.vaultInError = true) : Delivered s (s.deliverOne f ecc).2 := by
  unfold State.deliverOne
  split
  · exact .refl s
  · split
    · exact .sampleOne f ecc s
    · exact .plotOne f ecc s
    · exact .sealOne f herr
    · exact .refl s

theorem Delivered.vaultInError {s u : State} (h : Delivered s u) : u.vaultInError = s.vaultInError := by
  rw [State.vaultInError, State.vaultInError, State.vaultState, State.vaultState, State.fget_congr (h.rd _ (by decide))]

theorem Delivered.deliverN (f : Nat) (n : Nat) (ecc : Bool) {s : State} (herr : s.vaultInError = true) : Delivered s (s.deliverN f ecc n) := by
  induction n generalizing s ecc with
  | zero => exact .refl s
  | succ n ih =>
    have hone := Delivered.deliverOne f ecc herr
    rw [State.deliverN]
    split
    · rename_i v hv
      rw [hv] at hone
      exact hone.trans (ih false (hone.vaultInError.trans herr))
    · rename_i v hv
      rw [hv] at hone
      exact hone

theorem Delivered.serveSeals {s : State} (herr : s.vaultInError = true) : Delivered s s.serveSeals := by
  unfold State.serveSeals
  split
  · unfold State.deliver
    refine ite_both (Delivered s) _ _ _ ?_ (.refl s)
    split
    · exact .refl s
    · exact .deliverN _ _ false herr
  · exact .refl s

/-! ## A failed self-test (R383) -/

/-- The vault is in its error state, the test is named, the chain is closed, and source 56 has one more occurrence. -/
structure VaultFailed (code : Nat) (s u : State) : Prop where
  test : u.rd Reg.VT_STFAIL = word code
  state : u.vaultState = vtError
  vt : u.vt = { s.vt with chainOpen := false }
  event : u.rd (Reg.EV_OCC 56) = s.rd (Reg.EV_OCC 56) + 1

theorem State.selftestFail_failed (s : State) (code : Nat) : VaultFailed code s (s.selftestFail code) := by
  unfold State.selftestFail
  extract_lets u v
  have hraised : Raised 56 0 code 0 s.frameData s u := raiseF_raised s 0 56 0 code 0 _ (by decide)
  have hstate : v.vaultState = vtError := State.fget_fput_same _ _ _ (by decide) (by decide) _
  have hserved := Delivered.serveSeals (s := { v with vt := { v.vt with chainOpen := false } }) (by
    rw [State.vaultInError, show ({ v with vt := { v.vt with chainOpen := false } } : State).vaultState = vtError from hstate]
    rfl)
  refine ⟨?_, ?_, ?_, ?_⟩
  · refine (hserved.rd _ (by decide)).trans ((State.rd_wr_ne _ _ (by decide)).trans (State.rd_wr_same _ _ _))
  · exact (State.fget_congr (hserved.rd _ (by decide)) _).trans hstate
  · rw [hserved.vt]
    exact congrArg (fun x : VtSt => { x with chainOpen := false }) hraised.frame.vt
  · refine (hserved.occ 56 (by decide) (by decide)).trans ?_
    exact (State.rd_wr_ne _ _ (by decide)).trans ((State.rd_wr_ne _ _ (by decide)).trans hraised.occ)

end Sys2Proof.Machine
end

section
/-! PROOF. Self-test failures, the vault's timeouts and tamper (R361, R363, R368, R382, R383, R387, R388). -/

namespace Sys2Proof.Machine

theorem State.startChain_vtKept (s : State) :
    s.startChain.vt.session = s.vt.session ∧ s.startChain.vt.armed = s.vt.armed ∧ s.startChain.vt.logCount = s.vt.logCount := by
  simp [State.startChain]

/-- A powered hub that detects tampering: what is erased, before the event (R387). -/
def State.tamperNoted (s : State) (bits : BitVec 4) : State :=
  let u := (((s.tamperErase).logTamper bits s.now).setFlag Reg.VT_STAT Fld.VT_STAT_user false).setFlag Reg.VT_STAT Fld.VT_STAT_armed false
  (u.wr Reg.VT_TAMPER (u.rd Reg.VT_TAMPER ||| bits.setWidth 32)).setFlag Reg.VT_STAT Fld.VT_STAT_tampered true

/-- The event, and a new chain where the vault works (R370, R387). -/
def State.tamperTold (s : State) (bits : BitVec 4) : State :=
  let u := s.raise 57 0 bits.toNat
  let v := if u.vaultOk then u.startChain else u
  { v with vt := { v.vt with tampered := true } }

theorem tamperDetect_alive {s : State} {x : TamperIn} (hbits : x.bits ≠ 0) (halive : s.alive = true) :
    tamperDetect x s = (s.tamperNoted x.bits).tamperTold x.bits := by
  obtain ⟨hoff, hfallow⟩ : (s.pw.power == .off) = false ∧ (s.pw.power == .fallow) = false := by simpa [State.alive] using halive
  have hon : (decide (x.bits = 0) || s.pw.power == .off) = false := by simp only [hbits, hoff, decide_false, Bool.or_self]
  rw [tamperDetect, if_neg (Bool.eq_false_iff.mp hon), if_neg (Bool.eq_false_iff.mp hfallow)]
  rfl

theorem tamperDetect_inFallow {s : State} {x : TamperIn} (hbits : x.bits ≠ 0) (hpower : s.pw.power = .fallow) :
    tamperDetect x s = (let u := (s.fallowSeconds x.seconds).tamperErase.logTamper x.bits 0
      { u with vt := { u.vt with fallowTamper := u.vt.fallowTamper ||| x.bits } }) := by
  have hon : (decide (x.bits = 0) || s.pw.power == .off) = false := by
    simp only [hbits, hpower, decide_false, Bool.false_or]
    rfl
  rw [tamperDetect, if_neg (Bool.eq_false_iff.mp hon), if_pos (by simp [hpower])]

theorem tamperDetect_none {s : State} {x : TamperIn} (h : x.bits = 0 ∨ s.pw.power = .off) : tamperDetect x s = s := by
  rw [tamperDetect]
  refine if_pos ?_
  rcases h with h | h <;> simp [h]

theorem State.tamperNoted_words (s : State) (bits : BitVec 4) :
    (s.tamperNoted bits).flag Reg.VT_STAT Fld.VT_STAT_tampered = true ∧ (s.tamperNoted bits).flag Reg.VT_STAT Fld.VT_STAT_user = false
      ∧ (s.tamperNoted bits).rd Reg.VT_TAMPER = s.rd Reg.VT_TAMPER ||| bits.setWidth 32
      ∧ (s.tamperNoted bits).rd (Reg.EV_OCC 57) = s.rd (Reg.EV_OCC 57) := by
  unfold State.tamperNoted
  extract_lets u
  refine ⟨State.flag_setFlag_same _ _ _ (by decide) (by decide) _, ?_, ?_, ?_⟩
  · rw [State.flag_setFlag_disjoint _ _ _ _ (by decide) (by decide), State.flag_congr (State.rd_wr_ne u _ (by decide))]
    exact (State.flag_setFlag_disjoint _ _ _ _ (by decide) (by decide) _).trans (State.flag_setFlag_same _ _ _ (by decide) (by decide) _)
  · rw [State.rd_setFlag_ne _ _ _ (by decide), State.rd_wr_same]
    exact congrArg (· ||| bits.setWidth 32)
      ((State.rd_setFlag_ne _ _ _ (by decide)).trans (State.rd_setFlag_ne (s.tamperErase.logTamper bits s.now) _ _ (by decide)))
  · rw [State.rd_setFlag_ne _ _ _ (by decide), State.rd_wr_ne _ _ (by decide)]
    exact (State.rd_setFlag_ne _ _ _ (by decide)).trans (State.rd_setFlag_ne (s.tamperErase.logTamper bits s.now) _ _ (by decide))

/-- The event and the new chain leave what the detection has noted. -/
theorem State.tamperTold_kept (s : State) (bits : BitVec 4) :
    (s.tamperTold bits).vt.session = s.vt.session ∧ (s.tamperTold bits).vt.armed = s.vt.armed
      ∧ (s.tamperTold bits).vt.logCount = s.vt.logCount ∧ (s.tamperTold bits).vt.tampered = true
      ∧ (∀ a, eventReg a = false → chainReg a = false → (s.tamperTold bits).rd a = s.rd a)
      ∧ (s.tamperTold bits).rd (Reg.EV_OCC 57) = s.rd (Reg.EV_OCC 57) + 1 := by
  unfold State.tamperTold
  extract_lets u v
  have hraised : Raised 57 0 bits.toNat 0 s.frameData s u := raise_raised s 57 0 bits.toNat (by decide)
  have hvt : u.vt = s.vt := hraised.frame.vt
  have hchain : ChainOnly u v := ite_both (ChainOnly u) _ _ _ (.startChain u) (.refl u)
  obtain ⟨hsession, harmed, hcount⟩ : v.vt.session = u.vt.session ∧ v.vt.armed = u.vt.armed ∧ v.vt.logCount = u.vt.logCount :=
    ite_both (fun w : State => w.vt.session = u.vt.session ∧ w.vt.armed = u.vt.armed ∧ w.vt.logCount = u.vt.logCount) _ _ _
      u.startChain_vtKept ⟨rfl, rfl, rfl⟩
  rw [hvt] at hsession harmed hcount
  exact ⟨hsession, harmed, hcount, rfl, fun a he hc => (hchain.rd a hc).trans (hraised.frame.rd a he),
    (hchain.rd _ (by decide)).trans hraised.occ⟩

/-- Settles O49: each clause is one branch of its command. -/
theorem vaultWatch : Obligations.VaultWatch := by
  intro s code x bits
  refine ⟨fun h => ⟨Becomes.of rfl (if_neg (by simp [h])), Becomes.of rfl (if_neg (by simp [h]))⟩,
    fun h => Becomes.of rfl (tamperDetect_none (.inr h)), fun hbits h => Ends.of (v := tamperDetect x s) rfl ?_,
    fun h => Ends.of (v := continuousTestFail code s) rfl ?_, fun h => Becomes.of rfl ?_, fun h => Becomes.of rfl ?_,
    fun h => Ends.of (v := nonceExpire s) rfl ?_, Ends.of (v := authorisationLapse s) rfl ⟨rfl, ?_⟩, Becomes.of rfl rfl,
    fun h => Becomes.of rfl (tamperDetect_none (.inl h)), fun hbits h => Becomes.of rfl (tamperDetect_inFallow hbits h),
    fun hbits h => Ends.of (v := tamperDetect x s) rfl ?_⟩
  · rw [tamperDetect_inFallow hbits h]
    have hfallow : (s.pw.power == .fallow) = true := by simp [h]
    have hnew : (s.vt.fallowTamper ||| x.bits != 0) = true := by
      simp only [bne_iff_ne, ne_eq]
      intro hzero
      refine hbits (BitVec.eq_of_getLsbD_eq fun i hi => ?_)
      have := congrArg (fun w : BitVec 4 => w.getLsbD i) hzero
      simp only [BitVec.getLsbD_or, BitVec.ofNat_eq_ofNat, BitVec.getLsbD_zero, Bool.or_eq_false_iff] at this
      simpa using this.2
    exact Bool.and_eq_true_iff.mpr ⟨hfallow, hnew⟩
  · rw [continuousTestFail, if_pos h]
    obtain ⟨htest, hstate, hvt, hevent⟩ := s.selftestFail_failed code.toNat
    exact ⟨htest, hstate, hvt, hevent⟩
  · exact if_pos (Option.isSome_iff_ne_none.mpr h)
  · exact if_neg (by simp [h])
  · rw [nonceExpire, if_pos h]
    exact ⟨fitBytes_length 16 _, rfl, rfl⟩
  · exact State.flag_setFlag_same _ _ _ (by decide) (by decide) _
  · rw [tamperDetect_alive hbits h]
    obtain ⟨htampered, huser, hword, hocc⟩ := s.tamperNoted_words x.bits
    obtain ⟨hsession, harmed, hcount, hmark, hrd, hevent⟩ := (s.tamperNoted x.bits).tamperTold_kept x.bits
    refine ⟨hsession, harmed, hmark, ?_, ?_, ?_, hcount, hevent.trans (congrArg (· + 1) hocc)⟩
    · exact (State.flag_congr (hrd _ (by decide) (by decide)) _).trans htampered
    · exact (State.flag_congr (hrd _ (by decide) (by decide)) _).trans huser
    · exact (hrd _ (by decide) (by decide)).trans hword

end Sys2Proof.Machine
end

section
/-! PROOF. The vault's services and the requests it turns away (R360 to R364, R367, R380, R383, R384, R386, R388). -/

namespace Sys2Proof.Machine

/-! ## Which requests are served -/

theorem State.service_other {s : State} {code : Nat} (len : Nat) (inKeyless inError : Bool) (act : State → State) (h : s.serving code = false) :
    s.service code len inKeyless inError act = s := if_pos (by simp [h])

theorem State.userService_other {s : State} {code : Nat} (inError : Bool) (act : State → State) (h : s.serving code = false) :
    s.userService code inError act = s := if_pos (by simp [h])

theorem State.serving_idle {s : State} (h : s.flag Reg.MB_STAT Fld.MB_STAT_busy = false) (code : Nat) : s.serving code = false := by
  simp [State.serving, h]

/-- A service that every state of the vault answers (R383, R384). -/
theorem State.service_always {s : State} {code len : Nat} (act : State → State) (h : s.serving code = true) (hlen : s.mbLen = len) :
    s.service code len true true act = act (if code = 0x01 || code = 0x26 then s else s.endUcode) := by
  unfold State.service
  rw [if_neg (by simp [h])]
  extract_lets u
  have hlen' : u.mbLen = len := ite_both (fun u : State => u.mbLen = len) _ _ _ hlen hlen
  exact (if_neg (by simp)).trans (if_neg (by simp [hlen']))

/-- A request of another length is refused, in a state of the vault that has no error (R367). -/
theorem State.service_badLength {s : State} {code len : Nat} (inKeyless inError : Bool) (act : State → State) (h : s.serving code = true)
    (hcode : code ≠ 0x01 ∧ code ≠ 0x26) (hok : s.vaultInError = false) (hlen : s.mbLen ≠ len) :
    s.service code len inKeyless inError act = s.endUcode.mbDone 4 [] := by
  obtain ⟨herr, hkeyless⟩ : (s.vaultState == vtError) = false ∧ (s.vaultState == vtKeyless) = false := by
    simpa [State.vaultInError] using hok
  have hserved : (s.endUcode.vaultState == vtKeyless && !inKeyless || s.endUcode.vaultState == vtError && !inError) = false := by
    rw [show s.endUcode.vaultState = s.vaultState from rfl, herr, hkeyless]
    rfl
  have hlen' : (s.endUcode.mbLen != len) = true := by
    rw [show s.endUcode.mbLen = s.mbLen from rfl]
    simpa using hlen
  rw [State.service, if_neg (by simp [h])]
  simp only [hcode, decide_false, Bool.or_self, Bool.false_eq_true, if_false, hserved, hlen', if_true]

/-- An error state refuses what it does not list (R383, R384). -/
theorem State.service_inError {s : State} {code : Nat} (len : Nat) (act : State → State) (h : s.serving code = true)
    (hcode : code ≠ 0x01 ∧ code ≠ 0x26) (herr : s.vaultInError = true) : s.service code len false false act = s.endUcode.mbDone 5 [] := by
  have hrefused : (s.endUcode.vaultState == vtKeyless && !false || s.endUcode.vaultState == vtError && !false) = true := by
    rw [show s.endUcode.vaultState = s.vaultState from rfl, Bool.not_false, Bool.and_true, Bool.and_true, Bool.or_comm]
    exact herr
  rw [State.service, if_neg (by simp [h])]
  simp only [hcode, decide_false, Bool.or_self, Bool.false_eq_true, if_false, hrefused, if_true]

/-- A service of the user within a session of the working vault (R360). -/
theorem State.userService_asks {s : State} {code : Nat} (inError : Bool) (act : State → State) (h : s.userAsks code)
    (hcode : code ≠ 0x01 ∧ code ≠ 0x26) : s.userService code inError act = act s.endUcode := by
  obtain ⟨hasks, hsession⟩ := h
  have hserving : s.serving code = true := hasks.1
  have hstate : s.vaultState = vtOperational := eq_of_beq hasks.2.1
  rw [← State.service_of_asks false inError act hasks hcode, State.userService, if_neg (by simp [hserving]), if_neg (by simp [hstate, vtOperational, vtKeyless, vtError]),
    if_neg (by simp [hsession])]

/-- A user's request outside a session (R360). -/
theorem State.userService_stranger {s : State} {code : Nat} (inError : Bool) (act : State → State) (hserving : s.serving code = true)
    (hok : s.vaultOk = true) (hsession : s.vt.session = false) : s.userService code inError act = s.endUcode.mbDone 2 [] := by
  have hstate : s.vaultState = vtOperational := eq_of_beq hok
  rw [State.userService, if_neg (by simp [hserving]), if_neg (by simp [hstate, vtOperational, vtKeyless, vtError]), if_pos (by simp [hsession])]

/-! ## The services -/

section
variable {s : State}

/-- The answer to STATUS (R364). -/
def State.statusBytes (s : State) : List Byte :=
  let id := fun (k : Option (List Byte)) => match k with | some k => keyId k | none => zeros 8
  fitBytes 64 (leBytes 4 (s.rdN Reg.VT_STAT) ++ leBytes 4 (s.rdN Reg.VT_STFAIL) ++ id s.vt.owner ++ id s.vt.user)

theorem status_served (h : s.serving 0x01 = true) (hlen : s.mbLen = 0) : status s = s.mbDone 0 s.statusBytes :=
  State.service_always _ h hlen

theorem getNonce_served (h : s.serving 0x02 = true) (hlen : s.mbLen = 0) : getNonce s = s.endUcode.mbDone 0 (fitBytes 16 s.vt.nonce) :=
  State.service_always _ h hlen

theorem getCerts_served (h : s.serving 0x03 = true) (hlen : s.mbLen = 0) :
    getCerts s = s.endUcode.mbDone 0 (fitBytes 256 s.identityCertBytes ++ fitBytes 256 s.sealCertBytes) :=
  State.service_always _ h hlen

theorem selftest_asked (fail : Byte) (h : s.userAsks 0x32) :
    selftest fail s = if s.inIdle = true ∨ s.inRun = true then
        (if fail = 0 then s.endUcode else s.endUcode.selftestFail fail.toNat).mbDone 0 (leBytes 4 fail.toNat)
      else s.endUcode.mbDone 6 [] := by
  rw [selftest, State.userService_asks _ _ h (by decide)]
  by_cases hon : s.inIdle = true ∨ s.inRun = true
  · rw [if_pos hon]
    refine if_neg ?_
    rcases hon with hon | hon <;> simp [show s.endUcode.inIdle = s.inIdle from rfl, show s.endUcode.inRun = s.inRun from rfl, hon]
  · rw [if_neg hon]
    refine if_pos ?_
    simp only [not_or, Bool.not_eq_true] at hon
    rw [show s.endUcode.inIdle = s.inIdle from rfl, show s.endUcode.inRun = s.inRun from rfl, hon.1, hon.2]
    rfl

/-- A login on the registered key, outside the lock-out (R361, R363). -/
theorem login_asked (h : s.asks 0x11 96) :
    login s = if !s.vt.lockout && (match s.vt.user with
        | some k => Config.ecVerify k (serialBytes s ++ s.vt.nonce ++ [0x4C, 0x4F, 0x47, 0x4E]) (s.mbReq 96)
        | none => false) then
        ((({ s.endUcode with vt := { s.endUcode.vt with session := true } }).newNonce).setFlag Reg.VT_STAT Fld.VT_STAT_user true).mbDone 0 []
      else (s.endUcode.refuseAuth 0x11).mbDone 3 [] := by
  rw [login, State.service_of_asks _ _ _ h (by decide)]
  rfl

theorem login_refused (h : s.asks 0x11 96) (hno : s.vt.lockout = true ∨ s.vt.user = none) :
    login s = (s.endUcode.refuseAuth 0x11).mbDone 3 [] := by
  rw [login_asked h]
  refine if_neg ?_
  rcases hno with hno | hno <;> simp [hno]

theorem login_verified {k : List Byte} (h : s.asks 0x11 96) (hopen : s.vt.lockout = false) (huser : s.vt.user = some k) :
    login s = if Config.ecVerify k (serialBytes s ++ s.vt.nonce ++ [0x4C, 0x4F, 0x47, 0x4E]) (s.mbReq 96) then
        ((({ s.endUcode with vt := { s.endUcode.vt with session := true } }).newNonce).setFlag Reg.VT_STAT Fld.VT_STAT_user true).mbDone 0 []
      else (s.endUcode.refuseAuth 0x11).mbDone 3 [] := by
  rw [login_asked h, hopen, huser]
  rfl

/-- The op of a request's token. -/
def State.askedOp (s : State) : Nat := ofLe (slice (s.mbReq 176) 4 2)

/-- An authorisation stands armed (R363). -/
def State.armedFor (s : State) (op : Nat) (digest : List Byte) : State :=
  ({ s with vt := { s.vt with armed := some (op, digest) } } : State).newNonce.setFlag Reg.VT_STAT Fld.VT_STAT_armed true

theorem authorise_asked (h : s.asks 0x20 176) :
    authorise s = if 1 ≤ s.askedOp ∧ s.askedOp ≤ 8 ∧ s.tokenOk (s.mbReq 176) s.askedOp = true then
        (s.endUcode.armedFor s.askedOp (tokenDigest (s.mbReq 176))).mbDone 0 []
      else (s.endUcode.refuseAuth 0x20).mbDone 3 [] := by
  rw [authorise, State.service_of_asks _ _ _ h (by decide)]
  refine ite_congr (propext ?_) (fun _ => rfl) fun _ => rfl
  simp only [Bool.and_eq_true, decide_eq_true_eq, and_assoc]
  rfl

theorem enrol_asked (h : s.asks 0x10 192) :
    enrol s = if s.vt.owner.isSome then s.endUcode.mbDone 2 []
      else if Config.ecVerify ((s.mbReq 192).take 96) (serialBytes s ++ s.vt.nonce) (slice (s.mbReq 192) 96 96) then
        (({ s.endUcode with vt := { s.endUcode.vt with owner := some ((s.mbReq 192).take 96) } }).setFlag Reg.VT_STAT Fld.VT_STAT_owner true).mbDone 0 []
      else s.endUcode.mbDone 3 [] := by
  rw [enrol, State.service_of_asks _ _ _ h (by decide)]
  rfl

/-- A token of an op with its digest is good (R362). -/
def State.tokenGood (s : State) (op : Nat) (digest : List Byte) : Bool :=
  s.tokenOk (s.mbReq 176) op && tokenDigest (s.mbReq 176) == digest

/-- A service under a token: it is run with a fresh nonce, or refused. -/
theorem State.withToken_endUcode (s : State) (code op : Nat) (digest : List Byte) (act : State → State) :
    s.endUcode.withToken code op (s.mbReq 176) digest act
      = if s.tokenGood op digest then act s.endUcode.newNonce else (s.endUcode.refuseAuth code).mbDone 3 [] := rfl

theorem setUserKey_asked (h : s.asks 0x21 272) :
    setUserKey s = if s.tokenGood 5 (sha384 (slice (s.mbReq 272) 176 96)) then
        ({ s.endUcode.newNonce with vt := { s.endUcode.newNonce.vt with user := some (slice (s.mbReq 272) 176 96) } }).mbDone 0 []
      else (s.endUcode.refuseAuth 0x21).mbDone 3 [] := by
  rw [setUserKey, State.service_of_asks _ _ _ h (by decide)]
  exact s.withToken_endUcode 0x21 5 _ _

theorem replaceOwner_asked (h : s.asks 0x22 272) :
    replaceOwner s = if s.tokenGood 6 (sha384 (slice (s.mbReq 272) 176 96)) then
        ({ s.endUcode.newNonce with vt := { s.endUcode.newNonce.vt with owner := some (slice (s.mbReq 272) 176 96) } }).mbDone 0 []
      else (s.endUcode.refuseAuth 0x22).mbDone 3 [] := by
  rw [replaceOwner, State.service_of_asks _ _ _ h (by decide)]
  exact s.withToken_endUcode 0x22 6 _ _

theorem tamperClear_asked (h : s.asks 0x25 176) :
    tamperClear s = if s.tokenGood 8 (zeros 48) then
        ({ s.endUcode.newNonce with vt := { s.endUcode.newNonce.vt with log := [] } }).mbDone 0 []
      else (s.endUcode.refuseAuth 0x25).mbDone 3 [] := by
  rw [tamperClear, State.service_of_asks _ _ _ h (by decide)]
  exact s.withToken_endUcode 0x25 8 _ _

/-- The scope of a ZEROISE request. -/
def State.askedScope (s : State) : Byte := (s.mbReq 177).getD 176 0

theorem zeroise_asked (h : s.asks 0x24 177) :
    zeroise s = if 2 < s.askedScope.toNat then s.endUcode.mbDone 4 []
      else if s.tokenGood 7 (sha384 [s.askedScope]) then (s.endUcode.newNonce.zeroiseScope s.askedScope.toNat).mbDone 0 []
      else (s.endUcode.refuseAuth 0x24).mbDone 3 [] := by
  rw [zeroise, State.service_of_asks _ _ _ h (by decide)]
  rfl

/-- The new seal key of a working vault takes its place; the interval in progress closes under the old one (R359). -/
def State.rotated (s : State) (k : List Byte) (old : Option (List Byte)) : State :=
  let u := { s.newSealKey k with freeCtr := s.freeCtr + 2 }
  { u with vt := { u.vt with openKey := u.vt.openKey.orElse (fun _ => old), rotate := true } }

theorem rotateSealKey_refused (h : s.asks 0x23 176) (hbad : s.tokenGood 4 (zeros 48) = false) :
    rotateSealKey s = (s.endUcode.refuseAuth 0x23).mbDone 3 [] := by
  rw [rotateSealKey, State.service_of_asks _ _ _ h (by decide)]
  exact (s.withToken_endUcode 0x23 4 _ _).trans (if_neg (by simp [hbad]))

/-- The vault at a rotation, the new key drawn. -/
def State.keyDrawn (s : State) : List Byte × State := s.endUcode.newNonce.drawBytes 48

theorem rotateSealKey_failed (h : s.asks 0x23 176) (hgood : s.tokenGood 4 (zeros 48) = true)
    (hpair : s.keyDrawn.2.pairwise s.keyDrawn.1 = false) :
    rotateSealKey s = (s.keyDrawn.2.draw64.2.selftestFail (s.keyDrawn.2.draw64.1.toNat % 255 + 1)).mbDone 5 [] := by
  rw [rotateSealKey, State.service_of_asks _ _ _ h (by decide)]
  refine (s.withToken_endUcode 0x23 4 _ _).trans ((if_pos hgood).trans ?_)
  have hnot : (!s.keyDrawn.2.pairwise s.keyDrawn.1) = true := by rw [hpair]; rfl
  exact if_pos hnot

theorem rotateSealKey_done (h : s.asks 0x23 176) (hgood : s.tokenGood 4 (zeros 48) = true)
    (hpair : s.keyDrawn.2.pairwise s.keyDrawn.1 = true) :
    rotateSealKey s = (s.keyDrawn.2.rotated s.keyDrawn.1 s.vt.sealKey).mbDone 0
      (fitBytes 256 (s.keyDrawn.2.rotated s.keyDrawn.1 s.vt.sealKey).sealCertBytes) := by
  have hstate : s.vaultState = vtOperational := eq_of_beq h.2.1
  rw [rotateSealKey, State.service_of_asks _ _ _ h (by decide)]
  refine (s.withToken_endUcode 0x23 4 _ _).trans ((if_pos hgood).trans ?_)
  have hnot : ¬ (!s.keyDrawn.2.pairwise s.keyDrawn.1) = true := by rw [hpair]; decide
  have hkeyed : (s.endUcode.newNonce.vaultState == vtKeyless) = false := by
    rw [show s.endUcode.newNonce.vaultState = s.vaultState from rfl, hstate]
    rfl
  refine (if_neg hnot).trans ?_
  simp only [hkeyed, Bool.false_eq_true, if_false]
  rfl

/-- The signed part of the answer to EXPORT_CAL: header and image (R386). -/
def State.exportBody (s : State) (b : Bank) (k : List Byte) : List Byte :=
  fitBytes 128 (leBytes 4 0x58504543 ++ leBytes 2 1 ++ zeros 2 ++ serialBytes s ++ leBytes 4 b.epoch.toNat
    ++ [BitVec.ofNat 8 (b2n b.origin)] ++ zeros 3 ++ leBytes 8 b.time.toNat ++ sha384 (b.bytes s.pw.serial) ++ keyId (publicKey k))
  ++ fitBytes 63488 (b.bytes s.pw.serial)

theorem exportCal_asked {b : Bank} {k : List Byte} (h : s.userAsks 0x30) (hset : s.cal.inForce = some b) (hkey : s.vt.sealKey = some k) :
    exportCal s = ({ s.endUcode with freeCtr := s.freeCtr + 1 }).mbDone 0
      (s.exportBody b k ++ fitBytes 96 (Config.ecSign k (s.exportBody b k) s.freeCtr)) := by
  rw [exportCal, State.userService_asks _ _ h (by decide)]
  simp only [show s.endUcode.cal.inForce = some b from hset, show s.endUcode.vt.sealKey = some k from hkey]
  rfl

theorem exportCal_none (h : s.userAsks 0x30) (hnone : s.cal.inForce = none ∨ s.vt.sealKey = none) : exportCal s = s.endUcode.mbDone 6 [] := by
  rw [exportCal, State.userService_asks _ _ h (by decide)]
  rcases hnone with hnone | hnone
  · simp only [show s.endUcode.cal.inForce = none from hnone]
  · simp only [show s.endUcode.vt.sealKey = none from hnone]
    cases s.endUcode.cal.inForce <;> rfl

theorem configImage_asked (h : s.userAsks 0x31) :
    configImage s = s.endUcode.mbDone 0 (if s.running then s.vt.config else s.configImage) := by
  rw [configImage, State.userService_asks _ _ h (by decide)]
  rfl

/-- The vault with the bytes of the tamper entries drawn (log 2). -/
def State.entriesDrawn (s : State) : List Byte × State := s.endUcode.drawBytes (16 * s.vt.log.length)

theorem tamperLog_asked (h : s.userAsks 0x33) :
    tamperLog s = s.entriesDrawn.2.mbDone 0 (fitBytes 256 s.entriesDrawn.1 ++ leBytes 4 s.vt.logCount.toNat) := by
  rw [tamperLog, State.userService_asks _ _ h (by decide)]
  rfl

end

/-- Settles O47: each clause is one branch of its service. -/
theorem vaultServices_hold : Obligations.VaultServices := by
  refine ⟨?_, ?_⟩
  · intro s b k fail e keyIdOf good signed key n scope op
    refine ⟨fun h hlen => Becomes.of rfl (status_served h hlen), fun h hlen => Becomes.of rfl (getNonce_served h hlen),
      fun h hlen => Becomes.of rfl (getCerts_served h hlen), fun h hon => Becomes.of rfl ((selftest_asked fail h).trans (if_pos hon)),
      fun h hidle hrun => Becomes.of rfl ((selftest_asked fail h).trans (if_neg (by simp [hidle, hrun]))),
      fun h hno => Becomes.of rfl (login_refused h hno), fun h hop => Becomes.of rfl ((authorise_asked h).trans (if_neg ?_)),
      fun h hscope => Becomes.of rfl ((zeroise_asked h).trans (if_pos hscope)), fun h hnone => Becomes.of rfl (exportCal_none h hnone),
      fun h => Becomes.of rfl (status_served h.1 h.2.2), fun h => Becomes.of rfl (getNonce_served h.1 h.2.2),
      fun h => Becomes.of rfl (getCerts_served h.1 h.2.2),
      fun h hnone => Becomes.of rfl ((enrol_asked h).trans (if_neg (by simp [hnone]))),
      fun h hopen huser => Becomes.of rfl (login_verified h hopen huser), fun h => Becomes.of rfl ?_,
      fun h hlo hhi => Ends.of (v := authorise s) rfl ?_, fun h => Becomes.of rfl (setUserKey_asked h),
      fun h => Becomes.of rfl (replaceOwner_asked h), fun h => Ends.of (v := rotateSealKey s) rfl ?_,
      fun h hscope => Becomes.of rfl ((zeroise_asked h).trans (if_neg (Nat.not_lt.mpr hscope))),
      fun h => Becomes.of rfl (tamperClear_asked h), fun h hset hkey => Ends.of (v := exportCal s) rfl ?_,
      fun h => Becomes.of rfl (configImage_asked h), fun h hon => Becomes.of rfl ((selftest_asked 0 h).trans (if_pos hon)),
      fun h => Ends.of (v := tamperLog s) rfl ?_⟩
    · rintro ⟨hlo, hhi, -⟩
      have : op = s.askedOp := rfl
      omega
    · rw [logout, State.userService_asks _ _ h (by decide)]
    · rw [authorise_asked h]
      by_cases htoken : s.tokenOk (s.mbReq 176) op = true
      · refine (if_pos htoken).mpr ?_
        rw [if_pos ⟨hlo, hhi, htoken⟩]
        have hdone := (s.endUcode.armedFor s.askedOp (tokenDigest (s.mbReq 176))).mbDone_done 0 []
        refine ⟨congrArg VtSt.armed hdone.vt, ?_, hdone.stat⟩
        exact (State.flag_congr (hdone.rd _ (by decide) (by decide)) _).trans (State.flag_setFlag_same _ _ _ (by decide) (by decide) _)
      · refine (if_neg htoken).mpr ?_
        rw [if_neg fun h' => htoken h'.2.2]
    · by_cases hgood : s.tokenGood 4 (zeros 48) = true
      · refine (if_pos hgood).mpr ?_
        by_cases hpair : s.keyDrawn.2.pairwise s.keyDrawn.1 = true
        · refine (if_pos hpair).mpr ?_
          rw [rotateSealKey_done h hgood hpair]
          have hdone := (s.keyDrawn.2.rotated s.keyDrawn.1 s.vt.sealKey).mbDone_done 0
            (fitBytes 256 (s.keyDrawn.2.rotated s.keyDrawn.1 s.vt.sealKey).sealCertBytes)
          have hcert : ∀ u v : State, u.vt.sealKey = v.vt.sealKey → u.vt.sealCert = v.vt.sealCert → u.pw = v.pw → u.sealCertBytes = v.sealCertBytes :=
            fun u v h1 h2 h3 => by simp only [State.sealCertBytes, h1, h2, h3]
          refine ⟨congrArg VtSt.rotate hdone.vt, congrArg VtSt.sealKey hdone.vt, (congrArg VtSt.resp hdone.vt).trans ?_, hdone.stat⟩
          exact congrArg (fitBytes 256) (hcert _ _ (congrArg VtSt.sealKey hdone.vt).symm (congrArg VtSt.sealCert hdone.vt).symm hdone.pw.symm)
        · refine (if_neg hpair).mpr ?_
          rw [rotateSealKey_failed h hgood (Bool.eq_false_iff.mpr hpair)]
          have hfailed := s.keyDrawn.2.draw64.2.selftestFail_failed (s.keyDrawn.2.draw64.1.toNat % 255 + 1)
          have hdone := (s.keyDrawn.2.draw64.2.selftestFail (s.keyDrawn.2.draw64.1.toNat % 255 + 1)).mbDone_done 5 []
          refine ⟨?_, ?_, hdone.stat⟩
          · exact (State.fget_congr (hdone.rd _ (by decide) (by decide)) _).trans hfailed.state
          · rw [hdone.vt, hfailed.vt]
            rfl
      · refine (if_neg hgood).mpr ?_
        exact rotateSealKey_refused h (Bool.eq_false_iff.mpr hgood)
    · rw [exportCal_asked h hset hkey]
      have hdone := State.mbDone_done ({ s.endUcode with freeCtr := s.freeCtr + 1 }) 0
        (s.exportBody b k ++ fitBytes 96 (Config.ecSign k (s.exportBody b k) s.freeCtr))
      refine ⟨hdone.stat, ?_, hdone.cal⟩
      rw [hdone.vt]
      simp only [State.exportBody, List.length_append, fitBytes_length]
    · rw [tamperLog_asked h]
      have hdone := s.entriesDrawn.2.mbDone_done 0 (fitBytes 256 s.entriesDrawn.1 ++ leBytes 4 s.vt.logCount.toNat)
      rw [hdone.vt]
      exact ⟨hdone.stat, rfl, List.drop_left' (fitBytes_length 256 _)⟩
  · intro s e
    refine ⟨fun h hok hlen => Becomes.of rfl (State.service_badLength _ _ _ h (by decide) hok hlen),
      fun h herr => Becomes.of rfl (State.service_inError _ _ h (by decide) herr),
      fun h hok hsession => Becomes.of rfl (State.userService_stranger _ _ h hok hsession),
      fun h howner => Becomes.of rfl ((enrol_asked h).trans (if_pos (Option.isSome_iff_ne_none.mpr howner))),
      fun h htoken => Ends.of (v := setUserKey s) rfl ?_, fun h => Becomes.of rfl (State.service_other _ _ _ _ h), fun hbusy => ?_⟩
    · rw [setUserKey_asked h, if_neg (by simp [State.tokenGood, htoken])]
      have hdone := (s.endUcode.refuseAuth 0x21).mbDone_done 3 []
      rw [hdone.vt, State.refuseAuth_vt]
      refine ⟨hdone.stat, rfl, rfl, (hdone.rd _ (by decide) (by decide)).trans ?_⟩
      exact s.endUcode.refuseAuth_occ 0x21
    · have hother := State.serving_idle hbusy
      exact ⟨Becomes.of rfl (State.service_other _ _ _ _ (hother _)), Becomes.of rfl (State.service_other _ _ _ _ (hother _)),
        Becomes.of rfl (State.service_other _ _ _ _ (hother _)), Becomes.of rfl (State.service_other _ _ _ _ (hother _)),
        Becomes.of rfl (State.service_other _ _ _ _ (hother _)), Becomes.of rfl (State.userService_other _ _ (hother _)),
        Becomes.of rfl (State.service_other _ _ _ _ (hother _)), Becomes.of rfl (State.service_other _ _ _ _ (hother _)),
        Becomes.of rfl (State.service_other _ _ _ _ (hother _)), Becomes.of rfl (State.service_other _ _ _ _ (hother _)),
        Becomes.of rfl (State.service_other _ _ _ _ (hother _)), Becomes.of rfl (State.service_other _ _ _ _ (hother _)),
        Becomes.of rfl (State.userService_other _ _ (hother _)), Becomes.of rfl (State.userService_other _ _ (hother _)),
        Becomes.of rfl (State.userService_other _ _ (hother _)), Becomes.of rfl (State.userService_other _ _ (hother _))⟩

end Sys2Proof.Machine
end

section
/-! PROOF. Lane tests and key agreement (O46). -/

namespace Sys2Proof.Machine

/-! ## Lane tests -/

/-- A lane whose test the head may set (R329), as the statement writes it. -/
def State.laneEligible (s : State) (l : Nat) : Prop :=
  (l = 4 ∧ s.fget Reg.TB_CTL Fld.TB_CTL_src ≠ 1) ∨ (l = 9 ∧ (s.isTwin = false ∨ s.inRun = false))
    ∨ (4 < l ∧ l < 9 ∧ (s.inRun = false ∨ (lanePort l).any (fun e => (s.inService e.1).testBit (1 - e.2)) = true))

/-- Mode and pattern of a test write are listed (R329). -/
def testListed (val : Word) : Prop := BitField.get Fld.LN_TEST_mode val ≤ 4 ∧ BitField.get Fld.LN_TEST_pattern val ≤ 5

theorem State.laneEligible_lt {s : State} {l : Nat} (h : s.laneEligible l) : l < 10 := by
  rcases h with ⟨h, _⟩ | ⟨h, _⟩ | ⟨_, h, _⟩ <;> omega

theorem State.laneTestOk_iff {s : State} {l : Nat} (val : Word) (hl : l < 10) :
    s.laneTestOk l val = true ↔ s.laneEligible l ∧ testListed val := by
  have hcase : l < 4 ∨ l = 4 ∨ l = 9 ∨ (4 < l ∧ l < 9) := by omega
  unfold State.laneTestOk State.laneEligible testListed
  extract_lets otherUp eligible
  have hup : otherUp = (lanePort l).any (fun e => (s.inService e.1).testBit (1 - e.2)) := by
    simp only [otherUp]; cases lanePort l <;> rfl
  rw [← hup]
  clear_value otherUp
  simp only [eligible]
  rcases hcase with h | rfl | rfl | ⟨h4, h9⟩
  · simp [h, show ¬ l = 4 by omega, show ¬ l = 9 by omega, show ¬ 4 < l by omega]
  · simp [and_assoc]
  · simp [and_assoc]
  · simp [h4, h9, show ¬ l < 4 by omega, show ¬ l = 4 by omega, show ¬ l = 9 by omega, and_assoc]

/-- LN_TEST with the written word, and the error watch of a test that starts begun anew. -/
def State.testSet (s : State) (l : Nat) (val : Word) : State :=
  (if BitField.get Fld.LN_TEST_run val = 1 ∧ s.flag (Reg.LN_TEST l) Fld.LN_TEST_run = false then
    { s with ln := { s.ln with lastErr := kerase s.ln.lastErr l } } else s).wr (Reg.LN_TEST l) (val &&& 0xFF00FFFF#32 &&& ~~~(1#32 <<< 23))

/-- What a set test does to its lane: it leaves service as the test starts, and its port trains again after the test. -/
def State.testSwitched (u : State) (l : Nat) (was : Bool) : State :=
  if u.laneTested l && !was then
    match lanePort l with
    | some (p, _) => if p < 2 && 3 ≤ (u.laneOut l 0 false).pstate p then (u.laneOut l 0 false).setPstate p 4 else u.laneOut l 0 false
    | none => u.laneOut l 0 false
  else if was && !u.laneTested l then
    match lanePort l with
    | some (p, _) => if p < 2 && u.pstate p = 4 then u.setPstate p 3 else u
    | none => u
  else u

theorem lnTestWrite_refused {i : BitVec 4} {val : Word} {s : State} (hl : i.toNat < 10) (hok : s.laneTestOk i.toNat val = false) :
    lnTestWrite i val s = s.accErr true (Reg.LN_TEST i.toNat) := by
  simp [lnTestWrite, show ¬ 9 < i.toNat by omega, hok]

theorem lnTestWrite_taken {i : BitVec 4} {val : Word} {s : State} (hl : i.toNat < 10) (hok : s.laneTestOk i.toNat val = true) :
    lnTestWrite i val s = (s.testSet i.toNat val).testSwitched i.toNat (s.laneTested i.toNat) := by
  have hset : (if (BitField.get Fld.LN_TEST_run val = 1 && !s.flag (Reg.LN_TEST i.toNat) Fld.LN_TEST_run) = true then
      { s with ln := { s.ln with lastErr := kerase s.ln.lastErr i.toNat } } else s).wr (Reg.LN_TEST i.toNat)
        (val &&& 0xFF00FFFF#32 &&& ~~~(1#32 <<< 23)) = s.testSet i.toNat val := by
    simp [State.testSet]
  simp only [lnTestWrite, show ¬ 9 < i.toNat by omega, hok, if_false, Bool.not_true, Bool.false_eq_true, hset]
  rfl

section switched
variable {u : State} {l p j : Nat} {was : Bool}

theorem State.testSwitched_same (h : u.laneTested l = was) : u.testSwitched l was = u := by
  cases was <;> simp [State.testSwitched, h]

theorem State.testSwitched_noPort (hp : lanePort l = none) : u.testSwitched l was = u := by
  simp [State.testSwitched, State.laneOut, hp]

theorem State.testSwitched_starts (hu : u.laneTested l = true) (hp : lanePort l = some (p, j)) :
    u.testSwitched l false = if p < 2 ∧ 3 ≤ (u.laneOut l 0 false).pstate p then (u.laneOut l 0 false).setPstate p 4
      else u.laneOut l 0 false := by
  simp [State.testSwitched, hu, hp]

theorem State.testSwitched_stops (hu : u.laneTested l = false) (hp : lanePort l = some (p, j)) :
    u.testSwitched l true = if p < 2 ∧ u.pstate p = 4 then u.setPstate p 3 else u := by
  simp [State.testSwitched, hu, hp]

end switched

/-- A word of a register file outside LN_TEST does not move with a test write. -/
theorem State.testSet_rd_ne (s : State) (l : Nat) (val : Word) {a : Nat} (ha : a ≠ Reg.LN_TEST l) :
    (s.testSet l val).rd a = s.rd a := by
  rw [State.testSet, State.rd_wr_ne _ _ ha]
  split <;> rfl

theorem State.testSet_pstate (s : State) {l p : Nat} (val : Word) (hp : p < 2) : (s.testSet l val).pstate p = s.pstate p := by
  have hrd : (s.testSet l val).rd (Reg.LN_PSTAT p) = s.rd (Reg.LN_PSTAT p) :=
    s.testSet_rd_ne l val (by simp only [Reg.LN_PSTAT, Reg.LN_TEST]; omega)
  rw [State.pstate, State.pstate, if_pos hp, if_pos hp]
  exact State.fget_congr hrd _

theorem lnTestInject_idle {i : BitVec 4} {s : State}
    (h : lanePort i.toNat = none ∨ s.flag (Reg.LN_TEST i.toNat) Fld.LN_TEST_run = false
      ∨ s.fget (Reg.LN_TEST i.toNat) Fld.LN_TEST_mode ≠ 4) : lnTestInject i s = s := by
  rw [lnTestInject]
  rcases h with h | h | h
  · simp [h]
  · cases hp : lanePort i.toNat <;> simp [h]
  · cases hp : lanePort i.toNat <;> simp [h]

theorem lnTestInject_eq {i : BitVec 4} {s : State} {p j : Nat} (hp : lanePort i.toNat = some (p, j)) :
    lnTestInject i s = if s.flag (Reg.LN_TEST i.toNat) Fld.LN_TEST_run && s.fget (Reg.LN_TEST i.toNat) Fld.LN_TEST_mode == 4
      && (s.inService p).testBit j then s.modPort p (fun x => { x with inject := true }) else s := by
  simp [lnTestInject, hp]

/-! ## The pattern checkers -/

/-- The checker of a lane runs (R331). -/
def State.patternChecked (s : State) (l : Nat) : Prop :=
  4 ≤ l ∧ l < 10 ∧ s.flag (Reg.LN_TEST l) Fld.LN_TEST_run = true
    ∧ (s.fget (Reg.LN_TEST l) Fld.LN_TEST_mode = 2 ∨ s.fget (Reg.LN_TEST l) Fld.LN_TEST_mode = 3)

/-- The errors and bits of a test, counted. -/
def State.errorsCounted (s : State) (l : Nat) (errors : Word) (bits : Word64) : State :=
  (s.incSat (Reg.LN_TERR l) errors.toNat).wr64 (Reg.LN_TBITS_LO l)
    ((s.incSat (Reg.LN_TERR l) errors.toNat).rd64 (Reg.LN_TBITS_LO l) + bits)

theorem prbsError_idle {i : BitVec 4} {errors : Word} {bits : Word64} {first : Bool} {s : State} (h : ¬ s.patternChecked i.toNat) :
    prbsError i errors bits first s = s := by
  refine if_pos (Classical.byContradiction fun hchecked => h ?_)
  simp only [Bool.or_eq_true, Bool.and_eq_true, decide_eq_true_eq, bne_iff_ne, Bool.not_eq_true', not_or, Bool.not_eq_false] at hchecked
  obtain ⟨⟨⟨hhigh, hlow⟩, hrun⟩, hmode⟩ := hchecked
  exact ⟨by omega, by omega, hrun, by omega⟩

theorem prbsError_eq {i : BitVec 4} {errors : Word} {bits : Word64} {first : Bool} {s : State} (h : s.patternChecked i.toNat) :
    prbsError i errors bits first s =
      let u := s.errorsCounted i.toNat errors bits
      let v := { u with ln := { u.ln with lastErr := kset u.ln.lastErr i.toNat u.tb.cnt } }
      if u.firstError i.toNat then v.raiseD 45 i.toNat 0 0 ((v.rd (Reg.LN_TERR i.toNat)).setWidth 64) else v := by
  obtain ⟨h4, h9, hrun, hmode⟩ := h
  refine if_neg ?_
  rcases hmode with hmode | hmode <;> simp [hrun, hmode, show ¬ 9 < i.toNat by omega, show ¬ i.toNat < 4 by omega]

theorem State.errorsCounted_terr (s : State) (l : Nat) (errors : Word) (bits : Word64) :
    (s.errorsCounted l errors bits).rd (Reg.LN_TERR l) = word (min 0xFFFFFFFF (s.rdN (Reg.LN_TERR l) + errors.toNat)) := by
  rw [State.errorsCounted, State.wr64, State.rd_wr_ne _ _ (by simp only [Reg.LN_TERR, Reg.LN_TBITS_LO]; omega),
    State.rd_wr_ne _ _ (by simp only [Reg.LN_TERR, Reg.LN_TBITS_LO]; omega), State.incSat, State.rd_wr_same]

theorem State.errorsCounted_bits (s : State) (l : Nat) (errors : Word) (bits : Word64) :
    (s.errorsCounted l errors bits).rd64 (Reg.LN_TBITS_LO l) = s.rd64 (Reg.LN_TBITS_LO l) + bits := by
  have hterr : (s.incSat (Reg.LN_TERR l) errors.toNat).rd64 (Reg.LN_TBITS_LO l) = s.rd64 (Reg.LN_TBITS_LO l) := by
    rw [State.rd64, State.rd64, State.incSat, State.rd_wr_ne _ _ (by simp only [Reg.LN_TERR, Reg.LN_TBITS_LO]; omega),
      State.rd_wr_ne _ _ (by simp only [Reg.LN_TERR, Reg.LN_TBITS_LO]; omega)]
  rw [State.errorsCounted, State.rd64_wr64_same, hterr]

theorem State.errorsCounted_rd_ne (s : State) (l : Nat) (errors : Word) (bits : Word64) {a : Nat} (ha : a < Reg.LN_TERR l ∨ 0x70000 ≤ a)
    (hl : l < 10) : (s.errorsCounted l errors bits).rd a = s.rd a := by
  simp only [Reg.LN_TERR] at ha
  rw [State.errorsCounted, State.wr64, State.incSat, State.rd_wr_ne _ _ (by simp only [Reg.LN_TBITS_LO]; omega),
    State.rd_wr_ne _ _ (by simp only [Reg.LN_TBITS_LO]; omega), State.rd_wr_ne _ _ (by simp only [Reg.LN_TERR]; omega)]

/-- PRBS_ERROR of a checker whose run of errors begins: the counts stand and the event is counted. -/
theorem prbsError_first {i : BitVec 4} {errors : Word} {bits : Word64} {first : Bool} {s : State} (h : s.patternChecked i.toNat)
    (hfirst : (kget? s.ln.lastErr i.toNat).all (fun t => decide (secondCounts ≤ (s.tb.cnt - t).toNat)) = true) :
    (prbsError i errors bits first s).rd (Reg.LN_TERR i.toNat)
        = word (min 0xFFFFFFFF (s.rdN (Reg.LN_TERR i.toNat) + errors.toNat))
      ∧ (prbsError i errors bits first s).rd64 (Reg.LN_TBITS_LO i.toNat) = s.rd64 (Reg.LN_TBITS_LO i.toNat) + bits
      ∧ (prbsError i errors bits first s).rd (Reg.EV_OCC 45) = s.rd (Reg.EV_OCC 45) + 1 := by
  have hl := h.2.1
  have hf : (s.errorsCounted i.toNat errors bits).firstError i.toNat = true := by
    have hsame : (s.errorsCounted i.toNat errors bits).firstError i.toNat = s.firstError i.toNat := rfl
    rw [hsame, State.firstError]
    cases hk : kget? s.ln.lastErr i.toNat with
    | none => rfl
    | some t => simpa [hk] using hfirst
  rw [prbsError_eq h]
  simp only [hf, if_true]
  generalize hv : ({ s.errorsCounted i.toNat errors bits with ln := _ } : State) = v
  have hrd : ∀ a, v.rd a = (s.errorsCounted i.toNat errors bits).rd a := fun a => by rw [← hv]; rfl
  have hraised := raiseD_raised v 45 i.toNat 0 0 ((v.rd (Reg.LN_TERR i.toNat)).setWidth 64) (by decide)
  have hlane : ∀ a, 0x30000 ≤ a → a < 0x40000 → eventReg a = false := by
    intro a h1 h2
    simp only [eventReg, Bool.or_eq_false_iff, Bool.and_eq_false_iff, decide_eq_false_iff_not]
    omega
  refine ⟨?_, ?_, ?_⟩
  · rw [hraised.frame.rd _ (hlane _ (by simp only [Reg.LN_TERR]; omega) (by simp only [Reg.LN_TERR]; omega)), hrd,
      State.errorsCounted_terr]
  · rw [State.rd64, hraised.frame.rd _ (hlane _ (by simp only [Reg.LN_TBITS_LO]; omega) (by simp only [Reg.LN_TBITS_LO]; omega)),
      hraised.frame.rd _ (hlane _ (by simp only [Reg.LN_TBITS_LO]; omega) (by simp only [Reg.LN_TBITS_LO]; omega)), hrd, hrd,
      ← State.rd64, State.errorsCounted_bits]
  · rw [hraised.occ, hrd, State.errorsCounted_rd_ne _ _ _ _ (Or.inr (by decide)) hl]

/-! ## Key agreement -/

section agreement
variable {port : BitVec 2} {msg : List Byte} {engine : Byte} {a : Agree} {s : State}

theorem keyAgreementOffer_none (h : 2 < port.toNat ∨ s.agreeing port.toNat = false) : keyAgreementOffer port msg s = s :=
  if_pos (by rcases h with h | h <;> simp [h])

theorem keyAgreementConfirm_none (h : 2 < port.toNat ∨ s.agreeing port.toNat = false) :
    keyAgreementConfirm port ⟨msg, engine⟩ s = s :=
  if_pos (by rcases h with h | h <;> simp [h])

/-- The offer of the other hub can be answered (R385). -/
def State.offerSound (s : State) (a : Agree) (m : List Byte) : Bool :=
  s.mayAgree && !a.priv.isEmpty && slice m 0 1 == [1#8] && certOk (slice m 0x80 256)
    && (!s.flag Reg.VT_SECCFG Fld.VT_SECCFG_same_owner || slice m 8 8 == s.ownerId)

/-- The confirmation of the other hub proves its identity (R385). -/
def State.confirmProves (s : State) (a : Agree) (m : List Byte) : Bool :=
  s.mayAgree && !a.priv.isEmpty && !a.partner.isEmpty && slice m 0 1 == [2#8]
    && Config.ecVerify (offerPublic a.partner) (offersInOrder a.offer a.partner) (slice m 0x20 96)

theorem keyAgreementOffer_eq (hq : port.toNat < 3) (hin : s.agreeing port.toNat = true) (ha : (s.port port.toNat).agree = some a) :
    keyAgreementOffer port msg s = if s.offerSound a (fitBytes 384 msg) then
        ({ s.modPort port.toNat (fun x => { x with agree := some { a with partner := fitBytes 384 msg } }) with
            freeCtr := s.freeCtr + 1 }).sendAgree port.toNat
          ([2#8, portByte port.toNat] ++ zeros 6 ++ s.ownerId ++ zeros 16
            ++ fitBytes 96 (Config.ecSign Config.factoryIdentityKey (offersInOrder a.offer (fitBytes 384 msg)) s.freeCtr) ++ zeros 256)
      else s.failAgree port.toNat := by
  have hgo : ¬ (decide (2 < port.toNat) || !s.agreeing port.toNat) = true := by simp [hin]; omega
  have hbad : (!s.mayAgree || a.priv.isEmpty || slice (fitBytes 384 msg) 0 1 != [1#8] || !certOk (slice (fitBytes 384 msg) 0x80 256)
      || !(!s.flag Reg.VT_SECCFG Fld.VT_SECCFG_same_owner || slice (fitBytes 384 msg) 8 8 == s.ownerId))
      = !s.offerSound a (fitBytes 384 msg) := by
    simp only [State.offerSound, Bool.not_and, Bool.not_not, bne]
  unfold keyAgreementOffer
  simp only [hgo, ha, hbad]
  cases s.offerSound a (fitBytes 384 msg) <;> rfl

theorem keyAgreementConfirm_eq (hq : port.toNat < 3) (hin : s.agreeing port.toNat = true) (ha : (s.port port.toNat).agree = some a) :
    keyAgreementConfirm port ⟨msg, engine⟩ s = if s.confirmProves a (fitBytes 384 msg) then
        if engine != 0 then s.engineFailed port.toNat engine.toNat
        else (s.modPort port.toNat
          (fun x => { x with keys := some (laneKeys a 0), rekey := 0, txSlots := 0, rxSlots := 0 })).portComesUp port.toNat
      else s.failAgree port.toNat := by
  have hgo : ¬ (decide (2 < port.toNat) || !s.agreeing port.toNat) = true := by simp [hin]; omega
  have hbad : (!s.mayAgree || a.priv.isEmpty || a.partner.isEmpty || slice (fitBytes 384 msg) 0 1 != [2#8]
      || !Config.ecVerify (offerPublic a.partner) (offersInOrder a.offer a.partner) (slice (fitBytes 384 msg) 0x20 96))
      = !s.confirmProves a (fitBytes 384 msg) := by
    simp only [State.confirmProves, Bool.not_and, Bool.not_not, bne]
  unfold keyAgreementConfirm
  simp only [hgo, ha, hbad]
  cases s.confirmProves a (fitBytes 384 msg) <;> rfl

theorem keyAgreementConfirm_tested (hq : port.toNat < 3) (hin : s.agreeing port.toNat = true)
    (ha : (s.port port.toNat).agree = some a) : keyAgreementConfirm port ⟨msg, 0⟩ s =
      if s.confirmProves a (fitBytes 384 msg) then (s.modPort port.toNat
          (fun x => { x with keys := some (laneKeys a 0), rekey := 0, txSlots := 0, rxSlots := 0 })).portComesUp port.toNat
      else s.failAgree port.toNat := by
  rw [keyAgreementConfirm_eq hq hin ha, if_neg (show ¬ ((0 : Byte) != 0) = true by decide)]

theorem keyAgreementConfirm_failed (hq : port.toNat < 3) (hin : s.agreeing port.toNat = true)
    (ha : (s.port port.toNat).agree = some a) (he : engine ≠ 0) : keyAgreementConfirm port ⟨msg, engine⟩ s =
      if s.confirmProves a (fitBytes 384 msg) then s.engineFailed port.toNat engine.toNat else s.failAgree port.toNat := by
  rw [keyAgreementConfirm_eq hq hin ha, if_pos (show (engine != 0) = true by simpa using he)]

end agreement

/-- Settles O46: each clause is one branch of its command; a checker's first error raises its event after the counts. -/
theorem testsAndKeys : Obligations.TestsAndKeys := by
  intro s i val errors bits port msg engine a p j first t l mode q m sound answered sig proven otherUp eligible listed anew set out checks
    counted
  have hok : ∀ {P : Prop}, eligible → listed → (l < 10 → s.laneTestOk l val = true → P) → P := fun he hl k =>
    k (State.laneEligible_lt he) ((State.laneTestOk_iff val (State.laneEligible_lt he)).mpr ⟨he, hl⟩)
  refine ⟨fun hl hno => Becomes.of rfl ?_, fun hl => Becomes.of rfl ?_, fun he hl hsame => Becomes.of rfl ?_,
    fun he hl hwas his hp hp2 h3 => Becomes.of rfl ?_, fun he hl hwas his hp h3 => Becomes.of rfl ?_,
    fun he hl hwas his hp hp2 h4 => Becomes.of rfl ?_, fun he hl hwas his hp h4 => Becomes.of rfl ?_,
    fun h => Becomes.of rfl (lnTestInject_idle h), fun hp hout => Becomes.of rfl ?_, fun hno => Becomes.of rfl (prbsError_idle hno),
    fun hc hk hlt => Becomes.of rfl ?_,
    fun h => ⟨Becomes.of rfl (keyAgreementOffer_none h), Becomes.of rfl (keyAgreementConfirm_none h)⟩,
    fun hq hin ha hno => Becomes.of rfl ?_, fun hq => Becomes.of rfl ?_, fun hl => Becomes.of rfl ?_,
    fun hl hsrc hm hpt => Becomes.of rfl ?_, fun hp hrun hmode hserv => Becomes.of rfl ?_,
    fun h4 h9 hrun hmode hfirst => Ends.of rfl (prbsError_first ⟨h4, h9, hrun, hmode⟩ hfirst),
    fun hq hin ha => Becomes.of rfl (keyAgreementOffer_eq hq hin ha), fun hq hin ha hne => Becomes.of rfl (keyAgreementConfirm_failed hq hin ha hne),
    fun hq hin ha => Becomes.of rfl (keyAgreementConfirm_tested hq hin ha), fun hq hin => Becomes.of rfl ?_, fun hin => Becomes.of rfl ?_⟩
  · refine lnTestWrite_refused hl (Bool.eq_false_iff.mpr fun h => hno ((State.laneTestOk_iff val hl).mp h))
  · exact if_pos hl
  · refine hok he hl fun hlt hok => ?_
    rw [lnTestWrite_taken hlt hok]
    exact State.testSwitched_same hsame
  · refine hok he hl fun hlt hok => ?_
    rw [lnTestWrite_taken hlt hok, hwas, State.testSwitched_starts (u := s.testSet i.toNat val) (l := i.toNat) his hp]
    exact if_pos ⟨hp2, h3⟩
  · refine hok he hl fun hlt hok => ?_
    rw [lnTestWrite_taken hlt hok, hwas, State.testSwitched_starts (u := s.testSet i.toNat val) (l := i.toNat) his hp]
    refine if_neg fun h => ?_
    have h3' : 3 ≤ out.pstate p := h.2
    omega
  · refine hok he hl fun hlt hok => ?_
    rw [lnTestWrite_taken hlt hok, hwas, State.testSwitched_stops (u := s.testSet i.toNat val) (l := i.toNat) his hp, State.testSet_pstate _ _ hp2]
    exact if_pos ⟨hp2, h4⟩
  · refine hok he hl fun hlt hok => ?_
    rw [lnTestWrite_taken hlt hok, hwas, State.testSwitched_stops (u := s.testSet i.toNat val) (l := i.toNat) his hp]
    refine if_neg fun ⟨hp2, h⟩ => ?_
    rw [State.testSet_pstate _ _ hp2] at h
    omega
  · rw [lnTestInject_eq hp]
    exact if_neg (by simp [hout])
  · have hf : (s.errorsCounted i.toNat errors bits).firstError i.toNat = false := by
      have hsame : (s.errorsCounted i.toNat errors bits).firstError i.toNat = s.firstError i.toNat := rfl
      rw [hsame, State.firstError, hk]
      simpa using hlt
    rw [prbsError_eq hc]
    simp only [hf, Bool.false_eq_true, if_false]
    rfl
  · exact (keyAgreementConfirm_eq hq hin ha).trans (if_neg (Bool.eq_false_iff.mp hno))
  · exact if_neg (by simp only [Bool.and_eq_true, decide_eq_true_eq]; omega)
  · refine lnTestWrite_refused (by omega) (Bool.eq_false_iff.mpr fun h => ?_)
    rcases ((State.laneTestOk_iff val (by omega)).mp h).1 with h | h | h <;> omega
  · have he : eligible := Or.inl ⟨hl, hsrc⟩
    refine hok he ⟨hm, hpt⟩ fun hlt hok => ?_
    rw [lnTestWrite_taken hlt hok]
    exact State.testSwitched_noPort (by rw [show i.toNat = 4 from hl]; rfl)
  · rw [lnTestInject_eq hp]
    refine if_pos ?_
    simp only [Bool.and_eq_true, beq_iff_eq]
    exact ⟨⟨hrun, hmode⟩, hserv⟩
  · exact if_pos (Bool.and_eq_true_iff.mpr ⟨decide_eq_true hq, hin⟩)
  · exact if_neg fun h => Bool.false_ne_true (hin.symm.trans (Bool.and_eq_true_iff.mp h).2)

end Sys2Proof.Machine
end

section
/-! SUPPORT. What a cell on a port moves: the ports alone (R302, R307, R308); and the words of a ring port's state. -/

namespace Sys2Proof.Machine

/-- Beside the free values and what goes out, only the ports of the hub's links changed. -/
structure PortsOnly (s t : State) : Prop where
  link : LinkOnly s t
  ln : t.ln = { s.ln with ports := t.ln.ports }

theorem PortsOnly.refl (s : State) : PortsOnly s s := ⟨.refl s, rfl⟩

theorem PortsOnly.trans {s t u : State} (h : PortsOnly s t) (k : PortsOnly t u) : PortsOnly s u :=
  ⟨h.link.trans k.link, by rw [k.ln, h.ln]⟩

theorem PortsOnly.foldl {α : Type} (f : State → α → State) (hf : ∀ s x, PortsOnly s (f s x)) (l : List α) (s : State) :
    PortsOnly s (l.foldl f s) := by
  induction l generalizing s with
  | nil => exact .refl s
  | cons x t ih => exact (hf s x).trans (ih _)

theorem PortsOnly.emit (s : State) (o : Output) : PortsOnly s (s.emit o) := ⟨.emit s o, rfl⟩
theorem PortsOnly.setPort (s : State) (p : Nat) (x : PortSt) : PortsOnly s (s.setPort p x) := ⟨.setPort s p x, rfl⟩
theorem PortsOnly.modPort (s : State) (p : Nat) (f : PortSt → PortSt) : PortsOnly s (s.modPort p f) := .setPort s p _
theorem PortsOnly.draw64 (s : State) : PortsOnly s s.draw64.2 := ⟨.draw64 s, rfl⟩
theorem PortsOnly.drawLane (s : State) (p i : Nat) : PortsOnly s (s.drawLane p i) := ⟨.drawLane s p i, rfl⟩

theorem PortsOnly.lineStarts (s : State) (p : Nat) : PortsOnly s (s.lineStarts p) :=
  ((PortsOnly.drawLane s p 0).trans (.drawLane _ p 1)).trans (.modPort _ p _)

theorem PortsOnly.nextSlot (s : State) (p : Nat) : PortsOnly s (s.nextSlot p) := by
  rw [State.nextSlot]
  exact ite_both (PortsOnly s) _ _ _ (.refl s)
    (((((PortsOnly.draw64 s).trans (.drawLane _ p 0)).trans (.drawLane _ p 1)).trans (.modPort _ p _)).trans (.emit _ _))

theorem PortsOnly.putCell (s : State) (p n : Nat) (c : Cell) (bad : Bool) : PortsOnly s (s.putCell p n c bad) :=
  ((PortsOnly.nextSlot s p).trans (.setPort _ p _)).trans (.emit _ _)

theorem PortsOnly.sendUnseq (s : State) (p typ dst : Nat) (first last : Bool) (payload : List Byte) :
    PortsOnly s (s.sendUnseq p typ dst first last payload) := .putCell s p 0 _ false

theorem PortsOnly.sendControl (s : State) (p flags : Nat) : PortsOnly s (s.sendControl p flags) :=
  (PortsOnly.modPort s p _).trans (.sendUnseq ..)

theorem PortsOnly.transmit (s : State) (p : Nat) (c : Cell) : PortsOnly s (s.transmit p c) :=
  (PortsOnly.putCell s p _ c _).trans (.setPort _ p _)

theorem PortsOnly.sendCell (s : State) (p : Nat) (own : Bool) (c : Cell) : PortsOnly s (s.sendCell p own c) := by
  rw [State.sendCell]
  exact ite_both (PortsOnly s) _ _ _ (.transmit ..) (.modPort ..)

theorem PortsOnly.flowControl (s : State) (p : Nat) : PortsOnly s (s.flowControl p) := by
  rw [State.flowControl]
  exact ite_both (PortsOnly s) _ _ _ (.refl s) (ite_both (PortsOnly s) _ _ _ ((PortsOnly.modPort ..).trans (.sendControl ..))
    (ite_both (PortsOnly s) _ _ _ ((PortsOnly.modPort ..).trans (.sendControl ..)) (.refl s)))

theorem PortsOnly.rd {s t : State} (h : PortsOnly s t) (a : Nat) : t.rd a = s.rd a := State.rd_congr h.link.regs a

/-! ## The state word of a port -/

section pstate
variable {s t : State} {p : Nat}

theorem State.pstate_congr (h : t.regs = s.regs) (p : Nat) : t.pstate p = s.pstate p := by
  have hrd := fun a => State.rd_congr h a
  have hup : t.portUp 2 = s.portUp 2 := State.flag_congr (hrd _) _
  rw [State.pstate, State.pstate, hup, State.fget_congr (hrd _)]

theorem State.pstate_of_rd (h : t.rd (Reg.LN_PSTAT p) = s.rd (Reg.LN_PSTAT p)) (hp : p < 2) : t.pstate p = s.pstate p := by
  rw [State.pstate, State.pstate, if_pos hp, if_pos hp]
  exact State.fget_congr h _

theorem State.inService_of_rd (h : t.rd (Reg.LN_PSTAT p) = s.rd (Reg.LN_PSTAT p)) (hp : p < 2) : t.inService p = s.inService p := by
  rw [State.inService, State.inService, if_pos hp, if_pos hp]
  exact State.fget_congr h _

theorem State.pstate_setPstate (s : State) (p v : Nat) (hp : p < 2) (hv : v < 4) : (s.setPstate p v).pstate p = v := by
  rw [State.pstate, State.setPstate, if_pos hp, if_pos hp, State.fget_fput_same _ _ _ (by decide) (by decide)]
  have hw : (Fld.LN_PSTAT_state.hi + 1 - Fld.LN_PSTAT_state.lo) = 3 := rfl
  rw [hw]
  omega

theorem State.portUp_eq (hp : p < 2) : s.portUp p = decide (3 ≤ s.pstate p) := by
  rw [State.portUp, State.pstate, if_pos hp, if_pos hp]

theorem State.pstate_twin (s : State) : s.pstate 2 = if s.portUp 2 then 3 else 0 := rfl

end pstate

/-! ## A port that falls back (R314) -/

/-- What of a port's link falls back as it goes down (R314). -/
def PortSt.dropped (x : PortSt) : PortSt :=
  { x with hello := false, delineated := false, heldByPartner := false, holding := false, keys := none
           agree := none, naked := false, replaysOfOldest := 0, authRun := 0 }

/-- The words of a port that falls back. -/
def State.fallen (s : State) (p : Nat) : State :=
  if p < 2 then (((s.setPstate p 0).setInService p 0).fput (Reg.LN_PSTAT p) Fld.LN_PSTAT_rate 0).fput (Reg.LN_PSTAT p) Fld.LN_PSTAT_partner 0x3F
  else s.setPstate p 0

theorem State.dropPort_eq (s : State) (p : Nat) : s.dropPort p = (s.fallen p).modPort p PortSt.dropped := rfl

/-- What no register write moves stands through a port's fall. -/
theorem State.fallen_keeps {α : Type} (g : State → α) (hwr : ∀ (u : State) a w, g (u.wr a w) = g u) (s : State) (p : Nat) :
    g (s.fallen p) = g s := by
  have hput : ∀ (u : State) a f n, g (u.fput a f n) = g u := fun u a f n => hwr u a _
  have hstate : g (s.setPstate p 0) = g s := ite_both (fun u => g u = g s) _ _ _ (hput ..) (hput ..)
  refine ite_both (fun u => g u = g s) _ _ _ ?_ hstate
  rw [hput, hput]
  exact (ite_both (fun u => g u = g (s.setPstate p 0)) _ _ _ (hput ..) rfl).trans hstate

theorem State.fallen_ln (s : State) (p : Nat) : (s.fallen p).ln = s.ln := s.fallen_keeps State.ln (fun _ _ _ => rfl) p

theorem State.fallen_rd (s : State) {p a : Nat} (hp : p < 2) (ha : a ≠ Reg.LN_PSTAT p) : (s.fallen p).rd a = s.rd a := by
  rw [State.fallen, if_pos hp, State.rd_fput_ne _ _ _ ha, State.rd_fput_ne _ _ _ ha, State.setInService, if_pos hp,
    State.rd_fput_ne _ _ _ ha, State.setPstate, if_pos hp, State.rd_fput_ne _ _ _ ha]

theorem State.fallen_pstate (s : State) {p : Nat} (hp : p < 2) : (s.fallen p).pstate p = 0 := by
  rw [State.pstate, if_pos hp, State.fallen, if_pos hp, State.fget_fput_disjoint _ _ _ _ (by decide) (by decide),
    State.fget_fput_disjoint _ _ _ _ (by decide) (by decide), State.setInService, if_pos hp,
    State.fget_fput_disjoint _ _ _ _ (by decide) (by decide), State.setPstate, if_pos hp,
    State.fget_fput_same _ _ _ (by decide) (by decide), Nat.zero_mod]

theorem State.dropPort_rd (s : State) {p a : Nat} (hp : p < 2) (ha : a ≠ Reg.LN_PSTAT p) : (s.dropPort p).rd a = s.rd a :=
  s.fallen_rd hp ha

theorem State.dropPort_pstate (s : State) {p : Nat} (hp : p < 2) : (s.dropPort p).pstate p = 0 :=
  (State.pstate_congr (s := s.fallen p) (by rfl) p).trans (s.fallen_pstate hp)

theorem State.dropPort_ln (s : State) (p : Nat) : (s.dropPort p).ln = { s.ln with ports := (s.dropPort p).ln.ports } := by
  have h : (s.dropPort p).ln = { (s.fallen p).ln with ports := (s.dropPort p).ln.ports } := rfl
  rw [h, State.fallen_ln]

theorem State.dropPort_port (s : State) (p : Nat) : (s.dropPort p).port p = (s.port p).dropped := by
  rw [State.dropPort_eq, State.modPort, State.port_setPort_same, State.port_congr (s.fallen_ln p)]

theorem State.dropPort_pw (s : State) (p : Nat) : (s.dropPort p).pw = s.pw :=
  State.fallen_keeps (fun u => (u.modPort p PortSt.dropped).pw) (fun _ _ _ => rfl) s p

theorem State.portGoesDown_down {s : State} {p : Nat} (h : s.pstate p = 0) : s.portGoesDown p = s := if_pos h

end Sys2Proof.Machine
end

section
/-! PROOF. Lanes and ports: a port that goes down on an intact ring, training, the eyes and the retry count (O42). -/

namespace Sys2Proof.Machine

/-! ## A break that this hub sees (R322) -/

section breaks
variable {s : State}

theorem State.noteBreak_first {link : Nat × Nat} (hstate : s.ringState = 2) (hcuts : s.ln.cuts = []) :
    s.noteBreak link =
      let u := ({ s with ln := { s.ln with cuts := [link] } }.setRingState 3).setFlag Reg.LN_STAT Fld.LN_STAT_brk_lat true
      if s.pw.headSel then u.raise 42 (link.1 + 256 * link.2) 0 else u := by
  have hnew : (s.ringState < 2 || 4 < s.ringState || s.ln.cuts.contains link) = false := by simp [hstate, hcuts]
  unfold State.noteBreak
  rw [hnew, hstate, hcuts]
  rfl

theorem State.noteBreak_further {link : Nat × Nat} (hstate : s.ringState = 3) (hcuts : s.ln.cuts.contains link = false) :
    s.noteBreak link = { s with ln := { s.ln with cuts := s.ln.cuts ++ [link] } }.setRingState 4 := by
  have hnew : (s.ringState < 2 || 4 < s.ringState || s.ln.cuts.contains link) = false := by rw [hstate, hcuts]; rfl
  unfold State.noteBreak
  rw [hnew, hstate]
  rfl

end breaks

/-- What the reroute of a cut leaves alone: of the registers LN_STAT alone moves, where the ring's state and its break stand, and so
do the cuts. -/
structure Rerouted (s t : State) : Prop where
  rd : ∀ a, a ≠ Reg.LN_STAT → t.rd a = s.rd a
  state : t.ringState = s.ringState
  brk : t.flag Reg.LN_STAT Fld.LN_STAT_brk_lat = s.flag Reg.LN_STAT Fld.LN_STAT_brk_lat
  heal : t.flag Reg.LN_STAT Fld.LN_STAT_heal_lat = s.flag Reg.LN_STAT Fld.LN_STAT_heal_lat
  cuts : t.ln.cuts = s.ln.cuts
  pw : t.pw = s.pw

theorem Rerouted.refl (s : State) : Rerouted s s := ⟨fun _ _ => rfl, rfl, rfl, rfl, rfl, rfl⟩

theorem Rerouted.trans {s t u : State} (h : Rerouted s t) (k : Rerouted t u) : Rerouted s u :=
  ⟨fun a ha => (k.rd a ha).trans (h.rd a ha), k.state.trans h.state, k.brk.trans h.brk, k.heal.trans h.heal, k.cuts.trans h.cuts,
    k.pw.trans h.pw⟩

theorem Rerouted.of_link {s t : State} (h : LinkOnly s t) (hcuts : t.ln.cuts = s.ln.cuts) : Rerouted s t :=
  ⟨fun a _ => State.rd_congr h.regs a, State.fget_congr (State.rd_congr h.regs _) _, State.flag_congr (State.rd_congr h.regs _) _,
    State.flag_congr (State.rd_congr h.regs _) _, hcuts, h.pw⟩

theorem Rerouted.sendCell (s : State) (p : Nat) (own : Bool) (c : Cell) : Rerouted s (s.sendCell p own c) :=
  have h := PortsOnly.sendCell s p own c
  .of_link h.link (by rw [h.ln])

theorem Rerouted.noteReroute (s : State) : Rerouted s s.noteReroute :=
  ⟨fun _ ha => State.rd_setFlag_ne s _ _ ha, State.fget_fput_disjoint _ _ _ _ (by decide) (by decide) _,
    State.flag_setFlag_disjoint _ _ _ _ (by decide) (by decide) _, State.flag_setFlag_disjoint _ _ _ _ (by decide) (by decide) _, rfl, rfl⟩

theorem Rerouted.joinReroute (s : State) (k x y : Nat) : Rerouted s (s.joinReroute k x y) := by
  rw [State.joinReroute]
  split
  · exact .refl s
  · refine Rerouted.trans ?_ (.noteReroute _)
    exact .of_link (.lnSet s _) rfl

theorem Rerouted.noticePassed (s : State) (k : Nat) : Rerouted s (s.noticePassed k) := by
  rw [State.noticePassed]
  exact ite_both (Rerouted s) _ _ _ (.refl s) (.of_link ((LinkOnly.lnSet s _).trans (.lnSet _ _)) rfl)

/-- What this hub does once it has noted the break of its own link: it joins the reroute, and its other port gets the notice. -/
def State.spreadBreak (s : State) (p : Nat) (link : Nat × Nat) (last : Nat) : State :=
  if !s.ln.cuts.contains link then s
  else
    let me := s.ln.position
    let other := if p = 1 then link.2 else link.1
    let s := if s.firstCut link && !s.ln.passed.contains (1 - p) then (s.joinReroute p me other).noticePassed (1 - p) else s
    if s.portUp (1 - p) then s.sendCell (1 - p) true (s.controlCell 4 other me last other) else s

theorem Rerouted.spreadBreak (s : State) (p : Nat) (link : Nat × Nat) (last : Nat) : Rerouted s (s.spreadBreak p link last) := by
  unfold State.spreadBreak
  extract_lets me other u
  have hu : Rerouted s u := ite_both (Rerouted s) _ _ _ ((Rerouted.joinReroute ..).trans (.noticePassed ..)) (.refl s)
  exact ite_both (Rerouted s) _ _ _ (.refl s) (ite_both (Rerouted s) _ _ _ (hu.trans (.sendCell ..)) hu)

section down
variable {s : State} {p : Nat}

theorem State.dropPort_hubs (s : State) (p : Nat) : (s.dropPort p).hubs = s.hubs := by
  rw [State.hubs, State.hubs, State.dropPort_ln]

theorem State.dropPort_linkOf (s : State) (p : Nat) : (s.dropPort p).linkOf p = s.linkOf p := by
  rw [State.linkOf, State.linkOf, State.dropPort_hubs, State.dropPort_ln]

theorem State.dropPort_ringState (s : State) (hp : p < 2) : (s.dropPort p).ringState = s.ringState :=
  State.fget_congr (s.dropPort_rd hp (by simp only [Reg.LN_STAT, Reg.LN_PSTAT]; omega)) _

theorem State.portUp_pstate (hup : s.portUp p = true) (hp : p < 3) : s.pstate p ≠ 0 := by
  by_cases h2 : p < 2
  · rw [State.portUp_eq h2, decide_eq_true_eq] at hup
    omega
  · obtain rfl : p = 2 := by omega
    rw [State.pstate_twin, if_pos hup]
    decide

theorem portDown_eq {port : BitVec 2} (hp : port.toNat < 3) : portDown port s = s.portGoesDown port.toNat := if_pos hp

theorem State.portGoesDown_drops (hp : p < 2) (hstate : s.pstate p ≠ 0) (h : s.portUp p = false ∨ s.hubs < 2) :
    s.portGoesDown p = s.dropPort p := by
  have hout : (!s.portUp p || decide ((s.dropPort p).hubs < 2)) = true := by
    rw [State.dropPort_hubs]
    rcases h with h | h <;> simp [h]
  rw [State.portGoesDown, if_neg hstate]
  exact (if_neg (by omega)).trans (if_pos hout)

theorem State.portGoesDown_twin (hup : s.portUp 2 = true) : s.portGoesDown 2 = (s.dropPort 2).twinLaneLost := by
  rw [State.portGoesDown, if_neg (State.portUp_pstate hup (by decide))]
  exact (if_pos (by decide)).trans (if_pos hup)

theorem State.portGoesDown_breaks (hp : p < 2) (hup : s.portUp p = true) (hhubs : 2 ≤ s.hubs) :
    s.portGoesDown p = ((s.dropPort p).noteBreak (s.linkOf p)).spreadBreak p (s.linkOf p) ((s.port p).rxSeq - 1).toNat := by
  have hin : ¬ (!s.portUp p || decide ((s.dropPort p).hubs < 2)) = true := by
    rw [State.dropPort_hubs]
    simp only [hup, Bool.not_true, Bool.false_or, decide_eq_true_eq]
    omega
  rw [State.portGoesDown, if_neg (State.portUp_pstate hup (by omega)), ← State.dropPort_linkOf]
  exact (if_neg (by omega)).trans (if_neg hin)

/-- The words of the ring's state as a break is noted: the state's own field, and nothing else that the link test reads. -/
theorem State.setRingState_state (s : State) (v : Nat) (hv : v < 8) : (s.setRingState v).ringState = v := by
  rw [State.ringState, State.setRingState, State.fget_fput_same _ _ _ (by decide) (by decide)]
  exact Nat.mod_eq_of_lt hv

theorem State.setRingState_rd (s : State) (v : Nat) {a : Nat} (ha : a ≠ Reg.LN_STAT) (hrtt : a ≠ Reg.TB_RINGRTT) :
    (s.setRingState v).rd a = s.rd a := by
  rw [State.setRingState, State.rd_fput_ne _ _ _ ha]
  exact ite_both (fun u : State => u.rd a = s.rd a) _ _ _ rfl (State.rd_wr_ne s _ hrtt)

theorem State.setRingState_ln (s : State) (v : Nat) : (s.setRingState v).ln = s.ln :=
  ite_both (fun u : State => (u.fput Reg.LN_STAT Fld.LN_STAT_state v).ln = s.ln) _ _ _ rfl rfl

theorem State.setRingState_pw (s : State) (v : Nat) : (s.setRingState v).pw = s.pw :=
  ite_both (fun u : State => (u.fput Reg.LN_STAT Fld.LN_STAT_state v).pw = s.pw) _ _ _ rfl rfl

/-- A state in which the first break of the ring has been noted, before it is raised. -/
def State.broken (s : State) (link : Nat × Nat) : State :=
  (State.setRingState { s with ln := { s.ln with cuts := [link] } } 3).setFlag Reg.LN_STAT Fld.LN_STAT_brk_lat true

theorem State.broken_state (s : State) (link : Nat × Nat) : (s.broken link).ringState = 3 :=
  (State.fget_fput_disjoint _ _ _ _ (by decide) (by decide) _).trans (State.setRingState_state _ 3 (by decide))

theorem State.broken_brk (s : State) (link : Nat × Nat) : (s.broken link).flag Reg.LN_STAT Fld.LN_STAT_brk_lat = true :=
  State.flag_setFlag_same _ _ _ (by decide) (by decide) _

theorem State.broken_rd (s : State) (link : Nat × Nat) {a : Nat} (ha : a ≠ Reg.LN_STAT) (hrtt : a ≠ Reg.TB_RINGRTT) :
    (s.broken link).rd a = s.rd a :=
  (State.rd_setFlag_ne _ _ _ ha).trans (State.setRingState_rd _ 3 ha hrtt)

theorem State.broken_cuts (s : State) (link : Nat × Nat) : (s.broken link).ln.cuts = [link] :=
  congrArg LnSt.cuts (State.setRingState_ln { s with ln := { s.ln with cuts := [link] } } 3)

theorem State.broken_pw (s : State) (link : Nat × Nat) : (s.broken link).pw = s.pw :=
  State.setRingState_pw { s with ln := { s.ln with cuts := [link] } } 3

end down

/-- The first break is noted at the fall of port `p`, with `n` occurrences of RING_BREAK since `s` (R322). -/
structure BreakNoted (s : State) (p : Nat) (n : Word) (u : State) : Prop where
  state : u.ringState = 3
  brk : u.flag Reg.LN_STAT Fld.LN_STAT_brk_lat = true
  cuts : u.ln.cuts = [s.linkOf p]
  down : u.pstate p = 0
  occ : u.rd (Reg.EV_OCC 42) = s.rd (Reg.EV_OCC 42) + n

section noted
variable {s u v : State} {p : Nat} {n : Word}

theorem psta_ne_stat (hp : p < 2) : Reg.LN_PSTAT p ≠ Reg.LN_STAT := by simp only [Reg.LN_STAT, Reg.LN_PSTAT]; omega

theorem BreakNoted.rerouted (hp : p < 2) (h : BreakNoted s p n u) (k : Rerouted u v) : BreakNoted s p n v :=
  ⟨k.state.trans h.state, k.brk.trans h.brk, k.cuts.trans h.cuts, (State.pstate_of_rd (k.rd _ (psta_ne_stat hp)) hp).trans h.down,
    (k.rd _ (by decide)).trans h.occ⟩

theorem BreakNoted.dropped (s : State) (hp : p < 2) : BreakNoted s p 0 ((s.dropPort p).broken (s.linkOf p)) := by
  refine ⟨State.broken_state _ _, State.broken_brk _ _, State.broken_cuts _ _, ?_, ?_⟩
  · exact (State.pstate_of_rd (State.broken_rd _ _ (psta_ne_stat hp) (by simp only [Reg.TB_RINGRTT, Reg.LN_PSTAT]; omega)) hp).trans
      (s.dropPort_pstate hp)
  · rw [State.broken_rd _ _ (by decide) (by decide), s.dropPort_rd hp (by simp only [Reg.EV_OCC, Reg.LN_PSTAT]; omega)]
    exact (BitVec.add_zero _).symm

/-- RING_BREAK is the head's event: what the ring is stands. -/
theorem BreakNoted.raise (hp : p < 2) (h : BreakNoted s p n u) (hhead : u.pw.headSel = true) (obj : Nat) :
    BreakNoted s p (n + 1) (u.raise 42 obj 0) := by
  have hr := raise_raised u 42 obj 0 (by decide)
  have hstat : (u.raise 42 obj 0).rd Reg.LN_STAT = u.rd Reg.LN_STAT := hr.frame.rd _ (by decide)
  have hpst : (u.raise 42 obj 0).rd (Reg.LN_PSTAT p) = u.rd (Reg.LN_PSTAT p) :=
    hr.frame.rd _ (by simp [eventReg, Reg.LN_PSTAT]; omega)
  refine ⟨(State.fget_congr hstat _).trans h.state, (State.flag_congr hstat _).trans h.brk, ?_, (State.pstate_of_rd hpst hp).trans h.down, ?_⟩
  · rw [hr.frame.ln hhead, h.cuts]
  · rw [hr.occ, h.occ, BitVec.add_assoc]

/-- The break of an intact ring as this hub sees its port go down (R322). -/
theorem State.portGoesDown_first (hp : p < 2) (hup : s.portUp p = true) (hhubs : 2 ≤ s.hubs) (hstate : s.ringState = 2)
    (hcuts : s.ln.cuts = []) : BreakNoted s p (if s.pw.headSel then 1 else 0) (s.portGoesDown p) := by
  have hdcuts : (s.dropPort p).ln.cuts = [] := by rw [State.dropPort_ln]; exact hcuts
  rw [State.portGoesDown_breaks hp hup hhubs, State.noteBreak_first ((s.dropPort_ringState hp).trans hstate) hdcuts]
  refine BreakNoted.rerouted hp ?_ (Rerouted.spreadBreak _ p _ _)
  have hbase := BreakNoted.dropped s hp
  cases hhead : s.pw.headSel
  · have hmember : (s.dropPort p).pw.headSel = false := by rw [State.dropPort_pw, hhead]
    rw [hmember]
    exact hbase
  · have hdhead : (s.dropPort p).pw.headSel = true := by rw [State.dropPort_pw, hhead]
    rw [hdhead]
    exact hbase.raise hp (by rw [State.broken_pw, hdhead]) _

/-- A further break splits the ring (R325). -/
theorem State.portGoesDown_further (hp : p < 2) (hup : s.portUp p = true) (hhubs : 2 ≤ s.hubs) (hstate : s.ringState = 3)
    (hnew : s.ln.cuts.contains (s.linkOf p) = false) :
    (s.portGoesDown p).ringState = 4 ∧ (s.portGoesDown p).ln.cuts = s.ln.cuts ++ [s.linkOf p] ∧ (s.portGoesDown p).pstate p = 0 := by
  have hdcuts : (s.dropPort p).ln.cuts = s.ln.cuts := by rw [State.dropPort_ln]
  rw [State.portGoesDown_breaks hp hup hhubs,
    State.noteBreak_further ((s.dropPort_ringState hp).trans hstate) (by rw [hdcuts]; exact hnew)]
  generalize hu : State.setRingState _ 4 = u
  have k := Rerouted.spreadBreak u p (s.linkOf p) ((s.port p).rxSeq - 1).toNat
  refine ⟨k.state.trans ?_, k.cuts.trans ?_, (State.pstate_of_rd (k.rd _ (psta_ne_stat hp)) hp).trans ?_⟩
  · rw [← hu, State.setRingState_state _ _ (by decide)]
  · rw [← hu, State.setRingState_ln, hdcuts]
  · rw [← hu]
    exact (State.pstate_of_rd (State.setRingState_rd _ _ (psta_ne_stat hp) (by simp only [Reg.TB_RINGRTT, Reg.LN_PSTAT]; omega)) hp).trans
      (s.dropPort_pstate hp)

end noted

/-! ## Training (R311, R313, R168) -/

theorem calEye_quiet {lane : Nat} (h : lane < 10) : eventReg (Reg.CAL_EYE lane) = false := by
  simp [eventReg, Reg.CAL_EYE]; omega

theorem State.laneTrimmed_eye_any (s : State) {lane : Nat} (h : lane < 10) (e : EyeFig) :
    (s.laneTrimmed lane e).rd (Reg.CAL_EYE lane) = eyeWord e := by
  rw [State.laneTrimmed]
  refine ite_both (fun v : State => v.rd (Reg.CAL_EYE lane) = eyeWord e) _ _ _ ?_ (State.rd_wr_same s _ _)
  exact ((raiseD_raised _ _ _ _ _ _ (by decide)).frame.rd _ (calEye_quiet h)).trans (State.rd_wr_same s _ _)

/-- The lanes of a port that trained, recorded one after another. -/
def State.lanesTrimmed (s : State) (p : Nat) (ok : List Nat) (fig : Nat → EyeFig) : State :=
  ok.foldl (fun s i => s.laneTrimmed (laneOf p i) (fig i)) s

section training
variable {s : State} {p : Nat} {ok : List Nat} {fig : Nat → EyeFig}

theorem State.lanesTrimmed_rd (s : State) (fig : Nat → EyeFig) {a : Nat} (ha : ∀ i ∈ ok, a ≠ Reg.CAL_EYE (laneOf p i))
    (hev : eventReg a = false) : (s.lanesTrimmed p ok fig).rd a = s.rd a :=
  State.foldl_wr_rd _ _ a (fun u i hi => u.laneTrimmed_rd _ _ (ha i hi) hev) s

theorem State.lanesTrimmed_eye (s : State) (fig : Nat → EyeFig) (hlane : ∀ i ∈ ok, laneOf p i < 10) {i : Nat} (hi : i ∈ ok) :
    (s.lanesTrimmed p ok fig).rd (Reg.CAL_EYE (laneOf p i)) = eyeWord (fig i) := by
  induction ok generalizing s with
  | nil => cases hi
  | cons x t ih =>
    by_cases ht : i ∈ t
    · exact ih (s.laneTrimmed (laneOf p x) (fig x)) (fun j hj => hlane j (List.mem_cons_of_mem _ hj)) ht
    · obtain rfl : i = x := (List.mem_cons.mp hi).resolve_right ht
      have hl := hlane i (List.mem_cons_self ..)
      refine (State.lanesTrimmed_rd (s.laneTrimmed (laneOf p i) (fig i)) fig (ok := t) (fun j hj => ?_) (calEye_quiet hl)).trans
        (s.laneTrimmed_eye_any hl (fig i))
      have hne : i ≠ j := fun h => ht (h ▸ hj)
      simp only [Reg.CAL_EYE, laneOf]
      omega

theorem State.deskewed_rd (s : State) (p : Nat) (skew : Byte) {a : Nat} (ha : a ≠ Reg.CAL_DESKEW p) (hev : eventReg a = false) :
    (s.deskewed p skew).rd a = s.rd a := by
  rw [State.deskewed]
  exact ite_both (fun v : State => v.rd a = s.rd a) _ _ _ (((raiseD_raised _ _ _ _ _ _ (by decide)).frame.rd _ hev).trans
    (State.rd_wr_ne s _ ha)) (State.rd_wr_ne s _ ha)

theorem State.deskewed_skew (s : State) (hp : p < 2) (skew : Byte) : (s.deskewed p skew).rd (Reg.CAL_DESKEW p) = skew.setWidth 32 := by
  rw [State.deskewed]
  refine ite_both (fun v : State => v.rd (Reg.CAL_DESKEW p) = skew.setWidth 32) _ _ _ ?_ (State.rd_wr_same s _ _)
  refine ((raiseD_raised _ _ _ _ _ _ (by decide)).frame.rd _ ?_).trans (State.rd_wr_same s _ _)
  simp [eventReg, Reg.CAL_DESKEW]; omega

/-- What a training of a ring port leaves recorded. -/
def State.trained (s : State) (p : Nat) (ok : List Nat) (fig : Nat → EyeFig) (skew : Byte) : State :=
  (s.lanesTrimmed p ok fig).deskewed p skew

theorem State.trained_pstat (s : State) (hp : p < 2) (hok : ∀ i ∈ ok, i < 2) (fig : Nat → EyeFig) (skew : Byte) :
    (s.trained p ok fig skew).rd (Reg.LN_PSTAT p) = s.rd (Reg.LN_PSTAT p) := by
  have hev : eventReg (Reg.LN_PSTAT p) = false := by simp [eventReg, Reg.LN_PSTAT]; omega
  refine ((s.lanesTrimmed p ok fig).deskewed_rd p skew (by simp only [Reg.LN_PSTAT, Reg.CAL_DESKEW]; omega) hev).trans
    (s.lanesTrimmed_rd fig (fun i hi => ?_) hev)
  have := hok i hi
  simp only [Reg.LN_PSTAT, Reg.CAL_EYE, laneOf]
  omega

theorem State.trained_eye (s : State) (hp : p < 2) (hok : ∀ i ∈ ok, i < 2) (fig : Nat → EyeFig) (skew : Byte) :
    ∀ i ∈ ok, (s.trained p ok fig skew).rd (Reg.CAL_EYE (laneOf p i)) = eyeWord (fig i) := by
  intro i hi
  have hl : ∀ j ∈ ok, laneOf p j < 10 := fun j hj => by have := hok j hj; simp only [laneOf]; omega
  refine ((s.lanesTrimmed p ok fig).deskewed_rd p skew ?_ (calEye_quiet (hl i hi))).trans (s.lanesTrimmed_eye fig hl hi)
  have := hl i hi
  simp only [Reg.CAL_EYE, Reg.CAL_DESKEW]
  omega

/-- A port whose lanes carry cells from now on, at its rate. -/
def State.linedUp (s : State) (p n rate : Nat) : State :=
  ((s.setInService p n).fput (Reg.LN_PSTAT p) Fld.LN_PSTAT_rate rate).lineStarts p

theorem State.linedUp_rd (s : State) (n rate : Nat) {a : Nat} (ha : a ≠ Reg.LN_PSTAT p) (hp : p < 2) :
    (s.linedUp p n rate).rd a = s.rd a := by
  refine ((PortsOnly.lineStarts _ p).rd a).trans ?_
  rw [State.rd_fput_ne _ _ _ ha, State.setInService, if_pos hp, State.rd_fput_ne _ _ _ ha]

theorem State.linedUp_inService (s : State) {n : Nat} (rate : Nat) (hn : n < 4) (hp : p < 2) : (s.linedUp p n rate).inService p = n := by
  refine (State.inService_of_rd ((PortsOnly.lineStarts _ p).rd _) hp).trans ?_
  rw [State.inService, if_pos hp, State.fget_fput_disjoint _ _ _ _ (by decide) (by decide), State.setInService, if_pos hp,
    State.fget_fput_same _ _ _ (by decide) (by decide)]
  exact Nat.mod_eq_of_lt hn

theorem State.linedUp_rate (s : State) (n : Nat) {rate : Nat} (hr : rate < 4) :
    (s.linedUp p n rate).fget (Reg.LN_PSTAT p) Fld.LN_PSTAT_rate = rate := by
  refine (State.fget_congr ((PortsOnly.lineStarts _ p).rd _) _).trans ?_
  rw [State.fget_fput_same _ _ _ (by decide) (by decide)]
  exact Nat.mod_eq_of_lt hr

end training

/-! ## The commands -/

section commands
variable {s : State} {port : BitVec 2} {t : TrainIn}

/-- The lanes of a port that a training finds. -/
def State.lanesFound (s : State) (p : Nat) (t : TrainIn) : List Nat :=
  (List.range 2).filter (fun i => (s.lanesEn p).testBit i && t.lanesOk.getLsbD i)

/-- The eyes that a training finds. -/
def figFound (t : TrainIn) (i : Nat) : EyeFig := if i = 0 then (⟨t.width0, t.height0⟩ : EyeFig) else ⟨t.width1, t.height1⟩

/-- A training at 6.25 Gb/s whose eyes are poor is done again at the fallback rate (R311). -/
def State.trainsAgain (s : State) (p : Nat) (t : TrainIn) : Bool :=
  decide (s.fget (Reg.LN_PCFG p) Fld.LN_PCFG_rate = 0) && decide (t.rate = 2#2) && (s.lanesFound p t).any (fun i => eyeBad (figFound t i))

/-- The lanes found, as LN_PSTAT shows them. -/
def laneMask (ok : List Nat) : Nat := (ok.map (fun i => 2 ^ i)).foldl (· + ·) 0

theorem State.lanesFound_lt (s : State) (p : Nat) (t : TrainIn) : ∀ i ∈ s.lanesFound p t, i < 2 := by
  intro i hi
  exact List.mem_range.mp (List.mem_filter.mp hi).1

theorem State.lanesFound_mask (s : State) (p : Nat) (t : TrainIn) : laneMask (s.lanesFound p t) < 4 := by
  have hrange : List.range 2 = [0, 1] := rfl
  rw [State.lanesFound, hrange]
  cases h0 : (s.lanesEn p).testBit 0 && t.lanesOk.getLsbD 0 <;> cases h1 : (s.lanesEn p).testBit 1 && t.lanesOk.getLsbD 1 <;>
    simp only [List.filter_cons, List.filter_nil, h0, h1] <;> decide

theorem laneTrainingDone_ring (hp : port.toNat < 2) (hstate : s.pstate port.toNat = 1) (hok : s.lanesFound port.toNat t ≠ []) :
    laneTrainingDone port t s =
      let u := s.trained port.toNat (s.lanesFound port.toNat t) (figFound t) t.skew
      if s.trainsAgain port.toNat t then u
      else u.linedUp port.toNat (laneMask (s.lanesFound port.toNat t)) t.rate.toNat := by
  have hany : (!((s.lanesFound port.toNat t).filter (fun i => eyeBad (figFound t i))).isEmpty)
      = (s.lanesFound port.toNat t).any (fun i => eyeBad (figFound t i)) := by
    rw [Bool.eq_iff_iff]
    simp [List.filter_eq_nil_iff]
  unfold laneTrainingDone
  extract_lets p en ok fig poor cfg u v
  have hnone : (s.lanesFound port.toNat t).isEmpty = false := by simpa using hok
  have hcfg : cfg = s.fget (Reg.LN_PCFG port.toNat) Fld.LN_PCFG_rate := if_pos hp
  have hv : v = s.trained port.toNat (s.lanesFound port.toNat t) (figFound t) t.skew := if_pos hp
  have hagain : (decide (cfg = 0) && decide (t.rate = 2#2) && !poor.isEmpty) = s.trainsAgain port.toNat t := by
    rw [hcfg, State.trainsAgain, ← hany]
    rfl
  rw [hagain, if_neg (show ¬ p = 3 by omega), if_neg (show ¬ (decide (p < 2) && s.pstate p != 1) = true by simp [p, hstate]),
    if_neg (show ¬ ok.isEmpty = true from Bool.eq_false_iff.mp hnone), if_pos (show p < 2 from hp), hv]
  rfl

theorem laneTrainingDone_twin (hp : port.toNat = 2) (hok : t.lanesOk.getLsbD 0 = true) :
    laneTrainingDone port t s = (s.laneTrimmed 9 (figFound t 0)).lineStarts 2 := by
  have hrange : List.range 2 = [0, 1] := rfl
  have hfound : (List.range 2).filter (fun i => (s.lanesEn 2).testBit i && t.lanesOk.getLsbD i) = [0] := by
    rw [hrange]
    simp [State.lanesEn, hok, show Nat.testBit 1 1 = false from rfl]
  unfold laneTrainingDone
  rw [hp]
  extract_lets p en ok fig poor cfg u v
  have hok' : ok = [0] := hfound
  have hv : v = s.laneTrimmed 9 (figFound t 0) := by
    have : v = u := if_neg (by decide)
    rw [this]
    simp only [u, hok']
    rfl
  rw [hv]
  have hemp : ok.isEmpty = false := by rw [hok']; rfl
  clear_value v u poor ok
  exact (if_neg (by decide)).trans ((if_neg (by simp [p])).trans ((if_neg (by rw [hemp]; decide)).trans
    ((if_neg (by simp [cfg, p])).trans (if_neg (by decide)))))

theorem portTraining_eq (h : s.alive = true ∧ s.pw.inReset = false ∧ port.toNat < 3 ∧ s.lanesEn port.toNat ≠ 0 ∧ s.pstate port.toNat < 2) :
    portTraining port s = s.trainPort port.toNat := by
  obtain ⟨halive, hreset, hp, hlanes, hstate⟩ := h
  exact if_pos (by simp [halive, hreset, hp, hlanes, hstate])

/-- A port that begins its training keeps its cells and their numbers (R315, R323). -/
theorem State.trainPort_port (s : State) (p : Nat) :
    ((s.trainPort p).port p).txSeq = (s.port p).txSeq ∧ ((s.trainPort p).port p).rxSeq = (s.port p).rxSeq
      ∧ ((s.trainPort p).port p).replay = (s.port p).replay ∧ ((s.trainPort p).port p).queue = (s.port p).queue := by
  have h : (s.trainPort p).port p = { (s.port p).dropped with keyBlocked := false, partnerLanes := 3, loops := 0 } := by
    have hset : ∀ u : State, (u.setPstate p 1).ln = u.ln := fun u =>
      ite_both (fun v : State => v.ln = u.ln) _ _ _ rfl rfl
    rw [State.trainPort, State.port_congr (hset _), State.modPort, State.port_setPort_same, State.dropPort_port]
  rw [h]
  exact ⟨rfl, rfl, rfl, rfl⟩

theorem State.trainPort_twin (s : State) : (s.trainPort 2).portUp 2 = false :=
  State.flag_setFlag_same _ _ _ (by decide) (by decide) _

theorem eyeSweep_eq {l : BitVec 4} {w h : Byte} (ha : s.alive = true) (hl : l.toNat < 10) :
    eyeSweep l w h s =
      let u := s.wr (Reg.LN_EYE l.toNat) (eyeWord ⟨w, h⟩)
      if w.toNat < 16 || h.toNat < 10 then
        if u.ln.eyeLow.contains l.toNat then u
        else ({ u with ln := { u.ln with eyeLow := l.toNat :: u.ln.eyeLow } }).raiseD 44 l.toNat 0 0 (BitVec.ofNat 64 (h.toNat * 256 + w.toNat))
      else if 20 ≤ w.toNat && 12 ≤ h.toNat then { u with ln := { u.ln with eyeLow := u.ln.eyeLow.filter (fun x => x != l.toNat) } }
      else u := by
  have hgo : ¬ (decide (9 < l.toNat) || !s.alive) = true := by simp [ha]; omega
  exact if_neg hgo

theorem laneRetryHigh_eq (hp : port.toNat < 3) :
    laneRetryHigh port s =
      let u := s.modPort port.toNat (fun x => { x with replaysInSecond := 0 })
      if s.rdN Reg.LN_RETRYTHR < (s.port port.toNat).replaysInSecond then
        (if port.toNat < 2 then u.setFlag (Reg.LN_PSTAT port.toNat) Fld.LN_PSTAT_retry_high true else u).raiseD 41 (port.toNat + 1) 0 0
          (BitVec.ofNat 64 (s.port port.toNat).replaysInSecond)
      else u := by
  exact if_neg (show ¬ 2 < port.toNat by omega)

end commands

section retries
variable {s : State} {port : BitVec 2}

theorem laneRetryHigh_ring (hp : port.toNat < 2) (hlt : s.rdN Reg.LN_RETRYTHR < (s.port port.toNat).replaysInSecond) :
    Raised 41 (port.toNat + 1) 0 0 (BitVec.ofNat 64 (s.port port.toNat).replaysInSecond)
      ((s.modPort port.toNat (fun x => { x with replaysInSecond := 0 })).setFlag (Reg.LN_PSTAT port.toNat) Fld.LN_PSTAT_retry_high true)
      (laneRetryHigh port s) := by
  rw [laneRetryHigh_eq (show port.toNat < 3 by omega)]
  simp only [hlt, hp, if_true]
  exact raiseD_raised _ 41 _ _ _ _ (by decide)

theorem laneRetryHigh_twin (hp : port.toNat = 2) (hlt : s.rdN Reg.LN_RETRYTHR < (s.port port.toNat).replaysInSecond) :
    Raised 41 3 0 0 (BitVec.ofNat 64 (s.port port.toNat).replaysInSecond) (s.modPort port.toNat (fun x => { x with replaysInSecond := 0 }))
      (laneRetryHigh port s) := by
  rw [laneRetryHigh_eq (show port.toNat < 3 by omega)]
  simp only [hlt, if_true, if_neg (show ¬ port.toNat < 2 by omega)]
  rw [hp]
  exact raiseD_raised _ 41 _ _ _ _ (by decide)

end retries

section settle
variable {s : State} {l : BitVec 4} {cause : BitVec 2} {p i : Nat}

/-- A lane that goes down, beside its port's other lane or as its last one (R313). -/
theorem laneDown_eq (hp : lanePort l.toNat = some (p, i)) (hin : (s.inService p).testBit i = true) :
    laneDown l cause s =
      let left := s.inService p - 2 ^ i
      let known := if p < 2 then (s.setInService p left).setFlag (Reg.LN_PSTAT p) Fld.LN_PSTAT_lane_down true else s.setInService p left
      if left = 0 then (known.raise 40 l.toNat cause.toNat).portGoesDown p else (known.raise 40 l.toNat cause.toNat).replayOrDown p := by
  rw [laneDown, State.laneOut, hp]
  exact if_neg (by simp [hin])

theorem laneDown_out (hp : lanePort l.toNat = some (p, i)) (hin : (s.inService p).testBit i = false) : laneDown l cause s = s := by
  rw [laneDown, State.laneOut, hp]
  exact if_pos (by simp [hin])

/-- A lane that is out of service rejoins where its port is up, the lane enabled and neither tested nor looped back (R313, R329). -/
def State.rejoins (s : State) (l p i : Nat) : Prop :=
  p < 2 ∧ 3 ≤ s.pstate p ∧ (s.lanesEn p).testBit i = true ∧ (s.inService p).testBit i = false
    ∧ s.laneTested l = false ∧ (s.port p).loops.getLsbD i = false

theorem laneRetrain_eq {e : EyeFig} (hp : lanePort l.toNat = some (p, i)) (h : s.rejoins l.toNat p i) :
    laneRetrain l (some e) s = let u := s.laneTrimmed l.toNat e
      if eyeBad e then u else (((u.setInService p (u.inService p + 2 ^ i)).setPstate p 3).drawLane p i).replayOrDown p := by
  obtain ⟨h2, h3, hen, hout, htest, hloop⟩ := h
  unfold laneRetrain
  rw [hp]
  exact if_pos (by rw [decide_eq_true h2, decide_eq_true h3, hen, hout, htest, hloop]; rfl)

theorem laneRetrain_stays {e : EyeFig} (hp : lanePort l.toNat = some (p, i)) (h : ¬ s.rejoins l.toNat p i) :
    laneRetrain l (some e) s = s := by
  unfold laneRetrain
  rw [hp]
  refine if_neg fun hc => h ?_
  simpa [State.rejoins, and_assoc] using hc

theorem laneRetrain_none (s : State) (l : BitVec 4) : laneRetrain l none s = s := by
  unfold laneRetrain
  cases lanePort l.toNat <;> rfl

theorem laneRetrain_noPort {e : Option EyeFig} (hp : lanePort l.toNat = none) : laneRetrain l e s = s := by
  unfold laneRetrain
  rw [hp]

/-- The two commands of a training that fails to change a thing: a port that does not train, and one without a lane found. -/
theorem laneTrainingDone_idle {port : BitVec 2} {t : TrainIn} (hp : port.toNat < 2) (hstate : s.pstate port.toNat ≠ 1) :
    laneTrainingDone port t s = s :=
  (if_neg (show ¬ port.toNat = 3 by omega)).trans (if_pos (by simp [hp, hstate]))

theorem laneTrainingDone_nothing {port : BitVec 2} {t : TrainIn} (hp : port.toNat < 2) (hstate : s.pstate port.toNat = 1)
    (hok : s.lanesFound port.toNat t = []) : laneTrainingDone port t s = s.portGoesDown port.toNat := by
  refine (if_neg (show ¬ port.toNat = 3 by omega)).trans ((if_neg (by simp [hstate])).trans (if_pos ?_))
  exact List.isEmpty_iff.mpr hok

theorem laneTrainingDone_ethernet {t : TrainIn} :
    laneTrainingDone 3 t s = if s.alive && t.lanesOk.getLsbD 0 then s.laneTrimmed 4 ⟨t.width0, t.height0⟩ else s := rfl

/-- A training that ends well: lanes, rate, skew and eyes stand in their registers (R168, R311). -/
theorem laneTrainingDone_up {port : BitVec 2} {t : TrainIn} (hp : port.toNat < 2) (hstate : s.pstate port.toNat = 1)
    (hok : s.lanesFound port.toNat t ≠ []) (hagain : s.trainsAgain port.toNat t = false) :
    (laneTrainingDone port t s).inService port.toNat = laneMask (s.lanesFound port.toNat t)
      ∧ (laneTrainingDone port t s).fget (Reg.LN_PSTAT port.toNat) Fld.LN_PSTAT_rate = t.rate.toNat
      ∧ (laneTrainingDone port t s).rd (Reg.CAL_DESKEW port.toNat) = t.skew.setWidth 32
      ∧ ∀ i ∈ s.lanesFound port.toNat t, (laneTrainingDone port t s).rd (Reg.CAL_EYE (laneOf port.toNat i)) = eyeWord (figFound t i) := by
  rw [laneTrainingDone_ring hp hstate hok]
  simp only [hagain, Bool.false_eq_true, if_false]
  refine ⟨State.linedUp_inService _ _ (s.lanesFound_mask _ t) hp, State.linedUp_rate _ _ t.rate.isLt, ?_, fun i hi => ?_⟩
  · rw [State.linedUp_rd _ _ _ (by simp only [Reg.CAL_DESKEW, Reg.LN_PSTAT]; omega) hp]
    exact State.deskewed_skew _ hp _
  · rw [State.linedUp_rd _ _ _ (by simp only [Reg.CAL_EYE, Reg.LN_PSTAT]; omega) hp]
    exact s.trained_eye hp (s.lanesFound_lt _ t) _ _ i hi

/-- A training with poor eyes that is done again: the figures are recorded and the port goes on training (R311). -/
theorem laneTrainingDone_again {port : BitVec 2} {t : TrainIn} (hp : port.toNat < 2) (hstate : s.pstate port.toNat = 1)
    (hok : s.lanesFound port.toNat t ≠ []) (hagain : s.trainsAgain port.toNat t = true) :
    (laneTrainingDone port t s).pstate port.toNat = 1 ∧ (laneTrainingDone port t s).inService port.toNat = s.inService port.toNat
      ∧ (laneTrainingDone port t s).rd (Reg.CAL_DESKEW port.toNat) = t.skew.setWidth 32
      ∧ ∀ i ∈ s.lanesFound port.toNat t, (laneTrainingDone port t s).rd (Reg.CAL_EYE (laneOf port.toNat i)) = eyeWord (figFound t i) := by
  rw [laneTrainingDone_ring hp hstate hok]
  simp only [hagain, if_true]
  have hpst := s.trained_pstat (ok := s.lanesFound port.toNat t) hp (s.lanesFound_lt _ t) (figFound t) t.skew
  exact ⟨(State.pstate_of_rd hpst hp).trans hstate, State.inService_of_rd hpst hp, State.deskewed_skew _ hp _,
    s.trained_eye hp (s.lanesFound_lt _ t) _ _⟩

/-- A port of both lanes whose eyes are good comes up with both. -/
theorem State.lanesFound_both {t : TrainIn} (hen : s.lanesEn p = 3) (hok : t.lanesOk = 3) : s.lanesFound p t = [0, 1] := by
  rw [State.lanesFound, hen, hok]
  decide

theorem eyeSweep_low {w h : Byte} (ha : s.alive = true) (hl : l.toNat < 10) (hlow : w.toNat < 16 ∨ h.toNat < 10)
    (hnew : s.ln.eyeLow.contains l.toNat = false) :
    (eyeSweep l w h s).rd (Reg.LN_EYE l.toNat) = eyeWord ⟨w, h⟩ ∧ (eyeSweep l w h s).rd (Reg.EV_OCC 44) = s.rd (Reg.EV_OCC 44) + 1 := by
  have hlow' : (decide (w.toNat < 16) || decide (h.toNat < 10)) = true := by simpa using hlow
  have hnew' : ((s.wr (Reg.LN_EYE l.toNat) (eyeWord ⟨w, h⟩)).ln.eyeLow.contains l.toNat) = false := hnew
  rw [eyeSweep_eq ha hl]
  simp only [hlow', hnew', if_true, Bool.false_eq_true, if_false]
  generalize hu : ({ s.wr (Reg.LN_EYE l.toNat) (eyeWord ⟨w, h⟩) with ln := _ } : State) = u
  have hrd : ∀ a, u.rd a = (s.wr (Reg.LN_EYE l.toNat) (eyeWord ⟨w, h⟩)).rd a := fun a => by rw [← hu]; rfl
  have hr := raiseD_raised u 44 l.toNat 0 0 (BitVec.ofNat 64 (h.toNat * 256 + w.toNat)) (by decide)
  refine ⟨(hr.frame.rd _ (by simp [eventReg, Reg.LN_EYE]; omega)).trans ((hrd _).trans (State.rd_wr_same ..)), hr.occ.trans ?_⟩
  rw [hrd, State.rd_wr_ne _ _ (by simp only [Reg.EV_OCC, Reg.LN_EYE]; omega)]

theorem eyeSweep_good {w h : Byte} (ha : s.alive = true) (hl : l.toNat < 10) (hlow : ¬ (w.toNat < 16 ∨ h.toNat < 10)) (hw : 20 ≤ w.toNat)
    (hh : 12 ≤ h.toNat) :
    (eyeSweep l w h s).rd (Reg.LN_EYE l.toNat) = eyeWord ⟨w, h⟩ ∧ (eyeSweep l w h s).ln.eyeLow.contains l.toNat = false := by
  have hlow' : (decide (w.toNat < 16) || decide (h.toNat < 10)) = false := by simpa using hlow
  have hgood : (decide (20 ≤ w.toNat) && decide (12 ≤ h.toNat)) = true := by simp [hw, hh]
  rw [eyeSweep_eq ha hl]
  simp only [hlow', hgood, if_true, Bool.false_eq_true, if_false]
  exact ⟨State.rd_wr_same .., by simp⟩

end settle

/-- Settles O42: a lane's and a port's commands are their branches; a break that this hub sees is noted once, and its notice moves the
ports alone. -/
theorem lanesAndPorts : Obligations.LanesAndPorts := by
  intro s l cause port i t e w h p left ready low known okv fig falls again
  have hfalls : falls ↔ s.trainsAgain p t = true := by
    simp only [State.trainsAgain, Bool.and_eq_true, decide_eq_true_eq, and_assoc]
    rfl
  refine ⟨fun hp hin h0 => Becomes.of rfl ?_, fun hp hin h0 => Becomes.of rfl ?_,
    fun hp => ⟨Becomes.of rfl ?_, Becomes.of rfl (laneRetrain_noPort hp)⟩, fun hp hno => Becomes.of rfl (laneRetrain_stays hp hno),
    fun hno => Becomes.of rfl ?_, fun hr h2 => Ends.of (v := portTraining port s) rfl ?_,
    fun hp hst => Becomes.of rfl (laneTrainingDone_idle hp hst), fun hp hst hok => Becomes.of rfl (laneTrainingDone_nothing hp hst hok),
    fun hp hst hok hf => Ends.of rfl (laneTrainingDone_up hp hst hok (Bool.eq_false_iff.mpr fun h => hf (hfalls.mpr h))),
    fun hp hst hok hf => Ends.of rfl (laneTrainingDone_again hp hst hok (hfalls.mp hf)),
    fun h2 hok => Ends.of (v := laneTrainingDone port t s) rfl ?_, fun hok => Becomes.of rfl ?_, fun hp hst => Becomes.of rfl ?_,
    fun hp hup hh => Becomes.of rfl ?_, fun h2 hup => Becomes.of rfl ?_,
    fun hp hup hh hst hcut hmem => Ends.of (v := portDown port s) rfl ?_, fun hp hup hh hst hnew => Ends.of (v := portDown port s) rfl ?_,
    fun hp hlt => Ends.of rfl (laneRetryHigh_ring hp hlt), fun ha hl hlow hin => Becomes.of rfl ?_,
    fun ha hl hlow hpoor => Becomes.of rfl ?_, fun hp hp2 hin h0 => Becomes.of rfl ?_, fun hp hin => Becomes.of rfl (laneDown_out hp hin),
    fun hp hp2 h3 hen hout htest hloop => Becomes.of rfl (laneRetrain_eq hp ⟨hp2, h3, hen, hout, htest, hloop⟩),
    Becomes.of rfl (laneRetrain_none s l), fun ha hok => Becomes.of rfl ?_, fun hr hp => Ends.of (v := portTraining port s) rfl ?_,
    fun hp hst hen hok he0 he1 hskew hrate => Ends.of (v := laneTrainingDone port t s) rfl ?_, fun hp hst hup => Becomes.of rfl ?_,
    fun hp hup hh hst hcut hhead => Ends.of (v := portDown port s) rfl ?_, fun hp hlt => Becomes.of rfl ?_,
    fun hp hle => Becomes.of rfl ?_, fun hp hle => Becomes.of rfl ?_, fun h2 hlt => Ends.of rfl (laneRetryHigh_twin h2 hlt),
    fun ha hl hlow hnew => Ends.of rfl (eyeSweep_low ha hl hlow hnew),
    fun ha hl hlow hw hh => Ends.of rfl (eyeSweep_good ha hl hlow hw hh)⟩
  · exact (laneDown_eq hp hin).trans (if_pos h0)
  · exact (laneDown_eq hp hin).trans (if_neg h0)
  · rw [laneDown, State.laneOut, hp]
  · refine if_neg fun hc => hno ?_
    simpa [ready, p, and_assoc] using hc
  · rw [portTraining_eq hr, show port.toNat = 2 from h2]
    exact ⟨s.trainPort_twin, s.trainPort_port 2⟩
  · rw [laneTrainingDone_twin h2 hok]
    exact ((PortsOnly.lineStarts _ 2).rd _).trans (s.laneTrimmed_eye_any (by decide) _)
  · exact laneTrainingDone_ethernet.trans (if_neg (by rw [hok, Bool.and_false]; decide))
  · exact (portDown_eq hp).trans (State.portGoesDown_down hst)
  · exact (portDown_eq (show port.toNat < 3 by omega)).trans
      (State.portGoesDown_drops hp (State.portUp_pstate hup (by omega)) (.inr hh))
  · rw [portDown_eq (show port.toNat < 3 by omega), show port.toNat = 2 from h2]
    exact State.portGoesDown_twin hup
  · rw [portDown_eq (show port.toNat < 3 by omega)]
    have hb := State.portGoesDown_first hp hup hh hst hcut
    rw [hmem] at hb
    exact ⟨hb.state, hb.brk, hb.cuts, hb.down, hb.occ.trans (BitVec.add_zero _)⟩
  · rw [portDown_eq (show port.toNat < 3 by omega)]
    exact State.portGoesDown_further hp hup hh hst hnew
  · rw [eyeSweep_eq ha hl]
    exact (if_pos (by simpa using hlow)).trans (if_pos hin)
  · rw [eyeSweep_eq ha hl]
    exact (if_neg (by simpa [low] using hlow)).trans (if_neg (by simp only [Bool.and_eq_true, decide_eq_true_eq]; omega))
  · exact (laneDown_eq hp hin).trans ((if_neg h0).trans (by rw [if_pos hp2]))
  · exact laneTrainingDone_ethernet.trans (if_pos (by simp only [ha, hok, Bool.and_self]))
  · rw [portTraining_eq hr]
    exact ⟨State.pstate_setPstate _ _ 1 hp (by decide), s.trainPort_port p⟩
  · have hfound : s.lanesFound port.toNat t = [0, 1] := State.lanesFound_both hen hok
    have hgood : s.trainsAgain port.toNat t = false := by
      simp [State.trainsAgain, hfound, figFound, he0, he1]
    obtain ⟨hin, hr, hdeskew, heye⟩ := laneTrainingDone_up hp hst (by rw [hfound]; decide) hgood
    rw [hfound] at hin heye
    exact ⟨hin, hr, hdeskew, heye 0 (List.mem_cons_self ..)⟩
  · exact (portDown_eq (show port.toNat < 3 by omega)).trans (State.portGoesDown_drops hp hst (.inl hup))
  · rw [portDown_eq (show port.toNat < 3 by omega)]
    have hb := State.portGoesDown_first hp hup hh hst hcut
    rw [hhead] at hb
    exact ⟨hb.state, hb.brk, by rw [hb.cuts, hcut]; rfl, hb.down, hb.occ⟩
  · exact (if_pos hp).trans (if_neg (Nat.not_le.mpr hlt))
  · exact (if_pos hp).trans (if_pos hle)
  · rw [laneRetryHigh_eq hp]
    exact if_neg (Nat.not_lt.mpr hle)

end Sys2Proof.Machine
end

section
/-! PROOF. Cells from their lanes, control cells, and delineation (O43). -/

namespace Sys2Proof.Machine

/-! ## A port written twice -/

theorem kset_kset {α : Type} (m : KMap α) (k : Nat) (v w : α) : kset (kset m k v) k w = kset m k w := by
  induction m with
  | nil => simp [kset]
  | cons e t ih =>
    obtain ⟨a, b⟩ := e
    by_cases hlt : k < a
    · simp [kset, hlt]
    · by_cases heq : k = a
      · simp [kset, heq]
      · simp [kset, hlt, heq, ih]

theorem State.setPort_setPort (s : State) (p : Nat) (x y : PortSt) : (s.setPort p x).setPort p y = s.setPort p y := by
  simp only [State.setPort, kset_kset]

theorem State.port_modPort (s : State) (p : Nat) (f : PortSt → PortSt) : (s.modPort p f).port p = f (s.port p) :=
  State.port_setPort_same s p _

theorem State.modPort_modPort (s : State) (p : Nat) (f g : PortSt → PortSt) : (s.modPort p f).modPort p g = s.modPort p (fun x => g (f x)) := by
  rw [State.modPort, State.port_modPort, State.modPort, State.setPort_setPort, State.modPort]

/-! ## A sequenced cell -/

section sequenced
variable {port : BitVec 2} {cell : CellRx} {skipped : Word64} {s : State}

/-- The port with the slots that the cell brings counted. -/
def State.slotsCounted (s : State) (p : Nat) (skipped : Word64) : State :=
  s.modPort p (fun x => { x with rxSlots := (s.port p).rxSlots + skipped + 1, badRun := if skipped = 0 then x.badRun else 0 })

/-- The bytes of a cell as its lanes bring them. -/
def State.cellBytesIn (s : State) (p : Nat) (cell : CellRx) : List Byte := (cellOfLanes cell (s.lanesOn p)).1

/-- The cell is whole: its lanes fit together and its check sequence agrees (R301, R304). -/
def State.cellWhole (s : State) (p : Nat) (cell : CellRx) : Prop :=
  (cellOfLanes cell (s.lanesOn p)).2 = true
    ∧ ofLe ((s.cellBytesIn p cell).drop 260) = (crc32c ((s.cellBytesIn p cell).take 260)).toNat

/-- The port with the run of bad cells ended. -/
def State.cellHeard (s : State) (p : Nat) : State := s.modPort p (fun x => { x with badRun := 0 })

/-- What an accepted cell's content does, its tag aside (R304, R307, R316). -/
def State.acceptCell (v : State) (p : Nat) (c : Cell) (seq : BitVec 12) : State :=
  if 0xD < c.typ then v.crcError p
  else if c.typ < 3 || c.typ = 0xD then v
  else
    let s := v.modPort p (fun x => { x with authRun := 0 })
    if seq != (s.port p).rxSeq || s.noRoom p c then s.discardCell p
    else
      let s := s.modPort p (fun x => { x with rxSeq := x.rxSeq + 1, naked := false, acceptedSince := x.acceptedSince + 1 })
      let s := s.routeCell p c
      let s := if 64 ≤ (s.port p).acceptedSince then s.sendControl p 0 else s
      s.flowControl p

theorem sequencedCell_off (h : 2 < port.toNat ∨ s.portUp port.toNat = false ∨ (s.port port.toNat).delineated = false) :
    sequencedCell port cell skipped s = s := by
  refine if_pos ?_
  rcases h with h | h | h <;> simp [h]

section on
variable (hon : port.toNat < 3 ∧ s.portUp port.toNat = true ∧ (s.port port.toNat).delineated = true)
include hon

theorem sequencedCell_bad (hbad : ¬ s.cellWhole port.toNat cell) :
    sequencedCell port cell skipped s = ((s.slotsCounted port.toNat skipped).badCell port.toNat).discardCell port.toNat := by
  obtain ⟨hp, hup, hd⟩ := hon
  refine (if_neg (by simp [hup, hd]; omega)).trans (if_pos ?_)
  simp only [Bool.not_eq_true', Bool.and_eq_false_iff, beq_eq_false_iff_ne]
  exact Classical.not_and_iff_not_or_not.mp (fun h => hbad ⟨h.1, h.2⟩) |>.imp Bool.eq_false_iff.mpr id

theorem sequencedCell_whole (hgood : s.cellWhole port.toNat cell) :
    sequencedCell port cell skipped s =
      let v := (s.slotsCounted port.toNat skipped).cellHeard port.toNat
      let bs := s.cellBytesIn port.toNat cell
      let x := cellOf port.toNat s.payloadLen bs
      if s.authOn && !v.tagOk port.toNat x.1.typ ((s.port port.toNat).rxSlots + skipped) (bs.take (4 + s.payloadLen))
          (slice bs (4 + s.payloadLen) 16) then
        if (v.tagError port.toNat).portUp port.toNat then (v.tagError port.toNat).discardCell port.toNat else v.tagError port.toNat
      else v.acceptCell port.toNat x.1 x.2 := by
  obtain ⟨hp, hup, hd⟩ := hon
  refine (if_neg (by simp [hup, hd]; omega)).trans (if_neg ?_)
  simp only [Bool.not_eq_true', Bool.and_eq_false_iff, beq_eq_false_iff_ne, not_or, Classical.not_not, Bool.not_eq_false]
  exact ⟨hgood.1, hgood.2⟩

end on
end sequenced

/-! ## A control cell -/

/-- The partner's address that a control cell tells, noted. -/
def State.partnerNamed (s : State) (p : Nat) (c : LinkCtlIn) : State :=
  if p < 2 then s.fput (Reg.LN_PSTAT p) Fld.LN_PSTAT_partner c.src.toNat
  else { s with sv := { s.sv with twin := { s.sv.twin with partnerAddr := c.src.toNat } } }

/-- What a control cell does on a port that is up (R308, R316, R317). -/
def State.controlServed (s : State) (p : Nat) (c : LinkCtlIn) : State :=
  let s := (s.modPort p (fun x => { x with authRun := 0 })).noteLoops p c
  let s := s.takeAck p c.ack
  let s := if c.release then s.modPort p (fun x => { x with heldByPartner := false }) else s
  let s := if c.hold then s.modPort p (fun x => { x with heldByPartner := true }) else s
  let s := if c.nak then s.replayOrDown p else s
  (s.partnerLanes p c.lanes).serve p

theorem State.controlServed_plain (s : State) (p : Nat) {c : LinkCtlIn} (hhold : c.hold = false) (hrel : c.release = false)
    (hnak : c.nak = false) :
    s.controlServed p c
      = ((((s.modPort p (fun x => { x with authRun := 0 })).noteLoops p c).takeAck p c.ack).partnerLanes p c.lanes).serve p := by
  simp only [State.controlServed, hhold, hrel, hnak, Bool.false_eq_true, if_false]

/-- A control cell whose check sequence is right (R303, R304, R310). -/
def State.takeControl (heard : State) (p : Nat) (c : LinkCtlIn) (tag : Bool) : State :=
  if heard.authOn && heard.portUp p && !((heard.port p).keys.isSome && tag) then heard.tagError p
  else if 48 ≤ c.src.toNat && c.src != 0x3E then heard
  else if !(heard.partnerNamed p c).portUp p then
    (if ((heard.partnerNamed p c).port p).hello || ((heard.partnerNamed p c).port p).keyBlocked then heard.partnerNamed p c
      else (heard.partnerNamed p c).takeHello p c)
  else if c.release && !((heard.partnerNamed p c).controlServed p c).inRun then ((heard.partnerNamed p c).controlServed p c).deliverAll
  else (heard.partnerNamed p c).controlServed p c

section control
variable {port : BitVec 2} {c : LinkCtlIn} {chk : CellCheck} {s : State}

theorem linkControlCell_off (h : s.alive = false ∨ 2 < port.toNat ∨ (s.port port.toNat).delineated = false
    ∨ (port.toNat < 2 ∧ s.inService port.toNat = 0)) : linkControlCell port c chk s = s := by
  refine if_pos ?_
  rcases h with h | h | h | ⟨h, h0⟩
  · simp [h]
  · simp [h]
  · simp [h]
  · simp [h, h0]

/-- A port takes control cells once it is delineated and, on the ring, has a lane in service. -/
def State.hears (s : State) (p : Nat) : Prop :=
  s.alive = true ∧ p < 3 ∧ (p = 2 ∨ s.inService p ≠ 0) ∧ (s.port p).delineated = true

theorem State.tagRight (hgood : s.portUp port.toNat = false ∨ s.authOn = false
    ∨ ((s.port port.toNat).keys ≠ none ∧ chk.tag = true)) : ¬ (s.authOn && s.portUp port.toNat && !((s.port port.toNat).keys.isSome && chk.tag)) = true := by
  rcases hgood with h | h | ⟨h, htag⟩
  · simp [h]
  · simp [h]
  · simp [htag, Option.isSome_iff_ne_none.mpr h]

section hearing
variable (hon : s.hears port.toNat)
include hon

theorem State.hears_guard : ¬ (decide (2 < port.toNat) || !s.alive || !(s.port port.toNat).delineated
    || (decide (port.toNat < 2) && decide (s.inService port.toNat = 0))) = true := by
  obtain ⟨ha, hp, hlane, hd⟩ := hon
  have h2 : ¬ 2 < port.toNat := by omega
  rcases hlane with h | h
  · simp [ha, h]
    rw [h] at hd
    exact hd
  · simp [ha, h2, hd, h]

theorem linkControlCell_bad (hbad : chk.line = false) : linkControlCell port c chk s = s.badCell port.toNat :=
  (if_neg (State.hears_guard hon)).trans (if_pos (by simp [hbad]))

theorem linkControlCell_whole (hline : chk.line = true) :
    linkControlCell port c chk s =
      let heard := s.cellHeard port.toNat
      let named := heard.partnerNamed port.toNat c
      if s.authOn && s.portUp port.toNat && !((s.port port.toNat).keys.isSome && chk.tag) then heard.tagError port.toNat
      else if 48 ≤ c.src.toNat && c.src != 0x3E then heard
      else if !s.portUp port.toNat then
        (if (s.port port.toNat).hello || (s.port port.toNat).keyBlocked then named else named.takeHello port.toNat c)
      else if c.release && !(named.controlServed port.toNat c).inRun then (named.controlServed port.toNat c).deliverAll
      else named.controlServed port.toNat c := by
  have hport : ((s.cellHeard port.toNat).partnerNamed port.toNat c).port port.toNat = { s.port port.toNat with badRun := 0 } := by
    have hname : ∀ u : State, (u.partnerNamed port.toNat c).ln = u.ln := fun u =>
      ite_both (fun v : State => v.ln = u.ln) _ _ _ rfl rfl
    rw [State.port_congr (hname _), State.cellHeard, State.port_modPort]
  have hup : ((s.cellHeard port.toNat).partnerNamed port.toNat c).portUp port.toNat = s.portUp port.toNat := by
    have hp := hon.2.1
    by_cases h2 : port.toNat < 2
    · rw [State.portUp_eq h2, State.portUp_eq h2, State.partnerNamed, if_pos h2, State.pstate, if_pos h2,
        State.fget_fput_disjoint _ _ _ _ (by decide) (by decide), State.pstate, if_pos h2]
      rfl
    · rw [State.partnerNamed, if_neg h2, State.portUp, State.portUp, if_neg h2, if_neg h2]
      rfl
  have hkeys : ((s.cellHeard port.toNat).port port.toNat).keys = (s.port port.toNat).keys := by
    rw [State.cellHeard, State.port_modPort]
  have hblocked : (((s.cellHeard port.toNat).partnerNamed port.toNat c).port port.toNat).keyBlocked = (s.port port.toNat).keyBlocked := by
    rw [hport]
  have hhello : (((s.cellHeard port.toNat).partnerNamed port.toNat c).port port.toNat).hello = (s.port port.toNat).hello := by
    rw [hport]
  refine (if_neg (State.hears_guard hon)).trans ((if_neg (by simp [hline])).trans ?_)
  refine Eq.trans (b := (s.cellHeard port.toNat).takeControl port.toNat c chk.tag) rfl ?_
  unfold State.takeControl
  rw [hkeys, hup, hhello, hblocked]
  rfl

section line
variable (hline : chk.line = true)
include hline

theorem linkControlCell_tagged (hauth : s.authOn = true) (hup : s.portUp port.toNat = true)
    (hbad : (s.port port.toNat).keys = none ∨ chk.tag = false) :
    linkControlCell port c chk s = (s.cellHeard port.toNat).tagError port.toNat := by
  rw [linkControlCell_whole hon hline]
  refine if_pos ?_
  rcases hbad with h | h <;> simp [hauth, hup, h]

section good
variable (hgood : s.portUp port.toNat = false ∨ s.authOn = false ∨ ((s.port port.toNat).keys ≠ none ∧ chk.tag = true))
include hgood

theorem linkControlCell_stranger (hsrc : ¬ (c.src.toNat < 48 ∨ c.src = 0x3E)) :
    linkControlCell port c chk s = s.cellHeard port.toNat := by
  rw [linkControlCell_whole hon hline]
  refine (if_neg (State.tagRight hgood)).trans (if_pos ?_)
  simpa using hsrc

section known
variable (hsrc : c.src.toNat < 48 ∨ c.src = 0x3E)
include hsrc

theorem linkControlCell_known :
    linkControlCell port c chk s =
      let named := (s.cellHeard port.toNat).partnerNamed port.toNat c
      if !s.portUp port.toNat then
        (if (s.port port.toNat).hello || (s.port port.toNat).keyBlocked then named else named.takeHello port.toNat c)
      else if c.release && !(named.controlServed port.toNat c).inRun then (named.controlServed port.toNat c).deliverAll
      else named.controlServed port.toNat c := by
  rw [linkControlCell_whole hon hline]
  refine (if_neg (State.tagRight hgood)).trans (if_neg ?_)
  simp only [Bool.and_eq_true, decide_eq_true_eq, bne_iff_ne, ne_eq, Classical.not_and_iff_not_or_not, Nat.not_le, Classical.not_not]
  exact hsrc

theorem linkControlCell_up (hup : s.portUp port.toNat = true) :
    linkControlCell port c chk s =
      let served := ((s.cellHeard port.toNat).partnerNamed port.toNat c).controlServed port.toNat c
      if c.release && !served.inRun then served.deliverAll else served := by
  rw [linkControlCell_known hon hline hgood hsrc]
  exact if_neg (by simp [hup])

end known
end good
end line

end hearing
end control

theorem linkControlCell_quiet {port : BitVec 2} {c : LinkCtlIn} {chk : CellCheck} {s : State} (hon : s.hears port.toNat)
    (hp : port.toNat < 2) (hup : s.portUp port.toNat = true) (hauth : s.authOn = false) (hsrc : c.src.toNat < 48) (hline : chk.line = true)
    (hhold : c.hold = false) (hrel : c.release = false) (hnak : c.nak = false) :
    linkControlCell port c chk s =
      ((((((s.modPort port.toNat (fun x => { x with badRun := 0 })).fput (Reg.LN_PSTAT port.toNat) Fld.LN_PSTAT_partner c.src.toNat).modPort
        port.toNat (fun x => { x with authRun := 0 })).noteLoops port.toNat c).takeAck port.toNat c.ack).partnerLanes port.toNat c.lanes).serve
          port.toNat := by
  rw [linkControlCell_up hon hline (.inr (.inl hauth)) (.inl hsrc) hup, State.controlServed_plain _ _ hhold hrel hnak, State.partnerNamed,
    if_pos hp, State.cellHeard]
  exact if_neg (by simp [hrel])

/-! ## Delineation -/

section delineation
variable {d : Delineation} {s : State}

theorem State.freshKeys_keyed {p : Nat} {k : List Byte × List Byte} {g : Agree} (hk : (s.port p).keys = some k)
    (hg : (s.port p).agree = some g) :
    s.freshKeys p = s.modPort p (fun x => { x with rekey := x.rekey + 1, keys := some (laneKeys g (x.rekey + 1)), txSlots := 0, rxSlots := 0 }) := by
  unfold State.freshKeys
  extract_lets x
  rw [show x.agree = some g from hg, show x.keys = some k from hk]
  simp only [x, ← hg]
  rfl

theorem State.freshKeys_none {p : Nat} (h : (s.port p).keys = none ∨ (s.port p).agree = none) : s.freshKeys p = s := by
  unfold State.freshKeys
  extract_lets x
  rcases h with h | h
  · rw [show x.keys = none from h]
    cases x.agree <;> rfl
  · rw [show x.agree = none from h]

theorem delineationLost_lost (hp : d.port.toNat < 3) (hbad : d.good.reverse.take 8 = List.replicate 8 false) :
    delineationLost d s = if d.far then s.freshKeys d.port.toNat
      else if (s.port d.port.toNat).delineated then s.loseDelineation d.port.toNat else s :=
  if_neg (by simp [hp, hbad])

theorem delineationLost_stays (h : 2 < d.port.toNat ∨ (d.far = false ∧ (s.port d.port.toNat).delineated = false)) :
    delineationLost d s = s := by
  by_cases hgo : d.port.toNat < 3 ∧ d.good.reverse.take 8 = List.replicate 8 false
  · rcases h with h | ⟨hfar, hd⟩
    · omega
    · rw [delineationLost_lost hgo.1 hgo.2, hfar, hd]
      rfl
  · refine if_pos ?_
    simpa [Classical.not_and_iff_not_or_not, Classical.or_iff_not_imp_left] using hgo

theorem delineationLost_few (h : d.good.reverse.take 8 ≠ List.replicate 8 false) : delineationLost d s = s :=
  if_pos (by rw [beq_eq_false_iff_ne.mpr h, Bool.and_false, Bool.not_false])

theorem delineationFound_stays (h : s.alive = false ∨ 2 < d.port.toNat ∨ d.far = true ∨ d.good.reverse.take 6 ≠ List.replicate 6 true) :
    delineationFound d s = s := by
  refine if_neg ?_
  rcases h with h | h | h | h
  · simp [h]
  · simp [show ¬ d.port.toNat < 3 by omega]
  · simp [h]
  · rw [beq_eq_false_iff_ne.mpr h, Bool.and_false]
    decide

end delineation

/-! ## An accepted cell -/

section accepted
variable {s : State} {p : Nat} {c : Cell} {seq : BitVec 12}

theorem State.acceptCell_other (h : c.typ < 3 ∨ c.typ = 0xD) : s.acceptCell p c seq = s :=
  (if_neg (by omega)).trans (if_pos (by simpa using h))

/-- A cell of a plain type: in order with room it is accepted and routed, else it is discarded (R316). -/
theorem State.acceptCell_plain (h3 : 3 ≤ c.typ) (hD : c.typ < 0xD) :
    s.acceptCell p c seq =
      let y := s.modPort p (fun x => { x with authRun := 0 })
      let w := y.modPort p (fun x => { x with rxSeq := x.rxSeq + 1, naked := false, acceptedSince := x.acceptedSince + 1 })
      if seq != (s.port p).rxSeq || y.noRoom p c then y.discardCell p
      else ((if 64 ≤ ((w.routeCell p c).port p).acceptedSince then (w.routeCell p c).sendControl p 0 else w.routeCell p c)).flowControl p := by
  refine (if_neg (by omega)).trans ((if_neg (by simp only [Bool.or_eq_true, decide_eq_true_eq]; omega)).trans ?_)
  have hseq : (s.port p).rxSeq = ((s.modPort p (fun x => { x with authRun := 0 })).port p).rxSeq := by rw [State.port_modPort]
  rw [hseq]

end accepted

theorem linkControlSend_eq {port : BitVec 2} {s : State} (ha : s.alive = true)
    (hp : port.toNat = 2 ∨ (port.toNat < 2 ∧ s.inService port.toNat ≠ 0)) : linkControlSend port s = s.sendControl port.toNat 0 := by
  refine if_pos ?_
  rcases hp with h | ⟨h, hlane⟩
  · simp [ha, h]
  · simp [ha, hlane, show port.toNat < 3 by omega]

theorem linkControlSend_off {port : BitVec 2} {s : State}
    (h : s.alive = false ∨ 2 < port.toNat ∨ (port.toNat < 2 ∧ s.inService port.toNat = 0)) : linkControlSend port s = s := by
  refine if_neg ?_
  rcases h with h | h | ⟨h, h0⟩
  · simp [h]
  · simp [show ¬ port.toNat < 3 by omega]
  · simp [h0, show ¬ port.toNat = 2 by omega]

theorem helloTimeout_stays {port : BitVec 2} {s : State}
    (h : 2 < port.toNat ∨ (s.port port.toNat).hello = true ∨ 3 ≤ s.pstate port.toNat) : helloTimeout port s = s := by
  refine if_neg ?_
  simp only [Bool.and_eq_true, decide_eq_true_eq, Bool.not_eq_true']
  rintro ⟨⟨hp, hhello⟩, hstate⟩
  rcases h with h | h | h
  · omega
  · exact Bool.false_ne_true (hhello.symm.trans h)
  · omega

/-- Settles O43: a cell, a control cell and a delineation act by the branches of their commands; a port written twice holds the second
value. -/
theorem cells : Obligations.Cells := by
  intro s port cell skipped chk c d k g p bs good x slot r v y w on tag sound plain heard listens known named acked freed held served agreed dp
  have hseq : (v.port p).rxSeq = (s.port p).rxSeq := by
    simp only [v, r, State.port_modPort]
  have htagged : sound → ¬ (s.authOn && !tag) = true := by
    rintro (h | h) <;> simp [h]
  have hplain : plain → sound := fun h => by
    cases ha : s.authOn
    · exact .inl ha
    · exact .inr (h.2.2 ha)
  have hagreed : agreed → s.portUp p = false ∨ s.authOn = false ∨ ((s.port p).keys ≠ none ∧ chk.tag = true) := .inr
  have hsound : on → good → sound → sequencedCell port cell skipped s = v.acceptCell p x.1 x.2 := fun hon hgood h =>
    (sequencedCell_whole hon hgood).trans (if_neg (htagged h))
  have hforged : on → good → s.authOn = true → tag = false → sequencedCell port cell skipped s =
      if (v.tagError p).portUp p then (v.tagError p).discardCell p else v.tagError p := fun hon hgood hauth htag =>
    (sequencedCell_whole hon hgood).trans (if_pos (show (s.authOn && !tag) = true by rw [hauth, htag]; rfl))
  have hacc : on → good → plain → sequencedCell port cell skipped s =
      if x.2 != (s.port p).rxSeq || y.noRoom p x.1 then y.discardCell p
      else ((if 64 ≤ ((w.routeCell p x.1).port p).acceptedSince then (w.routeCell p x.1).sendControl p 0 else w.routeCell p x.1)).flowControl p :=
    fun hon hgood h => by
      rw [hsound hon hgood (hplain h), State.acceptCell_plain h.1 h.2.1, hseq]
  refine ⟨fun ha hp hl => Becomes.of rfl (linkControlSend_eq ha (.inr ⟨hp, hl⟩)), fun ha h2 => Becomes.of rfl (linkControlSend_eq ha (.inl h2)),
    fun h => Becomes.of rfl (linkControlSend_off h),
    fun hon hgood ha ht hdown => Becomes.of rfl ((hforged hon hgood ha ht).trans (if_neg (Bool.eq_false_iff.mp hdown))),
    fun hon hgood hs hD => Becomes.of rfl ((hsound hon hgood hs).trans (if_pos hD)),
    fun hon hgood hs ht => Becomes.of rfl ((hsound hon hgood hs).trans (State.acceptCell_other ht)),
    fun hon hgood hpl hsq hroom hacks => Becomes.of rfl ((hacc hon hgood hpl).trans ?_),
    fun h => Becomes.of rfl (sequencedCell_off (h.imp id .inr)),
    fun hl hline hag hk hup => Becomes.of rfl (linkControlCell_up hl hline (hagreed hag) hk hup),
    fun hl hline hdown hk hhello hblk => Becomes.of rfl ?_, fun hl hline hdown hk hh => Becomes.of rfl ?_,
    fun hl hline hup hauth hbad => Becomes.of rfl (linkControlCell_tagged hl hline hauth hup hbad),
    fun hl hline hag hk => Becomes.of rfl (linkControlCell_stranger hl hline (hagreed hag) hk),
    fun hl hbad => Becomes.of rfl (linkControlCell_bad hl hbad), fun h => Becomes.of rfl (linkControlCell_off h),
    fun h => Becomes.of rfl (delineationFound_stays (h.imp id (Or.imp id .inl))), fun hp hbad hwho hkeys => Becomes.of rfl ?_,
    fun hp hbad hfar hk hg => Becomes.of rfl ?_, fun h => Becomes.of rfl (delineationLost_stays h),
    fun h => Becomes.of rfl (helloTimeout_stays h), fun hon hbad => Becomes.of rfl (sequencedCell_bad hon hbad),
    fun hon hgood ha ht hup => Becomes.of rfl ((hforged hon hgood ha ht).trans (if_pos hup)),
    fun hon hgood hpl hno => Becomes.of rfl ((hacc hon hgood hpl).trans (if_pos ?_)),
    fun hon hgood hpl hsq hroom hfew => Becomes.of rfl ((hacc hon hgood hpl).trans ?_),
    fun hup => Becomes.of rfl (sequencedCell_off (.inr (.inl hup))),
    fun ha hp hlane hup hd hauth hsrc hline hhold hrel hnak => Becomes.of rfl
      (linkControlCell_quiet ⟨ha, Nat.lt_succ_of_lt hp, .inr hlane, hd⟩ hp hup hauth hsrc hline hhold hrel hnak),
    fun ha hp hlane hd hauth hsrc hne hline => Becomes.of rfl ?_, fun ha hp hlane hd hbad => Becomes.of rfl ?_,
    fun ha hp hfar hgood => Becomes.of rfl ?_, fun h => Becomes.of rfl (delineationFound_stays (.inr (.inr (.inr h)))),
    fun hp hfar hd hbad hk hg => Becomes.of rfl ?_, fun h => Becomes.of rfl (delineationLost_few h),
    fun hp hhello hst => Becomes.of rfl ?_⟩
  · rw [if_neg (by simp [hsq, hroom]), if_pos hacks]
  · rw [linkControlCell_known hl hline (.inl hdown) hk]
    exact (if_pos (by simpa using hdown)).trans (if_neg (by simp [p] at hhello hblk; simp [hhello, hblk]))
  · rw [linkControlCell_known hl hline (.inl hdown) hk]
    exact (if_pos (by simpa using hdown)).trans (if_pos (by simpa using hh))
  · rw [delineationLost_lost hp hbad]
    cases hfar : d.far
    · have hd := hwho.resolve_left (by simp [hfar])
      have hlost : (s.port dp).delineated = true → s.loseDelineation dp = s.modPort dp (fun x => { x with delineated := false, badRun := 0 }) :=
        fun _ => State.freshKeys_none (by rw [State.port_modPort]; exact hkeys)
      simp only [Bool.false_eq_true, if_false]
      exact (if_pos hd).trans (hlost hd)
    · exact State.freshKeys_none hkeys
  · rw [delineationLost_lost hp hbad, hfar]
    exact State.freshKeys_keyed hk hg
  · simpa using hno
  · rw [if_neg (by simp [hsq, hroom]), if_neg (by omega)]
  · exact linkControlCell_stranger ⟨ha, by omega, .inr hlane, hd⟩ hline (.inr (.inl hauth)) (not_or.mpr ⟨Nat.not_lt.mpr hsrc, hne⟩)
  · exact linkControlCell_bad ⟨ha, by omega, .inr hlane, hd⟩ hbad
  · exact if_pos (by simp [ha, hp, hfar, hgood])
  · rw [delineationLost_lost hp hbad, hfar]
    refine (if_pos hd).trans ?_
    have hk' : ((s.modPort dp (fun x => { x with delineated := false, badRun := 0 })).port dp).keys = some k := by
      rw [State.port_modPort]; exact hk
    have hg' : ((s.modPort dp (fun x => { x with delineated := false, badRun := 0 })).port dp).agree = some g := by
      rw [State.port_modPort]; exact hg
    rw [State.loseDelineation, State.freshKeys_keyed hk' hg', State.modPort_modPort]
  · refine if_pos ?_
    simp only [Bool.and_eq_true, decide_eq_true_eq, Bool.not_eq_true']
    exact ⟨⟨hp, hhello⟩, hst⟩

end Sys2Proof.Machine
end

section
/-! PROOF. Reroute and healing (O45). -/

namespace Sys2Proof.Machine

/-! ## What the traffic that moves leaves alone -/

theorem Rerouted.foldl {α : Type} (f : State → α → State) (hf : ∀ s x, Rerouted s (f s x)) (l : List α) (s : State) :
    Rerouted s (l.foldl f s) := by
  induction l generalizing s with
  | nil => exact .refl s
  | cons x t ih => exact (hf s x).trans (ih _)

theorem Rerouted.sendOwn (s : State) (c : Cell) : Rerouted s (s.sendOwn c) := by
  unfold State.sendOwn
  split
  · exact .of_link (.lnSet s _) rfl
  · simp only []
    split
    · exact .of_link (.lnSet s _) rfl
    · exact .sendCell ..

theorem Rerouted.forward (s : State) (q : Nat) (c : Cell) : Rerouted s (s.forward q c) := by
  unfold State.forward
  split
  · exact ite_both (Rerouted s) _ _ _ (.sendCell ..) (ite_both (Rerouted s) _ _ _ (.sendCell ..) (.of_link (.setPort s _ _) rfl))
  · split
    · exact .of_link (.lnSet s _) rfl
    · exact .sendCell ..

theorem Rerouted.releaseStranded (s : State) : Rerouted s s.releaseStranded :=
  Rerouted.trans (t := { s with ln := { s.ln with stranded := [] } }) (.of_link (.lnSet s _) rfl)
    (.foldl _ (fun u c => ite_both (Rerouted u) _ _ _ (.sendOwn u c) (.forward u c.via c)) _ _)

theorem Rerouted.releaseHere (s : State) : Rerouted s s.releaseHere := .of_link (.lnSet s _) rfl

/-! ## A cut heals (R324) -/

/-- The ring's state after a healing that leaves the cuts `new`. -/
def cutState (new : List (Nat × Nat)) : Nat := if new.isEmpty then 2 else if new.length = 1 then 3 else 4

/-- The healing is noted, with `n` occurrences of RING_HEALED since `s`. -/
structure HealNoted (s : State) (new : List (Nat × Nat)) (n : Word) (u : State) : Prop where
  state : u.ringState = cutState new
  heal : u.flag Reg.LN_STAT Fld.LN_STAT_heal_lat = true
  cuts : u.ln.cuts = new
  occ : u.rd (Reg.EV_OCC 43) = s.rd (Reg.EV_OCC 43) + n

section noted
variable {s u v : State} {new : List (Nat × Nat)} {n : Word}

theorem HealNoted.rerouted (h : HealNoted s new n u) (k : Rerouted u v) : HealNoted s new n v :=
  ⟨k.state.trans h.state, k.heal.trans h.heal, k.cuts.trans h.cuts, (k.rd _ (by decide)).trans h.occ⟩

/-- LN_MAP.reachable of a hub that is reached again. -/
def State.tellReached (p : State → Nat × Nat → Bool) (v : State) (e : Nat × Nat) : State :=
  if e.1 < 48 && p v e then v.setFlag (Reg.LN_MAP e.1) Fld.LN_MAP_reachable true else v

theorem State.tellReached_rd (p : State → Nat × Nat → Bool) (l : List (Nat × Nat)) (u : State) {a : Nat}
    (ha : ∀ i, i < 48 → a ≠ Reg.LN_MAP i) : (l.foldl (State.tellReached p) u).rd a = u.rd a := by
  refine State.foldl_wr_rd l (State.tellReached p) a (fun w e _ => ?_) u
  rw [State.tellReached]
  split
  · next hc => exact State.rd_setFlag_ne _ _ _ (ha _ (of_decide_eq_true (Bool.and_eq_true_iff.mp hc).1))
  · rfl

theorem State.tellReached_keeps {α : Type} (g : State → α) (hwr : ∀ (u : State) a w, g (u.wr a w) = g u)
    (p : State → Nat × Nat → Bool) (l : List (Nat × Nat)) (u : State) : g (l.foldl (State.tellReached p) u) = g u :=
  State.foldl_field g l (State.tellReached p) (fun w _ => ite_both (fun x : State => g x = g w) _ _ _ (hwr ..) rfl) u

/-- The head tells which hubs it reaches again, and raises the healing. -/
theorem HealNoted.raise (h : HealNoted s new n u) (hhead : u.pw.headSel = true) (l : List (Nat × Nat)) (p : State → Nat × Nat → Bool)
    (obj : Nat) : HealNoted s new (n + 1) ((l.foldl (State.tellReached p) u).raise 43 obj 0) := by
  have hln := State.tellReached_keeps State.ln (fun _ _ _ => rfl) p l u
  have hpw := State.tellReached_keeps State.pw (fun _ _ _ => rfl) p l u
  have hr := raise_raised (l.foldl (State.tellReached p) u) 43 obj 0 (by decide)
  have hstat := (hr.frame.rd Reg.LN_STAT (by decide)).trans
    (State.tellReached_rd p l u fun i hi => by simp only [Reg.LN_STAT, Reg.LN_MAP]; omega)
  have hocc := State.tellReached_rd p l u (a := Reg.EV_OCC 43) fun i hi => by simp only [Reg.EV_OCC, Reg.LN_MAP]; omega
  refine ⟨(State.fget_congr hstat _).trans h.state, (State.flag_congr hstat _).trans h.heal, ?_, ?_⟩
  · rw [hr.frame.ln (by rw [hpw]; exact hhead), hln, h.cuts]
  · rw [hr.occ, hocc, h.occ, BitVec.add_assoc]

theorem cutState_lt (new : List (Nat × Nat)) : cutState new < 8 := by
  unfold cutState
  split
  · decide
  · split <;> decide

theorem State.cutNoted_pw (u : State) (new : List (Nat × Nat)) :
    ((u.setRingState (cutState new)).setFlag Reg.LN_STAT Fld.LN_STAT_heal_lat true).pw = u.pw :=
  State.setRingState_pw u (cutState new)

theorem HealNoted.of_cut (hcuts : u.ln.cuts = new) (hocc : u.rd (Reg.EV_OCC 43) = s.rd (Reg.EV_OCC 43)) :
    HealNoted s new 0 ((u.setRingState (cutState new)).setFlag Reg.LN_STAT Fld.LN_STAT_heal_lat true) := by
  refine ⟨?_, State.flag_setFlag_same _ _ _ (by decide) (by decide) _, ?_, ?_⟩
  · rw [State.ringState, State.setFlag, State.fget_fput_disjoint _ _ _ _ (by decide) (by decide)]
    exact State.setRingState_state u (cutState new) (cutState_lt new)
  · exact (congrArg LnSt.cuts (State.setRingState_ln u (cutState new))).trans hcuts
  · rw [State.rd_setFlag_ne _ _ _ (by decide), State.setRingState_rd _ _ (by decide) (by decide), hocc]
    exact (BitVec.add_zero _).symm

end noted

/-- A route marker of this hub to another (R324). -/
def State.markTo (link : Nat × Nat) (s : State) (e : Nat × Nat) : State := s.sendOwn (s.ownCell 3 e.1 (ringControl 7 link.1 link.2 0))

theorem Rerouted.markAll (link : Nat × Nat) (l : List (Nat × Nat)) (s : State) : Rerouted s (l.foldl (State.markTo link) s) :=
  .foldl _ (fun u _ => .sendOwn u _) l s

theorem State.heal_none {s : State} {link : Nat × Nat} (h : s.ln.cuts.contains link = false) : s.heal link = s :=
  if_pos (by rw [h]; rfl)

theorem State.heal_noted {s : State} {link : Nat × Nat} (h : s.ln.cuts.contains link = true) :
    HealNoted s (s.ln.cuts.filter (fun c => c != link)) (if s.pw.headSel then 1 else 0) (s.heal link) := by
  unfold State.heal
  extract_lets n me old new mark moved a waits l b c d e
  have ha : Rerouted s a := .markAll link _ s
  have hbrd : ∀ x, b.rd x = a.rd x := fun _ => rfl
  have hbcuts : b.ln.cuts = new := rfl
  have hbpw : b.pw = a.pw := rfl
  have hc : Rerouted b c := .markAll link _ b
  clear_value a b c
  have hcuts : c.ln.cuts = new := hc.cuts.trans hbcuts
  have hocc : c.rd (Reg.EV_OCC 43) = s.rd (Reg.EV_OCC 43) := by rw [hc.rd _ (by decide), hbrd, ha.rd _ (by decide)]
  have hnew : s.ln.cuts.filter (fun c => c != link) = new := rfl
  rw [hnew]
  clear_value new
  have hd : HealNoted s new 0 d := HealNoted.of_cut hcuts hocc
  have hdc : d.pw = c.pw := State.cutNoted_pw c new
  have hdpw : d.pw = s.pw := hdc.trans (hc.pw.trans (hbpw.trans ha.pw))
  have hde : Rerouted d e := ((Rerouted.noteReroute d).trans (.releaseStranded _)).trans (.releaseHere _)
  have he : HealNoted s new 0 e := hd.rerouted hde
  have hepw : e.pw = s.pw := hde.pw.trans hdpw
  clear_value d e
  rw [hepw, if_neg (show ¬ (!s.ln.cuts.contains link) = true by rw [h]; decide)]
  cases hhead : s.pw.headSel
  · exact he
  · exact he.raise (by rw [hepw, hhead]) _ (fun s e => decide (e.2 = 0) || (s.route e.1).isSome) _

section marker
variable {s : State} {m : RouteMark}

/-- The hub that a route marker tells of is no longer waited for. -/
def State.markerSeen (s : State) (src : BitVec 6) : State :=
  { s with ln := { s.ln with waitMarker := s.ln.waitMarker.filter (fun a => a != src.toNat) } }

theorem routeMarker_eq (m : RouteMark) (s : State) :
    routeMarker m s = ((s.heal (m.up.toNat, m.down.toNat)).markerSeen m.src).noteReroute.releaseHere := rfl

/-- A route marker of a cut that the hub knows: the healing is noted. -/
theorem routeMarker_heals (h : s.ln.cuts.contains (m.up.toNat, m.down.toNat) = true) :
    HealNoted s (s.ln.cuts.filter (fun c => c != (m.up.toNat, m.down.toNat))) (if s.pw.headSel then 1 else 0) (routeMarker m s) := by
  have hseen : ∀ u : State, Rerouted u (u.markerSeen m.src).noteReroute.releaseHere := fun u =>
    (Rerouted.trans (t := u.markerSeen m.src) (.of_link (.lnSet u _) rfl) (.noteReroute _)).trans (.releaseHere _)
  rw [routeMarker_eq]
  exact (State.heal_noted h).rerouted (hseen _)

theorem routeMarker_only (h : s.ln.cuts = [(m.up.toNat, m.down.toNat)]) :
    HealNoted s [] (if s.pw.headSel then 1 else 0) (routeMarker m s) := by
  have := routeMarker_heals (s := s) (m := m) (by rw [h]; simp)
  rwa [h, List.filter_cons_of_neg (by simp), List.filter_nil] at this

theorem routeMarker_none (h : s.ln.cuts.contains (m.up.toNat, m.down.toNat) = false) :
    routeMarker m s = (s.markerSeen m.src).noteReroute.releaseHere := by
  rw [routeMarker_eq, State.heal_none h]

/-- Where nothing is held, the end of a wait moves no cell. -/
theorem State.releaseHere_none {u : State} (h : u.ln.heldDst = []) : u.releaseHere = u := by
  unfold State.releaseHere
  rw [h]
  simp only [List.filter_nil, List.reverse_nil, List.nil_append]
  rw [← h]

end marker

/-! ## Notice, flush and tail (R322) -/

section notice
variable {s : State} {x y : BitVec 6} {last : BitVec 12} {port : BitVec 2}

theorem cutNotice_off (h : s.alive = false ∨ 1 < port.toNat ∨ s.hubs < 2) : cutNotice x y last port s = s := by
  refine if_pos ?_
  rcases h with h | h | h <;> simp [h]

/-- The notice goes on by the other port, where that is up. -/
def State.passNotice (u : State) (x y : BitVec 6) (last : BitVec 12) (q : Nat) : State :=
  if u.portUp (1 - q) then u.sendCell (1 - q) false (u.passedCell 4 x.toNat y.toNat last.toNat x.toNat y.toNat) else u

/-- The cut link as a notice names it, upstream end first. -/
def State.noticeLink (s : State) (x y : BitVec 6) : Nat × Nat :=
  if s.cutDir x.toNat y.toNat = 1 then (x.toNat, y.toNat) else (y.toNat, x.toNat)

/-- The state in which the notice of the first cut has been taken into the reroute of its direction. -/
def State.noticed (v : State) (k : Nat) (r : Reroute) : State :=
  { v with ln := { v.ln with reroutes := kset v.ln.reroutes k { r with noticed := true } } }

/-- X turns its cells back and ends with a tail, once nothing of a farther hub is to come (R322, steps 2 to 5). -/
def State.turnBack (n : State) (k : Nat) (last : BitVec 12) (r : Reroute) (flushing : Bool) : State :=
  let cells := (unacked last (n.port k).replay).map Prod.snd ++ (n.port k).queue.map Prod.snd
  let turned := cells.foldl (fun u c => u.sendCell (1 - k) false { c with turned := true })
    (n.setPort k { n.port k with replay := [], queue := [] })
  if flushing && !r.flushed then turned else turned.sendTail k { r with noticed := true }

theorem State.turnBack_empty {n : State} (k : Nat) (last : BitVec 12) (r : Reroute) (hrep : (n.port k).replay = [])
    (hque : (n.port k).queue = []) : n.turnBack k last r false
      = (n.setPort k { n.port k with replay := [], queue := [] }).sendTail k { r with noticed := true } := by
  have hcells : (unacked last (n.port k).replay).map Prod.snd ++ (n.port k).queue.map Prod.snd = [] := by
    rw [hrep, hque]
    rfl
  unfold State.turnBack
  rw [hcells]
  rfl

section takes
variable (ha : s.alive = true) (hq : port.toNat < 2) (hh : 2 ≤ s.hubs)
include ha hq hh

theorem cutNotice_guard : ¬ (decide (1 < port.toNat) || decide (s.hubs < 2) || !s.alive) = true := by
  simp only [ha, Bool.not_true, Bool.or_false, Bool.or_eq_true, decide_eq_true_eq]
  omega

theorem cutNotice_further (hcut : (s.noteBreak (s.noticeLink x y)).firstCut (s.noticeLink x y) = false) :
    cutNotice x y last port s = if (s.noteBreak (s.noticeLink x y)).ln.position = x.toNat then s.noteBreak (s.noticeLink x y)
      else (s.noteBreak (s.noticeLink x y)).passNotice x y last port.toNat :=
  (if_neg (cutNotice_guard ha hq hh)).trans (if_pos (show (!(s.noteBreak (s.noticeLink x y)).firstCut (s.noticeLink x y)) = true by
    rw [hcut]; rfl))

theorem cutNotice_first {r : Reroute} (hcut : (s.noteBreak (s.noticeLink x y)).firstCut (s.noticeLink x y) = true)
    (hr : kget? (((s.noteBreak (s.noticeLink x y)).joinReroute (s.cutDir x.toNat y.toNat) x.toNat y.toNat).noticePassed
      (s.cutDir x.toNat y.toNat)).ln.reroutes (s.cutDir x.toNat y.toNat) = some r) :
    cutNotice x y last port s =
      let k := s.cutDir x.toNat y.toNat
      let n := (((s.noteBreak (s.noticeLink x y)).joinReroute k x.toNat y.toNat).noticePassed k).noticed k r
      let flushing := crossed n.hubs (farther n.hubs n.ln.position k) y.toNat k
      let passed := n.passNotice x y last port.toNat
      if n.ln.position = x.toNat then n.turnBack k last r flushing
      else if r.holdsOwn && !flushing then passed.sendCell k true (passed.controlCell 5 x.toNat y.toNat 0 x.toNat) else passed := by
  refine (if_neg (cutNotice_guard ha hq hh)).trans ((if_neg (show ¬ (!(s.noteBreak (s.noticeLink x y)).firstCut (s.noticeLink x y)) = true by
    rw [hcut]; decide)).trans ?_)
  extract_lets v k n flushing passed
  rw [show kget? v.ln.reroutes (s.cutDir x.toNat y.toNat) = some r from hr]
  rfl

end takes
end notice

section flush
variable {s : State} {port : BitVec 2} {r : Reroute}

theorem ringFlush_none (h : kget? s.ln.reroutes (1 - port.toNat) = none) : ringFlush port s = s := by
  unfold ringFlush
  extract_lets k
  rw [show kget? s.ln.reroutes k = none from h]

theorem ringFlush_eq (h : kget? s.ln.reroutes (1 - port.toNat) = some r) :
    ringFlush port s =
      let u : State := { s with ln := { s.ln with reroutes := kset s.ln.reroutes (1 - port.toNat) { r with flushed := true } } }
      if r.x = s.ln.position then (if r.noticed then u.sendTail (1 - port.toNat) { r with flushed := true } else u)
      else u.sendCell (1 - port.toNat) true (u.controlCell 5 r.x r.y 0 r.x) := by
  unfold ringFlush
  extract_lets k u
  rw [show kget? s.ln.reroutes k = some r from h]

theorem tail_none (h : kget? s.ln.reroutes port.toNat = none) : tail port s = s := by
  unfold tail
  extract_lets q
  rw [show kget? s.ln.reroutes q = none from h]

theorem tail_eq (h : kget? s.ln.reroutes port.toNat = some r) :
    tail port s = (if r.y = s.ln.position then s
      else s.sendCell (1 - port.toNat) false (s.passedCell 6 r.x r.y 0 r.y r.x)).endReroute port.toNat := by
  unfold tail
  extract_lets q
  rw [show kget? s.ln.reroutes q = some r from h]

end flush

/-- Settles O45: a notice, a flush and a tail are their branches; a marker's healing stands through the traffic that it lets go. -/
theorem rerouting : Obligations.Rerouting := by
  intro s x y last port m r q k link b v healed n flushing takes passOn passed cells turned noted dropped
  have hfirst : takes → b.firstCut link = true → kget? v.ln.reroutes k = some r → cutNotice x y last port s =
      if n.ln.position = x.toNat then n.turnBack k last r flushing
      else if r.holdsOwn && !flushing then passed.sendCell k true (passed.controlCell 5 x.toNat y.toNat 0 x.toNat) else passed :=
    fun ht hcut hr => cutNotice_first ht.1 ht.2.1 ht.2.2 hcut hr
  have hfurther : takes → b.firstCut link = false → cutNotice x y last port s = if b.ln.position = x.toNat then b else passOn b :=
    fun ht hcut => cutNotice_further ht.1 ht.2.1 ht.2.2 hcut
  refine ⟨fun ht hcut hr hpos => Becomes.of rfl ((hfirst ht hcut hr).trans (if_neg hpos)),
    fun ht hcut hr hpos => Becomes.of rfl ((hfirst ht hcut hr).trans (if_pos hpos)),
    fun ht hcut hpos => Becomes.of rfl ((hfurther ht hcut).trans (if_neg hpos)),
    fun h => Becomes.of rfl (cutNotice_off (h.imp id .inl)), fun hr hx hn => Becomes.of rfl ?_, fun hr hx => Becomes.of rfl ?_,
    fun h => Becomes.of rfl (routeMarker_none h), fun h hmem => Ends.of (v := routeMarker m s) rfl ?_,
    fun h hne => Ends.of (v := routeMarker m s) rfl ?_, fun ht hcut hr hpos hfl hup => Becomes.of rfl ?_,
    fun ha hq hh hcut hr hpos hfl hrep hque => Becomes.of rfl ?_,
    fun ha hq hh hcut hpos => Becomes.of rfl ((hfurther ⟨ha, hq, hh⟩ hcut).trans (if_pos hpos)),
    fun h => Becomes.of rfl (cutNotice_off (.inr (.inr h))), fun h => Becomes.of rfl (ringFlush_none h),
    fun hr hx hn => Becomes.of rfl ?_, fun h => Becomes.of rfl (tail_none h), fun hr hy => Becomes.of rfl ?_,
    fun hr hy => Becomes.of rfl ?_, fun h hheld => Ends.of (v := routeMarker m s) rfl ?_,
    fun h hhead => Ends.of (v := routeMarker m s) rfl ?_⟩
  · exact (ringFlush_eq hr).trans ((if_pos hx).trans (if_neg (Bool.eq_false_iff.mp hn)))
  · exact (ringFlush_eq hr).trans (if_neg hx)
  · have hm := routeMarker_only h
    rw [hmem] at hm
    exact ⟨hm.state, hm.cuts, hm.heal, hm.occ.trans (BitVec.add_zero _)⟩
  · have hm := routeMarker_heals (s := s) (m := m) (by rw [h]; simp [healed])
    have hnew : s.ln.cuts.filter (fun c => c != (m.up.toNat, m.down.toNat)) = [link] := by
      rw [h, List.filter_cons_of_neg (by simp [healed]), List.filter_cons_of_pos (by simpa using hne.symm), List.filter_nil]
    rw [hnew] at hm
    exact ⟨hm.state, hm.cuts, hm.heal⟩
  · rw [hfirst ht hcut hr, if_neg hpos, hfl]
    exact (if_neg (by simp)).trans (if_pos hup)
  · rw [hfirst ⟨ha, hq, hh⟩ hcut hr, if_pos hpos, hfl]
    exact State.turnBack_empty k last r hrep hque
  · exact (ringFlush_eq hr).trans ((if_pos hx).trans (if_pos hn))
  · rw [tail_eq hr, if_pos hy]
  · rw [tail_eq hr, if_neg hy]
  · rw [routeMarker_none h, State.releaseHere_none (u := (s.markerSeen m.src).noteReroute) hheld]
    exact ⟨(Rerouted.noteReroute (s.markerSeen m.src)).state, rfl⟩
  · have hm := routeMarker_only h
    rw [hhead] at hm
    exact ⟨hm.state, hm.cuts, hm.heal, hm.occ⟩

end Sys2Proof.Machine
end

section
/-! SUPPORT. A message of this hub moves its ports and what waits for a way (R305, R322, R325). -/

namespace Sys2Proof.Machine

/-- Beside the free values and what goes out, only the ports and the cells that wait for a way changed. -/
structure CellsOnly (s t : State) : Prop where
  link : LinkOnly s t
  ln : t.ln = { s.ln with ports := t.ln.ports, stranded := t.ln.stranded, reroutes := t.ln.reroutes }

theorem CellsOnly.refl (s : State) : CellsOnly s s := ⟨.refl s, rfl⟩

theorem CellsOnly.trans {s t u : State} (h : CellsOnly s t) (k : CellsOnly t u) : CellsOnly s u :=
  ⟨h.link.trans k.link, by rw [k.ln, h.ln]⟩

theorem PortsOnly.cells {s t : State} (h : PortsOnly s t) : CellsOnly s t := ⟨h.link, by rw [h.ln]⟩

theorem CellsOnly.sendOwn (s : State) (c : Cell) : CellsOnly s (s.sendOwn c) := by
  unfold State.sendOwn
  split
  · exact ⟨.lnSet s _, rfl⟩
  · simp only []
    split
    · exact ⟨.lnSet s _, rfl⟩
    · exact (PortsOnly.sendCell ..).cells

theorem CellsOnly.sendMessage (s : State) (typ dst : Nat) (bs : List Byte) : CellsOnly s (s.sendMessage typ dst bs) := by
  have hall : ∀ (l : List Cell) (u : State), CellsOnly u (l.foldl State.sendOwn u) := by
    intro l
    induction l with
    | nil => exact .refl
    | cons c t ih => exact fun u => (CellsOnly.sendOwn u c).trans (ih _)
  exact hall _ s

/-- The way to a hub depends on the map, the cuts and the ring's registers. -/
theorem State.reachable_congr {s t : State} (hmap : ∀ a, t.rd (Reg.LN_MAP a) = s.rd (Reg.LN_MAP a)) (hln : t.ln.map = s.ln.map)
    (htwins : t.ln.twins = s.ln.twins) (hpos : t.ln.position = s.ln.position) (hcuts : t.ln.cuts = s.ln.cuts) (a : Nat) :
    t.reachable a = s.reachable a := by
  rw [State.reachable, State.reachable, State.flag_congr (hmap a), State.flag_congr (hmap a), State.route, State.route, State.hubs,
    State.hubs, hln, htwins, hpos, hcuts]

end Sys2Proof.Machine
end

section
/-! PROOF. Requests to members and their answers (O39). -/

namespace Sys2Proof.Machine

section member
variable {s : State} {off : BitVec 20} {val : Word} {tag : BitVec 16} {w : Bool}

theorem setupRequest_member (hserved : s.served = true) (hmem : s.pw.headSel = false) (d : SetupData) :
    setupRequest w off d tag s = match d.mail with
      | some req => s.mailRequest tag.toNat d.val req
      | none => if off.toNat % 4 != 0 then s.accErr w off.toNat
        else if w then s.hostWrite off.toNat d.val
        else (s.hostRead off.toNat).sendMessage 10 0 (leBytes 2 tag.toNat ++ zeros 2 ++ leBytes 4 (s.hostRead off.toNat).rdata.toNat) :=
  if_neg (show ¬ (s.pw.headSel || !s.served) = true by rw [hserved, hmem]; decide)

theorem setupRequest_plain (hserved : s.served = true) (hmem : s.pw.headSel = false) (hoff : off.toNat % 4 = 0) :
    setupRequest w off ⟨val, none⟩ tag s = if w then s.hostWrite off.toNat val
      else (s.hostRead off.toNat).sendMessage 10 0 (leBytes 2 tag.toNat ++ zeros 2 ++ leBytes 4 (s.hostRead off.toNat).rdata.toNat) :=
  (setupRequest_member hserved hmem _).trans (if_neg (by simp [hoff]))

theorem setupRequest_misaligned (hserved : s.served = true) (hmem : s.pw.headSel = false) (hoff : off.toNat % 4 ≠ 0) :
    setupRequest w off ⟨val, none⟩ tag s = s.accErr w off.toNat :=
  (setupRequest_member hserved hmem _).trans (if_pos (by simpa using hoff))

/-- The request of a head's mailbox, standing in the member's registers. -/
def State.mailTaken (s : State) (tag : Nat) (v : Word) (req : List Byte) : State :=
  let words : KMap Word := (List.range (ceilDiv req.length 4)).foldl (fun m i =>
    let w := word (ofLe (slice req (4 * i) 4))
    if w = 0 then m else kset m i w) []
  (({ s with vt := { s.vt with req := words, mailTag := some tag } }).wr Reg.MB_REQLEN (word req.length)).wr Reg.MB_CMD (v &&& 0x003F00FF#32)

theorem mailRequest_served (s : State) (tag : Nat) {v : Word} (req : List Byte) (hfree : s.flag Reg.MB_STAT Fld.MB_STAT_busy = false)
    (hsvc : vaultServices.contains (BitField.get Fld.MB_CMD_service v) = true) :
    s.mailRequest tag v req = (s.mailTaken tag v req).mbBusy :=
  (if_neg (by rw [hfree]; decide)).trans (if_pos hsvc)

/-- A mailbox request that a member serves (R368). -/
theorem mailTaken_busy (s : State) (tag : Nat) (v : Word) (req : List Byte) :
    (s.mailTaken tag v req).mbBusy.vt.mailTag = some tag ∧ (s.mailTaken tag v req).mbBusy.rd Reg.MB_REQLEN = word req.length
      ∧ (s.mailTaken tag v req).mbBusy.rd Reg.MB_STAT = 0x80000000 ∧ (s.mailTaken tag v req).mbBusy.vt.memberReq = none := by
  refine ⟨rfl, ?_, ?_, rfl⟩
  · rw [State.mbBusy, State.rd_wr_ne _ _ (by decide), State.rd_wr_ne _ _ (by decide)]
    exact (State.rd_wr_ne _ _ (by decide)).trans (State.rd_wr_same _ _ _)
  · rw [State.mbBusy, State.rd_wr_ne _ _ (by decide), State.rd_wr_same]
    rfl

end member

section head
variable {s : State} {o : BitVec 26} {v : Word64} {width hub a : Nat} {w : Bool}

/-- An access of the head to a slot of BAR4 that is aligned (R24). -/
theorem bar4Access_head (hserved : s.served = true) (hhead : s.pw.headSel = true) :
    bar4Access w o width v s =
      let hub := o.toNat / 2 ^ 20
      let a := o.toNat % 2 ^ 20
      if !wellAligned a width then (if w then s else { s with rdata := 0 }).accErr w a
      else if width = 4 then s.slotAccess w hub a (lo32 v)
      else if w then (s.slotAccess true hub (a + 4) (hi32 v)).slotAccess true hub a (lo32 v)
      else
        let t := (s.slotAccess false hub a 0).readUpper (fun t => t.slotAccess false hub (a + 4) 0)
        if hub = 0 || !s.reachable hub then t else { t with hi := { t.hi with hiTag := t.ln.setups.getLast?.map Prod.fst } } :=
  if_neg (show ¬ (!s.pw.headSel || !s.served) = true by rw [hserved, hhead]; decide)

theorem slotAccess_own : s.slotAccess w 0 a (lo32 v) = if w then s.hostWrite a (lo32 v) else s.hostRead a := rfl

theorem slotAccess_absent (hhub : hub ≠ 0) (hno : s.reachable hub = false) (x : Word) :
    s.slotAccess w hub a x = (if w then s else { s with rdata := 0 }).incSat Reg.LN_TUNTO 1 :=
  (if_neg hhub).trans (if_pos (by rw [hno]; rfl))

theorem slotAccess_sent (hhub : hub ≠ 0) (hyes : s.reachable hub = true) (x : Word) :
    s.slotAccess w hub a x = if w then (s.sendSetup hub a w x).2
      else { (s.sendSetup hub a w x).2 with
        ln := { (s.sendSetup hub a w x).2.ln with setups := (s.sendSetup hub a w x).2.ln.setups ++ [(s.ln.nextTag.toNat, hub)] } } :=
  (if_neg hhub).trans (if_neg (by rw [hyes]; decide))

/-- A setup request takes the next tag; of the lanes' state only the tag, the ports and what waits for a way move. -/
theorem State.sendSetup_sent (s : State) (hub off : Nat) (w : Bool) (x : Word) :
    CellsOnly { s with ln := { s.ln with nextTag := s.ln.nextTag + 1 } } (s.sendSetup hub off w x).2 :=
  CellsOnly.sendMessage _ _ _ _

theorem State.sendSetup_setups (s : State) (hub off : Nat) (w : Bool) (x : Word) : (s.sendSetup hub off w x).2.ln.setups = s.ln.setups := by
  rw [(s.sendSetup_sent hub off w x).ln]

theorem State.sendSetup_nextTag (s : State) (hub off : Nat) (w : Bool) (x : Word) :
    (s.sendSetup hub off w x).2.ln.nextTag = s.ln.nextTag + 1 := by
  rw [(s.sendSetup_sent hub off w x).ln]

theorem State.sendSetup_regs (s : State) (hub off : Nat) (w : Bool) (x : Word) : (s.sendSetup hub off w x).2.regs = s.regs :=
  (s.sendSetup_sent hub off w x).link.regs

/-- A read that was sent to a member: its tag waits, and the way to each hub stands. -/
structure ReadSent (s : State) (hub : Nat) (u : State) : Prop where
  setups : u.ln.setups = s.ln.setups ++ [(s.ln.nextTag.toNat, hub)]
  nextTag : u.ln.nextTag = s.ln.nextTag + 1
  regs : u.regs = s.regs
  reach : ∀ b, u.reachable b = s.reachable b

theorem slotAccess_read (hhub : hub ≠ 0) (hyes : s.reachable hub = true) (x : Word) : ReadSent s hub (s.slotAccess false hub a x) := by
  have hln := (s.sendSetup_sent hub a false x).ln
  rw [slotAccess_sent hhub hyes]
  refine ⟨?_, s.sendSetup_nextTag hub a false x, s.sendSetup_regs hub a false x, fun b => ?_⟩
  · exact congrArg (· ++ [(s.ln.nextTag.toNat, hub)]) (s.sendSetup_setups hub a false x)
  · refine State.reachable_congr (fun k => State.rd_congr (s.sendSetup_regs hub a false x) _) ?_ ?_ ?_ ?_ b
    · exact (show (s.sendSetup hub a false x).2.ln.map = s.ln.map by rw [hln])
    · exact (show (s.sendSetup hub a false x).2.ln.twins = s.ln.twins by rw [hln])
    · exact (show (s.sendSetup hub a false x).2.ln.position = s.ln.position by rw [hln])
    · exact (show (s.sendSetup hub a false x).2.ln.cuts = s.ln.cuts by rw [hln])

/-- A 64-bit read of a member that cannot be reached reads 0 twice. -/
theorem readUpper_absent (hhub : hub ≠ 0) (hno : s.reachable hub = false) :
    ((s.slotAccess false hub a 0).readUpper (fun t => t.slotAccess false hub (a + 4) 0)).rdata = 0
      ∧ ((s.slotAccess false hub a 0).readUpper (fun t => t.slotAccess false hub (a + 4) 0)).hi.readHi = 0
      ∧ ((s.slotAccess false hub a 0).readUpper (fun t => t.slotAccess false hub (a + 4) 0)).ln = s.ln := by
  have hagain : (({ s with rdata := 0 } : State).incSat Reg.LN_TUNTO 1).reachable hub = false := by
    rw [← hno]
    exact State.reachable_congr (fun b => State.rd_wr_ne _ _ (by simp only [Reg.LN_MAP, Reg.LN_TUNTO]; omega)) rfl rfl rfl rfl hub
  rw [slotAccess_absent hhub hno]
  simp only [Bool.false_eq_true, if_false]
  refine ⟨rfl, ?_, ?_⟩
  · rw [State.readUpper, slotAccess_absent hhub hagain]
    rfl
  · rw [State.readUpper, slotAccess_absent hhub hagain]
    rfl

end head

section answers
variable {s : State} {tag : BitVec 16} {val : Word}

theorem State.setupDone_low (h : s.hi.hiTag ≠ some tag.toNat) :
    s.setupDone tag.toNat val = { s with rdata := val, ln := { s.ln with setups := s.ln.setups.filter (fun p => p.1 != tag.toNat) } } :=
  if_neg (by simpa using h)

theorem State.setupDone_high (h : s.hi.hiTag = some tag.toNat) :
    s.setupDone tag.toNat val = { s with ln := { s.ln with setups := s.ln.setups.filter (fun p => p.1 != tag.toNat) }
                                         hi := { s.hi with readHi := val, hiTag := none } } :=
  if_pos (by simpa using h)

theorem setupResponse_read (hhead : s.pw.headSel = true) (hwait : s.ln.setups.any (fun p => p.1 == tag.toNat) = true) (d : SetupData) :
    setupResponse tag d s = s.setupDone tag.toNat d.val :=
  (if_neg (by rw [hhead]; decide)).trans (if_pos hwait)

theorem setupTimeout_read (hhead : s.pw.headSel = true) (hwait : s.ln.setups.any (fun p => p.1 == tag.toNat) = true) :
    setupTimeout tag s = (s.setupDone tag.toNat 0).incSat Reg.LN_TUNTO 1 :=
  if_pos (by rw [hhead, hwait]; rfl)

end answers

/-- Settles O39: each access is its branch; a request that goes out moves its tag and the cells, and the way to a member stands between
the two halves of a read. -/
theorem setupTunnel : Obligations.SetupTunnel := by
  intro s off val req tag o v width hserved hub a
  have halign4 : ∀ {w : Bool}, s.pw.headSel = true → wellAligned a 4 = true → bar4Access w o 4 v s = s.slotAccess w hub a (lo32 v) :=
    fun hhead hal => (bar4Access_head hserved hhead).trans ((if_neg (by rw [show wellAligned (o.toNat % 2 ^ 20) 4 = true from hal]; decide)).trans
      (if_pos rfl))
  have hread8 : s.pw.headSel = true → wellAligned a 8 = true → bar4Access false o 8 v s =
      if hub = 0 || !s.reachable hub then (s.slotAccess false hub a 0).readUpper (fun t => t.slotAccess false hub (a + 4) 0)
      else
        let t := (s.slotAccess false hub a 0).readUpper (fun t => t.slotAccess false hub (a + 4) 0)
        { t with hi := { t.hi with hiTag := t.ln.setups.getLast?.map Prod.fst } } :=
    fun hhead hal => (bar4Access_head hserved hhead).trans ((if_neg (by rw [show wellAligned (o.toNat % 2 ^ 20) 8 = true from hal]; decide)).trans
      (if_neg (by decide)))
  refine ⟨fun hm h4 => ⟨Becomes.of rfl (setupRequest_plain hserved hm h4), Becomes.of rfl (setupRequest_plain hserved hm h4)⟩,
    fun hm h4 => ⟨Becomes.of rfl (setupRequest_misaligned hserved hm h4), Becomes.of rfl (setupRequest_misaligned hserved hm h4)⟩,
    fun hm hbusy => Becomes.of rfl ((setupRequest_member hserved hm _).trans (if_pos hbusy)),
    fun hm hfree hsvc => Ends.of (v := setupRequest true off ⟨val, some req⟩ tag s) rfl ?_,
    fun hh hno hmr => Becomes.of rfl ?_, fun hh h0 hal => ⟨Becomes.of rfl ?_, Becomes.of rfl ?_⟩, fun hh h0 hal => Becomes.of rfl ?_,
    fun hh h0 hal => Becomes.of rfl ?_, fun hh hw hal => ⟨Becomes.of rfl ?_, Becomes.of rfl ?_⟩,
    fun hh h0 hno hal => Ends.of (v := bar4Access false o 8 v s) rfl ?_, fun hh h0 hno hal => Becomes.of rfl ?_,
    fun hh h0 hyes hal => Ends.of (v := bar4Access true o 4 v s) rfl ?_, fun hh h0 hyes hal => Ends.of (v := bar4Access false o 8 v s) rfl ?_,
    fun hh h0 hno hal => Becomes.of rfl ?_, fun hh h0 hyes hal => Ends.of (v := bar4Access false o 4 v s) rfl ?_,
    fun hh hwait => ⟨fun hlow => ⟨Becomes.of rfl ?_, Becomes.of rfl ?_⟩, fun hhigh => ⟨Becomes.of rfl ?_, Becomes.of rfl ?_⟩⟩⟩
  · rw [setupRequest_member hserved hm]
    simp only [mailRequest_served s tag.toNat req hfree hsvc]
    exact mailTaken_busy s tag.toNat val req
  · exact (if_neg (by rw [hh]; decide)).trans ((if_neg (by rw [hno]; decide)).trans (if_pos (by rw [hmr]; simp)))
  · rw [halign4 hh hal, h0]; rfl
  · rw [halign4 hh hal, h0]; rfl
  · rw [bar4Access_head hserved hh]
    refine (if_neg (by rw [show wellAligned (o.toNat % 2 ^ 20) 8 = true from hal]; decide)).trans ?_
    rw [show o.toNat / 2 ^ 20 = 0 from h0]
    rfl
  · rw [hread8 hh hal, h0]
    rfl
  · exact (bar4Access_head hserved hh).trans (if_pos (by rw [show wellAligned (o.toNat % 2 ^ 20) width = false from hal]; rfl))
  · exact (bar4Access_head hserved hh).trans (if_pos (by rw [show wellAligned (o.toNat % 2 ^ 20) width = false from hal]; rfl))
  · rw [hread8 hh hal, if_pos (by simp [hno])]
    exact readUpper_absent h0 hno
  · rw [halign4 hh hal, slotAccess_absent h0 hno]
    rfl
  · rw [halign4 hh hal, slotAccess_sent h0 hyes]
    exact ⟨s.sendSetup_setups _ _ _ _, s.sendSetup_nextTag _ _ _ _, s.sendSetup_regs _ _ _ _⟩
  · have hone := slotAccess_read (s := s) (a := a) h0 hyes 0
    have htwo := slotAccess_read (a := a + 4) h0 ((hone.reach hub).trans hyes) 0
    have hsetups := htwo.setups
    rw [hone.setups, hone.nextTag, List.append_assoc] at hsetups
    rw [hread8 hh hal, if_neg (by simp [h0, hyes])]
    refine ⟨hsetups, ?_, htwo.regs.trans hone.regs⟩
    exact (congrArg (fun l => l.getLast?.map Prod.fst) hsetups).trans (by rw [← List.append_assoc, List.getLast?_concat])
  · rw [halign4 hh hal, slotAccess_absent h0 hno]
    rfl
  · rw [halign4 hh hal]
    have hone := slotAccess_read (s := s) (a := a) h0 hyes (lo32 v)
    exact ⟨hone.setups, hone.regs⟩
  · exact (setupResponse_read hh hwait _).trans (State.setupDone_low hlow)
  · exact (setupTimeout_read hh hwait).trans (by rw [State.setupDone_low hlow])
  · exact (setupResponse_read hh hwait _).trans (State.setupDone_high hhigh)
  · exact (setupTimeout_read hh hwait).trans (by rw [State.setupDone_high hhigh])

end Sys2Proof.Machine
end

section
/-! SUPPORT. The multi-word values of the setup space, and what the commit of one writes (R8, R9). -/

namespace Sys2Proof.Machine

/-! ## Where the values stand -/

/-- A value that a chapter names is a row of the table. -/
theorem multiOf?_row {a b n : Nat} (h : multiOf? a = some (b, n)) :
    ∃ r ∈ multiRows, r.covers a = true ∧ b = r.base + (a - r.base) / r.s * r.s ∧ n = r.words := by
  unfold multiOf? at h
  cases hf : multiRows.find? (fun r => r.covers a) with
  | none => rw [hf] at h; cases h
  | some r =>
    rw [hf] at h
    obtain ⟨rfl, rfl⟩ := Prod.mk.inj (Option.some.inj h)
    exact ⟨r, List.mem_of_find?_eq_some hf, by simpa using List.find?_some hf, rfl, rfl⟩

theorem multiRows_words : ∀ r ∈ multiRows, 2 ≤ r.words := by decide

/-- The value is one that a chapter names, or the two parameters of a frame condition (R237). -/
theorem State.multiAt_cases {s : State} {a b n : Nat} (h : s.multiAt a = some (b, n)) :
    multiOf? a = some (b, n) ∨ (multiOf? a = none ∧ inBlock a (Reg.AQ_UCOND_A 0 0) 0x200 8 = true ∧ n = 2) := by
  unfold State.multiAt at h
  cases hm : multiOf? a with
  | some x => rw [hm] at h; exact .inl h
  | none =>
    rw [hm] at h
    dsimp only at h
    split at h
    · next hb =>
      split at h
      · exact .inr ⟨rfl, hb, (Prod.mk.inj (Option.some.inj h)).2.symm⟩
      · cases h
    · cases h

theorem State.multiAt_two {s : State} {a b n : Nat} (h : s.multiAt a = some (b, n)) : 2 ≤ n := by
  rcases State.multiAt_cases h with h | ⟨_, _, rfl⟩
  · obtain ⟨r, hr, _, _, rfl⟩ := multiOf?_row h
    exact multiRows_words r hr
  · exact Nat.le_refl 2

theorem State.multiAt_none {s : State} {a : Nat} (h : multiOf? a = none) (hb : inBlock a (Reg.AQ_UCOND_A 0 0) 0x200 8 = false) :
    s.multiAt a = none := by
  unfold State.multiAt
  rw [h]
  exact if_neg (by rw [hb]; decide)

/-- No row of the table covers a word of the units' configuration. -/
theorem multiOf?_unit {a : Nat} (h : inBlock a (Reg.AQ_UCMD 0) 0x200 8 = true) : multiOf? a = none := by
  have hlo : 0x18800 ≤ a ∧ a < 0x19800 := by simpa [inBlock] using h
  have hnone : multiRows.find? (fun r => r.covers a) = none := by
    have hrows : ∀ r ∈ multiRows, r.base + r.n * r.s ≤ 0x18800 ∨ 0x19800 ≤ r.base := by decide
    have hs : ∀ r ∈ multiRows, 0 < r.s := by decide
    rw [List.find?_eq_none]
    intro r hr
    simp only [MultiRow.covers, Bool.and_eq_true, decide_eq_true_eq, not_and]
    rintro ⟨hbase, hin⟩
    have hlt := (Nat.div_lt_iff_lt_mul (hs r hr)).mp hin
    rcases hrows r hr with h | h <;> omega
  rw [multiOf?, hnone]

theorem loopControl_single (s : State) {l : Nat} (hl : l < 32) : s.multiAt (Reg.CE_LCTL l) = none := by
  refine State.multiAt_none ?_ ?_
  · have hall : ∀ i : Fin 32, multiOf? (Reg.CE_LCTL i) = none := by decide +kernel
    exact hall ⟨l, hl⟩
  · simp only [inBlock, Reg.CE_LCTL, Reg.AQ_UCOND_A, Bool.and_eq_false_iff, decide_eq_false_iff_not]
    omega

/-! ## A value takes the access that commits it -/

/-- One word of a value takes its part of the access as its types state. -/
def State.storeWord (s : State) (p : Nat × Word) : State :=
  match regRow? p.1 with
  | some r => s.typedStore r p.1 p.2
  | none => s

/-- The fields of a word that take a write now. -/
def State.taken (s : State) (r : RegRow) : Word := r.rw ||| (if s.idleOpen then r.rwl else 0)

theorem State.storeWord_some (s : State) {p : Nat × Word} {r : RegRow} (h : regRow? p.1 = some r) :
    s.storeWord p = s.wr p.1 (((s.rd p.1 &&& ~~~ s.taken r) ||| (p.2 &&& s.taken r)) &&& ~~~ (p.2 &&& r.w1c)) := by
  rw [State.storeWord, h]
  rfl

/-- What no register write moves stands through a stored word. -/
theorem State.storeWord_keeps {α : Type} (g : State → α) (hwr : ∀ (u : State) a w, g (u.wr a w) = g u) (s : State) (p : Nat × Word) :
    g (s.storeWord p) = g s := by
  cases h : regRow? p.1 with
  | none => rw [State.storeWord, h]
  | some r => rw [s.storeWord_some h, hwr]

theorem State.storeWord_rd_ne (s : State) {p : Nat × Word} {c : Nat} (hc : c ≠ p.1) : (s.storeWord p).rd c = s.rd c := by
  cases h : regRow? p.1 with
  | none => rw [State.storeWord, h]
  | some r => rw [s.storeWord_some h, State.rd_wr_ne _ _ hc]

/-- The words of a value that begins at `a`, stored one after another. -/
def State.storeWords (s : State) (a n : Nat) (w : Nat → Word) : State :=
  ((List.range n).map (fun i => (a + 4 * i, w i))).foldl State.storeWord s

theorem State.storeWords_succ (s : State) (a n : Nat) (w : Nat → Word) :
    s.storeWords a (n + 1) w = (s.storeWords a n w).storeWord (a + 4 * n, w n) := by
  rw [State.storeWords, List.range_succ, List.map_append, List.foldl_append]
  rfl

theorem State.storeWords_keeps {α : Type} (g : State → α) (hwr : ∀ (u : State) a w, g (u.wr a w) = g u) (s : State) (a n : Nat)
    (w : Nat → Word) : g (s.storeWords a n w) = g s :=
  State.foldl_field g _ State.storeWord (fun u p => u.storeWord_keeps g hwr p) s

theorem State.storeWords_rd_ne (s : State) {a n c : Nat} (w : Nat → Word) (hc : ∀ i, i < n → c ≠ a + 4 * i) :
    (s.storeWords a n w).rd c = s.rd c := by
  induction n with
  | zero => rfl
  | succ n ih =>
    rw [State.storeWords_succ, State.storeWord_rd_ne _ (hc n (Nat.lt_succ_self n)), ih fun i hi => hc i (Nat.lt_succ_of_lt hi)]

theorem State.storeWords_rd (s : State) {a n i : Nat} (w : Nat → Word) (hi : i < n) {r : RegRow} (hr : regRow? (a + 4 * i) = some r) :
    (s.storeWords a n w).rd (a + 4 * i)
      = ((s.rd (a + 4 * i) &&& ~~~ s.taken r) ||| (w i &&& s.taken r)) &&& ~~~ (w i &&& r.w1c) := by
  induction n with
  | zero => omega
  | succ n ih =>
    rw [State.storeWords_succ]
    by_cases hin : i = n
    · subst hin
      have hsame : (s.storeWords a i w).rd (a + 4 * i) = s.rd (a + 4 * i) := s.storeWords_rd_ne w fun j hj => by omega
      have htaken : (s.storeWords a i w).taken r = s.taken r := by
        rw [State.taken, State.taken, s.storeWords_keeps State.idleOpen (fun _ _ _ => rfl) a i w]
      rw [State.storeWord_some (p := (a + 4 * i, w i)) _ hr, State.rd_wr_same, hsame, htaken]
    · rw [State.storeWord_rd_ne _ (show a + 4 * i ≠ a + 4 * n by omega), ih (by omega)]

/-- The words of an access of the lowest word: the written one, and the staged upper ones. -/
def State.valueWord (s : State) (a : Nat) (v : Word) (i : Nat) : Word := if i = 0 then v else s.stagedWord (a + 4 * i)

theorem valueWords_eq (s : State) (a : Nat) {n : Nat} (hn : 0 < n) (v : Word) :
    (a, v) :: (List.range (n - 1)).map (fun i => (a + 4 * (i + 1), s.stagedWord (a + 4 * (i + 1))))
      = (List.range n).map (fun i => (a + 4 * i, s.valueWord a v i)) := by
  obtain ⟨m, rfl⟩ := Nat.exists_eq_succ_of_ne_zero (Nat.pos_iff_ne_zero.mp hn)
  rw [List.range_succ_eq_map, List.map_cons, List.map_map]
  rfl

/-- A field of a word refuses its part of the access (R3). -/
def State.valueRefused (s : State) (a n : Nat) (w : Nat → Word) : Bool :=
  (List.range n).any (fun i => (regRow? (a + 4 * i)).any (fun r => s.rwlRefused r (a + 4 * i) (w i)))

theorem State.commitWords_eq (s : State) (a n : Nat) (w : Nat → Word) :
    s.commitWords a ((List.range n).map (fun i => (a + 4 * i, w i)))
      = if s.valueRefused a n w then (s.storeWords a n w).accErr true a else s.storeWords a n w := by
  have hany : ((List.range n).map (fun i => (a + 4 * i, w i))).any (fun p => (regRow? p.1).any (fun r => s.rwlRefused r p.1 p.2))
      = s.valueRefused a n w := by
    rw [State.valueRefused, List.any_map]
    rfl
  rw [← hany]
  rfl

/-! ## The staging of a value ends -/

theorem unstage_gone (m : KMap Word) (a n : Nat) {i : Nat} (h0 : 0 < i) (hi : i < n) :
    kget? ((List.range (n - 1)).foldl (fun (m : KMap Word) i => kerase m (a + 4 * (i + 1))) m) (a + 4 * i) = none := by
  obtain ⟨k, hk⟩ : ∃ k, k = n - 1 := ⟨_, rfl⟩
  rw [← hk]
  have hik : i ≤ k := by omega
  clear hk hi
  induction k with
  | zero => omega
  | succ k ih =>
    rw [List.range_succ, List.foldl_append, List.foldl_cons, List.foldl_nil]
    by_cases h : i = k + 1
    · rw [h, kget?_kerase_same]
    · rw [kget?_kerase_ne _ (by omega), ih (by omega)]

theorem unstage_other (m : KMap Word) (a n : Nat) {c : Nat} (hc : ∀ i, i < n → c ≠ a + 4 * i) :
    kget? ((List.range (n - 1)).foldl (fun (m : KMap Word) i => kerase m (a + 4 * (i + 1))) m) c = kget? m c := by
  have hall : ∀ k, k ≤ n - 1 → kget? ((List.range k).foldl (fun (m : KMap Word) i => kerase m (a + 4 * (i + 1))) m) c = kget? m c := by
    intro k hk
    induction k with
    | zero => rfl
    | succ k ih =>
      rw [List.range_succ, List.foldl_append, List.foldl_cons, List.foldl_nil, kget?_kerase_ne _ (hc (k + 1) (by omega)), ih (by omega)]
  exact hall _ (Nat.le_refl _)

end Sys2Proof.Machine
end

section
/-! PROOF. Malformed accesses, and the reads and writes of multi-word values (O38). -/

namespace Sys2Proof.Machine

section malformed
variable {s : State} {off : BitVec 20} {width : Nat} {w : Bool}

theorem State.accErr_addr (s : State) (w : Bool) (a : Nat) :
    (s.accErr w a).rd Reg.GLB_ACCADDR
      = if s.flag Reg.GLB_STAT Fld.GLB_STAT_acc_err then s.rd Reg.GLB_ACCADDR else accWord w a := by
  rw [State.accErr, State.rd_setFlag_ne _ _ _ (by decide)]
  split
  · rfl
  · rw [State.rd_wr_same]

theorem malformedAccess_eq (hserved : s.served = true) (hwf : wellAligned off.toNat width = false) :
    malformedAccess w off width s = (if w then s else { s with rdata := 0 }).accErr w off.toNat :=
  if_neg (by rw [hserved, hwf]; decide)

/-- A malformed access is noted, and a read of it reads 0 (R6, R484). -/
theorem malformedAccess_noted (hserved : s.served = true) (hwf : wellAligned off.toNat width = false) :
    (malformedAccess w off width s).flag Reg.GLB_STAT Fld.GLB_STAT_acc_err = true
      ∧ (malformedAccess w off width s).rdata = (if w then s.rdata else 0)
      ∧ (malformedAccess w off width s).rd Reg.GLB_ACCADDR
        = (if s.flag Reg.GLB_STAT Fld.GLB_STAT_acc_err then s.rd Reg.GLB_ACCADDR else word (2 ^ 31 * b2n w + off.toNat))
      ∧ (∀ b, b ≠ Reg.GLB_STAT → b ≠ Reg.GLB_ACCADDR → (malformedAccess w off width s).rd b = s.rd b)
      ∧ { malformedAccess w off width s with rdata := s.rdata, regs := s.regs } = s := by
  have hoff : accWord w off.toNat = word (2 ^ 31 * b2n w + off.toNat) := by rw [accWord, Nat.mod_eq_of_lt off.isLt]
  rw [malformedAccess_eq hserved hwf]
  refine ⟨State.accErr_flag _ _ _, ?_, ?_, fun b h1 h2 => ?_, ?_⟩
  · obtain ⟨m, h⟩ := (if w then s else { s with rdata := 0 }).accErr_eq w off.toNat
    rw [h]
    cases w <;> rfl
  · rw [State.accErr_addr, ← hoff]
    cases w <;> rfl
  · rw [State.accErr_rd _ _ _ _ h1 h2]
    cases w <;> rfl
  · obtain ⟨m, h⟩ := (if w then s else { s with rdata := 0 }).accErr_eq w off.toNat
    rw [h]
    cases w <;> rfl

end malformed

/-! ## Reads -/

/-- The shadow of the upper words of a value, latched with its lowest word (R8). -/
def latchUpper (m : KMap Word) (a n : Nat) (w : Nat → Word) : KMap Word :=
  (List.range (n - 1)).foldl (fun (m : KMap Word) i => shadowPut m (a + 4 * (i + 1)) (w (a + 4 * (i + 1)))) m

theorem regRead_latchUpper (m : KMap Word) (a : Nat) {n i : Nat} (w : Nat → Word) (h0 : 0 < i) (hi : i < n) :
    regRead (latchUpper m a n w) (a + 4 * i) = w (a + 4 * i) := by
  rw [latchUpper]
  obtain ⟨k, hk⟩ : ∃ k, k = n - 1 := ⟨_, rfl⟩
  rw [← hk]
  have hik : i ≤ k := by omega
  clear hk hi
  induction k with
  | zero => omega
  | succ k ih =>
    rw [List.range_succ, List.foldl_append, List.foldl_cons, List.foldl_nil, shadowPut]
    by_cases h : i = k + 1
    · rw [h, regRead_regWrite_same]
    · rw [regRead_regWrite_ne _ _ (by omega), ih (by omega)]

section reads
variable {s : State} {a n : Nat}

/-- The first-fault record is the one value whose words are read by a rule of their own (R440). -/
theorem firstFault_block {b : Nat} (hb : inBlock a (Reg.EV_FF 0) 4 8 = true) (h : s.multiAt a = some (b, n)) :
    b = Reg.EV_FF 0 ∧ n = 8 := by
  have hlo : 0x70420 ≤ a ∧ a < 0x70440 := by simpa [inBlock] using hb
  have hall : ∀ i : Fin 32, multiOf? (0x70420 + i) = some (Reg.EV_FF 0, 8) := by decide +kernel
  have ha := hall ⟨a - 0x70420, by omega⟩
  rw [show 0x70420 + (a - 0x70420) = a by omega] at ha
  rw [State.multiAt, ha] at h
  obtain ⟨rfl, rfl⟩ := Prod.mk.inj (Option.some.inj h)
  exact ⟨rfl, rfl⟩

theorem State.hostWord_firstFault (s : State) {i : Nat} (hi : i < 8) : s.hostWord (Reg.EV_FF i) = s.rd (Reg.EV_FF i) := by
  have hall : ∀ i : Fin 8, (regRow? (Reg.EV_FF i)).isNone = false := by decide +kernel
  have hrow := hall ⟨i, hi⟩
  have hev : s.evWord (Reg.EV_FF i) = s.rd (Reg.EV_FF i) := if_neg (by simp only [Reg.EV_FF, Reg.EV_STAT]; omega)
  rw [← hev, State.hostWord]
  simp only [hrow, Bool.false_eq_true, if_false, Reg.EV_FF, Bool.and_eq_true, decide_eq_true_eq, Reg.FR_AVAIL, Reg.FR_STAT, Reg.DF_STAT,
    Reg.FE_EXCBUD_A, Reg.FE_EXCBUD_B]
  repeat rw [if_neg (by omega)]
  exact if_pos (by omega)

/-- The data ports are single words. -/
theorem State.multiAt_notPort {b : Nat} (h : s.multiAt a = some (b, n)) : a ≠ Reg.CAL_STGDATA ∧ a ≠ Reg.EV_TRDATA := by
  constructor <;>
  · rintro rfl
    rw [State.multiAt_none (by decide +kernel) (by decide)] at h
    cases h

/-- A read of a word of a value that has no rule of its own. -/
theorem State.hostRead_plain {b : Nat} (h : s.multiAt a = some (b, n)) (hrow : regRow? a ≠ none)
    (hff : inBlock a (Reg.EV_FF 0) 4 8 = false) :
    s.hostRead a = if a = b then { s with rdata := s.hostWord a, shadow := latchUpper s.shadow a n s.hostWord }
      else { s with rdata := regRead s.shadow a } := by
  have hsome : ¬ (regRow? a).isNone = true := by simpa using hrow
  obtain ⟨hdata, htrace⟩ := State.multiAt_notPort h
  rw [State.hostRead, if_neg hsome, if_neg hdata, if_neg htrace, if_neg (Bool.eq_false_iff.mp hff), h]
  rfl

/-- A read of the first fault is the record's own (R440). -/
theorem State.hostRead_firstFault (s : State) {i : Nat} (hi : i < 8) : s.hostRead (Reg.EV_FF i) = evFfRead (BitVec.ofNat 3 i) s := by
  have hall : ∀ i : Fin 8, (regRow? (Reg.EV_FF i)).isNone = false := by decide +kernel
  have hrow := hall ⟨i, hi⟩
  have hb : inBlock (Reg.EV_FF i) (Reg.EV_FF 0) 4 8 = true := by simp [inBlock, Reg.EV_FF]; omega
  rw [State.hostRead, if_neg (Bool.eq_false_iff.mp hrow), if_neg (by simp only [Reg.EV_FF, Reg.CAL_STGDATA]; omega),
    if_neg (by simp only [Reg.EV_FF, Reg.EV_TRDATA]; omega), if_pos hb, show (Reg.EV_FF i - Reg.EV_FF 0) / 4 = i by
      simp only [Reg.EV_FF]; omega]

/-- What a read of the lowest word of a value leaves (R8). -/
structure LowRead (s : State) (a n : Nat) (t : State) : Prop where
  rdata : t.rdata = s.hostWord a
  regs : t.regs = s.regs
  shadow : ∀ i, 0 < i → i < n → regRead t.shadow (a + 4 * i) = s.hostWord (a + 4 * i)
  multi : ∀ b, t.multiAt b = s.multiAt b

theorem LowRead.firstFault (s : State) : LowRead s (Reg.EV_FF 0) 8 (evFfRead 0 s) := by
  refine ⟨(s.hostWord_firstFault (by decide)).symm, rfl, fun i h0 hi => ?_, fun b => rfl⟩
  have hw : regRead (evFfRead 0 s).shadow (Reg.EV_FF 0 + 4 * i) = s.rd (Reg.EV_FF 0 + 4 * i) :=
    regRead_latchUpper s.shadow (Reg.EV_FF 0) (fun c => s.rd c) h0 hi
  have hat : Reg.EV_FF 0 + 4 * i = Reg.EV_FF i := by simp only [Reg.EV_FF]
  rw [hw, hat, s.hostWord_firstFault hi]

theorem State.hostRead_lowest (h : s.multiAt a = some (a, n)) (hrow : regRow? a ≠ none) : LowRead s a n (s.hostRead a) := by
  cases hb : inBlock a (Reg.EV_FF 0) 4 8
  · rw [State.hostRead_plain h hrow hb, if_pos rfl]
    exact ⟨rfl, rfl, fun i h0 hi => regRead_latchUpper s.shadow a s.hostWord h0 hi, fun b => rfl⟩
  · obtain ⟨rfl, rfl⟩ := firstFault_block hb h
    rw [s.hostRead_firstFault (by decide)]
    exact .firstFault s

/-- A read of the second word of a value returns what the first one latched (R6, R8). -/
theorem State.hostRead_second (h : s.multiAt (a + 4) = some (a, n)) (hrow : regRow? (a + 4) ≠ none) :
    s.hostRead (a + 4) = { s with rdata := regRead s.shadow (a + 4) } := by
  cases hb : inBlock (a + 4) (Reg.EV_FF 0) 4 8
  · exact (State.hostRead_plain h hrow hb).trans (if_neg (by omega))
  · obtain ⟨rfl, rfl⟩ := firstFault_block hb h
    exact s.hostRead_firstFault (i := 1) (by decide)

end reads

/-! ## Writes -/

section writes
variable {s : State} {a b n : Nat} {val : Word}

theorem State.hostWrite_upper (h : s.multiAt a = some (b, n)) (hrow : regRow? a ≠ none) (hne : a ≠ b) :
    s.hostWrite a val = s.writeUpper a val := by
  have hsome : ¬ (regRow? a).isNone = true := by simpa using hrow
  rw [State.hostWrite, if_neg hsome, h]
  exact if_neg hne

theorem State.hostWrite_lowest (h : s.multiAt a = some (a, n)) (hrow : regRow? a ≠ none) :
    s.hostWrite a val = s.writeLowest a n val := by
  have hsome : ¬ (regRow? a).isNone = true := by simpa using hrow
  rw [State.hostWrite, if_neg hsome, h]
  exact if_pos rfl

theorem upperWordWriteStage_eq {off : BitVec 20} (hserved : s.served = true) (h4 : off.toNat % 4 = 0)
    (h : s.multiAt off.toNat = some (b, n)) (hne : off.toNat ≠ b) :
    upperWordWriteStage off val s = s.hostWrite off.toNat val :=
  if_pos (by rw [hserved, h]; simp [h4, hne.symm])

theorem lowWordWriteCommit_eq {off : BitVec 20} (hserved : s.served = true) (h4 : off.toNat % 4 = 0)
    (h : s.multiAt off.toNat = some (off.toNat, n)) : lowWordWriteCommit off ⟨val, none⟩ s = s.hostWrite off.toNat val :=
  if_pos (by rw [hserved, h]; simp [accWidth, wellAligned, h4])

theorem lowWordWriteCommit_wide {off : BitVec 20} {up : Word} (hserved : s.served = true) (h8 : off.toNat % 8 = 0)
    (h : s.multiAt off.toNat = some (off.toNat, n)) :
    lowWordWriteCommit off ⟨val, some up⟩ s = (s.hostWrite (off.toNat + 4) up).hostWrite off.toNat val :=
  if_pos (by rw [hserved, h]; simp [accWidth, wellAligned, h8])

theorem lowWordReadLatch_eq {off : BitVec 20} (hserved : s.served = true) (h4 : off.toNat % 4 = 0)
    (h : s.multiAt off.toNat = some (off.toNat, n)) : lowWordReadLatch ⟨off, false⟩ s = s.hostRead off.toNat :=
  if_pos (by rw [hserved, h]; simp [accWidth, wellAligned, h4])

theorem lowWordReadLatch_wide {off : BitVec 20} (hserved : s.served = true) (h8 : off.toNat % 8 = 0)
    (h : s.multiAt off.toNat = some (off.toNat, n)) :
    lowWordReadLatch ⟨off, true⟩ s = (s.hostRead off.toNat).readUpper (fun t => t.hostRead (off.toNat + 4)) :=
  if_pos (by rw [hserved, h]; simp [accWidth, wellAligned, h8])

/-! ### Upper words -/

/-- A write of a word in a loop's block goes to the loop (R239). -/
theorem State.writeMid_loop (hloop : inBlock a (Reg.CE_LCTL 0) 0x80 32 = true) (hne : ∀ l, l < 32 → a ≠ Reg.CE_LCTL l) :
    s.writeMid a val
      = loopStageWrite (BitVec.ofNat 5 ((a - Reg.CE_LCTL 0) / 0x80)) (BitVec.ofNat 7 ((a - Reg.CE_LCTL 0) % 0x80)) val s := by
  have hlo : 0x20000 ≤ a ∧ a < 0x21000 := by simpa [inBlock] using hloop
  have hin : ¬ (inBlock a (Reg.IN_CFG 0) 0x20 256 && decide ((a - Reg.IN_CFG 0) % 0x20 / 4 < 5)) = true := by
    simp [inBlock, Reg.IN_CFG]; omega
  have hpin : ¬ inBlock a (Reg.AQ_PINCFG 0) 4 4 = true := by simp [inBlock, Reg.AQ_PINCFG]; omega
  have hdrill : a ≠ Reg.AQ_DRILLCMD := by simp only [Reg.AQ_DRILLCMD]; omega
  have hunit : ¬ inBlock a (Reg.AQ_UCMD 0) 0x200 8 = true := by simp [inBlock, Reg.AQ_UCMD]; omega
  rw [State.writeMid, if_neg hin, if_neg hpin, if_neg hdrill, if_neg hunit, if_pos hloop]
  refine if_neg fun h => hne _ ?_ h
  exact (BitVec.ofNat 5 ((a - Reg.CE_LCTL 0) / 0x80)).isLt

/-- A word of a value is not a loop's control word. -/
theorem State.multiAt_notLoopCtl (h : s.multiAt a = some (b, n)) : ∀ l, l < 32 → a ≠ Reg.CE_LCTL l := by
  rintro l hl rfl
  rw [loopControl_single s hl] at h
  cases h

theorem State.writeUpper_loop (h : s.multiAt a = some (b, n)) (hloop : inBlock a (Reg.CE_LCTL 0) 0x80 32 = true) (hne : a % 0x80 ≠ 0x1C) :
    s.writeUpper a val
      = loopStageWrite (BitVec.ofNat 5 ((a - Reg.CE_LCTL 0) / 0x80)) (BitVec.ofNat 7 ((a - Reg.CE_LCTL 0) % 0x80)) val s := by
  rw [State.writeUpper, if_pos (by simp [hloop, hne])]
  exact State.writeMid_loop hloop (State.multiAt_notLoopCtl h)

theorem hiAlign_block {k : Nat} (h : hiAlign a = some k) : 0x28010 ≤ a ∧ a ≤ 0x28024 := by
  refine Classical.byContradiction fun hout => ?_
  simp only [hiAlign, Reg.HI_DB_LO, Reg.HI_DB_HI, Reg.HI_MGD_LO, Reg.HI_MGD_HI, Reg.HI_MGC_LO, Reg.HI_MGC_HI] at h
  rw [if_neg (by simp only [Bool.or_eq_true, decide_eq_true_eq]; omega),
    if_neg (by simp only [Bool.or_eq_true, decide_eq_true_eq]; omega)] at h
  cases h

theorem State.writeUpper_closed (hal : hiAlign a ≠ none) (hopen : s.hiOpen = false) : s.writeUpper a val = s.accErr true a := by
  obtain ⟨k, hk⟩ := Option.ne_none_iff_exists'.mp hal
  have hblock := hiAlign_block hk
  rw [State.writeUpper, if_neg (by simp [inBlock, Reg.CE_LCTL]; omega)]
  exact if_pos (by rw [hk, hopen]; rfl)

theorem State.writeUpper_open {r : RegRow} (hloop : inBlock a (Reg.CE_LCTL 0) 0x80 32 = false ∨ a % 0x80 = 0x1C)
    (hopen : hiAlign a = none ∨ s.hiOpen = true) (hrow : regRow? a = some r) :
    s.writeUpper a val = if s.rwlRefused r a val then s.accErr true a
      else if r.rw ||| r.rwl == 0 then s
      else { s with staged := kset s.staged a (val &&& (r.rw ||| r.rwl)) } := by
  have h1 : ¬ (inBlock a (Reg.CE_LCTL 0) 0x80 32 && decide (a % 0x80 ≠ 0x1C)) = true := by
    rcases hloop with h | h <;> simp [h]
  have h2 : ¬ ((hiAlign a).isSome && !s.hiOpen) = true := by
    rcases hopen with h | h <;> simp [h]
  rw [State.writeUpper, if_neg h1, if_neg h2, hrow]

/-! ### Lowest words -/

/-- A value without a rule of its own: its words take the access, or the host engine's address is refused (R9, R267). -/
def plainValue (a : Nat) : Prop :=
  inBlock a (Reg.CE_LCTL 0) 0x80 32 = false ∧ inBlock a (Reg.CE_COEF_LO 0) 8 512 = false ∧ a ≠ Reg.TB_RATE_LO
    ∧ inBlock a (Reg.AQ_UCMD 0) 0x200 8 = false

/-- The words of a value have taken the access, and its staging is over. -/
def State.valueStored (s : State) (a n : Nat) (v : Word) : State :=
  (if s.valueRefused a n (s.valueWord a v) then (s.storeWords a n (s.valueWord a v)).accErr true a
    else s.storeWords a n (s.valueWord a v)).unstage a n

theorem State.valueStored_eq (s : State) (a : Nat) {n : Nat} (hn : 0 < n) (val : Word) :
    (s.commitWords a ((a, val) :: (List.range (n - 1)).map (fun i => (a + 4 * (i + 1), s.stagedWord (a + 4 * (i + 1)))))).unstage a n
      = s.valueStored a n val := by
  rw [valueWords_eq s a hn val, State.commitWords_eq, State.valueStored]

/-- A value without a rule of its own, up to the host engine's alignment. -/
theorem State.writeLowest_typed (hp : plainValue a) (hn : 0 < n) :
    s.writeLowest a n val = match hiAlign a with
      | some k => if s.hiOpen && val.toNat % k == 0 then s.valueStored a n val else s.accErr true a
      | none => if a = Reg.TB_PPSSEC_LO then
          { s.valueStored a n val with tb := { (s.valueStored a n val).tb with ppsSecSet := true } }
        else s.valueStored a n val := by
  obtain ⟨hce, hcoef, hrate, haq⟩ := hp
  rw [← s.valueStored_eq a hn val]
  exact (if_neg (Bool.eq_false_iff.mp hce)).trans ((if_neg (Bool.eq_false_iff.mp hcoef)).trans ((if_neg hrate).trans
    ((if_neg (Bool.eq_false_iff.mp haq)).trans rfl)))

/-- What is stored of a value when it takes the access, whatever else the access sets. -/
theorem State.writeLowest_stored (hp : plainValue a) (hn : 0 < n)
    (hal : (hiAlign a).all (fun k => s.hiOpen && val.toNat % k == 0) = true) :
    (s.writeLowest a n val).regs = (s.valueStored a n val).regs ∧ (s.writeLowest a n val).staged = (s.valueStored a n val).staged := by
  rw [State.writeLowest_typed hp hn]
  cases hk : hiAlign a with
  | none =>
    dsimp only
    split <;> exact ⟨rfl, rfl⟩
  | some k =>
    rw [hk] at hal
    have hgo : (s.hiOpen && val.toNat % k == 0) = true := hal
    dsimp only
    rw [if_pos hgo]
    exact ⟨rfl, rfl⟩

theorem State.writeLowest_refused (hn : 0 < n) (hal : (hiAlign a).all (fun k => s.hiOpen && val.toNat % k == 0) = false) :
    s.writeLowest a n val = s.accErr true a := by
  cases hk : hiAlign a with
  | none => rw [hk] at hal; cases hal
  | some k =>
    have hblock := hiAlign_block hk
    have hp : plainValue a := by
      refine ⟨?_, ?_, ?_, ?_⟩ <;> simp [inBlock, Reg.CE_LCTL, Reg.CE_COEF_LO, Reg.TB_RATE_LO, Reg.AQ_UCMD] <;> omega
    rw [State.writeLowest_typed hp hn, hk]
    rw [hk] at hal
    exact if_neg (Bool.eq_false_iff.mp hal)

theorem State.writeLowest_setpoint (hloop : inBlock a (Reg.CE_LCTL 0) 0x80 32 = true) (h18 : a % 0x80 = 0x18) :
    s.writeLowest a n val
      = (ceLspWrite (BitVec.ofNat 5 ((a - Reg.CE_LCTL 0) / 0x80)) (join64 val (s.stagedWord (a + 4))) s).unstage a n :=
  (if_pos hloop).trans (if_pos h18)

theorem State.writeLowest_loop (h : s.multiAt a = some (a, n)) (hloop : inBlock a (Reg.CE_LCTL 0) 0x80 32 = true) (h18 : a % 0x80 ≠ 0x18) :
    s.writeLowest a n val
      = loopStageWrite (BitVec.ofNat 5 ((a - Reg.CE_LCTL 0) / 0x80)) (BitVec.ofNat 7 ((a - Reg.CE_LCTL 0) % 0x80)) val s :=
  (if_pos hloop).trans ((if_neg h18).trans (State.writeMid_loop hloop (State.multiAt_notLoopCtl h)))

theorem State.writeLowest_coef (hcoef : inBlock a (Reg.CE_COEF_LO 0) 8 512 = true) :
    s.writeLowest a n val
      = (coefWrite (BitVec.ofNat 9 ((a - Reg.CE_COEF_LO 0) / 8)) (join64 val (s.stagedWord (a + 4))) s).unstage a n := by
  have hblock : 0x21800 ≤ a ∧ a < 0x22800 := by simpa [inBlock] using hcoef
  exact (if_neg (by simp [inBlock, Reg.CE_LCTL]; omega)).trans (if_pos hcoef)

theorem State.writeLowest_unit (hunit : inBlock a (Reg.AQ_UCMD 0) 0x200 8 = true) :
    s.writeLowest a 2 val = (s.unitWrite ((a - Reg.AQ_UCMD 0) / 0x200) [(a, val), (a + 4, s.stagedWord (a + 4))]).unstage a 2 := by
  have hblock : 0x18800 ≤ a ∧ a < 0x19800 := by simpa [inBlock] using hunit
  refine (if_neg (by simp [inBlock, Reg.CE_LCTL]; omega)).trans ((if_neg (by simp [inBlock, Reg.CE_COEF_LO]; omega)).trans
    ((if_neg (by simp only [Reg.TB_RATE_LO]; omega)).trans ((if_pos hunit).trans ?_)))
  rfl

theorem State.writeLowest_rate (ha : a = Reg.TB_RATE_LO) : s.writeLowest a n val = tbRateWrite val s :=
  (if_neg (by rw [ha]; decide)).trans ((if_neg (by rw [ha]; decide)).trans (if_pos ha))

/-! ### What is stored -/

theorem State.valueStored_taken (hok : s.valueRefused a n (s.valueWord a val) = false) :
    s.valueStored a n val = (s.storeWords a n (s.valueWord a val)).unstage a n := by
  rw [State.valueStored, hok]
  rfl

theorem State.valueStored_staged (s : State) (a n : Nat) (val : Word) :
    (s.valueStored a n val).staged = (List.range (n - 1)).foldl (fun (m : KMap Word) i => kerase m (a + 4 * (i + 1))) s.staged := by
  have hw := s.storeWords_keeps State.staged (fun _ _ _ => rfl) a n (s.valueWord a val)
  have hs : (if s.valueRefused a n (s.valueWord a val) then (s.storeWords a n (s.valueWord a val)).accErr true a
      else s.storeWords a n (s.valueWord a val)).staged = s.staged := by
    split
    · obtain ⟨m, h⟩ := (s.storeWords a n (s.valueWord a val)).accErr_eq true a
      rw [h, ← hw]
    · exact hw
  rw [State.valueStored, State.unstage, hs]

end writes

/-- Settles O38: a malformed access is noted; of a value the lowest word latches or commits the others, by the table of the values and
the rules of its block. -/
theorem malformedAndMultiWord : Obligations.MalformedAndMultiWord := by
  intro s off width n b val up r wr hserved a wordOf takes plain loop aligned refused
  refine ⟨fun hwf => Ends.of rfl (malformedAccess_noted hserved hwf), fun h hrow h4 => Ends.of (v := lowWordReadLatch ⟨off, false⟩ s) rfl ?_,
    fun h h' hrow hrow' h8 => Ends.of (v := lowWordReadLatch ⟨off, true⟩ s) rfl ?_,
    fun h hne h4 hl ho hrow href => Becomes.of rfl ?_, fun h hne h4 hl ho hrow href hmask => Becomes.of rfl ?_,
    fun h hne h4 hrow hl h1c => Becomes.of rfl ?_, fun h hne h4 hrow hal ho => Becomes.of rfl ?_,
    fun h h4 hrow hp hal hok => Ends.of (v := lowWordWriteCommit off ⟨val, none⟩ s) rfl ?_,
    fun h h4 hrow hp hal href => Ends.of (v := lowWordWriteCommit off ⟨val, none⟩ s) rfl ?_, fun h h4 hrow hal => Becomes.of rfl ?_,
    fun h h4 hrow hl h18 => Becomes.of rfl ?_, fun h h4 hrow hl h18 => Becomes.of rfl ?_, fun h h4 hrow hc => Becomes.of rfl ?_,
    fun ha => Becomes.of rfl ?_, fun h h4 hrow hu => Becomes.of rfl ?_, fun h h8 => Becomes.of rfl (lowWordWriteCommit_wide hserved h8 h)⟩
  · rw [lowWordReadLatch_eq hserved h4 h]
    have hread := State.hostRead_lowest h hrow
    exact ⟨hread.rdata, hread.regs, hread.shadow⟩
  · have hread := State.hostRead_lowest h hrow
    have hsecond := State.hostRead_second ((hread.multi (a + 4)).trans h') hrow'
    rw [lowWordReadLatch_wide hserved h8 h, State.readUpper]
    refine ⟨hread.rdata, ?_, ?_⟩
    · exact (congrArg State.rdata hsecond).trans (hread.shadow 1 (by decide) (State.multiAt_two h))
    · exact (congrArg State.regs hsecond).trans hread.regs
  · rw [upperWordWriteStage_eq hserved h4 h hne, State.hostWrite_upper h (by rw [hrow]; simp) hne, State.writeUpper_open hl ho hrow]
    exact if_pos href
  · rw [upperWordWriteStage_eq hserved h4 h hne, State.hostWrite_upper h (by rw [hrow]; simp) hne, State.writeUpper_open hl ho hrow]
    exact (if_neg (Bool.eq_false_iff.mp href)).trans (if_neg (by simpa using hmask))
  · rw [upperWordWriteStage_eq hserved h4 h hne, State.hostWrite_upper h (by rw [hrow]; simp) hne]
    exact State.writeUpper_loop h hl h1c
  · rw [upperWordWriteStage_eq hserved h4 h hne, State.hostWrite_upper h hrow hne]
    exact State.writeUpper_closed hal ho
  · have hn := State.multiAt_two h
    obtain ⟨hregs, hstaged⟩ := State.writeLowest_stored (s := s) (val := val) hp (Nat.zero_lt_of_lt hn) hal
    rw [s.valueStored_staged] at hstaged
    rw [State.valueStored_taken hok] at hregs
    rw [lowWordWriteCommit_eq hserved h4 h, State.hostWrite_lowest h hrow]
    refine ⟨fun i hi r hr => ?_, fun i h0 hi => ?_, fun c hc => ⟨?_, ?_⟩⟩
    · exact (State.rd_congr hregs _).trans (s.storeWords_rd (s.valueWord a val) hi hr)
    · rw [hstaged]
      exact unstage_gone s.staged a n h0 hi
    · exact (State.rd_congr hregs _).trans (s.storeWords_rd_ne (s.valueWord a val) hc)
    · rw [hstaged]
      exact unstage_other s.staged a n hc
  · have hn := State.multiAt_two h
    obtain ⟨hregs, hstaged⟩ := State.writeLowest_stored (s := s) (val := val) hp (Nat.zero_lt_of_lt hn) hal
    rw [s.valueStored_staged] at hstaged
    rw [lowWordWriteCommit_eq hserved h4 h, State.hostWrite_lowest h hrow]
    refine ⟨?_, fun i h0 hi => ?_⟩
    · rw [State.valueStored, if_pos (show s.valueRefused a n (s.valueWord a val) = true from href)] at hregs
      exact (State.flag_congr (State.rd_congr hregs _) _).trans (State.accErr_flag (s.storeWords a n (s.valueWord a val)) true a)
    · rw [hstaged]
      exact unstage_gone s.staged a n h0 hi
  · have hn := State.multiAt_two h
    rw [lowWordWriteCommit_eq hserved h4 h, State.hostWrite_lowest h hrow]
    exact State.writeLowest_refused (by omega) hal
  · rw [lowWordWriteCommit_eq hserved h4 h, State.hostWrite_lowest h hrow]
    exact State.writeLowest_setpoint hl h18
  · rw [lowWordWriteCommit_eq hserved h4 h, State.hostWrite_lowest h hrow]
    exact State.writeLowest_loop h hl h18
  · rw [lowWordWriteCommit_eq hserved h4 h, State.hostWrite_lowest h hrow]
    exact State.writeLowest_coef hc
  · have hoff : off.toNat = Reg.TB_RATE_LO := ha
    have h : s.multiAt off.toNat = some (off.toNat, 2) := by
      rw [hoff, State.multiAt, show multiOf? Reg.TB_RATE_LO = some (Reg.TB_RATE_LO, 2) by decide +kernel]
    rw [lowWordWriteCommit_eq hserved (by rw [hoff]; decide) h, State.hostWrite_lowest h (by rw [hoff]; decide +kernel)]
    exact State.writeLowest_rate hoff
  · have hunit : n = 2 := by
      rcases State.multiAt_cases h with hm | ⟨_, _, hn⟩
      · rw [multiOf?_unit hu] at hm
        cases hm
      · exact hn
    subst hunit
    rw [lowWordWriteCommit_eq hserved h4 h, State.hostWrite_lowest h hrow]
    exact State.writeLowest_unit hu

end Sys2Proof.Machine
end

section
/-! PROOF. A member's writes, reads and interrupts at the head, and the answers at the member (O35). -/

namespace Sys2Proof.Machine

/-! ## The order of a member's requests (R326) -/

/-- A request of a member whose turn has come. -/
def turnOf (s : State) (m : Nat) (e : Nat × Word × Output) : Bool := e.1 == m && e.2.1 == kgetD s.ln.orders m 0

theorem State.drainN_none {s : State} {m : Nat} (n : Nat) (h : s.ln.early.find? (turnOf s m) = none) : State.drainN m n s = s := by
  cases n with
  | zero => rfl
  | succ n =>
    rw [State.drainN, show s.ln.early.find? (fun e => e.1 == m && e.2.1 == kgetD s.ln.orders m 0) = none from h]

theorem State.drainN_write {s : State} {m : Nat} (n : Nat) {k : Word} {a : Word64} {bs : List Byte}
    (h : s.ln.early.find? (turnOf s m) = some (m, k, .dmaWrite a bs)) :
    State.drainN m (n + 1) s = State.drainN m n
      (({ s with ln := { s.ln with early := s.ln.early.erase (m, k, .dmaWrite a bs), orders := kset s.ln.orders m (k + 1) } }).memWrite a bs) := by
  rw [State.drainN, show s.ln.early.find? (fun e => e.1 == m && e.2.1 == kgetD s.ln.orders m 0) = some (m, k, .dmaWrite a bs) from h]

/-- A write of the head's host memory moves, of the lanes' state, what waits for D0 alone. -/
theorem State.memWrite_turns (s : State) (a : Word64) (bs : List Byte) :
    (s.memWrite a bs).ln = { s.ln with tunnel := (s.memWrite a bs).ln.tunnel } := by
  have hall : ∀ (l : List Output) (u : State), (l.foldl State.tunnelled u).ln = { u.ln with tunnel := (l.foldl State.tunnelled u).ln.tunnel } := by
    intro l
    induction l with
    | nil => exact fun u => rfl
    | cons o t ih =>
      intro u
      have hone : (u.tunnelled o).ln = { u.ln with tunnel := (u.tunnelled o).ln.tunnel } := by
        rw [State.tunnelled]
        split <;> rfl
      rw [List.foldl_cons, ih, hone]
  exact hall _ s

section order
variable {s : State} {m : Nat} {k : Word} {o : Output}

theorem erase_appended {l : List (Nat × Word × Output)} {e : Nat × Word × Output} (h : e ∉ l) : (l ++ [e]).erase e = l := by
  rw [List.erase_append_right _ h, List.erase_cons_head, List.append_nil]

theorem turn_none (h : s.ln.early.all (fun e => !(e.1 == m && e.2.1 == kgetD s.ln.orders m 0)) = true) :
    s.ln.early.find? (turnOf s m) = none := by
  rw [List.find?_eq_none]
  intro e he
  have hno := List.all_eq_true.mp h e he
  simpa [turnOf, Classical.or_iff_not_imp_left] using hno

theorem turn_none_of_others (h : s.ln.early.all (fun e => e.1 != m) = true) : s.ln.early.find? (turnOf s m) = none := by
  rw [List.find?_eq_none]
  intro e he
  have hno : e.1 ≠ m := by simpa using List.all_eq_true.mp h e he
  simp [turnOf, hno]

theorem not_mem_of_others (h : s.ln.early.all (fun e => e.1 != m) = true) : (m, k, o) ∉ s.ln.early := by
  intro hmem
  have := List.all_eq_true.mp h _ hmem
  simp at this

/-- A request whose turn has not come waits. -/
theorem State.memberSent_waits (h : s.ln.early.all (fun e => !(e.1 == m && e.2.1 == kgetD s.ln.orders m 0)) = true)
    (hk : k ≠ kgetD s.ln.orders m 0) : s.memberSent m k o = { s with ln := { s.ln with early := s.ln.early ++ [(m, k, o)] } } := by
  refine State.drainN_none _ ?_
  show (s.ln.early ++ [(m, k, o)]).find? (turnOf s m) = none
  have hnot : (k == kgetD s.ln.orders m 0) = false := beq_eq_false_iff_ne.mpr hk
  rw [List.find?_append, turn_none h, List.find?_singleton, if_neg (by rw [turnOf, hnot, Bool.and_false]; exact Bool.false_ne_true)]
  rfl

/-- A write whose turn has come, with nothing else of its member waiting, is issued. -/
theorem State.memberSent_write {a : Word64} {bs : List Byte} (h : s.ln.early.all (fun e => e.1 != m) = true)
    (hk : k = kgetD s.ln.orders m 0) : s.memberSent m k (.dmaWrite a bs)
      = ({ s with ln := { s.ln with orders := kset s.ln.orders m (k + 1) } }).memWrite a bs := by
  have hfind : (s.ln.early ++ [(m, k, Output.dmaWrite a bs)]).find? (turnOf s m) = some (m, k, .dmaWrite a bs) := by
    rw [List.find?_append, turn_none_of_others h]
    simp [turnOf, hk]
  rw [State.memberSent, State.drainN_write s.ln.early.length (s := { s with ln := { s.ln with early := s.ln.early ++ [(m, k, .dmaWrite a bs)] } })
    hfind]
  simp only [erase_appended (not_mem_of_others h)]
  generalize ht : State.memWrite _ a bs = t
  have hln : t.ln = { s.ln with orders := kset s.ln.orders m (k + 1), tunnel := t.ln.tunnel } := by
    rw [← ht]
    exact State.memWrite_turns _ a bs
  exact State.drainN_none _ (turn_none_of_others (by rw [hln]; exact h))

theorem word_succ_ne (k : Word) : k + 1 ≠ k := by bv_omega

/-- A write with its follower waiting: both are issued, in the order of their numbers. -/
theorem State.memberSent_pair {a : Word64} {bs other : List Byte} (hk : k = kgetD s.ln.orders m 0)
    (he : s.ln.early = [(m, k + 1, .dmaWrite a other)]) :
    s.memberSent m k (.dmaWrite a bs) =
      (let t := ({ s with ln := { s.ln with early := [(m, k + 1, .dmaWrite a other)], orders := kset s.ln.orders m (k + 1) } }).memWrite a bs
       ({ t with ln := { t.ln with early := [], orders := kset t.ln.orders m (k + 2) } }).memWrite a other) := by
  have hfind : (s.ln.early ++ [(m, k, Output.dmaWrite a bs)]).find? (turnOf s m) = some (m, k, .dmaWrite a bs) := by
    have hlater : (k + 1 == kgetD s.ln.orders m 0) = false := beq_eq_false_iff_ne.mpr (by rw [← hk]; exact word_succ_ne k)
    have hnow : (k == kgetD s.ln.orders m 0) = true := beq_iff_eq.mpr hk
    rw [he, List.singleton_append, List.find?_cons_of_neg (by rw [turnOf, hlater, Bool.and_false]; exact Bool.false_ne_true)]
    exact List.find?_cons_of_pos (by rw [turnOf, hnow, beq_self_eq_true]; rfl)
  have hnew : (m, k, Output.dmaWrite a bs) ∉ [(m, k + 1, Output.dmaWrite a other)] := by
    intro hmem
    have heq := List.mem_singleton.mp hmem
    exact word_succ_ne k (congrArg (fun e => e.2.1) heq).symm
  rw [State.memberSent, State.drainN_write s.ln.early.length (s := { s with ln := { s.ln with early := s.ln.early ++ [(m, k, .dmaWrite a bs)] } })
    hfind]
  simp only [he, erase_appended hnew]
  generalize ht : State.memWrite { s with ln := { s.ln with early := [(m, k + 1, .dmaWrite a other)], orders := kset s.ln.orders m (k + 1) } } a bs = t
  have hln : t.ln = { s.ln with early := [(m, k + 1, .dmaWrite a other)], orders := kset s.ln.orders m (k + 1), tunnel := t.ln.tunnel } := by
    rw [← ht]
    exact State.memWrite_turns _ a bs
  have hearly : t.ln.early = [(m, k + 1, .dmaWrite a other)] := by rw [hln]
  have horder : kgetD t.ln.orders m 0 = k + 1 := by rw [hln]; simp [kgetD]
  have hfollow : t.ln.early.find? (turnOf t m) = some (m, k + 1, .dmaWrite a other) := by
    have hnow : (k + 1 == kgetD t.ln.orders m 0) = true := beq_iff_eq.mpr horder.symm
    rw [hearly]
    exact List.find?_cons_of_pos (by rw [turnOf, hnow, beq_self_eq_true]; rfl)
  rw [List.length_singleton, State.drainN_write 0 hfollow, hearly, List.erase_cons_head, show k + 1 + 1 = k + 2 by bv_omega]
  rfl

end order

/-! ## Reads (R327) -/

/-- A read of at most one request, as it is asked for. -/
theorem oneRequest (who : ReadBy) (addr : Word64) {len : Nat} (h1 : 1 ≤ len) (h4 : len ≤ 4096) :
    (List.range (ceilDiv len 4096)).map (fun i =>
      ({ who := who, addr := addr + BitVec.ofNat 64 (4096 * i), len := min 4096 (len - 4096 * i), tag := 0 } : ReadReq))
      = [⟨who, addr, len, 0⟩] := by
  have hone : ceilDiv len 4096 = 1 := by
    unfold ceilDiv
    omega
  rw [hone]
  simp [List.range_succ, h4]

section reads
variable {s : State} {who : ReadBy} {addr : Word64} {len : Nat}

/-- No read goes out while the limit or the function forbids it. -/
theorem State.pumpReadsN_stopped {s : State} (n : Nat)
    (h : ((s.pw.headSel && !s.pw.d0) || decide (s.readLimit ≤ s.ln.reads.length)) = true) : s.pumpReadsN n = s := by
  cases n with
  | zero => rfl
  | succ n =>
    rw [State.pumpReadsN]
    split
    · rfl
    · exact if_pos h

theorem State.readHost_sent (hhead : s.pw.headSel = true) (hd0 : s.pw.d0 = true) (hwait : s.ln.readWait = []) (hroom : s.ln.reads.length < 64)
    (h1 : 1 ≤ len) (h4 : len ≤ 4096) :
    s.readHost who addr len
      = ({ s with ln := { s.ln with reads := s.ln.reads ++ [(⟨who, addr, len, s.freeTag⟩ : ReadReq)] } }).emit (.dmaRead addr len) := by
  have hn0 : s.readLimit = 64 := by rw [State.readLimit, if_pos hhead]
  have hgo : ¬ (((s.pw.headSel && !s.pw.d0) || decide (s.readLimit ≤ s.ln.reads.length)) = true) := by
    rw [hhead, hd0, hn0, decide_eq_false (Nat.not_le.mpr hroom)]
    decide
  rw [State.readHost, oneRequest who addr h1 h4, State.pumpReads]
  simp only [hwait, List.nil_append, List.length_singleton]
  rw [State.pumpReadsN]
  exact (if_neg hgo).trans (if_pos hhead)

theorem State.readHost_waits (hhead : s.pw.headSel = true) (hfull : 64 ≤ s.ln.reads.length ∨ s.pw.d0 = false) (h1 : 1 ≤ len) (h4 : len ≤ 4096) :
    s.readHost who addr len = { s with ln := { s.ln with readWait := s.ln.readWait ++ [(⟨who, addr, len, 0⟩ : ReadReq)] } } := by
  have hn0 : s.readLimit = 64 := by rw [State.readLimit, if_pos hhead]
  have hstop : ((s.pw.headSel && !s.pw.d0) || decide (s.readLimit ≤ s.ln.reads.length)) = true := by
    rw [hhead, hn0]
    obtain hfull | hd0 := hfull
    · rw [decide_eq_true hfull, Bool.or_true]
    · rw [hd0]
      rfl
  rw [State.readHost, oneRequest who addr h1 h4, State.pumpReads]
  exact State.pumpReadsN_stopped _ hstop

end reads

/-! ## The commands -/

section commands
variable {s : State} {member : BitVec 6} {f : Byte} {tag : BitVec 4}

/-- No request of a member waits. -/
theorem notTold {m : Nat} (h : s.ln.early.all (fun e => e.1 != m) = true) : (s.ln.early.filter (fun e => e.1 == m)).getLast? = none := by
  have hnil : s.ln.early.filter (fun e => e.1 == m) = [] := by
    rw [List.filter_eq_nil_iff]
    intro e he heq
    exact absurd (List.all_eq_true.mp h e he) (by simpa using heq)
  rw [hnil]
  rfl

theorem dmaWriteHeader_at {addr : Word64} {k : Word} {data : List Byte} (hhead : s.pw.headSel = true) (hal : s.alive = true)
    (hpast : ¬ (k - kgetD s.ln.orders member.toNat 0).toInt < 0) :
    dmaWriteHeader member addr k data s = s.memberSent member.toNat k (.dmaWrite addr data) :=
  if_neg (by rw [hhead, hal, decide_eq_false hpast]; decide)

theorem dmaWriteHeader_past {addr : Word64} {k : Word} {data : List Byte}
    (hpast : (k - kgetD s.ln.orders member.toNat 0).toInt < 0) : dmaWriteHeader member addr k data s = s :=
  if_pos (by rw [decide_eq_true hpast, Bool.or_true])

theorem dmaReadRequest_at {addr : Word64} {len : BitVec 13} (hhead : s.pw.headSel = true) (hal : s.alive = true) :
    dmaReadRequest member addr len tag s = s.readHost (.member member.toNat tag.toNat) addr len.toNat :=
  if_neg (by rw [hhead, hal]; decide)

theorem dmaReadData_head {data : ReadResult} (hhead : s.pw.headSel = true) (hal : s.alive = true)
    (hout : s.ln.reads.any (fun r => r.who == .member f.toNat tag.toNat) = true) :
    dmaReadData f tag data s =
      (match data with
       | .data bs => (s.dropReads (.member f.toNat tag.toNat)).sendMessage 6 f.toNat ([tag.setWidth 8] ++ zeros 3 ++ leBytes 4 bs.length ++ bs)
       | .failed status => (s.dropReads (.member f.toNat tag.toNat)).sendMessage 7 f.toNat [tag.setWidth 8, status.setWidth 8]) := by
  rw [dmaReadData, if_neg (by rw [hal]; decide), if_pos hhead]
  exact (if_neg (by rw [hout]; decide)).trans (by cases data <;> rfl)

theorem dmaReadData_none {data : ReadResult} (hhead : s.pw.headSel = true) (hal : s.alive = true)
    (hout : s.ln.reads.any (fun r => r.who == .member f.toNat tag.toNat) = false) : dmaReadData f tag data s = s := by
  rw [dmaReadData, if_neg (by rw [hal]; decide), if_pos hhead]
  exact if_pos (by rw [hout]; decide)

theorem dmaReadData_member {bs : List Byte} {r : ReadReq} (hhead : s.pw.headSel = false) (hal : s.alive = true)
    (hout : s.ln.reads.find? (fun r => r.tag == tag.toNat) = some r) :
    dmaReadData f tag (.data bs) s = ({ s with ln := { s.ln with reads := s.ln.reads.erase r } }).pumpReads := by
  rw [dmaReadData, if_neg (by rw [hal]; decide), if_neg (by rw [hhead]; decide), hout]

theorem dmaReadData_failed {status : BitVec 3} {r : ReadReq} (hhead : s.pw.headSel = false) (hal : s.alive = true)
    (hout : s.ln.reads.find? (fun r => r.tag == tag.toNat) = some r) :
    dmaReadData f tag (.failed status) s
      = dmaFailure (f.setWidth 9) r.addr ({ s with ln := { s.ln with reads := s.ln.reads.erase r } }).pumpReads := by
  rw [dmaReadData, if_neg (by rw [hal]; decide), if_neg (by rw [hhead]; decide), hout]

theorem interruptRequest_none {vec : Byte} (hhead : s.pw.headSel = true) (hal : s.alive = true) (hm : member.toNat < 48)
    (hno : (s.ln.early.filter (fun e => e.1 == member.toNat)).getLast? = none) : interruptRequest member vec s = s.sendMsix vec.toNat := by
  rw [interruptRequest]
  exact (if_neg (by rw [hhead, hal, decide_eq_true hm]; decide)).trans (by rw [hno])

theorem interruptRequest_after {vec : Byte} {k : Word} {addr : Word64} {data : List Byte} (hhead : s.pw.headSel = true) (hal : s.alive = true)
    (hm : member.toNat < 48)
    (hlast : (s.ln.early.filter (fun e => e.1 == member.toNat)).getLast? = some (member.toNat, k, .dmaWrite addr data)) :
    interruptRequest member vec s = s.memberSent member.toNat (k + 1) (.msix vec.toNat) := by
  rw [interruptRequest]
  exact (if_neg (by rw [hhead, hal, decide_eq_true hm]; decide)).trans (by rw [hlast])

end commands

/-- Settles O35: a member's requests are issued in the order of their numbers, its reads take their turn among the head's, and the
answer frees the read's tag. -/
theorem tunnel : Obligations.Tunnel := by
  refine ⟨?_, ?_⟩
  · intro s m addr order data len tag f vec hhead hal
    refine ⟨fun hoth hk => Becomes.of rfl ?_, fun hall hpos => Becomes.of rfl ?_, fun hpast => Becomes.of rfl (dmaWriteHeader_past hpast),
      fun other hk he => Becomes.of rfl ?_, fun hw hroom hd0 h1 h4 => Becomes.of rfl ?_, fun hfull h1 h4 => Becomes.of rfl ?_,
      fun hout => Becomes.of rfl (dmaReadData_head hhead hal hout), fun status hout => Becomes.of rfl (dmaReadData_head hhead hal hout),
      fun hout => Becomes.of rfl (dmaReadData_none hhead hal hout),
      fun hm hoth => Becomes.of rfl (interruptRequest_none hhead hal hm (notTold hoth)),
      fun hm hall hk hlast => Becomes.of rfl ?_⟩
    · exact (dmaWriteHeader_at hhead hal (by rw [hk, BitVec.sub_self]; decide)).trans (State.memberSent_write hoth hk)
    · refine (dmaWriteHeader_at hhead hal (by omega)).trans (State.memberSent_waits hall ?_)
      rintro rfl
      rw [BitVec.sub_self] at hpos
      exact absurd hpos (by decide)
    · exact (dmaWriteHeader_at hhead hal (by rw [hk, BitVec.sub_self]; decide)).trans (State.memberSent_pair hk he)
    · exact (dmaReadRequest_at hhead hal).trans (State.readHost_sent hhead hd0 hw hroom h1 h4)
    · exact (dmaReadRequest_at hhead hal).trans (State.readHost_waits hhead hfull h1 h4)
    · exact (interruptRequest_after hhead hal hm hlast).trans (State.memberSent_waits hall hk)
  · intro s f tag r data status hhead hal hout
    exact ⟨Becomes.of rfl (dmaReadData_member hhead hal hout), Becomes.of rfl (dmaReadData_failed hhead hal hout)⟩

end Sys2Proof.Machine
end

section
/-! SUPPORT. What the posting of a furrow's completions leaves (R280 to R283), a read that is answered within its command (R327), and
the one item that furrow 0 runs on a fetched descriptor (R269). -/

namespace Sys2Proof.Machine

/-! ## Furrows -/

theorem State.furrow?_setFurrow_same (s : State) (f : Nat) (fu : Furrow) : (s.setFurrow f fu).furrow? f = some fu := kget?_kset_same ..

theorem State.furrow?_setFurrow_ne (s : State) {f g : Nat} (fu : Furrow) (h : g ≠ f) : (s.setFurrow f fu).furrow? g = s.furrow? g :=
  kget?_kset_ne _ _ h

theorem kget?_kmod_same {α : Type} (m : KMap α) (k : Nat) (f : α → α) : kget? (kmod m k f) k = (kget? m k).map f := by
  rw [kmod]
  cases hm : kget? m k with
  | none => exact hm
  | some v => exact kget?_kset_same ..

theorem kget?_kmod_ne {α : Type} (m : KMap α) {k j : Nat} (f : α → α) (h : j ≠ k) : kget? (kmod m k f) j = kget? m j := by
  rw [kmod]
  cases kget? m k with
  | none => rfl
  | some v => exact kget?_kset_ne _ _ h

/-- Beside the furrow `f` no furrow changed, and beside its ledger entry no register. -/
structure PostsTo (f : Nat) (s t : State) : Prop where
  post : PostOnly s t
  others : ∀ g, g ≠ f → t.furrow? g = s.furrow? g
  rd : ∀ a, a ≠ Reg.GLB_LEDGER_LO f → t.rd a = s.rd a

section posts
variable {f : Nat}

theorem PostsTo.refl (s : State) : PostsTo f s s := ⟨.refl s, fun _ _ => rfl, fun _ _ => rfl⟩

theorem PostsTo.trans {s t u : State} (h : PostsTo f s t) (k : PostsTo f t u) : PostsTo f s u :=
  ⟨h.post.trans k.post, fun g hg => (k.others g hg).trans (h.others g hg), fun a ha => (k.rd a ha).trans (h.rd a ha)⟩

theorem PostsTo.setFurrow (s : State) (fu : Furrow) : PostsTo f s (s.setFurrow f fu) :=
  ⟨.setFurrow .., fun _ hg => s.furrow?_setFurrow_ne fu hg, fun _ _ => rfl⟩

theorem PostsTo.modFurrow (s : State) (g : Furrow → Furrow) : PostsTo f s (s.modFurrow f g) :=
  ⟨.modFurrow .., fun _ hg => kget?_kmod_ne _ _ hg, fun _ _ => rfl⟩

theorem State.sendMsix_rd (s : State) (v a : Nat) : (s.sendMsix v).rd a = s.rd a := by
  rw [State.sendMsix]
  exact ite_both (fun u : State => u.rd a = s.rd a) _ _ _ rfl
    (ite_both (fun u : State => u.rd a = s.rd a) _ _ _ rfl (State.rd_congr (LinkOnly.toHost ..).regs a))

theorem State.sendMsix_furrow? (s : State) (v g : Nat) : (s.sendMsix v).furrow? g = s.furrow? g := by
  rw [State.sendMsix]
  exact ite_both (fun u : State => u.furrow? g = s.furrow? g) _ _ _ rfl
    (ite_both (fun u : State => u.furrow? g = s.furrow? g) _ _ _ rfl (congrArg (fun h : HiSt => kget? h.furrows g) (LinkOnly.toHost ..).hi))

theorem PostsTo.postOne (s : State) (fu : Furrow) (it : Item) (st : CStatus) (len : Nat) (aux : Word) (ecc more first : Bool) :
    PostsTo f s (s.postOne f fu it st len aux ecc more first) ∧ (s.postOne f fu it st len aux ecc more first).furrow? f = s.furrow? f := by
  have hout : ∀ (u : State) (a : Word64) (c : Completion) (o : Output), LinkOnly u (if u.pw.headSel then u.emit (.completion a c) else u.toHost o) :=
    fun u a c o => ite_both (LinkOnly u) _ _ _ (.emit ..) (.toHost ..)
  have hrd : ∀ (u : State) a, a ≠ Reg.GLB_LEDGER_LO f → (if f < 256 then u.wr (Reg.GLB_LEDGER_LO f) it.seq else u).rd a = u.rd a :=
    fun u a ha => ite_both (fun v : State => v.rd a = u.rd a) _ _ _ (State.rd_wr_ne _ _ ha) rfl
  have hfu : ∀ (u : State) g, (if f < 256 then u.wr (Reg.GLB_LEDGER_LO f) it.seq else u).furrow? g = u.furrow? g :=
    fun u g => ite_both (fun v : State => v.furrow? g = u.furrow? g) _ _ _ rfl rfl
  have hlink : ∀ (u v : State) g, LinkOnly u v → v.furrow? g = u.furrow? g := fun u v g h => congrArg (fun h : HiSt => kget? h.furrows g) h.hi
  refine ⟨⟨.postOne .., fun g _ => ?_, fun a ha => ?_⟩, ?_⟩ <;> unfold State.postOne <;> extract_lets c t u
  · exact ite_both (fun v : State => v.furrow? g = s.furrow? g) _ _ _ ((u.sendMsix_furrow? ..).trans ((hfu t g).trans (hlink _ _ g (hout ..))))
      ((hfu t g).trans (hlink _ _ g (hout ..)))
  · exact ite_both (fun v : State => v.rd a = s.rd a) _ _ _ ((u.sendMsix_rd ..).trans ((hrd t a ha).trans (State.rd_congr (hout ..).regs a)))
      ((hrd t a ha).trans (State.rd_congr (hout ..).regs a))
  · exact ite_both (fun v : State => v.furrow? f = s.furrow? f) _ _ _ ((u.sendMsix_furrow? ..).trans ((hfu t f).trans (hlink _ _ f (hout ..))))
      ((hfu t f).trans (hlink _ _ f (hout ..)))

theorem PostsTo.postFront (s : State) : PostsTo f s (s.postFront f).2 := by
  unfold State.postFront
  split
  · exact .refl s
  · split
    · exact .refl s
    · split
      · exact ite_both (fun r : Bool × State => PostsTo f s r.2) _ _ _ (.refl s) ((PostsTo.postOne ..).1.trans (.setFurrow ..))
      · exact .refl s

theorem PostsTo.postN (n : Nat) (s : State) : PostsTo f s (State.postN f n s) := by
  induction n generalizing s with
  | zero => exact .refl s
  | succ n ih =>
    have h := PostsTo.postFront (f := f) s
    rw [State.postN]
    split
    · next s' e =>
      rw [e] at h
      exact h.trans (ih s')
    · next s' e =>
      rw [e] at h
      exact h

theorem PostsTo.postFinished (s : State) : PostsTo f s (s.postFinished f) := by
  rw [State.postFinished]
  split
  · exact .refl s
  · exact .postN ..

theorem PostsTo.endItem (s : State) (seq : Word) (st : CStatus) (len : Nat) (aux : Word) : PostsTo f s (s.endItem f seq st len aux) :=
  (PostsTo.modFurrow s _).trans (.postFinished _)

theorem PostsTo.endAll (s : State) (st : CStatus) : PostsTo f s (s.endAll f st) := (PostsTo.modFurrow s _).trans (.postFinished _)

end posts

/-! ## A read that is answered within its command -/

section room
variable {s : State}

theorem State.readRoom_iff : s.readRoom = true ↔ (s.pw.headSel && !s.pw.d0) = false ∧ s.ln.readWait = [] ∧ s.ln.reads.length < s.readLimit := by
  rw [State.readRoom, Bool.and_eq_true, Bool.and_eq_true, Bool.not_eq_true', List.isEmpty_iff, decide_eq_true_eq, and_assoc]

theorem CellsOnly.sendRead (s : State) (r : ReadReq) : CellsOnly s (s.sendRead r) :=
  ite_both (CellsOnly s) _ _ _ ⟨.emit .., rfl⟩ (.sendMessage ..)

/-- Where there is room, a read of one request goes out at once. -/
theorem State.readHost_roomy (hroom : s.readRoom = true) (who : ReadBy) (addr : Word64) {len : Nat} (h1 : 1 ≤ len) (h4 : len ≤ 4096) :
    s.readHost who addr len
      = ({ s with ln := { s.ln with readWait := [], reads := s.ln.reads ++ [(⟨who, addr, len, s.freeTag⟩ : ReadReq)] } }).sendRead
          ⟨who, addr, len, s.freeTag⟩ := by
  obtain ⟨hway, hwait, hlen⟩ := State.readRoom_iff.mp hroom
  have hgo : ¬ (((s.pw.headSel && !s.pw.d0) || decide (s.readLimit ≤ s.ln.reads.length)) = true) := by
    rw [hway, decide_eq_false (Nat.not_le.mpr hlen)]
    decide
  rw [State.readHost, oneRequest who addr h1 h4, State.pumpReads]
  simp only [hwait, List.nil_append, List.length_singleton]
  rw [State.pumpReadsN]
  exact if_neg hgo

/-- Where there was room for a read that was answered, there is room again. -/
theorem State.readNow_room (hroom : s.readRoom = true) (who : ReadBy) (addr : Word64) {len : Nat} (h1 : 1 ≤ len) (h4 : len ≤ 4096) :
    (s.readNow who addr len).readRoom = true := by
  obtain ⟨hway, hwait, hlen⟩ := State.readRoom_iff.mp hroom
  have hcells := CellsOnly.sendRead ({ s with ln := { s.ln with readWait := [], reads := s.ln.reads ++ [(⟨who, addr, len, s.freeTag⟩ : ReadReq)] } })
    ⟨who, addr, len, s.freeTag⟩
  rw [State.readNow, State.readHost_roomy hroom who addr h1 h4, State.dropReads]
  generalize State.sendRead _ _ = t at hcells ⊢
  have hreads : t.ln.reads = s.ln.reads ++ [⟨who, addr, len, s.freeTag⟩] := by rw [hcells.ln]
  have hwaits : t.ln.readWait = [] := by rw [hcells.ln]
  have hpw : t.pw = s.pw := hcells.link.pw
  simp only [hwaits, List.filter_nil]
  refine State.readRoom_iff.mpr ⟨?_, rfl, ?_⟩
  · show (t.pw.headSel && !t.pw.d0) = false
    rw [hpw]
    exact hway
  · show (t.ln.reads.filter (fun r => r.who != who)).length < (if t.pw.headSel then 64 else 16)
    have hnew : ((⟨who, addr, len, s.freeTag⟩ : ReadReq).who != who) = false := by simp
    rw [hreads, hpw, List.filter_append, List.filter_cons_of_neg (by rw [hnew]; decide), List.filter_nil, List.append_nil]
    exact Nat.lt_of_le_of_lt (List.length_filter_le ..) hlen

end room

/-! ## Furrow 0 runs the one item that it has fetched -/

/-- The item of a descriptor that has just been fetched. -/
def fetchedItem (fu : Furrow) (op : Byte) (d : Desc) (block : Option (List Byte)) : Item :=
  { seq := fu.nextFetch, op := op, desc := d, block := block, st := .held, wrote := 0, recs := 0, refused := none }

section fetched
variable {s : State} {f : Nat} {fu : Furrow}

theorem Furrow.fetch_empty (h : fu.items = []) (op : Byte) (d : Desc) (block : Option (List Byte)) :
    Furrow.fetch fu op d block = { fu with nextFetch := fu.nextFetch + 1, items := [fetchedItem fu op d block] } := by
  have hseq : fu.fetchSeq = fu.nextFetch := by rw [Furrow.fetchSeq, h]; rfl
  simp [Furrow.fetch, hseq, h, fetchedItem]

theorem State.fetched_furrow? (h : fu.items = []) (op : Byte) (d : Desc) (block : Option (List Byte)) :
    (s.fetched f fu op d block).furrow? f = some { fu with nextFetch := fu.nextFetch + 1, items := [fetchedItem fu op d block] } := by
  rw [State.fetched, State.furrow?_setFurrow_same, Furrow.fetch_empty h]

theorem LinkOnly.setFurrow {s t : State} (h : LinkOnly s t) (f : Nat) (fu : Furrow) : LinkOnly (s.setFurrow f fu) (t.setFurrow f fu) :=
  ⟨h.regs, h.shadow, h.staged, h.rdata, h.pw, h.tb, h.fr, h.fe, h.gl, h.cal, h.aq, h.ce,
    congrArg (fun x : HiSt => { x with furrows := kset x.furrows f fu }) h.hi, h.bl, h.vt, h.sv, h.bc, h.sp, h.ev, h.pending⟩

theorem State.fetched_link (op : Byte) (d : Desc) (block : Option (List Byte)) :
    LinkOnly (s.setFurrow f (Furrow.fetch fu op d block)) (s.fetched f fu op d block) :=
  (LinkOnly.readNow s (.descriptor f) (fu.descAddr fu.nextFetch) 32).setFurrow f _

theorem Fetches.parts (h : Fetches s f fu) : s.hostOpen = true ∧ s.readRoom = true ∧ fu.failed = false ∧ fu.stalled = false := by
  have hmay := h.may
  simp only [State.mayFetch, Bool.and_eq_true, Bool.not_eq_true'] at hmay
  exact ⟨hmay.1.1.1.1.1, hmay.1.1.1.1.2, hmay.1.1.1.2, hmay.1.1.2⟩

theorem State.hostOpen_d0 (h : s.hostOpen = true) : s.pw.d0 = true := by
  simp only [State.hostOpen, Bool.and_eq_true] at h
  exact h.1.1.2

theorem Fetches.post_eq (h : Fetches s f fu) (op : Byte) (d : Desc) (block : Option (List Byte)) (ecc : Bool) :
    s.post f op d block ecc = if f = 0 then (s.fetched f fu op d block).mgmtRun else (s.fetched f fu op d block).startHeld f ecc := by
  have hseq : fu.fetchSeq = fu.nextFetch := by rw [Furrow.fetchSeq, h.empty]; rfl
  rw [State.post, h.listed]
  refine (if_neg (by rw [h.may]; decide)).trans ?_
  rw [hseq]
  rfl

/-- The room for the next read does not depend on the furrows. -/
theorem State.fetched_room (h : Fetches s f fu) (op : Byte) (d : Desc) (block : Option (List Byte)) :
    (s.fetched f fu op d block).readRoom = true :=
  State.readNow_room h.parts.2.1 _ _ (by decide) (by decide)

/-- A descriptor of furrow 0, whose ring is otherwise done, is the one item that runs. -/
theorem Fetches.mgmt_eq (h : Fetches s 0 fu) (op : Byte) (d : Desc) (block : Option (List Byte)) (ecc : Bool) :
    s.post 0 op d block ecc = (s.fetched 0 fu op d block).startMgmt (fetchedItem fu op d block) := by
  obtain ⟨hopen, -, hnf, -⟩ := h.parts
  have hd0 : (s.fetched 0 fu op d block).pw.d0 = true := by
    rw [(State.fetched_link op d block).pw]
    exact State.hostOpen_d0 hopen
  have hroom := State.fetched_room h op d block
  have hfu := State.fetched_furrow? (s := s) (f := 0) h.empty op d block
  rw [h.post_eq, if_pos rfl]
  generalize s.fetched 0 fu op d block = t at *
  have hone : t.mgmtOne = (true, t.startMgmt (fetchedItem fu op d block)) := by
    rw [State.mgmtOne, hfu]
    refine if_pos ?_
    show (Item.isHeld (fetchedItem fu op d block) && !fu.failed && t.pw.d0 && (op != 0x80#8 || t.readRoom)) = true
    rw [hnf, hd0, hroom, Bool.or_true]
    rfl
  rw [State.mgmtRun, hfu]
  show State.mgmtN 1 t = _
  rw [State.mgmtN, hone]
  rfl

end fetched

end Sys2Proof.Machine
end

section
/-! PROOF. CREATE (R271, R280). -/

namespace Sys2Proof.Machine

/-- The generation of the next furrow at an index (R270). -/
def State.nextGen (s : State) (i : Nat) : Nat := if s.ledgerGen i = 0xFFFFFF then 1 else s.ledgerGen i + 1

/-- The state with the furrow that CREATE makes, before its item ends. -/
def State.made (s : State) (i : Nat) (nf : Furrow) : State :=
  let t := if nf.kind == .sample && s.inRun then s.wr Reg.FR_BUDGET (word (s.pended.setFurrow i nf).windowCost) else s
  let u := ((t.setFurrow i { nf with handle := word (s.nextGen i * 256 + i) }).ledger i (s.nextGen i) 1).wr (Reg.GLB_LEDGER_LO i) 0xFFFFFFFF#32
  { u with hi := { u.hi with noFurrow := kerase u.hi.noFurrow i } }

/-- The limits of the kinds and of the window decide. -/
def State.makeAt (t : State) (i : Nat) (nf : Furrow) (q : Word) : State :=
  if t.kindFull nf.kind || (nf.kind == .sample && t.inRun && !(t.pended.setFurrow i nf).costOk) then t.endItem 0 q .failedLimit 0 0
  else (t.made i nf).endItem 0 q .done 0 (word (t.nextGen i * 256 + i))

section startCreate
variable {s : State} {it : Item} {b : List Byte} {nf : Furrow} {i : Nat}

theorem startCreate_bad (hb : it.block = some b)
    (hbad : blockFurrow (s.readNow .block (Desc.addr it.desc) 64) (fitBytes 64 b) = none) :
    s.startCreate it = (s.readNow .block (Desc.addr it.desc) 64).endItem 0 it.seq .failedParam 0 0 := by
  rw [State.startCreate, hb]
  simp only []
  rw [hbad]

theorem startCreate_noIndex (hb : it.block = some b)
    (hok : blockFurrow (s.readNow .block (Desc.addr it.desc) 64) (fitBytes 64 b) = some nf)
    (hno : (List.range 256).find? (fun i => i != 0 && ((s.readNow .block (Desc.addr it.desc) 64).furrow? i).isNone) = none) :
    s.startCreate it = (s.readNow .block (Desc.addr it.desc) 64).endItem 0 it.seq .failedLimit 0 0 := by
  rw [State.startCreate, hb]
  simp only []
  rw [hok]
  simp only []
  rw [hno]

/-- With an index free, the limits of the kinds and of the window decide. -/
theorem startCreate_index (hb : it.block = some b)
    (hok : blockFurrow (s.readNow .block (Desc.addr it.desc) 64) (fitBytes 64 b) = some nf)
    (hi : (List.range 256).find? (fun i => i != 0 && ((s.readNow .block (Desc.addr it.desc) 64).furrow? i).isNone) = some i) :
    s.startCreate it =
      (s.readNow .block (Desc.addr it.desc) 64).makeAt i nf it.seq := by
  rw [State.startCreate, hb]
  simp only []
  rw [hok]
  simp only []
  rw [hi]
  rfl

end startCreate

/-- The index that CREATE takes is one of furrows 1 to 255. -/
theorem freeIndex_range {p : Nat → Bool} {i : Nat} (h : (List.range 256).find? (fun i => i != 0 && p i) = some i) : i ≠ 0 ∧ i < 256 := by
  have hp := List.find?_some h
  rw [Bool.and_eq_true, bne_iff_ne] at hp
  exact ⟨hp.1, List.mem_range.mp (List.mem_of_find?_eq_some h)⟩

section made
variable {s : State} {i : Nat} {nf : Furrow}

theorem made_furrow? : (s.made i nf).furrow? i = some { nf with handle := word (s.nextGen i * 256 + i) } :=
  State.furrow?_setFurrow_same _ i _

theorem made_rd_lo : (s.made i nf).rd (Reg.GLB_LEDGER_LO i) = 0xFFFFFFFF#32 := State.rd_wr_same ..

theorem ledgerHi_ne_lo (i j : Nat) : Reg.GLB_LEDGER_HI i ≠ Reg.GLB_LEDGER_LO j := by
  simp only [Reg.GLB_LEDGER_HI, Reg.GLB_LEDGER_LO]
  omega

theorem made_rd_hi : (s.made i nf).rd (Reg.GLB_LEDGER_HI i) = word (2 ^ 24 * 1 + s.nextGen i % 2 ^ 24) :=
  (State.rd_wr_ne _ _ (ledgerHi_ne_lo i i)).trans (State.rd_wr_same ..)

theorem made_rd_budget (hi : i < 256) (hs : nf.kind = .sample) (hrun : s.inRun = true) :
    (s.made i nf).rd Reg.FR_BUDGET = word (s.pended.setFurrow i nf).windowCost := by
  have hlo : Reg.FR_BUDGET ≠ Reg.GLB_LEDGER_LO i := by simp only [Reg.FR_BUDGET, Reg.GLB_LEDGER_LO]; omega
  have hhi : Reg.FR_BUDGET ≠ Reg.GLB_LEDGER_HI i := by simp only [Reg.FR_BUDGET, Reg.GLB_LEDGER_HI]; omega
  have hset : (if nf.kind == .sample && s.inRun then s.wr Reg.FR_BUDGET (word (s.pended.setFurrow i nf).windowCost) else s)
      = s.wr Reg.FR_BUDGET (word (s.pended.setFurrow i nf).windowCost) := if_pos (by rw [hs, hrun]; rfl)
  refine (State.rd_wr_ne _ _ hlo).trans ((State.rd_wr_ne _ _ hhi).trans ?_)
  rw [hset]
  exact State.rd_wr_same ..

/-- A ledger entry as CREATE writes it. -/
theorem ledgerWord_fields (g : Nat) : BitField.get Fld.GLB_LEDGER_HI_state (word (2 ^ 24 * 1 + g % 2 ^ 24)) = 1
    ∧ BitField.get Fld.GLB_LEDGER_HI_gen (word (2 ^ 24 * 1 + g % 2 ^ 24)) = g % 2 ^ 24 := by
  simp only [BitField.get, word, BitVec.toNat_ofNat]
  omega

end made

/-! ## The command -/

/-- The state in which CREATE judges its block, once that has been read. -/
def State.blockRead (s : State) (fu : Furrow) (d : Desc) (b : List Byte) : State :=
  (s.fetched 0 fu 0x80 d (some b)).readNow .block (Desc.addr d) 64

section command
variable {s : State} {fu nf : Furrow} {d : Desc} {b : List Byte} {i : Nat}

theorem create_start (hf : Fetches s 0 fu) (hres : reservedZero 0x80 d = true) (block : Option (List Byte)) :
    create d block s = (s.fetched 0 fu 0x80 d block).startCreate (fetchedItem fu 0x80 d block) := by
  refine (hf.mgmt_eq 0x80 d block false).trans ?_
  rw [State.startMgmt]
  exact if_neg (by show ¬ (!opAllowed .mgmt 0x80#8 || !reservedZero 0x80 d) = true; rw [hres]; decide)

theorem State.blockRead_link : LinkOnly (s.setFurrow 0 (Furrow.fetch fu 0x80 d (some b))) (s.blockRead fu d b) :=
  (State.fetched_link ..).trans (.readNow ..)

theorem State.blockRead_inRun : (s.blockRead fu d b).inRun = s.inRun :=
  congrArg (fun p : PwSt => p.power == .run) (State.blockRead_link (b := b)).pw

theorem State.blockRead_nextGen : (s.blockRead fu d b).nextGen i = s.nextGen i := by
  have hled : (s.blockRead fu d b).ledgerGen i = s.ledgerGen i :=
    congrArg (BitField.get Fld.GLB_LEDGER_HI_gen) (State.rd_congr (State.blockRead_link (b := b)).regs _)
  rw [State.nextGen, hled, State.nextGen]

theorem create_bad (hf : Fetches s 0 fu) (hres : reservedZero 0x80 d = true) (hbad : blockFurrow (s.blockRead fu d b) (fitBytes 64 b) = none) :
    create d (some b) s = (s.blockRead fu d b).endItem 0 fu.nextFetch .failedParam 0 0 :=
  (create_start hf hres _).trans (startCreate_bad rfl hbad)

theorem create_noIndex (hf : Fetches s 0 fu) (hres : reservedZero 0x80 d = true)
    (hok : blockFurrow (s.blockRead fu d b) (fitBytes 64 b) = some nf)
    (hno : (List.range 256).find? (fun i => i != 0 && ((s.blockRead fu d b).furrow? i).isNone) = none) :
    create d (some b) s = (s.blockRead fu d b).endItem 0 fu.nextFetch .failedLimit 0 0 :=
  (create_start hf hres _).trans (startCreate_noIndex rfl hok hno)

theorem create_index (hf : Fetches s 0 fu) (hres : reservedZero 0x80 d = true)
    (hok : blockFurrow (s.blockRead fu d b) (fitBytes 64 b) = some nf)
    (hi : (List.range 256).find? (fun i => i != 0 && ((s.blockRead fu d b).furrow? i).isNone) = some i) :
    create d (some b) s = (s.blockRead fu d b).makeAt i nf fu.nextFetch :=
  (create_start hf hres _).trans (startCreate_index rfl hok hi)

theorem create_full (hf : Fetches s 0 fu) (hres : reservedZero 0x80 d = true)
    (hok : blockFurrow (s.blockRead fu d b) (fitBytes 64 b) = some nf)
    (hi : (List.range 256).find? (fun i => i != 0 && ((s.blockRead fu d b).furrow? i).isNone) = some i)
    (hfull : (s.blockRead fu d b).kindFull nf.kind = true
      ∨ (nf.kind = .sample ∧ s.inRun = true ∧ ((s.blockRead fu d b).pended.setFurrow i nf).costOk = false)) :
    create d (some b) s = (s.blockRead fu d b).endItem 0 fu.nextFetch .failedLimit 0 0 := by
  refine (create_index hf hres hok hi).trans (if_pos ?_)
  show ((s.blockRead fu d b).kindFull nf.kind
    || (nf.kind == .sample && (s.blockRead fu d b).inRun && !((s.blockRead fu d b).pended.setFurrow i nf).costOk)) = true
  rw [State.blockRead_inRun, Bool.or_eq_true]
  rcases hfull with hfull | ⟨hs, hr, hc⟩
  · exact Or.inl hfull
  · rw [hs, hr, hc]
    exact Or.inr rfl

theorem create_made (hf : Fetches s 0 fu) (hres : reservedZero 0x80 d = true)
    (hok : blockFurrow (s.blockRead fu d b) (fitBytes 64 b) = some nf) (hroom : (s.blockRead fu d b).kindFull nf.kind = false)
    (hcost : nf.kind ≠ .sample ∨ s.inRun = false ∨ ((s.blockRead fu d b).pended.setFurrow i nf).costOk = true)
    (hi : (List.range 256).find? (fun i => i != 0 && ((s.blockRead fu d b).furrow? i).isNone) = some i) :
    create d (some b) s
      = ((s.blockRead fu d b).made i nf).endItem 0 fu.nextFetch .done 0 (word ((s.blockRead fu d b).nextGen i * 256 + i)) := by
  refine (create_index hf hres hok hi).trans (if_neg ?_)
  show ¬ ((s.blockRead fu d b).kindFull nf.kind
    || (nf.kind == .sample && (s.blockRead fu d b).inRun && !((s.blockRead fu d b).pended.setFurrow i nf).costOk)) = true
  rw [State.blockRead_inRun, hroom, Bool.false_or]
  rcases hcost with hk | hr | hc
  · rw [beq_eq_false_iff_ne.mpr hk]
    exact Bool.false_ne_true
  · rw [hr, Bool.and_false]
    exact Bool.false_ne_true
  · rw [hc, Bool.not_true, Bool.and_false]
    exact Bool.false_ne_true

/-- What the furrow that CREATE makes leaves, once its item has ended. -/
theorem made_ended (hi : (List.range 256).find? (fun i => i != 0 && ((s.blockRead fu d b).furrow? i).isNone) = some i) (q aux : Word) :
    let u := ((s.blockRead fu d b).made i nf).endItem 0 q .done 0 aux
    u.furrow? i = some { nf with handle := word (s.nextGen i * 256 + i) }
    ∧ (nf.kind = .sample → s.inRun = true → u.rd Reg.FR_BUDGET = word ((s.blockRead fu d b).pended.setFurrow i nf).windowCost)
    ∧ u.rd (Reg.GLB_LEDGER_LO i) = 0xFFFFFFFF#32
    ∧ u.fget (Reg.GLB_LEDGER_HI i) Fld.GLB_LEDGER_HI_state = 1
    ∧ u.fget (Reg.GLB_LEDGER_HI i) Fld.GLB_LEDGER_HI_gen = s.nextGen i % 2 ^ 24 := by
  obtain ⟨hi0, hi256⟩ := freeIndex_range hi
  have hp := PostsTo.endItem (f := 0) ((s.blockRead fu d b).made i nf) q .done 0 aux
  have hlo : Reg.GLB_LEDGER_LO i ≠ Reg.GLB_LEDGER_LO 0 := by simp only [Reg.GLB_LEDGER_LO]; omega
  have hbud : Reg.FR_BUDGET ≠ Reg.GLB_LEDGER_LO 0 := by decide
  have hword : (((s.blockRead fu d b).made i nf).endItem 0 q .done 0 aux).rd (Reg.GLB_LEDGER_HI i)
      = word (2 ^ 24 * 1 + s.nextGen i % 2 ^ 24) := by
    rw [hp.rd _ (ledgerHi_ne_lo i 0), made_rd_hi, State.blockRead_nextGen]
  refine ⟨?_, fun hs hr => (hp.rd _ hbud).trans (made_rd_budget hi256 hs (State.blockRead_inRun.trans hr)),
    (hp.rd _ hlo).trans made_rd_lo, (congrArg _ hword).trans (ledgerWord_fields _).1, (congrArg _ hword).trans (ledgerWord_fields _).2⟩
  rw [hp.others i hi0, made_furrow?, State.blockRead_nextGen]

end command

/-- Settles O30: the first failure in the order DMA, PARAM, LIMIT decides, and a good block makes a furrow. -/
theorem create_holds : Obligations.Create := by
  intro s fu d b nf i hf hk hres q fs gen
  exact ⟨Becomes.of rfl (create_start hf hres none), fun hbad => Becomes.of rfl (create_bad hf hres hbad),
    fun hok hno => Becomes.of rfl (create_noIndex hf hres hok hno),
    fun hok hi hfull => Becomes.of rfl (create_full hf hres hok hi hfull),
    fun hok hroom hcost hi => Ends.of (v := Machine.create d (some b) s) rfl
      (by rw [create_made hf hres hok hroom hcost hi]; exact made_ended hi fu.nextFetch _)⟩

end Sys2Proof.Machine
end

section
/-! PROOF. A signed record, the end of COMPRESS, EXPAND and VERIFY, and the Baler's counters (O41). -/

namespace Sys2Proof.Machine

/-! ## The oldest record is signed (R374, R377) -/

/-- The oldest record joins the seal queue with its signature. -/
def State.recordSigned (s : State) (r : SealRec) (rest : List SealRec) : State :=
  { s with freeCtr := s.freeCtr + 1
           vt := { s.vt with unsigned := rest
                             queue := s.vt.queue ++ [{ r with body := r.body ++ fitBytes 96 (Config.ecSign r.key r.body s.freeCtr), key := [],
                                                              notices := [] }] } }

/-- Its notices' space is free, and the queue's length shown. -/
def State.signed (s : State) (r : SealRec) (rest : List SealRec) : State := ((s.recordSigned r rest).freeNotices r.notices).noteQueue

section signing
variable {s : State} {r : SealRec} {rest : List SealRec}

theorem sealSigned_idle (h : s.vt.unsigned = [] ∨ s.vaultInError = true) : sealSigned s = s := by
  rw [sealSigned]
  cases hu : s.vt.unsigned with
  | nil => rfl
  | cons r rest => exact if_pos (h.resolve_left (by rw [hu]; exact List.cons_ne_nil _ _))

theorem sealSigned_eq (hu : s.vt.unsigned = r :: rest) (herr : s.vaultInError = false) : sealSigned s = (s.signed r rest).serveSeals := by
  rw [sealSigned, hu]
  exact if_neg (by rw [herr]; decide)

theorem State.noteQueue_hi (t : State) : t.noteQueue.hi = t.hi := rfl

theorem State.signed_furrowOf? (k : FurrowKind) : (s.signed r rest).furrowOf? k = s.furrowOf? k := by
  have hrec : ChainOnly s (s.recordSigned r rest) := ⟨rfl, rfl, rfl, rfl, rfl, rfl, fun _ _ => rfl⟩
  have hchain : ChainOnly s ((s.recordSigned r rest).freeNotices r.notices) := hrec.trans (.freeNotices ..)
  rw [State.signed, State.furrowOf?, State.noteQueue_hi, hchain.furrows, State.furrowOf?]

theorem State.serveSeals_none {t : State} (h : t.furrowOf? .seal = none) : t.serveSeals = t := by
  rw [State.serveSeals, h]

theorem State.serveSeals_some {t : State} {f : Nat} (h : t.furrowOf? .seal = some f) : t.serveSeals = t.deliver f false := by
  rw [State.serveSeals, h]

end signing

/-! ## The end of an item of a pipe (R344 to R350) -/

/-- The pipe of an item that has run is free. -/
def State.pipeFreed (s : State) (comp : Bool) : State := (s.readsDone (.job comp)).freePipe comp

section done
variable {s t : State} {comp : Bool} {f : Nat} {q : Word} {fu : Furrow} {it : Item} {src dst fault bs want : List Byte}
  {out : List (Byte × Nat)} {err : Option (Nat × Nat)}

theorem State.pipeFreed_furrows : (s.pipeFreed comp).hi.furrows = s.hi.furrows := by
  have hdrop : ((s.readsDone (.job comp)).dropReads (.job comp)).hi = s.hi := ((LinkOnly.readsDone ..).trans (.dropReads ..)).hi
  rw [State.pipeFreed, State.freePipe]
  exact ite_both (fun u : State => u.hi.furrows = s.hi.furrows) _ _ _ (congrArg HiSt.furrows hdrop) (congrArg HiSt.furrows hdrop)

theorem item?_seq {fu : Furrow} {it : Item} {q : Word} (h : Furrow.item? fu q = some it) : it.seq = q := by
  simpa using List.find?_some h

theorem balerItemDone_none (h : (if comp then s.bl.comp else s.bl.exp) = none) : balerItemDone comp src dst fault s = s := by
  rw [balerItemDone]
  refine ite_both (fun u : State => u = s) _ _ _ rfl ?_
  rw [h]

theorem balerItemDone_eq (hcame : s.readsCame (.job comp) = true) (hpipe : (if comp then s.bl.comp else s.bl.exp) = some (f, q))
    (hfu : s.furrow? f = some fu) (hit : Furrow.item? fu q = some it) :
    balerItemDone comp src dst fault s =
      (if comp then (s.pipeFreed comp).compressDone f fu it (fitBytes (Desc.srcLen it.desc) src) fault
        else (s.pipeFreed comp).expandDone f it (fitBytes (Desc.srcLen it.desc) src) (fitBytes (Desc.dstLen it.desc) dst)).balerPump := by
  have hfreed : ((s.readsDone (.job comp)).freePipe comp).furrow? f = some fu := (congrArg (kget? · f) State.pipeFreed_furrows).trans hfu
  rw [balerItemDone]
  refine (if_neg (by rw [hcame]; decide)).trans ?_
  rw [hpipe]
  simp only []
  rw [hfreed]
  simp only []
  rw [hit]
  rfl

/-! ### EXPAND and VERIFY -/

/-- An expansion that fits has its outcome. -/
def State.expandFits (t : State) (f : Nat) (it : Item) (n : Nat) (out : List (Byte × Nat)) (err : Option (Nat × Nat)) : State :=
  let u := (if out.isEmpty then t else t.toHost (.dmaWrite (Desc.dstAddr it.desc) (out.map Prod.fst))).countBytes n out.length
  match err with
  | some (r, o) => u.failVerify f it out.length r o
  | none => u.endJob f it.seq .done out.length (adler32From 1 (out.map Prod.fst))

/-- The outcome of a comparison. -/
def State.verified (t : State) (f : Nat) (it : Item) (bytes : List Byte) (diff : Option Nat) (err : Option (Nat × Nat)) : State :=
  match diff, err with
  | some i, _ => t.failVerify f it 0 9 i
  | none, some (r, o) => t.failVerify f it 0 r o
  | none, none => t.endJob f it.seq .done 0 (adler32From 1 bytes)

theorem expandDone_limit (h : expandAll it.desc bs = (out, err)) (hop : it.op ≠ 0x32) (hlen : Desc.dstLen it.desc < out.length)
    (hkept : (out.map Prod.fst).take (Desc.dstLen it.desc) ≠ []) :
    t.expandDone f it bs want =
      (let kept := (out.map Prod.fst).take (Desc.dstLen it.desc)
       let used := ((out.getD kept.length (0, 1)).2 - 1) / 8
       ((t.toHost (.dmaWrite (Desc.dstAddr it.desc) kept)).countBytes used kept.length).endJob f it.seq .failedLimit kept.length
         (word (used % 2 ^ 28))) := by
  have htake : ((out.map Prod.fst).take (Desc.dstLen it.desc)).length = Desc.dstLen it.desc := by
    rw [List.length_take, List.length_map, Nat.min_eq_left (Nat.le_of_lt hlen)]
  have hsome : ¬ ((out.map Prod.fst).take (Desc.dstLen it.desc)).isEmpty = true := by rwa [List.isEmpty_iff]
  rw [State.expandDone, h]
  refine (if_neg hop).trans ((if_pos (by rwa [List.length_map])).trans ?_)
  simp only [htake]
  rw [if_neg hsome]

theorem expandDone_fits (h : expandAll it.desc bs = (out, err)) (hop : it.op ≠ 0x32) (hlen : out.length ≤ Desc.dstLen it.desc) :
    t.expandDone f it bs want = t.expandFits f it bs.length out err := by
  have htake : (out.map Prod.fst).take (Desc.dstLen it.desc) = out.map Prod.fst := List.take_of_length_le (by rw [List.length_map]; exact hlen)
  rw [State.expandDone, h]
  refine (if_neg hop).trans ((if_neg (by rw [List.length_map]; exact Nat.not_lt.mpr hlen)).trans ?_)
  simp only [htake, List.length_map, List.isEmpty_map]
  cases err <;> rfl

theorem expandFits_failed {n : Nat} {e : Nat × Nat} (hne : out ≠ []) : t.expandFits f it n out (some e) =
    ((t.toHost (.dmaWrite (Desc.dstAddr it.desc) (out.map Prod.fst))).countBytes n out.length).failVerify f it out.length e.1 e.2 := by
  rw [State.expandFits, if_neg (by rw [List.isEmpty_iff]; exact hne)]

theorem expandFits_done {n : Nat} (hne : out ≠ []) : t.expandFits f it n out none =
    ((t.toHost (.dmaWrite (Desc.dstAddr it.desc) (out.map Prod.fst))).countBytes n out.length).endJob f it.seq .done out.length
      (adler32From 1 (out.map Prod.fst)) := by
  rw [State.expandFits, if_neg (by rw [List.isEmpty_iff]; exact hne)]

theorem expandFits_empty {n : Nat} : t.expandFits f it n [] none = (t.countBytes n 0).endJob f it.seq .done 0 1 := by
  have hadler : adler32From 1 [] = 1 := by decide
  rw [State.expandFits, if_pos List.isEmpty_nil, List.map_nil, hadler]
  rfl

theorem expandDone_verify (h : expandAll it.desc bs = (out, err)) (hop : it.op = 0x32) :
    t.expandDone f it bs want = (t.countBytes bs.length 0).verified f it (out.map Prod.fst)
      (firstDiff (out.map Prod.fst) (if err.isSome then want.take (out.map Prod.fst).length else want) 0) err := by
  rw [State.expandDone, h]
  refine (if_pos hop).trans ?_
  simp only []
  generalize firstDiff _ _ 0 = diff
  cases diff <;> cases err <;> rfl

theorem firstDiff_self (l : List Byte) (i : Nat) : firstDiff l l i = none := by
  induction l generalizing i with
  | nil => rfl
  | cons a l ih => rw [firstDiff, if_pos rfl, ih]

/-! ### COMPRESS -/

/-- What COMPRESS writes of its source, and its stream after it. -/
def State.coded (t : State) (f : Nat) (it : Item) (src : List Byte) : List Byte × Stream :=
  compressItem (kgetD t.bl.streams f (Stream.new (optFormat it.desc))) it.desc src

/-- The end of a COMPRESS item whose output passed its check (R344, R349). -/
def State.compressGood (t : State) (f : Nat) (it : Item) (n : Nat) (out : List Byte) (st' : Stream) : State :=
  if Desc.dstLen it.desc < out.length then
    (((t.partOf n).2.countBytes (t.partOf n).1 0).abandon f).endJob f it.seq .failedSpace 0 0
  else
    let u := (if out.isEmpty then t else t.toHost (.dmaWrite (Desc.dstAddr it.desc) out)).countBytes n out.length
    (if optFinal it.desc || u.bl.compDrop then u.abandon f
      else ({ u with bl := { u.bl with streams := kset u.bl.streams f st' } }).noteStreams).endJob f it.seq .done out.length st'.adler

/-- The end of a COMPRESS item whose check failed at a source byte (R345, R349). -/
def State.compressFault (t : State) (f : Nat) (fu : Furrow) (it : Item) (src out : List Byte) (taken i : Nat) : State :=
  let p := t.partOf (min out.length (Desc.dstLen it.desc))
  let u := ((p.2.incSat Reg.BL_VFAIL 1).setFlag Reg.BL_STAT Fld.BL_STAT_vfail true).abandon f
  let v := (if p.1 = 0 then u else u.toHost (.dmaWrite (Desc.dstAddr it.desc) (out.take p.1))).countBytes src.length p.1
  (v.raiseF (Furrow.evFlags fu) 60 f 0 0 (join64 fu.handle it.seq)).failVerify f it p.1 10
    (min src.length (i - taken - (if optDelta it.desc && !src.isEmpty then 16 else 0)))

/-- The output is checked where a fault changed it (R345). -/
theorem compressDone_eq : t.compressDone f fu it bs fault =
    (let st := kgetD t.bl.streams f (Stream.new (optFormat it.desc))
     let out := faulty (t.coded f it bs).1 fault
     match (if out = (t.coded f it bs).1 then none
        else selfCheck st.format (optFinal it.desc) (st.written ++ out) (t.coded f it bs).2.taken) with
     | some i => t.compressFault f fu it bs out st.taken.length i
     | none => t.compressGood f it bs.length out { (t.coded f it bs).2 with written := st.written ++ out }) := rfl

theorem compressDone_good (hgood : faulty (t.coded f it bs).1 fault = (t.coded f it bs).1) :
    t.compressDone f fu it bs fault = t.compressGood f it bs.length (t.coded f it bs).1
      { (t.coded f it bs).2 with written := (kgetD t.bl.streams f (Stream.new (optFormat it.desc))).written ++ (t.coded f it bs).1 } := by
  rw [compressDone_eq]
  simp only [hgood, if_pos]

theorem compressDone_fault {i : Nat} (hbad : faulty (t.coded f it bs).1 fault ≠ (t.coded f it bs).1)
    (hcheck : selfCheck (kgetD t.bl.streams f (Stream.new (optFormat it.desc))).format (optFinal it.desc)
      ((kgetD t.bl.streams f (Stream.new (optFormat it.desc))).written ++ faulty (t.coded f it bs).1 fault) (t.coded f it bs).2.taken = some i) :
    t.compressDone f fu it bs fault = t.compressFault f fu it bs (faulty (t.coded f it bs).1 fault)
      (kgetD t.bl.streams f (Stream.new (optFormat it.desc))).taken.length i := by
  rw [compressDone_eq]
  simp only [if_neg hbad, hcheck]

theorem faulty_nil (l : List Byte) : faulty l [] = l := by
  rw [faulty]
  simp

theorem compressGood_space {n : Nat} {o : List Byte} {st' : Stream} (h : Desc.dstLen it.desc < o.length) :
    t.compressGood f it n o st' = (((t.partOf n).2.countBytes (t.partOf n).1 0).abandon f).endJob f it.seq .failedSpace 0 0 := if_pos h

/-- The output of an item stands at its destination, and is counted (R355). -/
def State.written (t : State) (it : Item) (n : Nat) (o : List Byte) : State :=
  (if o.isEmpty then t else t.toHost (.dmaWrite (Desc.dstAddr it.desc) o)).countBytes n o.length

theorem State.written_bl {n : Nat} {o : List Byte} : (t.written it n o).bl = t.bl := by
  have h : (if o.isEmpty then t else t.toHost (.dmaWrite (Desc.dstAddr it.desc) o)).bl = t.bl :=
    ite_both (fun u : State => u.bl = t.bl) _ _ _ rfl (LinkOnly.toHost ..).bl
  exact h

theorem compressGood_last {n : Nat} {o : List Byte} {st' : Stream} (h : o.length ≤ Desc.dstLen it.desc)
    (hlast : optFinal it.desc = true ∨ t.bl.compDrop = true) :
    t.compressGood f it n o st' = ((t.written it n o).abandon f).endJob f it.seq .done o.length st'.adler := by
  refine (if_neg (Nat.not_lt.mpr h)).trans ?_
  change (if optFinal it.desc || (t.written it n o).bl.compDrop then (t.written it n o).abandon f else _).endJob .. = _
  rw [State.written_bl, if_pos (by rw [Bool.or_eq_true]; exact hlast)]

theorem compressGood_more {n : Nat} {o : List Byte} {st' : Stream} (h : o.length ≤ Desc.dstLen it.desc)
    (hfinal : optFinal it.desc = false) (hdrop : t.bl.compDrop = false) :
    t.compressGood f it n o st' =
      (let u := t.written it n o
       (({ u with bl := { u.bl with streams := kset u.bl.streams f st' } }).noteStreams).endJob f it.seq .done o.length st'.adler) := by
  refine (if_neg (Nat.not_lt.mpr h)).trans ?_
  change (if optFinal it.desc || (t.written it n o).bl.compDrop then (t.written it n o).abandon f else _).endJob .. = _
  rw [State.written_bl, if_neg (by rw [hfinal, hdrop]; decide)]
  rfl

/-- A new zlib stream that ends without data (R343). -/
theorem compressItem_empty {d : Desc} (h : optFinal d = true) :
    (compressItem (Stream.new 1) d []).1 = [0x78, 0x5E, 0x03, 0x00, 0x00, 0x00, 0x00, 0x01] ∧ (compressItem (Stream.new 1) d []).2.adler = 1 := by
  constructor
  · simp only [compressItem, h, Stream.new, List.isEmpty_nil, List.append_nil, Bool.not_true, Bool.and_false, Bool.true_or, if_true]
    decide
  · simp only [compressItem, h]
    decide

end done

/-! ## A compressor at fault is counted and raised (R345, R349) -/

/-- The count of faults, its bit and the occurrences of event 60 stand. -/
structure FaultsKept (s t : State) : Prop where
  count : t.rd Reg.BL_VFAIL = s.rd Reg.BL_VFAIL
  bit : t.flag Reg.BL_STAT Fld.BL_STAT_vfail = s.flag Reg.BL_STAT Fld.BL_STAT_vfail
  occ : t.rd (Reg.EV_OCC 60) = s.rd (Reg.EV_OCC 60)

section faults
variable {s : State}

theorem FaultsKept.refl (s : State) : FaultsKept s s := ⟨rfl, rfl, rfl⟩

theorem FaultsKept.trans {s t u : State} (h : FaultsKept s t) (k : FaultsKept t u) : FaultsKept s u :=
  ⟨k.count.trans h.count, k.bit.trans h.bit, k.occ.trans h.occ⟩

theorem FaultsKept.of_rd {s t : State} (h : ∀ a ∈ [Reg.BL_VFAIL, Reg.BL_STAT, Reg.EV_OCC 60], t.rd a = s.rd a) : FaultsKept s t :=
  ⟨h _ (by simp), State.flag_congr (h _ (by simp)) _, h _ (by simp)⟩

theorem FaultsKept.of_regs {s t : State} (h : t.regs = s.regs) : FaultsKept s t := .of_rd fun a _ => State.rd_congr h a

theorem FaultsKept.link {s t : State} (h : LinkOnly s t) : FaultsKept s t := .of_regs h.regs

theorem FaultsKept.wr (s : State) {a : Nat} (w : Word) (h : a ∉ [Reg.BL_VFAIL, Reg.BL_STAT, Reg.EV_OCC 60]) : FaultsKept s (s.wr a w) :=
  .of_rd fun b hb => State.rd_wr_ne s w (by rintro rfl; exact h hb)

/-- A field of BL_STAT above or below the fault's bit. -/
theorem FaultsKept.fput (s : State) {g : BitField} (v : Nat) (hg : g.lo ≤ g.hi)
    (hd : g.hi < Fld.BL_STAT_vfail.lo ∨ Fld.BL_STAT_vfail.hi < g.lo) : FaultsKept s (s.fput Reg.BL_STAT g v) :=
  ⟨State.rd_wr_ne s _ (by decide), by rw [State.flag, State.fget_fput_disjoint s _ g _ hg hd, State.flag], State.rd_wr_ne s _ (by decide)⟩

theorem FaultsKept.blSet (s : State) (x : BlSt) : FaultsKept s { s with bl := x } := .of_regs rfl

theorem FaultsKept.noteStreams (s : State) : FaultsKept s s.noteStreams := .fput s _ (by decide) (by decide)

theorem FaultsKept.abandon (s : State) (f : Nat) : FaultsKept s (s.abandon f) :=
  (FaultsKept.blSet s { s.bl with streams := kerase s.bl.streams f }).trans (.noteStreams _)

theorem FaultsKept.openStream (s : State) (f format : Nat) : FaultsKept s (s.openStream f format) :=
  (FaultsKept.blSet s { s.bl with streams := kset s.bl.streams f (Stream.new format) }).trans (.noteStreams _)

theorem FaultsKept.endItem (s : State) (f : Nat) (seq : Word) (st : CStatus) (len : Nat) (aux : Word) : FaultsKept s (s.endItem f seq st len aux) :=
  .of_rd fun a ha => (PostOnly.endItem ..).rd a (by revert a; decide)

theorem FaultsKept.endJob (s : State) (f : Nat) (seq : Word) (st : CStatus) (len : Nat) (aux : Word) : FaultsKept s (s.endJob f seq st len aux) :=
  (FaultsKept.wr s _ (by decide)).trans (.endItem ..)

theorem FaultsKept.failVerify (s : State) (f : Nat) (it : Item) (len reason off : Nat) : FaultsKept s (s.failVerify f it len reason off) :=
  (FaultsKept.wr s _ (by decide)).trans (.endJob ..)

theorem FaultsKept.countBytes (s : State) (inp out : Nat) : FaultsKept s (s.countBytes inp out) :=
  (((FaultsKept.wr s _ (by decide)).trans (.wr _ _ (by decide))).trans (.wr _ _ (by decide))).trans (.wr _ _ (by decide))

theorem FaultsKept.beginJob (s : State) (comp : Bool) (f : Nat) (it : Item) : FaultsKept s (s.beginJob comp f it) := by
  unfold State.beginJob
  extract_lets act opened x taken first both
  have hopen : FaultsKept s opened := (FaultsKept.of_regs (s := s) (t := act) rfl).trans (ite_both (FaultsKept act) _ _ _ (.openStream act ..) (.refl act))
  have htaken : FaultsKept s taken := hopen.trans (ite_both (FaultsKept opened) _ _ _ (.of_regs rfl) (.of_regs rfl))
  have hfirst : FaultsKept s first := htaken.trans (.link (.readHost ..))
  have hboth : FaultsKept s both := hfirst.trans (ite_both (FaultsKept first) _ _ _ (.link (.readHost ..)) (.refl _))
  cases comp
  · exact hboth.trans (.fput _ _ (by decide) (by decide))
  · exact hboth.trans (.fput _ _ (by decide) (by decide))

theorem FaultsKept.takeJob (s : State) (comp : Bool) (f : Nat) (it : Item) : FaultsKept s ((s.turnTaken comp f).takeJob comp f it) := by
  have hturn : FaultsKept s (s.turnTaken comp f) := ite_both (FaultsKept s) _ _ _ (.of_regs rfl) (.of_regs rfl)
  refine hturn.trans ?_
  generalize s.turnTaken comp f = t
  have hdrop : FaultsKept t (if comp && optCont it.desc then t.abandon f else t) := ite_both (FaultsKept t) _ _ _ (.abandon ..) (.refl t)
  exact ite_both (FaultsKept t) _ _ _ (hdrop.trans (.endJob ..)) (ite_both (FaultsKept t) _ _ _ (.endJob ..) (.beginJob ..))

theorem FaultsKept.pipeN (comp : Bool) (n : Nat) (s : State) : FaultsKept s (State.pipeN comp n s) :=
  State.pipeN_keeps comp (FaultsKept s) (fun u f it hu _ _ => hu.trans (.takeJob u comp f it)) n s (.refl s)

theorem FaultsKept.balerPump (s : State) : FaultsKept s s.balerPump := (FaultsKept.pipeN ..).trans (.pipeN ..)

theorem FaultsKept.pipeFreed (s : State) (comp : Bool) : FaultsKept s (s.pipeFreed comp) := by
  have hlink : LinkOnly s ((s.readsDone (.job comp)).dropReads (.job comp)) := (LinkOnly.readsDone ..).trans (.dropReads ..)
  rw [State.pipeFreed, State.freePipe]
  refine (FaultsKept.link hlink).trans (ite_both (FaultsKept _) _ _ _ ?_ ?_)
  · exact (FaultsKept.blSet ..).trans (.fput (g := Fld.BL_STAT_comp_busy) _ 0 (by decide) (by decide))
  · exact (FaultsKept.blSet ..).trans (.fput (g := Fld.BL_STAT_exp_busy) _ 0 (by decide) (by decide))

/-- A check that failed is counted once, shown and raised. -/
structure FaultTold (s t : State) : Prop where
  count : t.rd Reg.BL_VFAIL = word (min 0xFFFFFFFF (s.rdN Reg.BL_VFAIL + 1))
  bit : t.flag Reg.BL_STAT Fld.BL_STAT_vfail = true
  occ : t.rd (Reg.EV_OCC 60) = s.rd (Reg.EV_OCC 60) + 1

theorem FaultTold.then {s t u : State} (h : FaultTold s t) (k : FaultsKept t u) : FaultTold s u :=
  ⟨k.count.trans h.count, k.bit.trans h.bit, k.occ.trans h.occ⟩

theorem FaultTold.after {s t u : State} (h : FaultsKept s t) (k : FaultTold t u) : FaultTold s u :=
  ⟨by rw [k.count, State.rdN, h.count, State.rdN], k.bit, by rw [k.occ, h.occ]⟩

theorem FaultTold.compressFault (s : State) (f : Nat) (fu : Furrow) (it : Item) (src out : List Byte) (taken i : Nat) :
    FaultTold s (s.compressFault f fu it src out taken i) := by
  unfold State.compressFault
  extract_lets p u v
  have hp : FaultsKept s p.2 := .of_regs rfl
  have hv : FaultsKept ((p.2.incSat Reg.BL_VFAIL 1).setFlag Reg.BL_STAT Fld.BL_STAT_vfail true) v := by
    have hu : FaultsKept ((p.2.incSat Reg.BL_VFAIL 1).setFlag Reg.BL_STAT Fld.BL_STAT_vfail true) u := .abandon ..
    exact hu.trans ((ite_both (FaultsKept u) _ _ _ (.refl u) (.link (.toHost ..))).trans (.countBytes ..))
  have hr := raiseF_raised v (Furrow.evFlags fu) 60 f 0 0 (join64 fu.handle it.seq) (by decide)
  have hcount : v.rd Reg.BL_VFAIL = word (min 0xFFFFFFFF (p.2.rdN Reg.BL_VFAIL + 1)) :=
    hv.count.trans ((State.rd_setFlag_ne _ _ _ (by decide)).trans (State.rd_wr_same ..))
  have hbit : v.flag Reg.BL_STAT Fld.BL_STAT_vfail = true := hv.bit.trans (State.flag_setFlag_same _ _ _ (by decide) (by decide) _)
  have hocc : v.rd (Reg.EV_OCC 60) = p.2.rd (Reg.EV_OCC 60) :=
    hv.occ.trans ((State.rd_setFlag_ne _ _ _ (by decide)).trans (State.rd_wr_ne _ _ (by decide)))
  have htold : FaultTold p.2 (v.raiseF (Furrow.evFlags fu) 60 f 0 0 (join64 fu.handle it.seq)) :=
    ⟨(hr.frame.rd _ (by decide)).trans hcount, (State.flag_congr (hr.frame.rd _ (by decide)) _).trans hbit, hr.occ.trans (by rw [hocc])⟩
  exact .after hp (htold.then (.failVerify ..))

end faults

/-! ## The commands -/

section items
variable {s : State} {f : Nat} {q : Word} {fu : Furrow} {it : Item} {src dst fault : List Byte} {out : List (Byte × Nat)}
  {err : Option (Nat × Nat)}

/-- The end of an EXPAND or VERIFY that is in work. -/
theorem expandItem_done (hcame : s.readsCame (.job false) = true) (hpipe : s.bl.exp = some (f, q)) (hfu : s.furrow? f = some fu)
    (hit : Furrow.item? fu q = some it) : balerItemDone false src dst fault s =
      ((s.pipeFreed false).expandDone f it (fitBytes (Desc.srcLen it.desc) src) (fitBytes (Desc.dstLen it.desc) dst)).balerPump :=
  (balerItemDone_eq hcame hpipe hfu hit).trans (by rw [if_neg Bool.false_ne_true])

/-- The end of a COMPRESS that is in work. -/
theorem compressItem_done (hcame : s.readsCame (.job true) = true) (hpipe : s.bl.comp = some (f, q)) (hfu : s.furrow? f = some fu)
    (hit : Furrow.item? fu q = some it) : balerItemDone true src dst fault s =
      ((s.pipeFreed true).compressDone f fu it (fitBytes (Desc.srcLen it.desc) src) fault).balerPump :=
  (balerItemDone_eq hcame hpipe hfu hit).trans (by rw [if_pos rfl])

/-- A compressor at fault is counted and raised. -/
theorem compressItem_faulty (hcame : s.readsCame (.job true) = true) (hpipe : s.bl.comp = some (f, q)) (hfu : s.furrow? f = some fu)
    (hit : Furrow.item? fu q = some it)
    (hbad : faulty ((s.pipeFreed true).coded f it (fitBytes (Desc.srcLen it.desc) src)).1 fault
      ≠ ((s.pipeFreed true).coded f it (fitBytes (Desc.srcLen it.desc) src)).1)
    (hcheck : (selfCheck (kgetD (s.pipeFreed true).bl.streams f (Stream.new (optFormat it.desc))).format (optFinal it.desc)
      ((kgetD (s.pipeFreed true).bl.streams f (Stream.new (optFormat it.desc))).written
        ++ faulty ((s.pipeFreed true).coded f it (fitBytes (Desc.srcLen it.desc) src)).1 fault)
      ((s.pipeFreed true).coded f it (fitBytes (Desc.srcLen it.desc) src)).2.taken).isSome = true) :
    FaultTold s (balerItemDone true src dst fault s) := by
  obtain ⟨j, hj⟩ := Option.isSome_iff_exists.mp hcheck
  rw [compressItem_done hcame hpipe hfu hit, compressDone_fault hbad hj]
  exact .after (.pipeFreed s true) ((FaultTold.compressFault ..).then (.balerPump _))

/-- A new zlib stream that ends without data is written out (R343). -/
theorem compressItem_ends (hcame : s.readsCame (.job true) = true) (hpipe : s.bl.comp = some (f, q)) (hfu : s.furrow? f = some fu)
    (hit : Furrow.item? fu q = some it) (hlen : Desc.srcLen it.desc = 0) (hfinal : optFinal it.desc = true)
    (hstreams : (s.pipeFreed true).bl.streams = [(f, Stream.new 1)]) (hroom : 8 ≤ Desc.dstLen it.desc) :
    balerItemDone true src dst [] s
      = (((((s.pipeFreed true).toHost (.dmaWrite (Desc.dstAddr it.desc) [0x78, 0x5E, 0x03, 0x00, 0x00, 0x00, 0x00, 0x01])).countBytes 0 8).abandon
          f).endJob f q .done 8 1).balerPump := by
  rw [compressItem_done hcame hpipe hfu hit]
  refine congrArg State.balerPump ?_
  have hnil : fitBytes (Desc.srcLen it.desc) src = [] := List.eq_nil_of_length_eq_zero ((fitBytes_length ..).trans hlen)
  have hstream : kgetD (s.pipeFreed true).bl.streams f (Stream.new (optFormat it.desc)) = Stream.new 1 := by
    rw [hstreams]
    simp [kgetD, kget?]
  have hcoded : (s.pipeFreed true).coded f it [] = compressItem (Stream.new 1) it.desc [] := by rw [State.coded, hstream]
  obtain ⟨hbytes, hadler⟩ := compressItem_empty hfinal
  rw [hnil, compressDone_good (faulty_nil _), hcoded, hbytes]
  refine (compressGood_last (o := [0x78, 0x5E, 0x03, 0x00, 0x00, 0x00, 0x00, 0x01]) hroom (.inl hfinal)).trans ?_
  rw [item?_seq hit]
  exact congrArg (State.endJob _ f q .done 8) hadler

end items

/-- The counters after BL_CTL.clr (R355). -/
theorem blClr_counters (s : State) : (blClr s).rd Reg.BL_JOBS = 0 ∧ (blClr s).rd Reg.BL_VFAIL = 0 ∧ (blClr s).rd64 Reg.BL_IN_LO = 0
    ∧ (blClr s).rd64 Reg.BL_OUT_LO = 0 := by
  refine ⟨?_, ?_, ?_, State.rd64_wr64_same ..⟩
  · exact (State.rd_wr64_ne _ _ (by decide) (by decide)).trans ((State.rd_wr64_ne _ _ (by decide) (by decide)).trans
      ((State.rd_wr_ne _ _ (by decide)).trans (State.rd_wr_same ..)))
  · exact (State.rd_wr64_ne _ _ (by decide) (by decide)).trans ((State.rd_wr64_ne _ _ (by decide) (by decide)).trans (State.rd_wr_same ..))
  · exact (State.rd64_wr_ne _ _ (by decide) (by decide)).trans
      ((State.rd64_wr_ne _ _ (by decide) (by decide)).trans (State.rd64_wr64_same ..))

/-- Settles O41: the oldest record is signed, and an item of a pipe ends by what it read, wrote and checked. -/
theorem sealsAndJobs : Obligations.SealsAndJobs := by
  intro s r rest f q fu it src dst fault out err e i v free bytes len freed empty held st bs run written comp exps kept
  have hbs : bs.length = len := fitBytes_length ..
  refine ⟨fun h => Becomes.of rfl (sealSigned_idle h), ?_, ?_, ?_, ?_, ?_, ?_, ?_, ?_,
    fun h => Becomes.of rfl (balerItemDone_none (comp := true) h), ?_, ?_, ?_, ?_, ?_, fun h => Becomes.of rfl (balerItemDone_none (comp := false) h),
    ?_, ?_⟩
  · rintro ⟨hcame, hpipe, hfu, hit, hall⟩ hop hlen hkept
    refine Becomes.of rfl ((expandItem_done hcame hpipe hfu hit).trans (congrArg State.balerPump ?_))
    exact (expandDone_limit hall hop hlen hkept).trans (by rw [item?_seq hit]; rfl)
  · rintro ⟨hcame, hpipe, hfu, hit, hall⟩ hop hlen hout rfl
    refine Becomes.of rfl ((expandItem_done hcame hpipe hfu hit).trans (congrArg State.balerPump ?_))
    exact (expandDone_fits hall hop hlen).trans ((expandFits_failed hout).trans (by rw [hbs]; rfl))
  · rintro ⟨hcame, hpipe, hfu, hit, hall⟩ hop rfl hdiff
    refine Becomes.of rfl ((expandItem_done hcame hpipe hfu hit).trans (congrArg State.balerPump ?_))
    refine (expandDone_verify hall hop).trans ?_
    rw [if_neg (by decide), hdiff, hbs]
    rfl
  · rintro ⟨hcame, hpipe, hfu, hit, hall⟩ hop rfl hdiff
    refine Becomes.of rfl ((expandItem_done hcame hpipe hfu hit).trans (congrArg State.balerPump ?_))
    refine (expandDone_verify hall hop).trans ?_
    rw [if_pos Option.isSome_some, hdiff, hbs]
    rfl
  · rintro ⟨hcame, hpipe, hfu, hit⟩ hlen hfinal hdrop w
    refine Becomes.of rfl ((compressItem_done hcame hpipe hfu hit).trans (congrArg State.balerPump ?_))
    refine (compressDone_good (faulty_nil _)).trans ((compressGood_more hlen hfinal hdrop).trans ?_)
    rw [hbs, item?_seq hit]
    rfl
  · rintro ⟨hcame, hpipe, hfu, hit⟩ hlen hlast
    refine Becomes.of rfl ((compressItem_done hcame hpipe hfu hit).trans (congrArg State.balerPump ?_))
    refine (compressDone_good (faulty_nil _)).trans ((compressGood_last hlen hlast).trans ?_)
    rw [hbs, item?_seq hit]
    rfl
  · rintro ⟨hcame, hpipe, hfu, hit⟩ hlen
    refine Becomes.of rfl ((compressItem_done hcame hpipe hfu hit).trans (congrArg State.balerPump ?_))
    refine (compressDone_good (faulty_nil _)).trans ((compressGood_space hlen).trans ?_)
    rw [hbs, item?_seq hit]
    rfl
  · rintro ⟨hcame, hpipe, hfu, hit⟩ hbad hcheck
    obtain ⟨hcount, hbit, hocc⟩ := compressItem_faulty (dst := dst) hcame hpipe hfu hit hbad hcheck
    exact Ends.of (v := balerItemDone true src dst fault s) rfl ⟨hcount, hbit, hocc⟩
  · exact fun hu herr hseal => Becomes.of rfl ((sealSigned_eq hu herr).trans (State.serveSeals_none ((State.signed_furrowOf? _).trans hseal)))
  · exact fun hu herr hseal => Becomes.of rfl ((sealSigned_eq hu herr).trans (State.serveSeals_some ((State.signed_furrowOf? _).trans hseal)))
  · rintro ⟨hcame, hpipe, hfu, hit, hall⟩ hop hout hlen
    refine Becomes.of rfl ((expandItem_done hcame hpipe hfu hit).trans (congrArg State.balerPump ?_))
    exact (expandDone_fits hall hop hlen).trans ((expandFits_done hout).trans (by rw [hbs, item?_seq hit]; rfl))
  · rintro ⟨hcame, hpipe, hfu, hit, hall⟩ hop rfl
    refine Becomes.of rfl ((expandItem_done hcame hpipe hfu hit).trans (congrArg State.balerPump ?_))
    exact (expandDone_fits hall hop (Nat.zero_le _)).trans (expandFits_empty.trans (by rw [hbs, item?_seq hit]; rfl))
  · rintro ⟨hcame, hpipe, hfu, hit, hall⟩ hop heq
    refine Becomes.of rfl ((expandItem_done hcame hpipe hfu hit).trans (congrArg State.balerPump ?_))
    refine (expandDone_verify hall hop).trans ?_
    rw [if_neg (by decide), ← heq, firstDiff_self, hbs]
    exact congrArg (fun n => State.endJob _ f n .done 0 _) (item?_seq hit)
  · exact fun hcame hpipe hfu hit hlen hfinal hstreams hroom =>
      Becomes.of rfl (compressItem_ends hcame hpipe hfu hit hlen hfinal hstreams hroom)
  · obtain ⟨hjobs, hfail, hin, hout⟩ := blClr_counters s
    exact Ends.of (v := blClr s) rfl ⟨hjobs, hfail, hin, hout, rfl⟩

end Sys2Proof.Machine
end

section
/-! SUPPORT. What the host engine's work leaves alone: deliveries, items that start, pumps and events keep the power state, the ledger's
states, the furrows' rings and stalls, and what has ended (R265 to R296). -/

namespace Sys2Proof.Machine

/-! ## Furrows that go on with their work -/

/-- An item that has ended, or was given back to its ring. -/
def Item.rests (it : Item) : Bool := Item.ended it || Item.isBack it

/-- Items that all have ended still have, and so for items that rest. -/
structure ItemsKept (l l' : List Item) : Prop where
  ended : l.all Item.ended = true → l'.all Item.ended = true
  rests : l.all Item.rests = true → l'.all Item.rests = true

theorem ItemsKept.refl (l : List Item) : ItemsKept l l := ⟨id, id⟩

theorem ItemsKept.trans {l l' l'' : List Item} (h : ItemsKept l l') (k : ItemsKept l' l'') : ItemsKept l l'' :=
  ⟨k.ended ∘ h.ended, k.rests ∘ h.rests⟩

theorem ItemsKept.map {l : List Item} {m : Item → Item} (hended : ∀ it ∈ l, Item.ended it = true → Item.ended (m it) = true)
    (hrests : ∀ it ∈ l, Item.rests it = true → Item.rests (m it) = true) : ItemsKept l (l.map m) := by
  constructor <;> intro h <;> rw [List.all_map, List.all_eq_true] <;> intro it hit
  · exact hended it hit (List.all_eq_true.mp h it hit)
  · exact hrests it hit (List.all_eq_true.mp h it hit)

theorem ItemsKept.tail {it : Item} {l : List Item} : ItemsKept (it :: l) l := by
  constructor <;> intro h <;> rw [List.all_cons, Bool.and_eq_true] at h <;> exact h.2

/-- While an item is in work neither holds of all. -/
theorem ItemsKept.of_active {it : Item} {l l' : List Item} (hmem : it ∈ l) (hact : Item.isActive it = true) : ItemsKept l l' := by
  have hnot : Item.ended it = false ∧ Item.rests it = false := by
    cases hst : it.st <;> simp_all [Item.isActive, Item.rests, Item.ended, Item.isBack]
  exact ⟨fun h => absurd (List.all_eq_true.mp h it hmem) (by rw [hnot.1]; decide),
    fun h => absurd (List.all_eq_true.mp h it hmem) (by rw [hnot.2]; decide)⟩

theorem rests_of_ended {it : Item} (h : Item.ended it = true) : Item.rests it = true := by rw [Item.rests, h, Bool.true_or]

/-- A furrow's kind, ring and stall stand, and what of it has ended. -/
structure FurrowKept (g h : Furrow) : Prop where
  kind : h.kind = g.kind
  prod : h.prod = g.prod
  nextFetch : h.nextFetch = g.nextFetch
  stalled : h.stalled = g.stalled
  failed : h.failed = g.failed
  items : ItemsKept g.items h.items

theorem FurrowKept.refl (g : Furrow) : FurrowKept g g := ⟨rfl, rfl, rfl, rfl, rfl, .refl _⟩

theorem FurrowKept.trans {g h k : Furrow} (a : FurrowKept g h) (b : FurrowKept h k) : FurrowKept g k :=
  ⟨b.kind.trans a.kind, b.prod.trans a.prod, b.nextFetch.trans a.nextFetch, b.stalled.trans a.stalled, b.failed.trans a.failed,
    a.items.trans b.items⟩

theorem FurrowKept.modItem {fu : Furrow} {q : Word} {m : Item → Item} (hended : ∀ it, Item.ended it = true → Item.ended (m it) = true)
    (hrests : ∀ it, Item.rests it = true → Item.rests (m it) = true) : FurrowKept fu (Furrow.modItem fu q m) :=
  ⟨rfl, rfl, rfl, rfl, rfl, .map (fun it _ h => ite_both (fun x => Item.ended x = true) _ _ _ (hended it h) h)
    (fun it _ h => ite_both (fun x => Item.rests x = true) _ _ _ (hrests it h) h)⟩

theorem FurrowKept.finish {fu : Furrow} {q : Word} {st : CStatus} {len : Nat} {aux : Word} {ecc more first : Bool} :
    FurrowKept fu (Furrow.finish fu q st len aux ecc more first) := by
  have hends : ∀ it : Item, Item.ended (match it.st with
      | .finished .. => it
      | _ => { it with st := .finished st len aux ecc more first }) = true := by
    intro it
    cases h : it.st <;> simp [Item.ended, h]
  exact ⟨rfl, rfl, rfl, rfl, rfl, .map (fun it _ h => ite_both (fun x => Item.ended x = true) _ _ _ (hends it) h)
    (fun it _ h => ite_both (fun x => Item.rests x = true) _ _ _ (rests_of_ended (hends it)) h)⟩

/-! ## The frame -/

/-- The registers that the host engine's work leaves alone: HI_CTL, and the ledger's states and generations. -/
def fixedReg (a : Nat) : Bool := a == Reg.HI_CTL || (decide (0x800 ≤ a) && decide (a < 0x1000) && a % 8 == 4)

/-- What the host engine's work keeps. -/
structure WorkKept (s t : State) : Prop where
  pw : t.pw = s.pw
  maxPayload : t.hi.maxPayload = s.hi.maxPayload
  rd : ∀ a, fixedReg a = true → t.rd a = s.rd a
  d0 : t.flag Reg.HI_STAT Fld.HI_STAT_d0 = s.flag Reg.HI_STAT Fld.HI_STAT_d0
  tunnel : s.pw.headSel = true → s.pw.d0 = true → t.ln.tunnel = s.ln.tunnel
  furrows : ∀ f, Option.Rel FurrowKept (s.furrow? f) (t.furrow? f)
  keys : kwf s.hi.furrows = true → kwf t.hi.furrows = true ∧ kkeys t.hi.furrows = kkeys s.hi.furrows

section frame
variable {s t u : State}

theorem optionRel_refl (o : Option Furrow) : Option.Rel FurrowKept o o := by
  cases o with
  | none => exact .none
  | some g => exact .some (.refl g)

theorem optionRel_trans {a b c : Option Furrow} (h : Option.Rel FurrowKept a b) (k : Option.Rel FurrowKept b c) : Option.Rel FurrowKept a c := by
  cases h with
  | none => exact k
  | some h => cases k with | some k => exact .some (h.trans k)

/-- The furrows and the registers that count stand. -/
theorem WorkKept.of_same (hpw : t.pw = s.pw) (hhi : t.hi.furrows = s.hi.furrows) (hmax : t.hi.maxPayload = s.hi.maxPayload)
    (hregs : t.regs = s.regs) (hln : t.ln.tunnel = s.ln.tunnel) : WorkKept s t :=
  ⟨hpw, hmax, fun a _ => State.rd_congr hregs a, State.flag_congr (State.rd_congr hregs _) _, fun _ _ => hln,
    fun f => by rw [State.furrow?, State.furrow?, hhi]; exact optionRel_refl _, fun h => by rw [hhi]; exact ⟨h, rfl⟩⟩

theorem WorkKept.refl (s : State) : WorkKept s s := .of_same rfl rfl rfl rfl rfl

theorem WorkKept.trans (h : WorkKept s t) (k : WorkKept t u) : WorkKept s u :=
  ⟨k.pw.trans h.pw, k.maxPayload.trans h.maxPayload, fun a ha => (k.rd a ha).trans (h.rd a ha), k.d0.trans h.d0,
    fun hs hd => (k.tunnel (by rw [h.pw]; exact hs) (by rw [h.pw]; exact hd)).trans (h.tunnel hs hd),
    fun f => optionRel_trans (h.furrows f) (k.furrows f),
    fun hs => ⟨(k.keys (h.keys hs).1).1, (k.keys (h.keys hs).1).2.trans (h.keys hs).2⟩⟩

theorem WorkKept.foldl {α : Type} {f : State → α → State} (l : List α) (hf : ∀ s, ∀ x ∈ l, WorkKept s (f s x)) (s : State) :
    WorkKept s (l.foldl f s) := by
  induction l generalizing s with
  | nil => exact .refl s
  | cons x l ih =>
    exact (hf s x List.mem_cons_self).trans (ih (fun u y hy => hf u y (List.mem_cons_of_mem _ hy)) _)

theorem WorkKept.link (h : LinkOnly s t) (ht : s.pw.headSel = true → s.pw.d0 = true → t.ln.tunnel = s.ln.tunnel) : WorkKept s t :=
  ⟨h.pw, by rw [h.hi], fun a _ => State.rd_congr h.regs a, State.flag_congr (State.rd_congr h.regs _) _, ht,
    fun f => by rw [State.furrow?, State.furrow?, h.hi]; exact optionRel_refl _, fun hs => by rw [h.hi]; exact ⟨hs, rfl⟩⟩

theorem WorkKept.cells (h : CellsOnly s t) : WorkKept s t := .link h.link fun _ _ => by rw [h.ln]

theorem WorkKept.wr (s : State) {a : Nat} (w : Word) (h : fixedReg a = false) (h' : a ≠ Reg.HI_STAT) : WorkKept s (s.wr a w) :=
  ⟨rfl, rfl, fun b hb => State.rd_wr_ne s w (by rintro rfl; rw [h] at hb; cases hb), State.flag_congr (State.rd_wr_ne s w h'.symm) _,
    fun _ _ => rfl, fun _ => optionRel_refl _, fun h => ⟨h, rfl⟩⟩

/-- A register of chapter 16. -/
theorem WorkKept.wrEvent (s : State) {a : Nat} (w : Word) (h : 0x70000 ≤ a) : WorkKept s (s.wr a w) := by
  refine .wr s w ?_ (by simp only [Reg.HI_STAT]; omega)
  rw [fixedReg, beq_eq_false_iff_ne.mpr (show a ≠ Reg.HI_CTL by simp only [Reg.HI_CTL]; omega), decide_eq_false (show ¬ a < 0x1000 by omega)]
  rw [Bool.and_false, Bool.false_and, Bool.or_false]

/-- A bit of HI_STAT other than d0. -/
theorem WorkKept.fputStat (s : State) (g : BitField) (v : Nat) (hg : g.lo ≤ g.hi)
    (hd : g.hi < Fld.HI_STAT_d0.lo ∨ Fld.HI_STAT_d0.hi < g.lo) : WorkKept s (s.fput Reg.HI_STAT g v) :=
  ⟨rfl, rfl, fun b hb => State.rd_wr_ne s _ (by rintro rfl; exact absurd hb (by decide)),
    by rw [State.flag, State.fget_fput_disjoint s _ g _ hg hd, State.flag], fun _ _ => rfl, fun _ => optionRel_refl _, fun h => ⟨h, rfl⟩⟩

theorem mem_of_kget? {α : Type} {m : KMap α} {k : Nat} {w : α} (h : kget? m k = some w) : (k, w) ∈ m := by
  induction m with
  | nil => cases h
  | cons e m ih =>
    rw [kget?] at h
    split at h
    · next he =>
      cases h
      rw [← he]
      exact List.mem_cons_self
    · exact List.mem_cons_of_mem _ (ih h)

theorem kkeys_kset {α : Type} {m : KMap α} {k : Nat} {v w : α} (hwf : kwf m = true) (h : kget? m k = some w) : kkeys (kset m k v) = kkeys m := by
  induction m with
  | nil => cases h
  | cons e m ih =>
    obtain ⟨a, x⟩ := e
    obtain ⟨hlt, hm⟩ := (kwf_cons a x m).mp hwf
    rw [kget?] at h
    rw [kset]
    by_cases hak : a = k
    · rw [if_neg (by omega), if_pos hak.symm, hak]
      rfl
    · rw [if_neg hak] at h
      have hbelow : a < k := hlt _ (mem_of_kget? h)
      rw [if_neg (by omega), if_neg (fun e => hak e.symm)]
      exact congrArg (a :: ·) (ih hm h)

theorem WorkKept.setFurrow {f : Nat} {fu g : Furrow} (hfu : s.furrow? f = some fu) (h : FurrowKept fu g) : WorkKept s (s.setFurrow f g) := by
  refine ⟨rfl, rfl, fun _ _ => rfl, rfl, fun _ _ => rfl, fun k => ?_, fun hwf => ⟨kwf_kset _ _ _ hwf, kkeys_kset hwf hfu⟩⟩
  by_cases hk : k = f
  · rw [hk, State.furrow?_setFurrow_same, hfu]
    exact .some h
  · rw [State.furrow?_setFurrow_ne s g hk]
    exact optionRel_refl _

theorem WorkKept.modFurrow {f : Nat} {m : Furrow → Furrow} (h : ∀ fu, s.furrow? f = some fu → FurrowKept fu (m fu)) :
    WorkKept s (s.modFurrow f m) := by
  rw [State.modFurrow, kmod]
  cases hfu : kget? s.hi.furrows f with
  | none => exact .refl s
  | some fu => exact .setFurrow hfu (h fu hfu)

/-! ## What goes out -/

theorem WorkKept.emit (s : State) (o : Output) : WorkKept s (s.emit o) := .of_same rfl rfl rfl rfl rfl

theorem WorkKept.toHost (s : State) (o : Output) : WorkKept s (s.toHost o) :=
  .link (.toHost ..) fun hhead hd0 => by rw [State.toHost_ln s o hhead (.inl hd0)]

theorem WorkKept.sendTwin (s : State) (sub : Nat) (values : List Nat) : WorkKept s (s.sendTwin sub values) :=
  .cells (PortsOnly.foldl _ (fun u c => .sendCell u 2 true c) _ s).cells

theorem State.pumpReadsN_tunnel (n : Nat) (s : State) : (s.pumpReadsN n).ln.tunnel = s.ln.tunnel := by
  induction n generalizing s with
  | zero => rfl
  | succ n ih =>
    rw [State.pumpReadsN]
    split
    · rfl
    · refine ite_both (fun u : State => u.ln.tunnel = s.ln.tunnel) _ _ _ rfl ?_
      simp only []
      rw [ih, (CellsOnly.sendRead ..).ln]

theorem WorkKept.pumpReads (s : State) : WorkKept s s.pumpReads := .link (.pumpReads s) fun _ _ => State.pumpReadsN_tunnel _ s

theorem WorkKept.readHost (s : State) (who : ReadBy) (addr : Word64) (len : Nat) : WorkKept s (s.readHost who addr len) := by
  refine WorkKept.trans ?_ (.pumpReads _)
  exact .of_same rfl rfl rfl rfl rfl

theorem WorkKept.dropReads (s : State) (who : ReadBy) : WorkKept s (s.dropReads who) := by
  refine WorkKept.trans ?_ (.pumpReads _)
  exact .of_same rfl rfl rfl rfl rfl

theorem WorkKept.readNow (s : State) (who : ReadBy) (addr : Word64) (len : Nat) : WorkKept s (s.readNow who addr len) :=
  (WorkKept.readHost ..).trans (.dropReads ..)

/-! ## Completions and messages (R281, R282) -/

theorem WorkKept.pbaSet (s : State) (x : Word64) : WorkKept s { s with hi := { s.hi with pba := x } } := .of_same rfl rfl rfl rfl rfl

theorem WorkKept.sendMsix (s : State) (v : Nat) : WorkKept s (s.sendMsix v) := by
  rw [State.sendMsix]
  exact ite_both (WorkKept s) _ _ _ (.refl s) (ite_both (WorkKept s) _ _ _ (.pbaSet ..) (.toHost ..))

theorem ledgerLo_free {f : Nat} (h : f < 256) : fixedReg (Reg.GLB_LEDGER_LO f) = false ∧ Reg.GLB_LEDGER_LO f ≠ Reg.HI_STAT := by
  constructor
  · simp only [fixedReg, Reg.GLB_LEDGER_LO, Reg.HI_CTL, Bool.or_eq_false_iff, Bool.and_eq_false_iff, decide_eq_false_iff_not,
      beq_eq_false_iff_ne]
    omega
  · simp only [Reg.GLB_LEDGER_LO, Reg.HI_STAT]
    omega

theorem WorkKept.postOne (s : State) (f : Nat) (fu : Furrow) (it : Item) (st : CStatus) (len : Nat) (aux : Word) (ecc more first : Bool) :
    WorkKept s (s.postOne f fu it st len aux ecc more first) := by
  unfold State.postOne
  extract_lets c t u
  have ht : WorkKept s t := ite_both (WorkKept s) _ _ _ (.emit ..) (.toHost ..)
  have hu : WorkKept s u := by
    refine ht.trans ?_
    by_cases hf : f < 256
    · rw [show u = t.wr (Reg.GLB_LEDGER_LO f) it.seq from if_pos hf]
      exact .wr t _ (ledgerLo_free hf).1 (ledgerLo_free hf).2
    · rw [show u = t from if_neg hf]
      exact .refl t
  exact ite_both (WorkKept s) _ _ _ (hu.trans (.sendMsix ..)) hu

theorem WorkKept.postFront (s : State) (f : Nat) : WorkKept s (s.postFront f).2 := by
  unfold State.postFront
  split
  · exact .refl s
  · next fu hfu =>
    split
    · exact .refl s
    · next it rest hitems =>
      split
      · refine ite_both (fun r : Bool × State => WorkKept s r.2) _ _ _ (.refl s) ((WorkKept.postOne ..).trans (.setFurrow (fu := fu) ?_ ?_))
        · exact (PostsTo.postOne ..).2.trans hfu
        · exact ⟨rfl, rfl, rfl, rfl, rfl, by rw [hitems]; exact .tail⟩
      · exact .refl s

theorem WorkKept.postN (f n : Nat) (s : State) : WorkKept s (State.postN f n s) := by
  induction n generalizing s with
  | zero => exact .refl s
  | succ n ih =>
    have h := WorkKept.postFront s f
    rw [State.postN]
    split
    · next s' e =>
      rw [e] at h
      exact h.trans (ih s')
    · next s' e =>
      rw [e] at h
      exact h

theorem WorkKept.postFinished (s : State) (f : Nat) : WorkKept s (s.postFinished f) := by
  rw [State.postFinished]
  split
  · exact .refl s
  · exact .postN ..

theorem WorkKept.endBuffer (s : State) (f : Nat) (q : Word) (st : CStatus) (len : Nat) (aux : Word) (ecc more first : Bool) :
    WorkKept s (s.endBuffer f q st len aux ecc more first) := (WorkKept.modFurrow fun _ _ => .finish).trans (.postFinished ..)

theorem WorkKept.endItem (s : State) (f : Nat) (q : Word) (st : CStatus) (len : Nat) (aux : Word) : WorkKept s (s.endItem f q st len aux) :=
  .endBuffer ..

/-- An item as `endAll` leaves it. -/
def Item.endedBy (st : CStatus) (it : Item) : Item :=
  match it.st with
  | .finished .. | .back => it
  | _ => { it with st := .finished st 0 (Item.plainAux it) false false false }

theorem Item.endedBy_rests (st : CStatus) (it : Item) : Item.rests (Item.endedBy st it) = true := by
  cases h : it.st <;> simp [Item.endedBy, Item.rests, Item.ended, Item.isBack, h]

theorem Item.endedBy_ended {st : CStatus} {it : Item} (h : Item.ended it = true) : Item.ended (Item.endedBy st it) = true := by
  cases hst : it.st <;> simp_all [Item.endedBy, Item.ended]

theorem State.endAll_eq (s : State) (f : Nat) (st : CStatus) :
    s.endAll f st = (s.modFurrow f (fun fu => { fu with items := fu.items.map (Item.endedBy st) })).postFinished f := rfl

theorem WorkKept.endAll (s : State) (f : Nat) (st : CStatus) : WorkKept s (s.endAll f st) := by
  rw [State.endAll_eq]
  refine WorkKept.trans ?_ (.postFinished ..)
  refine .modFurrow fun fu _ => ⟨rfl, rfl, rfl, rfl, rfl, ?_⟩
  exact .map (fun it _ h => Item.endedBy_ended h) (fun it _ _ => Item.endedBy_rests st it)

theorem WorkKept.activate (s : State) (f : Nat) (q : Word) : WorkKept s (s.activate f q) := by
  refine .modFurrow fun fu _ => .modItem (fun it h => ?_) (fun it h => ?_)
  · cases hst : it.st <;> simp_all [Item.ended, Item.isHeld]
  · cases hst : it.st <;> simp_all [Item.rests, Item.ended, Item.isBack, Item.isHeld]

/-! ## Events (R292, R293, R433 to R440) -/

theorem WorkKept.evSet (s : State) (x : EvSt) : WorkKept s { s with ev := x } := .of_same rfl rfl rfl rfl rfl

theorem WorkKept.evEnd (s : State) (f : Nat) (it : Item) : WorkKept s (s.evEnd f it) := by
  unfold State.evEnd
  extract_lets srcs ended emptied
  have hended : WorkKept s ended := .endItem ..
  exact (hended.trans (.evSet ended { ended.ev with bufRecs := [] })).trans (.foldl _ (fun u v _ => .sendMsix u v) _)

theorem buffer?_active {fu : Furrow} {it : Item} (h : Furrow.buffer? fu = some it) : it ∈ fu.items ∧ Item.isActive it = true := by
  have hp := List.find?_some h
  rw [Bool.and_eq_true] at hp
  exact ⟨List.mem_of_find?_eq_some h, hp.1⟩

theorem evBuffer?_some {f : Nat} {fu : Furrow} {it : Item} (h : s.evBuffer? = some (f, it)) (hfu : s.furrow? f = some fu) :
    Furrow.buffer? fu = some it := by
  unfold State.evBuffer? at h
  split at h
  · cases h
  · next k _ =>
    split at h
    · cases h
    · next g hg =>
      split at h
      · cases h
      · obtain ⟨i, hi, he⟩ := Option.map_eq_some_iff.mp h
        cases he
        cases hfu.symm.trans hg
        exact hi

theorem WorkKept.evMove (s : State) : WorkKept s s.evMove.2 := by
  unfold State.evMove
  split
  · next r rest f it _ hbuf =>
    refine ite_both (fun p : Bool × State => WorkKept s p.2) _ _ _ ?_ (.refl s)
    extract_lets it' bytes sent x moved filled
    have hsent : WorkKept s sent := .toHost ..
    have hmoved : WorkKept s moved := hsent.trans (.evSet ..)
    have hsame : moved.furrow? f = s.furrow? f := congrArg (fun h : HiSt => kget? h.furrows f) (LinkOnly.toHost s _).hi
    have hfilled : WorkKept s filled := by
      refine hmoved.trans (.modFurrow fun fu h => ⟨rfl, rfl, rfl, rfl, rfl, ?_⟩)
      obtain ⟨hmem, hact⟩ := buffer?_active (evBuffer?_some hbuf (hsame.symm.trans h))
      exact .of_active hmem hact
    exact ite_both (WorkKept s) _ _ _ hfilled (hfilled.trans (.evEnd ..))
  · exact .refl s

theorem WorkKept.evFillN (n : Nat) (s : State) : WorkKept s (State.evFillN n s) := by
  induction n generalizing s with
  | zero => exact .refl s
  | succ n ih =>
    have h := WorkKept.evMove s
    rw [State.evFillN]
    split
    · next s' e =>
      rw [e] at h
      exact h.trans (ih s')
    · next s' e =>
      rw [e] at h
      exact h

theorem WorkKept.evFill (s : State) : WorkKept s s.evFill := .evFillN ..

theorem WorkKept.ffWords (ws : List Word) (n : Nat) (s : State) : WorkKept s (s.ffWords n ws) := by
  induction ws generalizing n s with
  | nil => exact .refl s
  | cons w ws ih => exact (WorkKept.wrEvent s w (by simp only [Reg.EV_FF]; omega)).trans (ih (n + 1) _)

theorem WorkKept.trace (s : State) (e : EvRec) (ff : Bool) : WorkKept s (s.trace e ff) := by
  have happend : WorkKept s (s.traceAppend e) := by
    unfold State.traceAppend
    extract_lets full x kept counted
    have hcounted : WorkKept s counted := (WorkKept.evSet s _).trans (.wrEvent kept _ (by decide))
    exact ite_both (WorkKept s) _ _ _ (hcounted.trans (.wrEvent _ _ (by decide))) hcounted
  exact happend.trans (ite_both (WorkKept _) _ _ _ ((WorkKept.ffWords ..).trans (.wrEvent _ _ (by decide))) (.refl _))

theorem WorkKept.joinRun (s : State) (e : EvRec) : WorkKept s (s.joinRun e) :=
  (WorkKept.evSet s _).trans (.wrEvent _ _ (by simp only [Reg.EV_RUN]; omega))

theorem WorkKept.evQueue (s : State) (e : EvRec) : WorkKept s (s.evQueue e) := by
  unfold State.evQueue
  refine ite_both (WorkKept s) _ _ _ (.joinRun ..) (ite_both (WorkKept s) _ _ _ (.evSet ..) ?_)
  exact ((WorkKept.evSet s _).trans (.wrEvent _ _ (by simp only [Reg.EV_RUN]; omega))).trans (.wrEvent _ _ (by simp only [Reg.EV_RUNOCC]; omega))

theorem WorkKept.evVector (s : State) (src : Nat) : WorkKept s (s.evVector src) :=
  ite_both (WorkKept s) _ _ _ ((WorkKept.evSet s _).trans (.sendMsix ..)) (.refl s)

theorem WorkKept.raiseF (s : State) (flags src obj cause aux8 : Nat) (data : Word64) : WorkKept s (s.raiseF flags src obj cause aux8 data) := by
  unfold State.raiseF
  extract_lets e counted traced queued
  have htraced : WorkKept s traced := (WorkKept.wrEvent s _ (by simp only [Reg.EV_OCC]; omega)).trans (.trace counted ..)
  have hqueued : WorkKept s queued := htraced.trans (.evQueue ..)
  refine ite_both (WorkKept s) _ _ _ ?_ (ite_both (WorkKept s) _ _ _ (htraced.trans (.joinRun ..)) htraced)
  exact (hqueued.trans (ite_both (WorkKept queued) _ _ _ (.refl _) (.evFill _))).trans (.evVector ..)

theorem WorkKept.raiseD (s : State) (src obj cause aux8 : Nat) (data : Word64) : WorkKept s (s.raiseD src obj cause aux8 data) := .raiseF ..

end frame

end Sys2Proof.Machine
end

section
/-! SUPPORT. Deliveries, items that start, and the pumps, as work of the host engine (R250, R284 to R291, R336, R446). -/

namespace Sys2Proof.Machine

section deliver
variable {s t : State}

/-! ## Deliveries (R285 to R291) -/

theorem WorkKept.wrPlain (s : State) {a : Nat} (w : Word) (h : (!fixedReg a && a != Reg.HI_STAT) = true) : WorkKept s (s.wr a w) := by
  rw [Bool.and_eq_true, Bool.not_eq_true', bne_iff_ne] at h
  exact .wr s w h.1 h.2

theorem WorkKept.dmaErr (s : State) (addr : Word64) : WorkKept s (s.dmaErr addr) :=
  (((WorkKept.wrPlain s _ (by decide)).trans (.wrPlain _ _ (by decide))).trans (.wrPlain _ _ (by decide))).trans
    (.fputStat _ Fld.HI_STAT_dma_err _ (by decide) (by decide))

theorem WorkKept.modData {f : Nat} {m : Furrow → Furrow} (h : ∀ fu, (m fu).kind = fu.kind ∧ (m fu).prod = fu.prod
    ∧ (m fu).nextFetch = fu.nextFetch ∧ (m fu).stalled = fu.stalled ∧ (m fu).failed = fu.failed ∧ (m fu).items = fu.items) :
    WorkKept s (s.modFurrow f m) := by
  refine .modFurrow fun fu _ => ?_
  obtain ⟨h1, h2, h3, h4, h5, h6⟩ := h fu
  exact ⟨h1, h2, h3, h4, h5, by rw [h6]; exact .refl _⟩

theorem WorkKept.failBuffer (s : State) (f : Nat) (it : Item) (addr : Word64) : WorkKept s (s.failBuffer f it addr) := by
  unfold State.failBuffer
  extract_lets rewound backed
  have hrew : WorkKept s rewound := (WorkKept.dmaErr s addr).trans (.modData fun fu => ⟨rfl, rfl, rfl, rfl, rfl, rfl⟩)
  exact (hrew.trans (ite_both (WorkKept rewound) _ _ _ (.evSet ..) (.refl _))).trans (.endItem ..)

theorem WorkKept.noteBacklog (s : State) : WorkKept s s.noteBacklog := by
  unfold State.noteBacklog
  extract_lets u noted
  have hnoted : WorkKept s noted := .wrPlain s _ (by decide)
  exact ite_both (WorkKept s) _ _ _ (hnoted.trans (.of_same rfl rfl rfl rfl rfl)) hnoted

theorem WorkKept.vtSet (s : State) (x : VtSt) : WorkKept s { s with vt := x } := .of_same rfl rfl rfl rfl rfl

theorem WorkKept.noteQueue (s : State) : WorkKept s s.noteQueue := .wrPlain s (a := Reg.VT_QUEUE) _ (by decide)

theorem WorkKept.freePart (s : State) (p : Part) : WorkKept s (s.freePart p) := .of_same rfl rfl rfl rfl rfl

theorem WorkKept.sampleOne (s : State) (f : Nat) (ecc : Bool) : WorkKept s (s.sampleOne f ecc).2 := by
  unfold State.sampleOne
  split
  · exact .refl s
  · split
    · refine ite_both (fun p : Bool × State => WorkKept s p.2) _ _ _ (.refl s)
        (ite_both (fun p : Bool × State => WorkKept s p.2) _ _ _ (.endBuffer ..) ?_)
      split
      · exact .failBuffer ..
      · extract_lets sent taken
        have htaken : WorkKept s taken := (WorkKept.toHost ..).trans (.modData fun fu => ⟨rfl, rfl, rfl, rfl, rfl, rfl⟩)
        exact (htaken.trans (.endBuffer ..)).trans (.noteBacklog _)
    · exact .refl s

theorem WorkKept.plotOne (s : State) (f : Nat) (ecc : Bool) : WorkKept s (s.plotOne f ecc).2 := by
  unfold State.plotOne
  split
  · exact .refl s
  · split
    · refine ite_both (fun p : Bool × State => WorkKept s p.2) _ _ _ (.refl s) ?_
      split
      · exact .failBuffer ..
      · extract_lets n more bad sent taken ended freed
        have htaken : WorkKept s taken := (WorkKept.toHost ..).trans (.modData fun fu => ⟨rfl, rfl, rfl, rfl, rfl, rfl⟩)
        have hended : WorkKept s ended := htaken.trans (.endBuffer ..)
        have hfreed : WorkKept s freed := hended.trans (.freePart ..)
        exact ite_both (fun p : Bool × State => WorkKept s p.2) _ _ _ hended
          (hfreed.trans (ite_both (WorkKept freed) _ _ _ (.raiseD ..) (.refl _)))
    · exact .refl s

theorem WorkKept.sealOne (s : State) (f : Nat) : WorkKept s (s.sealOne f).2 := by
  unfold State.sealOne
  split
  · exact .refl s
  · split
    · exact .refl s
    · refine ite_both (fun p : Bool × State => WorkKept s p.2) _ _ _ (.refl s)
        (ite_both (fun p : Bool × State => WorkKept s p.2) _ _ _ (.endBuffer ..) ?_)
      split
      · exact .refl s
      · next rest _ =>
        refine ite_both (fun p : Bool × State => WorkKept s p.2) _ _ _ (.endBuffer ..) ?_
        split
        · exact .failBuffer ..
        · extract_lets sent x taken
          have hsent : WorkKept s sent := .toHost ..
          have htaken : WorkKept s taken := (hsent.trans (.vtSet sent { sent.vt with queue := rest })).trans (.noteQueue _)
          exact htaken.trans (.endBuffer ..)

theorem WorkKept.deliverOne (s : State) (f : Nat) (ecc : Bool) : WorkKept s (s.deliverOne f ecc).2 := by
  unfold State.deliverOne
  split
  · exact .refl s
  · split
    · exact .sampleOne ..
    · exact .plotOne ..
    · exact .sealOne ..
    · exact .refl s

theorem WorkKept.deliverN (f : Nat) (ecc : Bool) (n : Nat) (s : State) : WorkKept s (State.deliverN f ecc n s) := by
  induction n generalizing s ecc with
  | zero => exact .refl s
  | succ n ih =>
    have h := WorkKept.deliverOne s f ecc
    rw [State.deliverN]
    split
    · next s' e =>
      rw [e] at h
      exact h.trans (ih false s')
    · next s' e =>
      rw [e] at h
      exact h

theorem WorkKept.deliver (s : State) (f : Nat) (ecc : Bool) : WorkKept s (s.deliver f ecc) := by
  unfold State.deliver
  refine ite_both (WorkKept s) _ _ _ ?_ (.refl s)
  split
  · exact .refl s
  · exact .deliverN ..

theorem WorkKept.deliverAll (s : State) : WorkKept s s.deliverAll := by
  unfold State.deliverAll
  extract_lets delivered
  have h : WorkKept s delivered := .foldl _ (fun u f _ => .deliver u f false) s
  exact ite_both (WorkKept s) _ _ _ h (ite_both (WorkKept s) _ _ _ (h.trans (.evFill _)) h)

/-! ## Items that start (R250, R279, R284) -/

theorem WorkKept.stale (s : State) (h : Word) : WorkKept s (s.stale h) := .raiseD ..

theorem WorkKept.startFence (s : State) (f : Nat) (it : Item) : WorkKept s (s.startFence f it) := by
  unfold State.startFence
  split
  · exact (WorkKept.stale ..).trans (.endItem ..)
  · exact ite_both (WorkKept s) _ _ _ (.endItem ..) (ite_both (WorkKept s) _ _ _ (.endItem ..) (.activate ..))

theorem WorkKept.ceSet (s : State) (x : CeSt) : WorkKept s { s with ce := x } := .of_same rfl rfl rfl rfl rfl

theorem WorkKept.noteQueueSp (s : State) : WorkKept s s.noteQueueSp := by
  rw [State.noteQueueSp, State.fput]
  exact .wrPlain s _ (by decide)

theorem WorkKept.setpointLate (s : State) (f : Nat) (q : Word) (l frame : Nat) : WorkKept s (s.setpointLate f q l frame) := .raiseF ..

theorem WorkKept.startSetpoint (s : State) (f : Nat) (it : Item) : WorkKept s (s.startSetpoint f it) := by
  unfold State.startSetpoint
  extract_lets d l frame value aux now relay q x queued act
  refine ite_both (WorkKept s) _ _ _ (.activate ..) ?_
  split
  · exact .endItem ..
  · refine ite_both (WorkKept s) _ _ _ (.endItem ..) (ite_both (WorkKept s) _ _ _ ((WorkKept.setpointLate ..).trans (.endItem ..)) ?_)
    have hqueued : WorkKept s queued := (WorkKept.ceSet s { s.ce with queue := s.ce.queue ++ [q] }).trans (.noteQueueSp _)
    have hact : WorkKept s act := hqueued.trans (.activate ..)
    exact ite_both (WorkKept s) _ _ _ (hact.trans (.sendTwin ..)) hact

theorem WorkKept.startBuf (s : State) (f : Nat) (it : Item) (ecc : Bool) : WorkKept s (s.startBuf f it ecc) := by
  unfold State.startBuf
  refine ite_both (WorkKept s) _ _ _ (.endItem ..) (ite_both (WorkKept s) _ _ _ (.endItem ..) ?_)
  have h : WorkKept s ((s.activate f it.seq).deliver f ecc) := (WorkKept.activate ..).trans (.deliver ..)
  simp only []
  split
  · exact ite_both (WorkKept s) _ _ _ (h.trans (.evFill _)) h
  · exact h

theorem WorkKept.startItem (s : State) (f : Nat) (it : Item) (ecc : Bool) : WorkKept s (s.startItem f it ecc) := by
  unfold State.startItem
  split
  · exact .refl s
  · refine ite_both (WorkKept s) _ _ _ (.refl s) (ite_both (WorkKept s) _ _ _ (.endItem ..) ?_)
    split
    · exact .endItem ..
    · exact .startFence ..
    · exact .startBuf ..
    · exact .startSetpoint ..
    · exact .refl s

/-! ## The pumps (R336, R446) -/

theorem WorkKept.wrBaler (s : State) (g : BitField) (v : Nat) : WorkKept s (s.fput Reg.BL_STAT g v) := .wrPlain s _ (by decide)

theorem WorkKept.abandon (s : State) (f : Nat) : WorkKept s (s.abandon f) :=
  WorkKept.trans (t := { s with bl := { s.bl with streams := kerase s.bl.streams f } }) (.of_same rfl rfl rfl rfl rfl) (.wrBaler ..)

theorem WorkKept.openStream (s : State) (f format : Nat) : WorkKept s (s.openStream f format) :=
  WorkKept.trans (t := { s with bl := { s.bl with streams := kset s.bl.streams f (Stream.new format) } }) (.of_same rfl rfl rfl rfl rfl)
    (.wrBaler ..)

theorem WorkKept.endJob (s : State) (f : Nat) (q : Word) (st : CStatus) (len : Nat) (aux : Word) : WorkKept s (s.endJob f q st len aux) :=
  (WorkKept.wrPlain s _ (by decide)).trans (.endItem ..)

theorem WorkKept.beginJob (s : State) (comp : Bool) (f : Nat) (it : Item) : WorkKept s (s.beginJob comp f it) := by
  unfold State.beginJob
  extract_lets act opened x taken first both
  have hopen : WorkKept s opened := (WorkKept.activate s f it.seq).trans (ite_both (WorkKept act) _ _ _ (.openStream act ..) (.refl act))
  have htaken : WorkKept s taken := hopen.trans (ite_both (WorkKept opened) _ _ _ (.of_same rfl rfl rfl rfl rfl) (.of_same rfl rfl rfl rfl rfl))
  have hfirst : WorkKept s first := htaken.trans (.readHost ..)
  have hboth : WorkKept s both := hfirst.trans (ite_both (WorkKept first) _ _ _ (.readHost ..) (.refl _))
  exact hboth.trans (.wrBaler ..)

theorem WorkKept.takeJob (s : State) (comp : Bool) (f : Nat) (it : Item) : WorkKept s ((s.turnTaken comp f).takeJob comp f it) := by
  have hturn : WorkKept s (s.turnTaken comp f) := ite_both (WorkKept s) _ _ _ (.of_same rfl rfl rfl rfl rfl) (.of_same rfl rfl rfl rfl rfl)
  refine hturn.trans ?_
  generalize s.turnTaken comp f = t
  have hdrop : WorkKept t (if comp && optCont it.desc then t.abandon f else t) := ite_both (WorkKept t) _ _ _ (.abandon ..) (.refl t)
  exact ite_both (WorkKept t) _ _ _ (hdrop.trans (.endJob ..)) (ite_both (WorkKept t) _ _ _ (.endJob ..) (.beginJob ..))

theorem WorkKept.balerPump (s : State) : WorkKept s s.balerPump := by
  have hpipe : ∀ comp n u, WorkKept u (State.pipeN comp n u) := fun comp n u =>
    State.pipeN_keeps comp (WorkKept u) (fun v f it hv _ _ => hv.trans (.takeJob v comp f it)) n u (.refl u)
  exact (hpipe true _ s).trans (hpipe false _ _)

theorem WorkKept.spSet (s : State) (x : SpSt) : WorkKept s { s with sp := x } := .of_same rfl rfl rfl rfl rfl

theorem WorkKept.beginTransfer (s : State) (f : Nat) (it : Item) : WorkKept s (s.beginTransfer f it) := by
  unfold State.beginTransfer
  extract_lets act asked x
  have hasked : WorkKept s asked := (WorkKept.activate s f it.seq).trans (ite_both (WorkKept act) _ _ _ (.readHost ..) (.refl act))
  exact (hasked.trans (.spSet asked { asked.sp with xfer := some it.seq })).trans (.wrPlain (a := Reg.SP_STAT) _ _ (by decide))

theorem WorkKept.sidePump (s : State) : WorkKept s s.sidePump :=
  State.sidePump_keeps (WorkKept s) (fun _ _ _ _ hu => hu.trans (.endItem ..)) (fun _ _ _ hu => hu.trans (.beginTransfer ..)) s (.refl s)

theorem WorkKept.startHeld (s : State) (f : Nat) (ecc : Bool) : WorkKept s (s.startHeld f ecc) := by
  unfold State.startHeld
  split
  · exact .refl s
  · exact ((WorkKept.foldl _ (fun u it _ => .startItem u f it ecc) s).trans (.balerPump _)).trans (.sidePump _)

end deliver

end Sys2Proof.Machine
end

section
/-! PROOF. BUF and SETPOINT (R250, R279, R286): what is posted, what fails, and what waits. -/

namespace Sys2Proof.Machine

/-! ## The one item of a furrow other than furrow 0 starts (R269, R278) -/

section start
variable {s : State} {f : Nat} {fu : Furrow} {op : Byte} {d : Desc} {ecc : Bool}

theorem State.resets_plain (s : State) {k : FurrowKind} (hjob : k ≠ .job) (hside : k ≠ .side) : s.resets k = false := by
  have hno : ∀ r : SubReset, ((r.code == 1 && k == .job) || (r.code == 2 && k == .side)) = false := fun r => by
    rw [beq_eq_false_iff_ne.mpr hjob, beq_eq_false_iff_ne.mpr hside, Bool.and_false, Bool.and_false]
    rfl
  rw [State.resets, Option.any_eq_false_iff_get]
  exact fun h => Bool.not_eq_true _ ▸ hno _

/-- A fetched descriptor, the only one of its ring, starts. -/
theorem Fetches.start_eq (hf : Fetches s f fu) (hf0 : f ≠ 0) :
    s.post f op d none ecc = ((s.fetched f fu op d none).startItem f (fetchedItem fu op d none) ecc).balerPump.sidePump := by
  rw [hf.post_eq, if_neg hf0, State.startHeld, State.fetched_furrow? hf.empty]
  rfl

/-- It may start: nothing holds it up, and its furrow allows it. -/
theorem Fetches.may_start (hf : Fetches s f fu) (hjob : fu.kind ≠ .job) (hside : fu.kind ≠ .side) (hop : opAllowed fu.kind op = true)
    (hres : reservedZero op d = true) :
    ¬ (fu.failed || Furrow.fenced { fu with nextFetch := fu.nextFetch + 1, items := [fetchedItem fu op d none] } fu.nextFetch
        || (s.fetched f fu op d none).resets fu.kind) = true
    ∧ ¬ (!opAllowed fu.kind op || !reservedZero op d) = true := by
  obtain ⟨-, -, hnf, -⟩ := hf.parts
  have hfence : Furrow.fenced { fu with nextFetch := fu.nextFetch + 1, items := [fetchedItem fu op d none] } fu.nextFetch = false := by
    simp [Furrow.fenced, Furrow.before, fetchedItem]
  constructor
  · rw [hfence, hnf, State.resets_plain _ hjob hside]
    decide
  · rw [hop, hres]
    decide

theorem Fetches.buf_eq (hf : Fetches s f fu) (hf0 : f ≠ 0) (hop : opAllowed fu.kind 0x10 = true) (hres : reservedZero 0x10 d = true) :
    s.post f 0x10 d none ecc = ((s.fetched f fu 0x10 d none).startBuf f (fetchedItem fu 0x10 d none) ecc).balerPump.sidePump := by
  have hjob : fu.kind ≠ .job := fun h => by rw [h] at hop; exact absurd hop (by decide)
  have hside : fu.kind ≠ .side := fun h => by rw [h] at hop; exact absurd hop (by decide)
  obtain ⟨hfree, hallowed⟩ := hf.may_start hjob hside hop hres
  rw [hf.start_eq hf0, State.startItem, State.fetched_furrow? hf.empty]
  exact congrArg (fun u : State => u.balerPump.sidePump) ((if_neg hfree).trans (if_neg hallowed))

theorem Fetches.setpoint_eq (hf : Fetches s f fu) (hf0 : f ≠ 0) (hk : fu.kind = .setpoint) (hres : reservedZero 0x20 d = true) :
    s.post f 0x20 d none ecc = ((s.fetched f fu 0x20 d none).startSetpoint f (fetchedItem fu 0x20 d none)).balerPump.sidePump := by
  obtain ⟨hfree, hallowed⟩ := hf.may_start (by rw [hk]; decide) (by rw [hk]; decide) (by rw [hk]; decide) hres
  rw [hf.start_eq hf0, State.startItem, State.fetched_furrow? hf.empty]
  exact congrArg (fun u : State => u.balerPump.sidePump) ((if_neg hfree).trans (if_neg hallowed))

end start

/-! ## BUF (R279, R286, R292) -/

section buffers
variable {t : State} {f : Nat} {it : Item} {ecc : Bool} {fu : Furrow}

theorem startBuf_empty (h : Desc.len it.desc = 0) : t.startBuf f it ecc = t.endItem f it.seq .doneEmpty 0 0 := if_pos h

theorem startBuf_misaligned (h : Desc.len it.desc ≠ 0) (ha : bufAligned it.desc = false) :
    t.startBuf f it ecc = t.endItem f it.seq .failedParam 0 0 :=
  (if_neg h).trans (if_pos (by rw [ha]; decide))

/-- The furrow keeps its kind while its buffer takes what waits. -/
theorem deliver_kind (hfu : t.furrow? f = some fu) :
    ∃ g, ((t.activate f it.seq).deliver f ecc).furrow? f = some g ∧ g.kind = fu.kind := by
  have h := ((WorkKept.activate t f it.seq).trans (.deliver _ f ecc)).furrows f
  rw [hfu] at h
  generalize ((t.activate f it.seq).deliver f ecc).furrow? f = o at h
  cases h with
  | some h => exact ⟨_, rfl, h.kind⟩

theorem startBuf_deliver (h : Desc.len it.desc ≠ 0) (ha : bufAligned it.desc = true) (hfu : t.furrow? f = some fu) :
    t.startBuf f it ecc = if fu.kind == .event && !t.inRun then ((t.activate f it.seq).deliver f ecc).evFill
      else (t.activate f it.seq).deliver f ecc := by
  have hrun : ((t.activate f it.seq).deliver f ecc).inRun = t.inRun :=
    congrArg (fun p : PwSt => p.power == .run) ((WorkKept.activate t f it.seq).trans (.deliver _ f ecc)).pw
  obtain ⟨g, hg, hkind⟩ := deliver_kind (it := it) (ecc := ecc) hfu
  rw [State.startBuf, if_neg h, if_neg (by rw [ha]; decide)]
  simp only []
  rw [hg]
  simp only []
  rw [hkind, hrun]

end buffers

/-! ## Errors of the field memory, met before the fetch (R201), hold up no fetch -/

/-- What a fetch depends on stands: the furrows, the function and the way to the host. -/
structure RoadKept (s t : State) : Prop where
  pw : t.pw = s.pw
  furrows : t.hi.furrows = s.hi.furrows
  stopping : t.hi.stopping = s.hi.stopping
  stat : t.rd Reg.HI_STAT = s.rd Reg.HI_STAT
  ln : t.ln = { s.ln with ports := t.ln.ports, stranded := t.ln.stranded, reroutes := t.ln.reroutes }
  held : ∀ p, (t.port p).heldByPartner = (s.port p).heldByPartner

section road
variable {s t : State}

theorem RoadKept.refl (s : State) : RoadKept s s := ⟨rfl, rfl, rfl, rfl, rfl, fun _ => rfl⟩

theorem RoadKept.trans {s t u : State} (h : RoadKept s t) (k : RoadKept t u) : RoadKept s u :=
  ⟨k.pw.trans h.pw, k.furrows.trans h.furrows, k.stopping.trans h.stopping, k.stat.trans h.stat, by rw [k.ln, h.ln],
    fun p => (k.held p).trans (h.held p)⟩

theorem RoadKept.foldl {α : Type} {f : State → α → State} (hf : ∀ s x, RoadKept s (f s x)) (l : List α) (s : State) :
    RoadKept s (l.foldl f s) := by
  induction l generalizing s with
  | nil => exact .refl s
  | cons x l ih => exact (hf s x).trans (ih _)

theorem RoadKept.of_same (hpw : t.pw = s.pw) (hhi : t.hi.furrows = s.hi.furrows) (hstop : t.hi.stopping = s.hi.stopping)
    (hregs : t.regs = s.regs) (hln : t.ln = s.ln) : RoadKept s t :=
  ⟨hpw, hhi, hstop, State.rd_congr hregs _, by rw [hln], fun p => by rw [State.port, State.port, hln]⟩

theorem RoadKept.wr (s : State) {a : Nat} (w : Word) (h : Reg.HI_STAT ≠ a) : RoadKept s (s.wr a w) :=
  ⟨rfl, rfl, rfl, State.rd_wr_ne s w h, rfl, fun _ => rfl⟩

theorem RoadKept.setPort (s : State) {p : Nat} {x : PortSt} (h : x.heldByPartner = (s.port p).heldByPartner) : RoadKept s (s.setPort p x) := by
  refine ⟨rfl, rfl, rfl, rfl, rfl, fun q => ?_⟩
  rw [State.port, State.setPort]
  by_cases hq : q = p
  · rw [hq, kget?_kset_same]
    exact h
  · rw [kget?_kset_ne _ _ hq]
    rfl

theorem RoadKept.modPort (s : State) {p : Nat} {f : PortSt → PortSt} (h : ∀ x, (f x).heldByPartner = x.heldByPartner) :
    RoadKept s (s.modPort p f) := .setPort s (h _)

theorem RoadKept.emit (s : State) (o : Output) : RoadKept s (s.emit o) := .of_same rfl rfl rfl rfl rfl

theorem RoadKept.draw64 (s : State) : RoadKept s s.draw64.2 := .of_same rfl rfl rfl rfl rfl

theorem RoadKept.drawLane (s : State) (p i : Nat) : RoadKept s (s.drawLane p i) :=
  RoadKept.trans (t := s.draw64.2.drawBit.2) (.of_same rfl rfl rfl rfl rfl) (.setPort _ rfl)

theorem RoadKept.nextSlot (s : State) (p : Nat) : RoadKept s (s.nextSlot p) := by
  rw [State.nextSlot]
  exact ite_both (RoadKept s) _ _ _ (.refl s)
    (((((RoadKept.draw64 s).trans (.drawLane _ p 0)).trans (.drawLane _ p 1)).trans (.modPort _ (by intro _; rfl))).trans (.emit _ _))

theorem RoadKept.putCell (s : State) (p n : Nat) (c : Cell) (bad : Bool) : RoadKept s (s.putCell p n c bad) := by
  unfold State.putCell
  extract_lets moved bs x on sent tx
  have hset : RoadKept moved (moved.setPort p { x with tx := tx, lineFree := x.lineFree + moved.slotTime p, txSlots := x.txSlots + 1 }) :=
    .setPort moved rfl
  exact ((RoadKept.nextSlot s p).trans hset).trans (.emit ..)

theorem RoadKept.transmit (s : State) (p : Nat) (c : Cell) : RoadKept s (s.transmit p c) := by
  unfold State.transmit
  extract_lets x
  refine (RoadKept.putCell s p x.txSeq.toNat c x.inject).trans ?_
  exact .modPort _ (by intro _; rfl)

theorem RoadKept.sendCell (s : State) (p : Nat) (own : Bool) (c : Cell) : RoadKept s (s.sendCell p own c) := by
  rw [State.sendCell]
  exact ite_both (RoadKept s) _ _ _ (.transmit ..) (.modPort s (by intro _; rfl))

theorem RoadKept.sendOwn (s : State) (c : Cell) : RoadKept s (s.sendOwn c) := by
  unfold State.sendOwn
  split
  · exact ⟨rfl, rfl, rfl, rfl, rfl, fun _ => rfl⟩
  · simp only []
    split
    · exact ⟨rfl, rfl, rfl, rfl, rfl, fun _ => rfl⟩
    · exact .sendCell ..

theorem RoadKept.sendMsix (s : State) (v : Nat) : RoadKept s (s.sendMsix v) := by
  rw [State.sendMsix]
  refine ite_both (RoadKept s) _ _ _ (.refl s) (ite_both (RoadKept s) _ _ _ (.of_same rfl rfl rfl rfl rfl) ?_)
  unfold State.toHost
  generalize s.pw.headSel = head
  cases head with
  | true => exact .emit ..
  | false => exact .foldl .sendOwn _ s

theorem RoadKept.evSet (s : State) (x : EvSt) : RoadKept s { s with ev := x } := .of_same rfl rfl rfl rfl rfl

theorem RoadKept.wrEvent (s : State) {a : Nat} (w : Word) (h : 0x70000 ≤ a) : RoadKept s (s.wr a w) :=
  .wr s w (by simp only [Reg.HI_STAT]; omega)

theorem RoadKept.trace (s : State) (e : EvRec) (ff : Bool) : RoadKept s (s.trace e ff) := by
  have happend : RoadKept s (s.traceAppend e) := by
    unfold State.traceAppend
    extract_lets full x kept counted
    have hcounted : RoadKept s counted := (RoadKept.evSet s _).trans (.wrEvent kept _ (by decide))
    exact ite_both (RoadKept s) _ _ _ (hcounted.trans (.wrEvent _ _ (by decide))) hcounted
  have hwords : ∀ (ws : List Word) (n : Nat) (u : State), RoadKept u (u.ffWords n ws) := by
    intro ws
    induction ws with
    | nil => exact fun _ u => .refl u
    | cons w ws ih => exact fun n u => (RoadKept.wrEvent u w (by simp only [Reg.EV_FF]; omega)).trans (ih (n + 1) _)
  exact happend.trans (ite_both (RoadKept _) _ _ _ ((hwords ..).trans (.wrEvent _ _ (by decide))) (.refl _))

theorem RoadKept.joinRun (s : State) (e : EvRec) : RoadKept s (s.joinRun e) :=
  (RoadKept.evSet s _).trans (.wrEvent _ _ (by simp only [Reg.EV_RUN]; omega))

theorem RoadKept.evQueue (s : State) (e : EvRec) : RoadKept s (s.evQueue e) := by
  unfold State.evQueue
  refine ite_both (RoadKept s) _ _ _ (.joinRun ..) (ite_both (RoadKept s) _ _ _ (.evSet ..) ?_)
  exact ((RoadKept.evSet s _).trans (.wrEvent _ _ (by simp only [Reg.EV_RUN]; omega))).trans (.wrEvent _ _ (by simp only [Reg.EV_RUNOCC]; omega))

theorem RoadKept.evVector (s : State) (src : Nat) : RoadKept s (s.evVector src) :=
  ite_both (RoadKept s) _ _ _ ((RoadKept.evSet s _).trans (.sendMsix ..)) (.refl s)

/-- In Run an event's record waits for the deliver step (R436). -/
theorem RoadKept.raiseF (s : State) (flags src obj cause aux8 : Nat) (data : Word64) (hrun : s.inRun = true) :
    RoadKept s (s.raiseF flags src obj cause aux8 data) := by
  unfold State.raiseF
  extract_lets e counted traced queued
  have htraced : RoadKept s traced := (RoadKept.wrEvent s _ (by simp only [Reg.EV_OCC]; omega)).trans (.trace counted ..)
  have hqueued : RoadKept s queued := htraced.trans (.evQueue ..)
  have hstill : queued.inRun = true := (congrArg (fun p : PwSt => p.power == .run) hqueued.pw).trans hrun
  refine ite_both (RoadKept s) _ _ _ ?_ (ite_both (RoadKept s) _ _ _ (htraced.trans (.joinRun ..)) htraced)
  rw [if_pos hstill]
  exact hqueued.trans (.evVector ..)

theorem RoadKept.eccHit (s : State) (hit : EccHit) (hrun : s.inRun = true) : RoadKept s (s.eccHit hit) :=
  ite_both (RoadKept s) _ _ _ (.wr s _ (by decide)) ((RoadKept.wr s _ (by decide)).trans (.raiseF _ _ _ _ _ _ _ hrun))

theorem RoadKept.eccHits (hits : List EccHit) (s : State) (hrun : s.inRun = true) : RoadKept s (hits.foldl State.eccHit s) := by
  induction hits generalizing s with
  | nil => exact .refl s
  | cons hit hits ih =>
    have h := RoadKept.eccHit s hit hrun
    exact h.trans (ih _ ((congrArg (fun p : PwSt => p.power == .run) h.pw).trans hrun))

/-- A fetch that the way allowed is allowed still. -/
theorem RoadKept.mayFetch (h : RoadKept s t) {fu : Furrow} (hk : fu.kind ≠ .setpoint) : t.mayFetch fu = s.mayFetch fu := by
  have hroute : t.route 0 = s.route 0 := by rw [State.route, State.route, State.hubs, State.hubs, h.ln]
  have hopen : t.hostOpen = s.hostOpen := by
    rw [State.hostOpen, State.hostOpen, State.toHead, State.toHead, State.wayFree, State.wayFree, hroute, h.pw, h.stopping,
      State.flag_congr h.stat]
    simp only [h.held]
  have hroom : t.readRoom = s.readRoom := by rw [State.readRoom, State.readRoom, State.readLimit, State.readLimit, h.pw, h.ln]
  rw [State.mayFetch, State.mayFetch, hopen, hroom, bne_iff_ne.mpr hk, Bool.true_or, Bool.true_or]

theorem RoadKept.fetches (h : RoadKept s t) {f : Nat} {fu : Furrow} (hk : fu.kind ≠ .setpoint) (hf : Fetches s f fu) : Fetches t f fu :=
  ⟨(congrArg (kget? · f) h.furrows).trans hf.listed, hf.empty, (h.mayFetch hk).trans hf.may⟩

end road

/-! ## SETPOINT (R250) -/

/-- A setpoint joins the queue. -/
def State.queuedSetpoint (t : State) (f : Nat) (it : Item) (acked : Bool) : State :=
  ({ t with ce := { t.ce with queue := t.ce.queue ++
    [({ furrow := f, seq := it.seq, loop := it.desc.param.toNat, frame := (join64 it.desc.w2 it.desc.w3).toNat,
        value := join64 it.desc.w4 it.desc.w5, acked := acked } : QSet)] } }).noteQueueSp

section setpoints
variable {t : State} {f : Nat} {it : Item}

theorem queue_any_false (h : ∀ x ∈ t.ce.queue, ¬ (x.furrow = f ∧ x.seq = it.seq)) :
    t.ce.queue.any (fun q : QSet => q.furrow == f && q.seq == it.seq) = false := by
  rw [List.any_eq_false]
  intro x hx hboth
  rw [Bool.and_eq_true, beq_iff_eq, beq_iff_eq] at hboth
  exact h x hx hboth

/-- A setpoint that is neither queued nor has an outcome is judged by its fields. -/
theorem startSetpoint_new (h : ∀ x ∈ t.ce.queue, ¬ (x.furrow = f ∧ x.seq = it.seq)) (ha : t.sv.twin.applied = []) :
    t.startSetpoint f it =
      if 31 < it.desc.param.toNat || t.setpointBad f it.desc.param.toNat || !fFinite (join64 it.desc.w4 it.desc.w5)
          || decide ((if t.running then t.frameNo else 0) + 65536 < (join64 it.desc.w2 it.desc.w3).toNat) then
        t.endItem f it.seq .failedParam 0 it.desc.w2
      else if t.running && decide ((join64 it.desc.w2 it.desc.w3).toNat ≤ (if t.running then t.frameNo else 0)) then
        (t.setpointLate f it.seq it.desc.param.toNat (join64 it.desc.w2 it.desc.w3).toNat).endItem f it.seq .failedLate 0 it.desc.w2
      else if t.relays then
        ((t.queuedSetpoint f it false).activate f it.seq).sendTwin 0x11
          [f % 256, it.seq.toNat, it.desc.param.toNat, (join64 it.desc.w2 it.desc.w3).toNat, (join64 it.desc.w4 it.desc.w5).toNat]
      else (t.queuedSetpoint f it true).activate f it.seq := by
  rw [State.startSetpoint]
  refine (if_neg (by rw [queue_any_false h]; decide)).trans ?_
  rw [ha]
  simp only [List.find?_nil]
  refine ite_congr rfl (fun _ => rfl) fun _ => ite_congr rfl (fun _ => rfl) fun _ => ?_
  cases t.relays with
  | true => rw [if_pos rfl, if_pos rfl, State.queuedSetpoint, Bool.not_true]
  | false => rw [if_neg Bool.false_ne_true, if_neg Bool.false_ne_true, State.queuedSetpoint, Bool.not_false]

end setpoints

/-! ## The commands -/

section command
variable {s : State} {f : BitVec 9} {fu : Furrow} {d : Desc}

/-- The frame whose window is open, from which a setpoint's frame is judged. -/
def State.nowFrame (s : State) : Nat := if s.running then s.frameNo else 0

theorem State.fetched_rd {i : Nat} {op : Byte} (a : Nat) : (s.fetched i fu op d none).rd a = s.rd a :=
  State.rd_congr (State.fetched_link op d none).regs a

theorem State.fetched_running {i : Nat} {op : Byte} : (s.fetched i fu op d none).running = s.running := State.flag_congr (State.fetched_rd _) _

theorem State.fetched_nowFrame {i : Nat} {op : Byte} : (s.fetched i fu op d none).nowFrame = s.nowFrame := by
  rw [State.nowFrame, State.nowFrame, State.fetched_running, State.frameNo, State.frameNo, State.rd64, State.rd64, State.fetched_rd,
    State.fetched_rd]

theorem State.fetched_applied {i : Nat} {op : Byte} : (s.fetched i fu op d none).sv.twin.applied = s.sv.twin.applied :=
  congrArg (fun v : SvSt => v.twin.applied) (State.fetched_link op d none).sv

theorem State.fetched_inRun {i : Nat} {op : Byte} : (s.fetched i fu op d none).inRun = s.inRun :=
  congrArg (fun p : PwSt => p.power == .run) (State.fetched_link op d none).pw

/-- A BUF whose read meets errors of the field memory (R201). -/
theorem buf_eq (hits : List EccHit) (hf : Fetches s f.toNat fu) : buf f d hits s =
    (if fu.blocks.isEmpty then s else hits.foldl State.eccHit s).post f.toNat 0x10 d none (hits.any (fun hit => !hit.fixed)) := by
  rw [buf, hf.listed, Option.any_some, hf.may, Bool.true_and]
  cases fu.blocks.isEmpty <;> rfl

/-- A BUF without such errors starts. -/
theorem buf_start (hf : Fetches s f.toNat fu) (hf0 : f.toNat ≠ 0) (hop : opAllowed fu.kind 0x10 = true) (hres : reservedZero 0x10 d = true) :
    buf f d [] s = ((s.fetched f.toNat fu 0x10 d none).startBuf f.toNat (fetchedItem fu 0x10 d none) false).balerPump.sidePump := by
  rw [buf_eq [] hf, List.foldl_nil, ite_self]
  exact hf.buf_eq hf0 hop hres

theorem buf_deliver (hf : Fetches s f.toNat fu) (hf0 : f.toNat ≠ 0) (hop : opAllowed fu.kind 0x10 = true) (hres : reservedZero 0x10 d = true)
    (hlen : Desc.len d ≠ 0) (ha : bufAligned d = true) (hplain : s.inRun = true ∨ fu.kind ≠ .event) :
    buf f d [] s = ((((s.fetched f.toNat fu 0x10 d none).activate f.toNat fu.nextFetch).deliver f.toNat false).balerPump).sidePump := by
  rw [buf_start hf hf0 hop hres, startBuf_deliver (it := fetchedItem fu 0x10 d none) hlen ha (State.fetched_furrow? hf.empty ..),
    State.fetched_inRun, if_neg]
  · rfl
  · rcases hplain with hrun | hkind
    · rw [hrun, Bool.not_true, Bool.and_false]
      exact Bool.false_ne_true
    · rw [beq_eq_false_iff_ne.mpr hkind, Bool.false_and]
      exact Bool.false_ne_true

theorem buf_events (hf : Fetches s f.toNat fu) (hf0 : f.toNat ≠ 0) (hk : fu.kind = .event) (hres : reservedZero 0x10 d = true)
    (hlen : Desc.len d ≠ 0) (ha : bufAligned d = true) (hrun : s.inRun = false) :
    buf f d [] s
      = (((((s.fetched f.toNat fu 0x10 d none).activate f.toNat fu.nextFetch).deliver f.toNat false).evFill).balerPump).sidePump := by
  rw [buf_start hf hf0 (by rw [hk]; decide) hres,
    startBuf_deliver (it := fetchedItem fu 0x10 d none) hlen ha (State.fetched_furrow? hf.empty ..), State.fetched_inRun,
    if_pos (by rw [hk, hrun]; decide)]
  rfl

theorem buf_hits (hits : List EccHit) (hf : Fetches s f.toNat fu) (hf0 : f.toNat ≠ 0) (hk : fu.kind = .sample)
    (hres : reservedZero 0x10 d = true) (hlen : Desc.len d ≠ 0) (ha : bufAligned d = true) (hrun : s.inRun = true) :
    buf f d hits s =
      (((((if fu.blocks.isEmpty then s else hits.foldl State.eccHit s).fetched f.toNat fu 0x10 d none).activate f.toNat fu.nextFetch).deliver
        f.toNat (hits.any (fun hit => !hit.fixed))).balerPump).sidePump := by
  have hroad : RoadKept s (if fu.blocks.isEmpty then s else hits.foldl State.eccHit s) :=
    ite_both (RoadKept s) _ _ _ (.refl s) (.eccHits hits s hrun)
  rw [buf_eq hits hf]
  generalize (if fu.blocks.isEmpty then s else hits.foldl State.eccHit s) = v at hroad
  have hv : Fetches v f.toNat fu := hroad.fetches (by rw [hk]; decide) hf
  rw [hv.buf_eq hf0 (by rw [hk]; decide) hres, startBuf_deliver (it := fetchedItem fu 0x10 d none) hlen ha (State.fetched_furrow? hv.empty ..),
    if_neg (by rw [hk]; exact Bool.false_ne_true)]
  rfl

/-- A fetched setpoint that is neither queued nor has an outcome. -/
theorem setpoint_start (hf : Fetches s f.toNat fu) (hf0 : f.toNat ≠ 0) (hk : fu.kind = .setpoint) (hres : reservedZero 0x20 d = true)
    (hnew : ∀ x ∈ (s.fetched f.toNat fu 0x20 d none).ce.queue, ¬ (x.furrow = f.toNat ∧ x.seq = fu.nextFetch))
    (happ : s.sv.twin.applied = []) : setpoint f d s =
      (if 31 < d.param.toNat || (s.fetched f.toNat fu 0x20 d none).setpointBad f.toNat d.param.toNat || !fFinite (join64 d.w4 d.w5)
          || decide (s.nowFrame + 65536 < (join64 d.w2 d.w3).toNat) then
        (s.fetched f.toNat fu 0x20 d none).endItem f.toNat fu.nextFetch .failedParam 0 d.w2
      else if s.running && decide ((join64 d.w2 d.w3).toNat ≤ s.nowFrame) then
        ((s.fetched f.toNat fu 0x20 d none).setpointLate f.toNat fu.nextFetch d.param.toNat (join64 d.w2 d.w3).toNat).endItem f.toNat
          fu.nextFetch .failedLate 0 d.w2
      else if (s.fetched f.toNat fu 0x20 d none).relays then
        (((s.fetched f.toNat fu 0x20 d none).queuedSetpoint f.toNat (fetchedItem fu 0x20 d none) false).activate f.toNat fu.nextFetch).sendTwin
          0x11 [f.toNat % 256, fu.nextFetch.toNat, d.param.toNat, (join64 d.w2 d.w3).toNat, (join64 d.w4 d.w5).toNat]
      else ((s.fetched f.toNat fu 0x20 d none).queuedSetpoint f.toNat (fetchedItem fu 0x20 d none) true).activate f.toNat
        fu.nextFetch).balerPump.sidePump := by
  refine (hf.setpoint_eq hf0 hk hres).trans (congrArg (fun u : State => u.balerPump.sidePump) ?_)
  rw [startSetpoint_new (it := fetchedItem fu 0x20 d none) hnew (State.fetched_applied.trans happ)]
  change (if _ || decide ((s.fetched f.toNat fu 0x20 d none).nowFrame + 65536 < _) then _
    else if _ && decide (_ ≤ (s.fetched f.toNat fu 0x20 d none).nowFrame) then _ else _) = _
  rw [State.fetched_nowFrame, State.fetched_running]
  rfl

/-- The fields of a setpoint are sound. -/
theorem setpoint_sound {bad fin : Bool} {l now frame : Nat} (hl : l ≤ 31) (hbad : bad = false) (hfin : fin = true)
    (hnear : frame ≤ now + 65536) : ¬ (decide (31 < l) || bad || !fin || decide (now + 65536 < frame)) = true := by
  rw [decide_eq_false (Nat.not_lt.mpr hl), hbad, hfin, decide_eq_false (Nat.not_lt.mpr hnear)]
  decide

/-- Its frame is still to come. -/
theorem setpoint_ahead {running : Bool} {now frame : Nat} (h : running = true → now < frame) :
    ¬ (running && decide (frame ≤ now)) = true := by
  cases running with
  | false => exact Bool.false_ne_true
  | true =>
    rw [decide_eq_false (Nat.not_le.mpr (h rfl))]
    decide

section outcomes
variable (hf : Fetches s f.toNat fu) (hf0 : f.toNat ≠ 0) (hk : fu.kind = .setpoint) (hres : reservedZero 0x20 d = true)
  (hnew : ∀ x ∈ (s.fetched f.toNat fu 0x20 d none).ce.queue, ¬ (x.furrow = f.toNat ∧ x.seq = fu.nextFetch))
  (happ : s.sv.twin.applied = [])
include hf hf0 hk hres hnew happ

theorem setpoint_queued (hl : d.param.toNat ≤ 31)
    (hbad : (s.fetched f.toNat fu 0x20 d none).setpointBad f.toNat d.param.toNat = false) (hfin : fFinite (join64 d.w4 d.w5) = true)
    (hnear : (join64 d.w2 d.w3).toNat ≤ s.nowFrame + 65536) (hahead : s.running = true → s.nowFrame < (join64 d.w2 d.w3).toNat)
    (hrel : (s.fetched f.toNat fu 0x20 d none).relays = false) : setpoint f d s =
      (((s.fetched f.toNat fu 0x20 d none).queuedSetpoint f.toNat (fetchedItem fu 0x20 d none) true).activate f.toNat
        fu.nextFetch).balerPump.sidePump :=
  (setpoint_start hf hf0 hk hres hnew happ).trans (congrArg (fun u : State => u.balerPump.sidePump)
    ((if_neg (setpoint_sound hl hbad hfin hnear)).trans ((if_neg (setpoint_ahead hahead)).trans (if_neg (by rw [hrel]; decide)))))

theorem setpoint_relayed (hl : d.param.toNat ≤ 31)
    (hbad : (s.fetched f.toNat fu 0x20 d none).setpointBad f.toNat d.param.toNat = false) (hfin : fFinite (join64 d.w4 d.w5) = true)
    (hnear : (join64 d.w2 d.w3).toNat ≤ s.nowFrame + 65536) (hahead : s.running = true → s.nowFrame < (join64 d.w2 d.w3).toNat)
    (hrel : (s.fetched f.toNat fu 0x20 d none).relays = true) : setpoint f d s =
      ((((s.fetched f.toNat fu 0x20 d none).queuedSetpoint f.toNat (fetchedItem fu 0x20 d none) false).activate f.toNat
        fu.nextFetch).sendTwin 0x11 [f.toNat % 256, fu.nextFetch.toNat, d.param.toNat, (join64 d.w2 d.w3).toNat,
          (join64 d.w4 d.w5).toNat]).balerPump.sidePump :=
  (setpoint_start hf hf0 hk hres hnew happ).trans (congrArg (fun u : State => u.balerPump.sidePump)
    ((if_neg (setpoint_sound hl hbad hfin hnear)).trans ((if_neg (setpoint_ahead hahead)).trans (if_pos hrel))))

theorem setpoint_late (hl : d.param.toNat ≤ 31)
    (hbad : (s.fetched f.toNat fu 0x20 d none).setpointBad f.toNat d.param.toNat = false) (hfin : fFinite (join64 d.w4 d.w5) = true)
    (hrun : s.running = true) (hlate : (join64 d.w2 d.w3).toNat ≤ s.nowFrame) : setpoint f d s =
      (((s.fetched f.toNat fu 0x20 d none).setpointLate f.toNat fu.nextFetch d.param.toNat (join64 d.w2 d.w3).toNat).endItem f.toNat
        fu.nextFetch .failedLate 0 d.w2).balerPump.sidePump :=
  (setpoint_start hf hf0 hk hres hnew happ).trans (congrArg (fun u : State => u.balerPump.sidePump)
    ((if_neg (setpoint_sound hl hbad hfin (Nat.le_add_right_of_le hlate))).trans
      (if_pos (by rw [hrun, decide_eq_true hlate]; rfl))))

theorem setpoint_bad (hl : 31 < d.param.toNat) : setpoint f d s =
    ((s.fetched f.toNat fu 0x20 d none).endItem f.toNat fu.nextFetch .failedParam 0 d.w2).balerPump.sidePump :=
  (setpoint_start hf hf0 hk hres hnew happ).trans (congrArg (fun u : State => u.balerPump.sidePump)
    (if_pos (by rw [decide_eq_true hl]; rfl)))

end outcomes

end command

/-- Settles O27: a buffer ends, fails or takes what waits, and a setpoint is queued, relayed, late or at fault. -/
theorem buffersAndSetpoints : Obligations.BuffersAndSetpoints := by
  intro s f fu d hits hf hf0 i q bs ss frame value now queued
  refine ⟨fun hop hres hlen => Becomes.of rfl ?_, fun hop hres hlen ha => Becomes.of rfl ?_,
    fun hop hres hlen ha hrun => Becomes.of rfl (buf_deliver hf hf0 hop hres hlen ha (.inl hrun)),
    fun hop hres hlen ha hrun hk => Becomes.of rfl (buf_deliver hf hf0 hop hres hlen ha (.inr hk)),
    fun hk hres hlen ha hrun => Becomes.of rfl (buf_events hf hf0 hk hres hlen ha hrun),
    fun hk hres hlen ha hrun => Becomes.of rfl (buf_hits hits hf hf0 hk hres hlen ha hrun), ?_, ?_, ?_, ?_⟩
  · exact (buf_start hf hf0 hop hres).trans (congrArg (fun u : State => u.balerPump.sidePump) (startBuf_empty hlen))
  · exact (buf_start hf hf0 hop hres).trans (congrArg (fun u : State => u.balerPump.sidePump) (startBuf_misaligned hlen ha))
  · exact fun hk hres hnew happ hl hbad hfin hnear hahead hrel =>
      Becomes.of rfl (setpoint_queued hf hf0 hk hres hnew happ hl hbad hfin hnear hahead hrel)
  · exact fun hk hres hnew happ hl hbad hfin hnear hahead hrel =>
      Becomes.of rfl (setpoint_relayed hf hf0 hk hres hnew happ hl hbad hfin hnear hahead hrel)
  · exact fun hk hres hnew happ hl hbad hfin hrun hlate =>
      Becomes.of rfl (setpoint_late hf hf0 hk hres hnew happ hl hbad hfin hrun hlate)
  · exact fun hk hres hnew happ hl => Becomes.of rfl (setpoint_bad hf hf0 hk hres hnew happ hl)

end Sys2Proof.Machine
end

section
/-! SUPPORT. Furrows that go, leave their stall or lose their work, as work of the host engine (R273, R295, R427). -/

namespace Sys2Proof.Machine

section gone
variable {s t : State}

theorem WorkKept.evBack (s : State) : WorkKept s s.evBack := .of_same rfl rfl rfl rfl rfl

theorem WorkKept.noteStalled (s : State) : WorkKept s s.noteStalled := .fputStat s Fld.HI_STAT_stalled _ (by decide) (by decide)

theorem WorkKept.dropSetpoints (s : State) (f : Nat) : WorkKept s (s.dropSetpoints f) := by
  unfold State.dropSetpoints
  refine WorkKept.trans ?_ (.noteQueueSp _)
  exact WorkKept.trans (.ceSet ..) (.foldl _ (fun u e _ => .endItem u ..) _)

theorem WorkKept.blSet (s : State) (x : BlSt) : WorkKept s { s with bl := x } := .of_same rfl rfl rfl rfl rfl

theorem WorkKept.freePipe (s : State) (comp : Bool) : WorkKept s (s.freePipe comp) := by
  unfold State.freePipe
  exact ite_both (WorkKept s) _ _ _ (((WorkKept.dropReads s _).trans (.blSet ..)).trans (.wrBaler ..))
    (((WorkKept.dropReads s _).trans (.blSet ..)).trans (.wrBaler ..))

theorem WorkKept.freeSide (s : State) : WorkKept s s.freeSide :=
  ((WorkKept.dropReads s .transfer).trans (.spSet ..)).trans (.wrPlain (a := Reg.SP_STAT) _ _ (by decide))

theorem WorkKept.freeUnit (s : State) (f : Nat) : WorkKept s (s.freeUnit f) := by
  have hpipe : ∀ (u : State) (o : Option (Nat × Word)) (comp : Bool),
      WorkKept u (match o with | some (g, _) => if g = f then u.freePipe comp else u | none => u) := by
    intro u o comp
    split
    · exact ite_both (WorkKept u) _ _ _ (.freePipe ..) (.refl u)
    · exact .refl u
  unfold State.freeUnit
  extract_lets comp exp gone
  have hgone : WorkKept s gone := ((hpipe s s.bl.comp true).trans (hpipe comp comp.bl.exp false)).trans (.abandon ..)
  exact ite_both (WorkKept s) _ _ _ (hgone.trans (.freeSide _)) hgone

theorem WorkKept.aqSet (s : State) (x : AqSt) : WorkKept s { s with aq := x } := .of_same rfl rfl rfl rfl rfl

theorem WorkKept.modUnit (s : State) (u : Nat) (m : UnitSt → UnitSt) : WorkKept s (s.modUnit u m) := .aqSet ..

theorem WorkKept.finishPlot (s : State) (u : Nat) (extra : BitVec 16) : WorkKept s (s.finishPlot u extra) := by
  have hcut : ∀ v : State, WorkKept v (v.cutSegments u none).2 := by
    intro v
    rw [State.cutSegments]
    split
    · exact .refl v
    · exact .aqSet ..
  unfold State.finishPlot
  split
  · exact .refl s
  · extract_lets p kept
    have hkept : WorkKept s kept := .modUnit ..
    exact ite_both (WorkKept s) _ _ _ (((hkept.trans (hcut kept)).trans (.modUnit ..)).trans (.modUnit ..))
      ((hkept.trans (.modUnit ..)).trans (.modUnit ..))

theorem ustat_free {u : Nat} (h : u < 8) : fixedReg (Reg.AQ_USTAT u) = false ∧ Reg.AQ_USTAT u ≠ Reg.HI_STAT := by
  constructor
  · simp only [fixedReg, Reg.AQ_USTAT, Reg.HI_CTL, Bool.or_eq_false_iff, Bool.and_eq_false_iff, decide_eq_false_iff_not, beq_eq_false_iff_ne]
    omega
  · simp only [Reg.AQ_USTAT, Reg.HI_STAT]
    omega

theorem WorkKept.stopUnit (s : State) {u : Nat} (h : u < 8) : WorkKept s (s.stopUnit u) :=
  ((WorkKept.finishPlot s u _).trans (.modUnit ..)).trans (.wr _ _ (ustat_free h).1 (ustat_free h).2)

/-- A fold that carries a result beside its state. -/
theorem WorkKept.foldl_snd {α β : Type} {f : β × State → α → β × State} (l : List α)
    (hf : ∀ p, ∀ x ∈ l, WorkKept p.2 (f p x).2) (p : β × State) : WorkKept p.2 (l.foldl f p).2 := by
  induction l generalizing p with
  | nil => exact .refl p.2
  | cons x l ih => exact (hf p x List.mem_cons_self).trans (ih (fun q y hy => hf q y (List.mem_cons_of_mem _ hy)) _)

theorem WorkKept.unbindPlot (s : State) (f : Nat) : WorkKept s (s.unbindPlot f).2 := by
  unfold State.unbindPlot
  refine WorkKept.foldl_snd (List.range 8) (fun p u hu => ?_) ([], s)
  refine ite_both (fun q : List (Nat × Word) × State => WorkKept p.2 q.2) _ _ _ ?_ (.refl p.2)
  simp only []
  refine WorkKept.trans (WorkKept.trans ?_ (.foldl _ (fun v q _ => .freePart v q) _)) (.modUnit ..)
  exact ite_both (WorkKept p.2) _ _ _ (.stopUnit _ (List.mem_range.mp hu)) (.refl _)

theorem WorkKept.notice (s : State) (n : Notice) : WorkKept s (s.notice n) := .of_same rfl rfl rfl rfl rfl

theorem WorkKept.discardBlock (s : State) (b : Block) : WorkKept s (s.discardBlock b) := by
  unfold State.discardBlock
  split
  · exact .refl s
  · exact .notice ..

theorem WorkKept.discardPart (s : State) (p : Part) : WorkKept s (s.discardPart p) := by
  unfold State.discardPart
  split
  · exact .freePart ..
  · exact (WorkKept.freePart ..).trans (.notice ..)

theorem WorkKept.discard (s : State) (f : Nat) : WorkKept s (s.discard f).2.2 := by
  unfold State.discard
  split
  · exact .refl s
  · next fu _ =>
    have h : WorkKept s (fu.parts.foldl State.discardPart (fu.blocks.foldl State.discardBlock s)) :=
      (WorkKept.foldl _ (fun u b _ => .discardBlock u b) s).trans (.foldl _ (fun u p _ => .discardPart u p) _)
    refine WorkKept.trans (h.trans ?_) (.noteBacklog _)
    exact .modData fun g => ⟨rfl, rfl, rfl, rfl, rfl, rfl⟩

theorem WorkKept.failFences (s : State) (fu : Furrow) : WorkKept s (s.failFences fu) := by
  unfold State.failFences
  refine .foldl _ (fun u e _ => ?_) s
  exact ite_both (WorkKept u) _ _ _ (.refl u) ((WorkKept.foldl _ (fun v it _ => .endItem v ..) u).trans (.startHeld ..))

theorem WorkKept.dropStream (s : State) (f : Nat) : WorkKept s (s.dropStream f) :=
  ite_both (WorkKept s) _ _ _ (.blSet ..) (.abandon ..)

theorem WorkKept.balerClear (s : State) : WorkKept s s.balerClear :=
  (((((WorkKept.dropReads s _).trans (.dropReads ..)).trans (.blSet ..)).trans (.wrBaler ..)).trans (.wrBaler ..)).trans (.wrBaler ..)

theorem WorkKept.abortKind (s : State) (k : FurrowKind) : WorkKept s (s.abortKind k).2 := .foldl _ (fun u _ _ => .endAll u ..) s

/-! ## A port that goes down and trains again -/

section ports
variable {p : Nat}

theorem pstat_free (h : p < 2) : fixedReg (Reg.LN_PSTAT p) = false ∧ Reg.LN_PSTAT p ≠ Reg.HI_STAT := by
  constructor
  · simp only [fixedReg, Reg.LN_PSTAT, Reg.HI_CTL, Bool.or_eq_false_iff, Bool.and_eq_false_iff, decide_eq_false_iff_not, beq_eq_false_iff_ne]
    omega
  · simp only [Reg.LN_PSTAT, Reg.HI_STAT]
    omega

theorem WorkKept.wrPstat (s : State) (h : p < 2) (g : BitField) (v : Nat) : WorkKept s (s.fput (Reg.LN_PSTAT p) g v) :=
  .wr s _ (pstat_free h).1 (pstat_free h).2

theorem WorkKept.setPstate (s : State) (h : p < 2) (v : Nat) : WorkKept s (s.setPstate p v) := by
  rw [State.setPstate, if_pos h]
  exact .wrPstat s h ..

theorem WorkKept.modPort (s : State) (p : Nat) (m : PortSt → PortSt) : WorkKept s (s.modPort p m) := .of_same rfl rfl rfl rfl rfl

theorem WorkKept.dropPort (s : State) (h : p < 2) : WorkKept s (s.dropPort p) := by
  have hservice : ∀ u : State, WorkKept u (u.setInService p 0) := by
    intro u
    rw [State.setInService, if_pos h]
    exact .wrPstat u h ..
  rw [State.dropPort]
  refine WorkKept.trans ?_ (.modPort ..)
  rw [if_pos h]
  exact (((WorkKept.setPstate s h 0).trans (hservice _)).trans (.wrPstat _ h ..)).trans (.wrPstat _ h ..)

theorem WorkKept.setRingState (s : State) (v : Nat) : WorkKept s (s.setRingState v) :=
  (ite_both (WorkKept s) (v = 2) _ _ (.refl s) (.wrPlain s _ (by decide))).trans (.wrPlain (a := Reg.LN_STAT) _ _ (by decide))

theorem WorkKept.noteBreak (s : State) (link : Nat × Nat) : WorkKept s (s.noteBreak link) := by
  unfold State.noteBreak
  refine ite_both (WorkKept s) _ _ _ (.refl s) ?_
  extract_lets first x cut noted
  have hcut : WorkKept s cut := .of_same rfl rfl rfl rfl rfl
  have hnoted : WorkKept s noted := (hcut.trans (.setRingState cut 3)).trans (.wrPlain (a := Reg.LN_STAT) _ _ (by decide))
  exact ite_both (WorkKept s) _ _ _ (ite_both (WorkKept s) _ _ _ (hnoted.trans (.raiseF ..)) hnoted) (hcut.trans (.setRingState ..))

theorem WorkKept.joinReroute (s : State) (k x y : Nat) : WorkKept s (s.joinReroute k x y) := by
  unfold State.joinReroute
  split
  · exact .refl s
  · refine WorkKept.trans ?_ (.wrPlain (a := Reg.LN_STAT) _ _ (by decide))
    exact .of_same rfl rfl rfl rfl rfl

theorem WorkKept.noticePassed (s : State) (k : Nat) : WorkKept s (s.noticePassed k) :=
  ite_both (WorkKept s) _ _ _ (.refl s) (.of_same rfl rfl rfl rfl rfl)

theorem WorkKept.portGoesDown (s : State) (h : p < 2) : WorkKept s (s.portGoesDown p) := by
  unfold State.portGoesDown
  refine ite_both (WorkKept s) _ _ _ (.refl s) ?_
  extract_lets was last dropped link noted me other joined
  have hdropped : WorkKept s dropped := .dropPort s h
  rw [if_neg (Nat.not_le.mpr h)]
  refine ite_both (WorkKept s) _ _ _ hdropped ?_
  have hnoted : WorkKept s noted := hdropped.trans (.noteBreak ..)
  refine ite_both (WorkKept s) _ _ _ hnoted ?_
  have hjoined : WorkKept s joined :=
    hnoted.trans (ite_both (WorkKept noted) _ _ _ ((WorkKept.joinReroute ..).trans (.noticePassed ..)) (.refl _))
  exact ite_both (WorkKept s) _ _ _ (hjoined.trans (.cells (PortsOnly.sendCell ..).cells)) hjoined

theorem WorkKept.retrainPort (s : State) (h : p < 2) : WorkKept s (s.retrainPort p) := by
  have htrain : ∀ u : State, WorkKept u (u.trainPort p) := fun u => ((WorkKept.dropPort u h).trans (.modPort ..)).trans (.setPstate _ h 1)
  exact (WorkKept.portGoesDown s h).trans (ite_both (WorkKept _) _ _ _ (.refl _) (htrain _))

end ports

end gone

end Sys2Proof.Machine
end

section
/-! PROOF. DESTROY, RESUME, FLUSH and LEDGER (O29). -/

namespace Sys2Proof.Machine

/-! ## What the operations leave of their furrow -/

section operations
variable {s : State} {f : Nat} {g : Furrow}

/-- A furrow that is gone stays so. -/
theorem WorkKept.gone {t : State} (h : WorkKept s t) (hno : s.furrow? f = none) : t.furrow? f = none := by
  have hrel := h.furrows f
  rw [hno] at hrel
  generalize t.furrow? f = o at hrel ⊢
  cases hrel
  rfl

theorem WorkKept.furrow {t : State} (h : WorkKept s t) (hg : s.furrow? f = some g) : ∃ k, t.furrow? f = some k ∧ FurrowKept g k := by
  have hrel := h.furrows f
  rw [hg] at hrel
  generalize t.furrow? f = o at hrel
  cases hrel with
  | some hk => exact ⟨_, rfl, hk⟩

/-- The furrow leaves, and its ledger entry closes (R273, R280). -/
def State.erased (s : State) (f : Nat) (fu : Furrow) : State :=
  let t := { s with hi := { s.hi with furrows := kerase s.hi.furrows f, noFurrow := kset s.hi.noFurrow f fu.prod } }
  if f < 256 then t.ledger f (t.ledgerGen f) 0 else t

theorem State.erased_furrow? (s : State) (f : Nat) (fu : Furrow) : (s.erased f fu).furrow? f = none := by
  unfold State.erased
  exact ite_both (fun u : State => u.furrow? f = none) _ _ _ (kget?_kerase_same ..) (kget?_kerase_same ..)

theorem State.erased_ledger (s : State) (fu : Furrow) (h : f < 256) :
    (s.erased f fu).fget (Reg.GLB_LEDGER_HI f) Fld.GLB_LEDGER_HI_state = 0 := by
  unfold State.erased
  extract_lets t
  rw [if_pos h, State.fget, State.ledger, State.rd_wr_same]
  simp only [BitField.get, word, BitVec.toNat_ofNat]
  omega

theorem ledgerHi_fixed (h : f < 256) : fixedReg (Reg.GLB_LEDGER_HI f) = true := by
  simp only [fixedReg, Reg.GLB_LEDGER_HI, Reg.HI_CTL, Bool.or_eq_true, Bool.and_eq_true, decide_eq_true_eq, beq_iff_eq]
  omega

/-- DESTROY up to the end of its furrow: records, items and undelivered data go (R273). -/
def State.emptied (s : State) (f : Nat) (fu : Furrow) : State :=
  let s := if fu.kind == .event && !fu.failed then
      (match Furrow.buffer? fu with
        | some it => if it.recs = 0 then s else s.evEnd f it
        | none => s)
    else s
  let s := s.dropSetpoints f
  let s := (s.modFurrow f (fun fu => Furrow.fetchAll fu .abortedDestroy)).endAll f .abortedDestroy
  let s := if fu.kind == .event then s.evBack else s
  (((s.freeUnit f).unbindPlot f).2.discard f).2.2

/-- The count of R37 falls with a SAMPLE furrow. -/
def State.budgeted (s : State) (fu : Furrow) : State :=
  if fu.kind == .sample && s.inRun then s.wr Reg.FR_BUDGET (word s.pended.windowCost) else s

theorem State.destroyFurrow_eq (s : State) (f : Nat) (fu : Furrow) : ∃ last : Furrow,
    (s.destroyFurrow f fu).2 = (((((s.emptied f fu).erased f fu).budgeted fu).failFences last).noteStalled).balerPump := ⟨_, rfl⟩

/-- What DESTROY leaves has the furrow gone and its entry closed, whatever of the engine's work follows. -/
theorem State.destroyFurrow_erased (s : State) (f : Nat) (fu : Furrow) : WorkKept ((s.emptied f fu).erased f fu) (s.destroyFurrow f fu).2 := by
  obtain ⟨last, hlast⟩ := s.destroyFurrow_eq f fu
  rw [hlast]
  have hbudget : WorkKept ((s.emptied f fu).erased f fu) (((s.emptied f fu).erased f fu).budgeted fu) :=
    ite_both (WorkKept _) _ _ _ (.wrPlain _ _ (by decide)) (.refl _)
  exact ((hbudget.trans (.failFences ..)).trans (.noteStalled _)).trans (.balerPump _)

/-- A furrow that RESUME reaches is not stalled after it, unless it has failed (R295). -/
theorem State.resumeFurrow_runs (hg : s.furrow? f = some g) (hnf : g.failed = false) :
    ∃ h, (s.resumeFurrow f).furrow? f = some h ∧ h.stalled = false := by
  rw [State.resumeFurrow]
  by_cases hst : g.stalled = true
  · rw [if_pos (by rw [hg, Option.any_some, hst, hnf]; rfl)]
    obtain ⟨k, hk, -⟩ := (WorkKept.dropStream s f).furrow hg
    have hfree : ((s.dropStream f).modFurrow f (fun fu => { fu with stalled := false })).furrow? f = some { k with stalled := false } := by
      rw [State.furrow?, State.modFurrow, kget?_kmod_same, show kget? (s.dropStream f).hi.furrows f = some k from hk]
      rfl
    obtain ⟨h, hh, hkept⟩ := ((WorkKept.noteStalled _).trans (.startHeld _ f false)).furrow hfree
    exact ⟨h, hh, hkept.stalled⟩
  · rw [if_neg (by rw [hg, Option.any_some, Bool.and_eq_true]; exact fun h => hst h.1)]
    exact ⟨g, hg, Bool.eq_false_iff.mpr hst⟩

theorem Furrow.fetchAll_endedBy (fu : Furrow) (st : CStatus) :
    ((Furrow.fetchAll fu st).items.map (Item.endedBy st)).all Item.ended = true := by
  rw [List.all_eq_true]
  intro it hit
  obtain ⟨x, hx, rfl⟩ := List.mem_map.mp hit
  obtain ⟨y, -, rfl⟩ := List.mem_map.mp hx
  cases hy : y.st <;> simp [Item.endedBy, Item.isBack, Item.ended, hy]

/-- A stalled furrow that FLUSH reaches runs, and every item posted to it has ended (R295). -/
theorem State.flushFurrow_ends (hg : s.furrow? f = some g) (hst : g.stalled = true) (hnf : g.failed = false) :
    ∃ h, (s.flushFurrow f g).2.furrow? f = some h ∧ h.stalled = false ∧ h.nextFetch = g.prod ∧ h.items.all Item.ended = true := by
  rw [State.flushFurrow, if_pos (by rw [hst, hnf]; rfl)]
  simp only []
  obtain ⟨k, hk, hkept⟩ := (WorkKept.dropSetpoints s f).furrow hg
  have hall : ((((s.dropSetpoints f).modFurrow f (fun fu => { Furrow.fetchAll fu .skippedStall with stalled := false })).modFurrow f
      (fun fu => { fu with items := fu.items.map (Item.endedBy .skippedStall) })).furrow? f)
      = some { Furrow.fetchAll k .skippedStall with
                stalled := false, items := (Furrow.fetchAll k .skippedStall).items.map (Item.endedBy .skippedStall) } := by
    rw [State.furrow?, State.modFurrow, kget?_kmod_same, State.modFurrow, kget?_kmod_same,
      show kget? (s.dropSetpoints f).hi.furrows f = some k from hk]
    rfl
  rw [State.endAll_eq]
  obtain ⟨h, hh, hfin⟩ := ((((WorkKept.postFinished _ f).trans (.freeUnit _ f)).trans (.noteStalled _)).trans (.balerPump _)).trans
    (.sidePump _) |>.furrow hall
  exact ⟨h, hh, hfin.stalled, hfin.nextFetch.trans hkept.prod, hfin.items.ended (Furrow.fetchAll_endedBy k .skippedStall)⟩

end operations

section command
variable {s : State} {fu g : Furrow} {d : Desc} {f : Nat}

theorem mgmt_listed {op : Byte} (hop : opAllowed .mgmt op = true) (hres : reservedZero op d = true) :
    ¬ (!opAllowed .mgmt op || !reservedZero op d) = true := by
  rw [hop, hres]
  decide

theorem State.onHandle_gone {t : State} {it : Item} (act : Nat → Furrow → State → State) (h : t.target? it.desc.w1 = none) :
    t.onHandle it act = (t.stale it.desc.w1).endItem 0 it.seq .failedParam 0 0 := by
  rw [State.onHandle, h]

theorem State.onHandle_found {t : State} {it : Item} (act : Nat → Furrow → State → State) (h : t.target? it.desc.w1 = some f)
    (hg : t.furrow? f = some g) : t.onHandle it act = act f g t := by
  simp only [State.onHandle, h, hg]

/-! Each operation as it starts, its reserved bits being 0. -/

theorem destroy_start (hf : Fetches s 0 fu) (hres : reservedZero 0x81 d = true) :
    destroy d s = if d.w1 = 0x100#32 then (s.fetched 0 fu 0x81 d none).endItem 0 fu.nextFetch .failedParam 0 0
      else (s.fetched 0 fu 0x81 d none).onHandle (fetchedItem fu 0x81 d none)
        (fun f g t => (t.destroyFurrow f g).2.endItem 0 fu.nextFetch .done 0 (word (t.destroyFurrow f g).1)) :=
  (hf.mgmt_eq 0x81 d none false).trans (if_neg (mgmt_listed rfl hres))

theorem resume_start (hf : Fetches s 0 fu) (hres : reservedZero 0x82 d = true) :
    resume d s = (s.fetched 0 fu 0x82 d none).onHandle (fetchedItem fu 0x82 d none)
      (fun f _ t => (t.resumeFurrow f).endItem 0 fu.nextFetch .done 0 0) :=
  (hf.mgmt_eq 0x82 d none false).trans (if_neg (mgmt_listed rfl hres))

theorem flush_start (hf : Fetches s 0 fu) (hres : reservedZero 0x83 d = true) :
    flush d s = (s.fetched 0 fu 0x83 d none).onHandle (fetchedItem fu 0x83 d none)
      (fun f g t => (t.flushFurrow f g).2.endItem 0 fu.nextFetch .done 0 (word (t.flushFurrow f g).1)) :=
  (hf.mgmt_eq 0x83 d none false).trans (if_neg (mgmt_listed rfl hres))

theorem ledger_start (hf : Fetches s 0 fu) (hres : reservedZero 0x84 d = true) :
    ledger d s = if Desc.len d = 0 then (s.fetched 0 fu 0x84 d none).endItem 0 fu.nextFetch .doneEmpty 0 0
      else if !bufAligned d then (s.fetched 0 fu 0x84 d none).endItem 0 fu.nextFetch .failedParam 0 0
      else if Desc.len d < 2048 then (s.fetched 0 fu 0x84 d none).endItem 0 fu.nextFetch .failedSpace 0 0
      else (s.fetched 0 fu 0x84 d none).startLedger (fetchedItem fu 0x84 d none) :=
  (hf.mgmt_eq 0x84 d none false).trans (if_neg (mgmt_listed rfl hres))

/-! A handle that holds a furrow, and the operation's outcome. -/

theorem destroy_found (hf : Fetches s 0 fu) (hres : reservedZero 0x81 d = true) (hw : d.w1 ≠ 0x100#32)
    (ht : (s.fetched 0 fu 0x81 d none).target? d.w1 = some f) (hg : (s.fetched 0 fu 0x81 d none).furrow? f = some g) :
    destroy d s = ((s.fetched 0 fu 0x81 d none).destroyFurrow f g).2.endItem 0 fu.nextFetch .done 0
      (word ((s.fetched 0 fu 0x81 d none).destroyFurrow f g).1) :=
  ((destroy_start hf hres).trans (if_neg hw)).trans (State.onHandle_found _ ht hg)

theorem resume_found (hf : Fetches s 0 fu) (hres : reservedZero 0x82 d = true)
    (ht : (s.fetched 0 fu 0x82 d none).target? d.w1 = some f) (hg : (s.fetched 0 fu 0x82 d none).furrow? f = some g) :
    resume d s = ((s.fetched 0 fu 0x82 d none).resumeFurrow f).endItem 0 fu.nextFetch .done 0 0 :=
  (resume_start hf hres).trans (State.onHandle_found _ ht hg)

theorem flush_found (hf : Fetches s 0 fu) (hres : reservedZero 0x83 d = true)
    (ht : (s.fetched 0 fu 0x83 d none).target? d.w1 = some f) (hg : (s.fetched 0 fu 0x83 d none).furrow? f = some g) :
    flush d s = ((s.fetched 0 fu 0x83 d none).flushFurrow f g).2.endItem 0 fu.nextFetch .done 0
      (word ((s.fetched 0 fu 0x83 d none).flushFurrow f g).1) :=
  (flush_start hf hres).trans (State.onHandle_found _ ht hg)

theorem destroyed_gone (s : State) (f : Nat) (g : Furrow) (q aux : Word) :
    ((s.destroyFurrow f g).2.endItem 0 q .done 0 aux).furrow? f = none
    ∧ (f < 256 → ((s.destroyFurrow f g).2.endItem 0 q .done 0 aux).fget (Reg.GLB_LEDGER_HI f) Fld.GLB_LEDGER_HI_state = 0) := by
  have hkept := (State.destroyFurrow_erased s f g).trans (.endItem _ 0 q .done 0 aux)
  refine ⟨hkept.gone (State.erased_furrow? ..), fun h => ?_⟩
  exact (State.fget_congr (hkept.rd _ (ledgerHi_fixed h)) _).trans (State.erased_ledger _ g h)

theorem resumed_runs (hg : s.furrow? f = some g) (hnf : g.failed = false) (q : Word) :
    (((s.resumeFurrow f).endItem 0 q .done 0 0).furrow? f).any (fun h => !h.stalled) = true := by
  obtain ⟨h, hh, hst⟩ := State.resumeFurrow_runs hg hnf
  obtain ⟨k, hk, hkept⟩ := (WorkKept.endItem (s.resumeFurrow f) 0 q .done 0 0).furrow hh
  rw [hk, Option.any_some, hkept.stalled, hst]
  rfl

theorem flushed_ended (hg : s.furrow? f = some g) (hst : g.stalled = true) (hnf : g.failed = false) (q aux : Word) :
    (((s.flushFurrow f g).2.endItem 0 q .done 0 aux).furrow? f).any
      (fun h => !h.stalled && h.nextFetch == g.prod && h.items.all Item.ended) = true := by
  obtain ⟨h, hh, hrun, hnext, hall⟩ := State.flushFurrow_ends hg hst hnf
  obtain ⟨k, hk, hkept⟩ := (WorkKept.endItem (s.flushFurrow f g).2 0 q .done 0 aux).furrow hh
  rw [hk, Option.any_some, hkept.stalled, hrun, hkept.nextFetch, hnext, hkept.items.ended hall, beq_self_eq_true]
  rfl

/-! LEDGER's buffer. -/

theorem ledger_short (hf : Fetches s 0 fu) (hres : reservedZero 0x84 d = true) (hal : bufAligned d = true) (hz : Desc.len d ≠ 0)
    (hlen : Desc.len d < 2048) : ledger d s = (s.fetched 0 fu 0x84 d none).endItem 0 fu.nextFetch .failedSpace 0 0 := by
  rw [ledger_start hf hres, if_neg hz, hal, if_neg (by decide), if_pos hlen]

theorem ledger_long (hf : Fetches s 0 fu) (hres : reservedZero 0x84 d = true) (hal : bufAligned d = true) (hlen : 2048 ≤ Desc.len d) :
    ledger d s = (s.fetched 0 fu 0x84 d none).startLedger (fetchedItem fu 0x84 d none) := by
  rw [ledger_start hf hres, if_neg (by omega), hal, if_neg (by decide), if_neg (by omega)]

theorem startLedger_refused {t : State} {it : Item} {x : Word64} (h : t.hi.refuseAt = some x)
    (hin : (x - Desc.addr it.desc).toNat < 2048) :
    t.startLedger it = (({ t with hi := { t.hi with refuseAt := none } }).dmaErr x).endItem 0 it.seq .failedDma 0 0 := by
  simp only [State.startLedger, h, if_pos hin]

theorem startLedger_written {t : State} {it : Item}
    (h : t.hi.refuseAt.all (fun x => decide (2048 ≤ (x - Desc.addr it.desc).toNat)) = true) :
    t.startLedger it = (t.toHost (.dmaWrite (Desc.addr it.desc) t.ledgerBytes)).endItem 0 it.seq .done 2048 0 := by
  cases hx : t.hi.refuseAt with
  | none => simp only [State.startLedger, hx]
  | some x =>
    rw [hx, Option.all_some, decide_eq_true_eq] at h
    simp only [State.startLedger, hx]
    exact if_neg (Nat.not_lt.mpr h)

theorem State.fetched_refuseAt (op : Byte) : (s.fetched 0 fu op d none).hi.refuseAt = s.hi.refuseAt :=
  (congrArg HiSt.refuseAt (State.fetched_link (f := 0) (fu := fu) op d none).hi :)

end command

/-- Settles O29: each operation starts as the item of furrow 0 that it is; what it leaves of its furrow stands in the state before
the engine's further work, which keeps it (`WorkKept`). -/
theorem managementItems : Obligations.ManagementItems := by
  intro s fu d f g x hf hk q fs
  refine ⟨fun hres hw ht hg => Becomes.of rfl (destroy_found hf hres hw ht hg),
    fun hres hw ht hg => Ends.of (v := Machine.destroy d s) rfl ?_,
    fun hres hw => Becomes.of rfl ((destroy_start hf hres).trans (if_pos hw)),
    fun hres hw ht => Becomes.of rfl (((destroy_start hf hres).trans (if_neg hw)).trans (State.onHandle_gone _ ht)),
    fun hres ht hg => Becomes.of rfl (resume_found hf hres ht hg),
    fun hres ht hg hnf => Ends.of (v := Machine.resume d s) rfl ?_,
    fun hres ht => Becomes.of rfl ((resume_start hf hres).trans (State.onHandle_gone _ ht)),
    fun hres ht hg => Becomes.of rfl (flush_found hf hres ht hg),
    fun hres ht hg hst hnf => Ends.of (v := Machine.flush d s) rfl ?_,
    fun hres ht => Becomes.of rfl ((flush_start hf hres).trans (State.onHandle_gone _ ht)),
    fun hres hz => Becomes.of rfl ((ledger_start hf hres).trans (if_pos hz)),
    fun hres hz hal => Becomes.of rfl (((ledger_start hf hres).trans (if_neg hz)).trans (if_pos (by rw [hal]; rfl))),
    fun hres hal hlen hx hin => Becomes.of rfl ((ledger_long hf hres hal hlen).trans
      (startLedger_refused ((State.fetched_refuseAt 0x84).trans hx) hin)),
    fun hres hal hlen hx => Becomes.of rfl ((ledger_long hf hres hal hlen).trans
      (startLedger_written (by rw [State.fetched_refuseAt]; exact hx))),
    fun hres hal hz hlen => Becomes.of rfl (ledger_short hf hres hal hz hlen)⟩
  · rw [destroy_found hf hres hw ht hg]
    exact destroyed_gone ..
  · rw [resume_found hf hres ht hg]
    exact resumed_runs hg hnf _
  · rw [flush_found hf hres ht hg]
    exact flushed_ended hg hst hnf _ _

end Sys2Proof.Machine
end

section
/-! PROOF. Start and stop of the host engine, and the state of the PCI Express function (O33). -/

namespace Sys2Proof.Machine

/-! ## What the work of the whole engine keeps of the function's state -/

/-- What the engine's work keeps of the function: `WorkKept` without the furrows and registers that furrow 0's operations change. -/
structure FunctionKept (s t : State) : Prop where
  headSel : t.pw.headSel = s.pw.headSel
  d0 : t.pw.d0 = s.pw.d0
  maxPayload : t.hi.maxPayload = s.hi.maxPayload
  flag : t.flag Reg.HI_STAT Fld.HI_STAT_d0 = s.flag Reg.HI_STAT Fld.HI_STAT_d0
  tunnel : s.pw.headSel = true → s.pw.d0 = true → t.ln.tunnel = s.ln.tunnel

section function
variable {s t u : State}

theorem WorkKept.fn (h : WorkKept s t) : FunctionKept s t :=
  ⟨congrArg PwSt.headSel h.pw, congrArg PwSt.d0 h.pw, h.maxPayload, h.d0, h.tunnel⟩

theorem FunctionKept.refl (s : State) : FunctionKept s s := (WorkKept.refl s).fn

theorem FunctionKept.trans (h : FunctionKept s t) (k : FunctionKept t u) : FunctionKept s u :=
  ⟨k.headSel.trans h.headSel, k.d0.trans h.d0, k.maxPayload.trans h.maxPayload, k.flag.trans h.flag,
    fun hs hd => (k.tunnel (h.headSel.trans hs) (h.d0.trans hd)).trans (h.tunnel hs hd)⟩

theorem FunctionKept.foldl {α : Type} {f : State → α → State} (l : List α) (hf : ∀ s, ∀ x ∈ l, FunctionKept s (f s x)) (s : State) :
    FunctionKept s (l.foldl f s) := by
  induction l generalizing s with
  | nil => exact .refl s
  | cons x l ih => exact (hf s x (by simp)).trans (ih (fun s y hy => hf s y (by simp [hy])) _)

theorem FunctionKept.wr (s : State) {a : Nat} (w : Word) (h : a ≠ Reg.HI_STAT) : FunctionKept s (s.wr a w) :=
  ⟨rfl, rfl, rfl, State.flag_congr (State.rd_wr_ne s w h.symm) _, fun _ _ => rfl⟩

/-- Furrows, their counters and the reset of furrow 0 are no part of the function. -/
theorem FunctionKept.hiSet (s : State) (x : HiSt) (h : x.maxPayload = s.hi.maxPayload) : FunctionKept s { s with hi := x } :=
  ⟨rfl, rfl, h, rfl, fun _ _ => rfl⟩

theorem FunctionKept.subresetSet (s : State) (x : Option SubReset) : FunctionKept s { s with hi := { s.hi with subreset := x } } :=
  .hiSet s _ rfl

theorem FunctionKept.setFurrow (s : State) (f : Nat) (fu : Furrow) : FunctionKept s (s.setFurrow f fu) := .hiSet s _ rfl

theorem FunctionKept.ledger (s : State) {f : Nat} (h : f < 256) (gen st : Nat) : FunctionKept s (s.ledger f gen st) :=
  .wr s _ (by simp only [Reg.GLB_LEDGER_HI, Reg.HI_STAT]; omega)

theorem FunctionKept.modFurrow (s : State) (f : Nat) (m : Furrow → Furrow) : FunctionKept s (s.modFurrow f m) := .hiSet s _ rfl

/-! ## Furrow 0's operations -/

theorem FunctionKept.made (s : State) {i : Nat} (nf : Furrow) (h : i < 256) : FunctionKept s (s.made i nf) := by
  unfold State.made
  extract_lets t u
  have ht : FunctionKept s t := ite_both (FunctionKept s) _ _ _ (.wr s _ (by decide)) (.refl s)
  have hu : FunctionKept s u := ((ht.trans (.setFurrow ..)).trans (.ledger _ h ..)).trans
    (.wr _ _ (by simp only [Reg.GLB_LEDGER_LO, Reg.HI_STAT]; omega))
  exact hu.trans (.hiSet u _ rfl)

theorem FunctionKept.makeAt (s : State) {i : Nat} (nf : Furrow) (q : Word) (h : i < 256) : FunctionKept s (s.makeAt i nf q) :=
  ite_both (FunctionKept s) _ _ _ (WorkKept.endItem ..).fn ((FunctionKept.made s nf h).trans (WorkKept.endItem ..).fn)

theorem FunctionKept.startCreate (s : State) (it : Item) : FunctionKept s (s.startCreate it) := by
  cases hb : it.block with
  | none =>
    rw [State.startCreate, hb]
    exact (((WorkKept.readNow s _ _ _).trans (.dmaErr _ _)).trans (.endItem ..)).fn
  | some b =>
    have hread : FunctionKept s (s.readNow .block (Desc.addr it.desc) 64) := (WorkKept.readNow ..).fn
    cases hok : blockFurrow (s.readNow .block (Desc.addr it.desc) 64) (fitBytes 64 b) with
    | none =>
      rw [startCreate_bad hb hok]
      exact hread.trans (WorkKept.endItem ..).fn
    | some nf =>
      cases hi : (List.range 256).find? (fun i => i != 0 && ((s.readNow .block (Desc.addr it.desc) 64).furrow? i).isNone) with
      | none =>
        rw [startCreate_noIndex hb hok hi]
        exact hread.trans (WorkKept.endItem ..).fn
      | some i =>
        rw [startCreate_index hb hok hi]
        exact hread.trans (.makeAt _ nf _ (freeIndex_range hi).2)

theorem FunctionKept.erased (s : State) (f : Nat) (fu : Furrow) : FunctionKept s (s.erased f fu) := by
  have hgone : FunctionKept s { s with hi := { s.hi with furrows := kerase s.hi.furrows f, noFurrow := kset s.hi.noFurrow f fu.prod } } :=
    .hiSet s _ rfl
  unfold State.erased
  by_cases h : f < 256
  · rw [if_pos h]
    exact hgone.trans (.ledger _ h ..)
  · rw [if_neg h]
    exact hgone

theorem FunctionKept.emptied (s : State) (f : Nat) (fu : Furrow) : FunctionKept s (s.emptied f fu) := by
  unfold State.emptied
  extract_lets ended dropped aborted back
  have hended : WorkKept s ended := by
    refine ite_both (WorkKept s) _ _ _ ?_ (.refl s)
    cases Furrow.buffer? fu with
    | none => exact .refl s
    | some it => exact ite_both (WorkKept s) _ _ _ (.refl s) (.evEnd s f it)
  have haborted : FunctionKept s aborted :=
    ((hended.trans (.dropSetpoints ..)).fn.trans (.modFurrow dropped f _)).trans (WorkKept.endAll ..).fn
  have hback : WorkKept aborted back := ite_both (WorkKept aborted) _ _ _ (.evBack _) (.refl _)
  exact haborted.trans (((hback.trans (.freeUnit ..)).trans (.unbindPlot ..)).trans (.discard ..)).fn

theorem FunctionKept.destroyFurrow (s : State) (f : Nat) (fu : Furrow) : FunctionKept s (s.destroyFurrow f fu).2 :=
  ((FunctionKept.emptied s f fu).trans (.erased _ f fu)).trans (State.destroyFurrow_erased s f fu).fn

theorem FunctionKept.resumeFurrow (s : State) (f : Nat) : FunctionKept s (s.resumeFurrow f) :=
  ite_both (FunctionKept s) _ _ _ (((WorkKept.dropStream s f).fn.trans (.modFurrow ..)).trans
    ((WorkKept.noteStalled _).trans (.startHeld ..)).fn) (.refl s)

theorem FunctionKept.flushFurrow (s : State) (f : Nat) (fu : Furrow) : FunctionKept s (s.flushFurrow f fu).2 := by
  refine ite_both (fun p : Nat × State => FunctionKept s p.2) _ _ _ ?_ (.refl s)
  exact ((WorkKept.dropSetpoints s f).fn.trans (.modFurrow ..)).trans
    (((((WorkKept.endAll ..).trans (.freeUnit _ f)).trans (.noteStalled _)).trans (.balerPump _)).trans (.sidePump _)).fn

theorem FunctionKept.onHandle (s : State) (it : Item) {act : Nat → Furrow → State → State} (h : ∀ f g, FunctionKept s (act f g s)) :
    FunctionKept s (s.onHandle it act) := by
  cases ht : s.target? it.desc.w1 with
  | none =>
    rw [State.onHandle_gone _ ht]
    exact ((WorkKept.stale ..).trans (.endItem ..)).fn
  | some f =>
    cases hg : s.furrow? f with
    | none =>
      rw [State.onHandle, ht]
      simp only [hg]
      exact .refl s
    | some g =>
      rw [State.onHandle_found _ ht hg]
      exact h f g

theorem FunctionKept.startLedger (s : State) (it : Item) : FunctionKept s (s.startLedger it) := by
  have hwrite : FunctionKept s ((s.toHost (.dmaWrite (Desc.addr it.desc) s.ledgerBytes)).endItem 0 it.seq .done 2048 0) :=
    ((WorkKept.toHost ..).trans (.endItem ..)).fn
  unfold State.startLedger
  cases s.hi.refuseAt with
  | none => exact hwrite
  | some x =>
    refine ite_both (FunctionKept s) _ _ _ ?_ hwrite
    exact (FunctionKept.hiSet s { s.hi with refuseAt := none } rfl).trans ((WorkKept.dmaErr ..).trans (.endItem ..)).fn

/-! ## The subsystem resets (R427) -/

theorem WorkKept.glDrop (s : State) (target cause : Nat) (skipped : Bool) : WorkKept s (s.glDrop target cause skipped) := by
  unfold State.glDrop
  extract_lets counted noted
  have hnoted : WorkKept s noted := (WorkKept.wrPlain s (a := Reg.GL_DROPCNT) _ (by decide)).trans (.wrPlain _ (a := Reg.GL_STAT) _ (by decide))
  refine ite_both (WorkKept s) _ _ _ (ite_both (WorkKept s) _ _ _ hnoted ?_) (hnoted.trans (.raiseF ..))
  refine hnoted.trans (WorkKept.trans ?_ (.raiseF ..))
  exact .of_same rfl rfl rfl rfl rfl

theorem FunctionKept.resetGleaner (s : State) : FunctionKept s s.resetGleaner := by
  unfold State.resetGleaner
  extract_lets dropped pw cleared gl stopped idle
  have hdropped : WorkKept s dropped := by
    cases hr : s.gl.running with
    | none => simp only [dropped, hr]; exact .refl s
    | some c => simp only [dropped, hr]; exact .glDrop ..
  have hcleared : cleared.headSel = dropped.pw.headSel ∧ cleared.d0 = dropped.pw.d0 :=
    ite_both (fun p : PwSt => p.headSel = dropped.pw.headSel ∧ p.d0 = dropped.pw.d0) _ _ _ ⟨rfl, rfl⟩ ⟨rfl, rfl⟩
  have hstopped : FunctionKept s stopped := hdropped.fn.trans ⟨hcleared.1, hcleared.2, rfl, rfl, fun _ _ => rfl⟩
  have hidle : WorkKept stopped idle := (WorkKept.wrPlain stopped (a := Reg.GL_STAT) _ (by decide)).trans (.wrPlain _ (a := Reg.GL_STAT) _ (by decide))
  exact hstopped.trans ((hidle.trans (.wrPlain _ (a := Reg.GL_REQ) _ (by decide))).trans (.wrPlain _ (a := Reg.GL_STAT) _ (by decide))).fn

theorem FunctionKept.resetPart (s : State) (code index : Nat) : FunctionKept s (s.resetPart code index).2 := by
  unfold State.resetPart
  split
  · exact ((WorkKept.abortKind ..).trans (.balerClear _)).fn
  · exact (((WorkKept.abortKind ..).trans (.freeSide _)).trans (.spSet ..)).fn
  · exact .resetGleaner s
  · refine .foldl _ (fun t u hu => ?_) s
    exact ite_both (FunctionKept t) _ _ _ ((WorkKept.stopUnit t (List.mem_range.mp hu)).trans (.modUnit ..)).fn (.refl t)
  · exact (WorkKept.retrainPort s (by decide)).fn
  · exact (WorkKept.retrainPort s (by decide)).fn
  · exact ⟨rfl, rfl, rfl, rfl, fun _ _ => rfl⟩
  · exact ⟨rfl, rfl, rfl, rfl, fun _ _ => rfl⟩
  · exact .refl s

theorem FunctionKept.startSubreset (s : State) (it : Item) : FunctionKept s (s.startSubreset it) := by
  refine ite_both (FunctionKept s) _ _ _ (WorkKept.endItem ..).fn ?_
  have hwork : FunctionKept s (s.activate 0 it.seq).dropStaging := (WorkKept.activate s 0 it.seq).fn.trans ⟨rfl, rfl, rfl, rfl, fun _ _ => rfl⟩
  refine FunctionKept.trans ?_ (.subresetSet _ _)
  refine FunctionKept.trans ?_ (.resetPart _ _ _)
  exact hwork.trans (.subresetSet _ _)

/-! ## Furrow 0 runs -/

theorem FunctionKept.startMgmt (s : State) (it : Item) : FunctionKept s (s.startMgmt it) := by
  have hend : ∀ st, FunctionKept s (s.endItem 0 it.seq st 0 0) := fun _ => (WorkKept.endItem ..).fn
  refine ite_both (FunctionKept s) _ _ _ (hend _) ?_
  split
  · exact hend _
  · exact .startCreate s it
  · exact ite_both (FunctionKept s) _ _ _ (hend _) (.onHandle s it fun f g => (FunctionKept.destroyFurrow s f g).trans (WorkKept.endItem ..).fn)
  · exact .onHandle s it fun f g => (FunctionKept.resumeFurrow s f).trans (WorkKept.endItem ..).fn
  · exact .onHandle s it fun f g => (FunctionKept.flushFurrow s f g).trans (WorkKept.endItem ..).fn
  · exact ite_both (FunctionKept s) _ _ _ (hend _) (ite_both (FunctionKept s) _ _ _ (hend _)
      (ite_both (FunctionKept s) _ _ _ (hend _) (.startLedger s it)))
  · exact .startSubreset s it
  · exact .refl s

theorem FunctionKept.mgmtOne (s : State) : FunctionKept s s.mgmtOne.2 := by
  unfold State.mgmtOne
  split
  · exact .refl s
  · split
    · exact ite_both (fun p : Bool × State => FunctionKept s p.2) _ _ _ (.startMgmt ..) (.refl s)
    · exact .refl s

theorem FunctionKept.mgmtN (n : Nat) (s : State) : FunctionKept s (State.mgmtN n s) := by
  induction n generalizing s with
  | zero => exact .refl s
  | succ n ih =>
    have hone := FunctionKept.mgmtOne s
    rw [State.mgmtN]
    generalize s.mgmtOne = p at hone
    obtain ⟨again, t⟩ := p
    cases again with
    | true => exact hone.trans (ih t)
    | false => exact hone

theorem FunctionKept.mgmtRun (s : State) : FunctionKept s s.mgmtRun := by
  unfold State.mgmtRun
  split
  · exact .refl s
  · exact .mgmtN ..

end function

/-! ## HI_ENABLE and HI_DISABLE -/

section engine
variable {s t : State} {f : Nat}

/-- Every item of a furrow has ended, or was given back by a stall. -/
def State.restsAt (s : State) (f : Nat) : Prop := ∀ g, s.furrow? f = some g → g.items.all Item.rests = true

theorem WorkKept.restsAt (h : WorkKept s t) (hs : s.restsAt f) : t.restsAt f := by
  intro k hk
  have hrel := h.furrows f
  rw [hk] at hrel
  generalize hg : s.furrow? f = o at hrel
  cases hrel with
  | some hkept => exact hkept.items.rests (hs _ hg)

theorem State.endAll_restsAt (s : State) (f : Nat) (st : CStatus) : (s.endAll f st).restsAt f := by
  rw [State.endAll_eq]
  refine (WorkKept.postFinished _ f).restsAt fun k hk => ?_
  obtain ⟨g, -, rfl⟩ := Option.map_eq_some_iff.mp ((kget?_kmod_same s.hi.furrows f _).symm.trans hk)
  simp only [List.all_map, List.all_eq_true]
  exact fun it _ => Item.endedBy_rests st it

theorem State.endAll_foldl_restsAt {l : List Nat} (h : f ∈ l) (s : State) (st : CStatus) :
    (l.foldl (fun s f => s.endAll f st) s).restsAt f := by
  induction l generalizing s with
  | nil => exact absurd h List.not_mem_nil
  | cons g l ih =>
    rcases List.mem_cons.mp h with rfl | hmem
    · exact (WorkKept.foldl l (fun u g _ => .endAll u g st) _).restsAt (State.endAll_restsAt s f st)
    · exact ih hmem _

/-- An entry of an ordered map is what a look-up of its key finds. -/
theorem kget?_of_mem {α : Type} {m : KMap α} {e : Nat × α} (hwf : kwf m = true) (h : e ∈ m) : kget? m e.1 = some e.2 := by
  induction m with
  | nil => exact absurd h List.not_mem_nil
  | cons x m ih =>
    obtain ⟨a, v⟩ := x
    obtain ⟨hlt, hm⟩ := (kwf_cons a v m).mp hwf
    rcases List.mem_cons.mp h with rfl | hmem
    · simp [kget?]
    · simp [kget?, (Nat.ne_of_lt (hlt e hmem)), ih hm hmem]

/-- HI_DISABLE outside Run, up to the units' loss of their work: the engine is off and every item of its furrows has ended. -/
def State.aborted (s : State) : State :=
  let t := s.setFlag Reg.HI_CTL Fld.HI_CTL_en false
  let fs := kkeys t.hi.furrows
  let t := fs.foldl State.dropSetpoints t
  fs.foldl (fun s f => s.endAll f .abortedRecovery) t

theorem State.aborted_kept (s : State) : WorkKept (s.setFlag Reg.HI_CTL Fld.HI_CTL_en false) s.aborted :=
  (WorkKept.foldl _ (fun u f _ => .dropSetpoints u f) _).trans (.foldl _ (fun u f _ => .endAll u f _) _)

/-- The stop is in progress (R268). -/
def State.stops (s : State) : State :=
  { s with hi := { s.hi with stopping := true, subreset := none }, sp := { s.sp with inhibit := false } }

/-- What HI_DISABLE leaves outside Run (R268). -/
def State.disabled (s : State) : State := s.aborted.evBack.clearUnits.stops

theorem hiDisable_off (hrun : s.inRun = false) (hen : s.flag Reg.HI_CTL Fld.HI_CTL_en = true) : hiDisable s = s.disabled := by
  unfold hiDisable
  rw [if_neg (by rw [hrun]; decide), if_neg (by rw [hen]; decide)]
  extract_lets off fs dropped aborted cleared
  have hcleared : cleared = s.aborted.evBack.clearUnits := rfl
  rw [State.disabled, ← hcleared]
  clear_value cleared
  rfl

theorem State.stops_units (s : State) : s.stops.hi.stopping = true ∧ s.stops.bl = s.bl ∧ s.stops.sp.xfer = s.sp.xfer := ⟨rfl, rfl, rfl⟩

theorem WorkKept.stops (s : State) : WorkKept s s.stops := .of_same rfl rfl rfl rfl rfl

theorem State.disabled_kept (s : State) : WorkKept s.aborted s.disabled :=
  (((WorkKept.evBack s.aborted).trans (.balerClear _)).trans (.freeSide _)).trans (.stops _)

theorem State.disabled_en (s : State) : s.disabled.flag Reg.HI_CTL Fld.HI_CTL_en = false := by
  have hkept := (State.aborted_kept s).trans (State.disabled_kept s)
  exact (State.flag_congr (hkept.rd Reg.HI_CTL (by decide)) _).trans (State.flag_setFlag_same s _ _ (by decide) (by decide) false)

theorem State.freeSide_bl (s : State) : s.freeSide.bl = s.bl := (LinkOnly.dropReads s .transfer).bl

/-- The units are free: the Baler's pipes, and the side port. -/
theorem State.clearUnits_free (s : State) : s.clearUnits.bl.comp = none ∧ s.clearUnits.bl.exp = none ∧ s.clearUnits.sp.xfer = none := by
  rw [State.clearUnits, State.freeSide_bl]
  exact ⟨rfl, rfl, rfl⟩

theorem State.disabled_keys (hwf : kwf s.hi.furrows = true) :
    kwf s.disabled.hi.furrows = true ∧ kkeys s.disabled.hi.furrows = kkeys s.hi.furrows :=
  ((State.aborted_kept s).trans (State.disabled_kept s)).keys hwf

theorem State.disabled_rests (hwf : kwf s.hi.furrows = true) :
    s.disabled.hi.furrows.all (fun e => e.2.items.all (fun it => Item.ended it || Item.isBack it)) = true := by
  obtain ⟨hkwf, hkeys⟩ := State.disabled_keys hwf
  rw [List.all_eq_true]
  intro e he
  have hlisted : e.1 ∈ kkeys s.hi.furrows := hkeys ▸ List.mem_map_of_mem he
  exact (State.disabled_kept s).restsAt (State.endAll_foldl_restsAt hlisted _ _) e.2 (kget?_of_mem hkwf he)

/-- The furrow that HI_ENABLE makes of the management registers. -/
def State.mgmtFurrow (s : State) : Furrow :=
  { kind := .mgmt, handle := 0x100, lsize := s.fget Reg.HI_MGCFG Fld.HI_MGCFG_lsize, vector := s.fget Reg.HI_MGCFG Fld.HI_MGCFG_vector
    irqAll := s.flag Reg.HI_MGCFG Fld.HI_MGCFG_irq_all, descRing := s.rd64 Reg.HI_MGD_LO, cplRing := s.rd64 Reg.HI_MGC_LO, frames := 0
    mask := 0, prod := 0, nextFetch := 0, nextPost := 0, items := [], stalled := false, failed := false, emptyEp := false, from? := none
    openFrames := [], blocks := [], gapRun := false, parts := [], twin := false }

/-- What HI_ENABLE leaves of a state without reads. -/
def State.enabled (s : State) : State :=
  let t := (s.setFlag Reg.HI_CTL Fld.HI_CTL_en true).setFlag Reg.HI_STAT Fld.HI_STAT_up true
  let t := { t with hi := { t.hi with db := DbArea.init, dbTwin := DbArea.init, ignored := [], noFurrow := [], refuseAt := none } }
  ((t.setFurrow 0 s.mgmtFurrow).ledger 0 1 1).wr (Reg.GLB_LEDGER_LO 0) 0xFFFFFFFF#32

theorem hiEnable_starts (hen : s.flag Reg.HI_CTL Fld.HI_CTL_en = false) (hstop : s.hi.stopping = false) :
    hiEnable s = s.ownReadsGone.enabled :=
  (if_neg (by rw [hen]; decide)).trans (if_neg (by rw [hstop]; decide))

theorem State.enabled_furrow? (s : State) (f : Nat) : s.enabled.furrow? f = if f = 0 then some s.mgmtFurrow else s.furrow? f := by
  by_cases h : f = 0
  · rw [if_pos h, h]
    exact State.furrow?_setFurrow_same _ 0 _
  · rw [if_neg h]
    exact State.furrow?_setFurrow_ne _ _ h

theorem State.enabled_rd (s : State) {a : Nat} (hlo : a ≠ Reg.GLB_LEDGER_LO 0) (hhi : a ≠ Reg.GLB_LEDGER_HI 0) :
    s.enabled.rd a = ((s.setFlag Reg.HI_CTL Fld.HI_CTL_en true).setFlag Reg.HI_STAT Fld.HI_STAT_up true).rd a :=
  (State.rd_wr_ne _ _ hlo).trans (State.rd_wr_ne _ _ hhi)

theorem State.enabled_regs (s : State) : s.enabled.flag Reg.HI_CTL Fld.HI_CTL_en = true
    ∧ s.enabled.flag Reg.HI_STAT Fld.HI_STAT_up = true ∧ s.enabled.rd (Reg.GLB_LEDGER_LO 0) = 0xFFFFFFFF#32 := by
  refine ⟨(State.flag_congr (s.enabled_rd (by decide) (by decide)) _).trans ?_,
    (State.flag_congr (s.enabled_rd (by decide) (by decide)) _).trans ?_, State.rd_wr_same ..⟩
  · exact (State.flag_setFlag_ne _ _ _ _ (by decide)).trans (State.flag_setFlag_same s _ _ (by decide) (by decide) true)
  · exact State.flag_setFlag_same _ _ _ (by decide) (by decide) true

theorem hiEnable_furrows (hen : s.flag Reg.HI_CTL Fld.HI_CTL_en = false) (hstop : s.hi.stopping = false) :
    (∃ fu, (hiEnable s).furrow? 0 = some fu ∧ fu.kind = .mgmt ∧ fu.handle = 0x100 ∧ fu.items = [] ∧ fu.nextFetch = 0
      ∧ fu.descRing = s.rd64 Reg.HI_MGD_LO ∧ fu.cplRing = s.rd64 Reg.HI_MGC_LO ∧ fu.lsize = s.fget Reg.HI_MGCFG Fld.HI_MGCFG_lsize)
    ∧ ∀ f, f ≠ 0 → (hiEnable s).furrow? f = s.furrow? f := by
  have hlink : LinkOnly s s.ownReadsGone := (LinkOnly.dropReads s _).trans (.dropReads _ _)
  rw [hiEnable_starts hen hstop]
  generalize s.ownReadsGone = t at hlink
  have hrd := State.rd_congr hlink.regs
  have hrd64 : ∀ a, t.rd64 a = s.rd64 a := fun a => by rw [State.rd64, hrd, hrd, State.rd64]
  refine ⟨⟨t.mgmtFurrow, t.enabled_furrow? 0, rfl, rfl, rfl, rfl, hrd64 _, hrd64 _, State.fget_congr (hrd _) _⟩, fun f hf => ?_⟩
  rw [State.enabled_furrow?, if_neg hf, State.furrow?, hlink.hi, State.furrow?]

end engine

/-! ## The function's state -/

section functionState
variable {s : State} {code : BitVec 2}

/-- The function's new state, before what waited goes on. -/
def State.functionSet (s : State) (fn : FunctionState) : State :=
  let t := s.setFlag Reg.HI_STAT Fld.HI_STAT_d0 fn.d0
  { t with pw := { t.pw with d0 := fn.d0 }, hi := { t.hi with maxPayload := 128 * 2 ^ min 2 fn.payload.toNat } }

/-- What waited goes out: tunnelled requests and reads, completions, messages, data, and furrow 0's item (R265, R327). -/
def State.functionBack (s : State) : State :=
  let t := s.ln.tunnel.foldl State.emit s
  let t := ({ t with ln := { t.ln with tunnel := [] } }).pumpReads
  (((kkeys t.hi.furrows).foldl State.postFinished t).flushMsix.deliverAll).mgmtRun

theorem pcieFunctionState_head (hs : s.pw.headSel = true) (ha : s.alive = true) (fn : FunctionState) :
    pcieFunctionState fn s = if fn.d0 && !s.pw.d0 then (s.functionSet fn).functionBack else s.functionSet fn := by
  rw [pcieFunctionState, if_neg (by rw [ha]; decide)]
  exact if_neg (by show ¬ (!s.pw.headSel) = true; rw [hs]; decide)

theorem State.functionSet_flag (s : State) (fn : FunctionState) : (s.functionSet fn).flag Reg.HI_STAT Fld.HI_STAT_d0 = fn.d0 :=
  State.flag_setFlag_same s _ _ (by decide) (by decide) fn.d0

theorem WorkKept.flushMsix (s : State) : WorkKept s s.flushMsix := by
  refine .foldl _ (fun u v _ => ?_) s
  exact ite_both (WorkKept u) _ _ _ ((WorkKept.pbaSet u _).trans (.toHost ..)) (.refl u)

/-- The function's return leaves its state, and the tunnel empty. -/
theorem State.functionBack_kept (hs : s.pw.headSel = true) (hd : s.pw.d0 = true) :
    s.functionBack.pw.d0 = true ∧ s.functionBack.flag Reg.HI_STAT Fld.HI_STAT_d0 = s.flag Reg.HI_STAT Fld.HI_STAT_d0
    ∧ s.functionBack.hi.maxPayload = s.hi.maxPayload ∧ s.functionBack.ln.tunnel = [] := by
  have hemit : WorkKept s (s.ln.tunnel.foldl State.emit s) := .foldl _ (fun u o _ => .emit u o) s
  unfold State.functionBack
  extract_lets sent ln pumped
  have hempty : FunctionKept { sent with ln := { sent.ln with tunnel := [] } } _ :=
    (((((WorkKept.pumpReads _).trans (.foldl (kkeys pumped.hi.furrows) (fun u f _ => .postFinished u f) _)).trans (.flushMsix _)).trans
      (.deliverAll _)).fn.trans (.mgmtRun _))
  exact ⟨hempty.d0.trans ((congrArg PwSt.d0 hemit.pw).trans hd), hempty.flag.trans hemit.d0, hempty.maxPayload.trans hemit.maxPayload,
    hempty.tunnel ((congrArg PwSt.headSel hemit.pw).trans hs) ((congrArg PwSt.d0 hemit.pw).trans hd)⟩

theorem pcieFunctionState_returns (hs : s.pw.headSel = true) (ha : s.alive = true) (hd : s.pw.d0 = false) :
    let u := pcieFunctionState ⟨true, code⟩ s
    u.pw.d0 = true ∧ u.flag Reg.HI_STAT Fld.HI_STAT_d0 = true ∧ u.hi.maxPayload = 128 * 2 ^ min 2 code.toNat ∧ u.ln.tunnel = [] := by
  intro u
  have hu : u = (s.functionSet ⟨true, code⟩).functionBack := (pcieFunctionState_head hs ha _).trans (if_pos (by rw [hd]; rfl))
  obtain ⟨hd0, hflag, hmax, htunnel⟩ := State.functionBack_kept (s := s.functionSet ⟨true, code⟩) hs rfl
  rw [hu]
  exact ⟨hd0, hflag.trans (State.functionSet_flag ..), hmax, htunnel⟩

theorem hiStopComplete_clear (h : s.hi.stopping = true) :
    (hiStopComplete s).hi.furrows = [] ∧ (hiStopComplete s).hi.stopping = false ∧ (hiStopComplete s).flag Reg.HI_STAT Fld.HI_STAT_up = false := by
  rw [hiStopComplete, if_neg (by rw [h]; decide)]
  exact ⟨rfl, rfl, State.flag_setFlag_same _ _ _ (by decide) (by decide) false⟩

end functionState

/-- Settles O33: HI_DISABLE ends every item before the units lose their work, which leaves ended items ended (`WorkKept`); what the
function's return sets going keeps the function's state (`FunctionKept`). -/
theorem hostEngineStartStop : Obligations.HostEngineStartStop := by
  intro s
  refine ⟨fun hen hstop => Ends.of (v := Machine.hiEnable s) rfl ?_, fun hen => Becomes.of rfl (if_pos hen),
    fun hrun => Becomes.of rfl (if_pos hrun), fun hrun hen hwf => Ends.of (v := Machine.hiDisable s) rfl ?_,
    fun hrun hen => Becomes.of rfl ((if_neg (by rw [hrun]; decide)).trans (if_pos (by rw [hen]; rfl))),
    fun hen hstop => Becomes.of rfl ((if_neg (by rw [hen]; decide)).trans (if_pos hstop)),
    fun code hs ha hd => Becomes.of rfl ?_,
    fun code hs ha hd => Ends.of (v := Machine.pcieFunctionState ⟨true, code⟩ s) rfl (pcieFunctionState_returns hs ha hd),
    fun fn ha => Becomes.of rfl (if_pos (by rw [ha]; rfl)),
    fun hstop => Ends.of (v := Machine.hiStopComplete s) rfl (hiStopComplete_clear hstop),
    fun hstop => Becomes.of rfl (if_pos (by rw [hstop]; rfl)),
    fun code hs ha => Ends.of (v := Machine.pcieFunctionState ⟨false, code⟩ s) rfl ?_,
    fun fn hs ha => Becomes.of rfl ?_⟩
  · obtain ⟨hmade, hothers⟩ := hiEnable_furrows hen hstop
    obtain ⟨hctl, hup, hlo⟩ := State.enabled_regs s.ownReadsGone
    rw [← hiEnable_starts hen hstop] at hctl hup hlo
    exact ⟨hctl, hup, hmade, hothers, hlo⟩
  · rw [hiDisable_off hrun hen]
    obtain ⟨hcomp, hexp, hxfer⟩ := State.clearUnits_free s.aborted.evBack
    obtain ⟨hstop, hbl, hsp⟩ := State.stops_units s.aborted.evBack.clearUnits
    rw [← hbl] at hcomp hexp
    exact ⟨State.disabled_en s, hstop, hcomp, hexp, hsp.trans hxfer, (State.disabled_keys hwf).2, State.disabled_rests hwf⟩
  · refine ((pcieFunctionState_head hs ha ⟨true, code⟩).trans (if_neg (by rw [hd]; exact Bool.false_ne_true))).trans ?_
    have hpw : { s.pw with d0 := true } = s.pw := by rw [← hd]
    exact congrArg (fun p : PwSt =>
      let u := s.setFlag Reg.HI_STAT Fld.HI_STAT_d0 true
      { u with pw := p, hi := { u.hi with maxPayload := 128 * 2 ^ min 2 code.toNat } }) hpw
  · rw [(pcieFunctionState_head hs ha ⟨false, code⟩).trans (if_neg Bool.false_ne_true)]
    exact ⟨rfl, State.functionSet_flag .., rfl, rfl⟩
  · exact (if_neg (by rw [ha]; decide)).trans (if_pos (by show (!s.pw.headSel) = true; rw [hs]; rfl))

end Sys2Proof.Machine
end

section
/-! PROOF. The slots of a frame (R18), and a lead result of no lead group. -/

namespace Sys2Proof.Machine

/-- A hub without inputs whose results of the lead loops hold one of a group 12224, whose FE_LDRES would lie at IN_CFG of input 0. -/
def strayLeadResult : State := { State.reset with regs := [], fe := { State.reset.fe with leadRes := [(12224, 1, false)] } }

/-- Refutes O17: the acquire step judges the lead results before it takes the enabled inputs, and the statement's states allow a
result of a group that no hub has, whose resistance goes into IN_CFG and enables an input. -/
theorem not_tick : ¬ Obligations.Tick := by
  intro h
  obtain ⟨-, -, hslots, -⟩ := h
  obtain ⟨hinputs, -⟩ := hslots strayLeadResult 0 [] (fun _ => true) { n := 0, value := 0, st := 0, rprim := 0 }
  revert hinputs
  decide +kernel

end Sys2Proof.Machine
end
